-- ==== Sys2Proof/Word.lean ====
section
/-!
DEFINITION. The word types of the LZW-4480's host interface and their plainest arithmetic (R9, R13).
-/
namespace Sys2Proof

/-- One 32-bit register, job word or descriptor word (R9, R45). -/
abbrev Word := BitVec 32

/-- One byte of DRAM, of a scratchpad or of a frame. -/
abbrev Byte := BitVec 8

end Sys2Proof
end

