-- ==== Sys2Proof/Syntax.lean ====
section
/-!
DEFINITION. The commands of the LZW-4480 as a block: one constructor of `Instr` per row of the spec's
opcode table. A command's operands carry what only the outside decides (a written word, a frame on a
wire, a picture's coded data as the standard reads it, the result of a self-test); everything else a
command needs it takes from the state. Job rows name the tag-table entry (R50) of the job they act on.
-/
namespace Sys2Proof

/-- What one scratchpad port asks of a bank (R441, R442). -/
inductive SpdKind where
  | read | write | set | clear
  deriving DecidableEq, Repr

/-- One request at a scratchpad bank arbiter: its port (R440), byte address, kind, data, byte enables. -/
structure SpdReq where
  port : Nat
  addr : Nat
  kind : SpdKind
  data : Word
  be   : BitVec 4
  deriving DecidableEq, Repr

/-- One request arriving at a DRAM channel over the fabric (R429, R431): port, kind, 64-byte engine burst, the bytes of it
it means, a write's data, and its urgency at the fabric's arbiter (R20). -/
structure DrcArrival where
  port   : Nat
  isRead : Bool
  burst  : Nat
  offset : Nat
  len    : Nat
  data   : List Byte
  urg    : Nat
  deriving DecidableEq, Repr

/-- A command a channel issues between reads and writes, as bank timing and refresh require (R431, R437): its code in the
layout of DRCc_CLIFF_CMDj, and the port and physical burst it is issued for. -/
structure BankCmd where
  code  : Nat
  port  : Nat
  burst : Nat
  deriving DecidableEq, Repr

/-- What bank timing says of one command slot of a channel (R431): the queued requests, by number, whose bank can take a
command, or the command that takes the slot before any of them. -/
structure SlotFacts where
  ready : List Nat
  bank  : Option BankCmd
  deriving DecidableEq, Repr

/-- A check error on a channel (R436): the syndrome of the failing word, and the port and kind of the request. -/
structure FreezeFacts where
  syndrome : Nat
  port     : Nat
  isRead   : Bool
  deriving DecidableEq, Repr

/-- What comes from outside into one burst of a DMA list: bytes read from the host, and words of a scratchpad destination
that another port writes in the same cycle and wins: word within the burst, winning port and its data (R441, R444). -/
structure DmaFacts where
  host : Option (List Byte)
  lost : List (Nat × Nat × Word)
  deriving DecidableEq, Repr

/-- What the codec standard says of a PICTURE descriptor (R134) beyond its fixed words: the syntax record lies outside
this model. -/
structure PicFacts where
  /-- an AV1 frame that is not shown -/
  hidden    : Bool
  /-- the picture's output order is due as its decoding starts (R99) -/
  due       : Bool
  /-- the stream's output process releases a waiting picture as this one ends (R81) -/
  release   : Bool
  /-- position in the stream's output order -/
  outOrder  : Nat
  /-- level or profile above what STREAM_OPEN declared, or a feature R72 rejects with LEVEL_EXCEEDED -/
  overLevel : Bool
  /-- a feature R72 rejects with STREAM_ERROR -/
  badStream : Bool
  /-- display cropping, as word 6 of R96 -/
  crop      : Word
  /-- widths of the tile columns and heights of the tile rows, in CTUs; one of each where the picture has no tiles -/
  tileCols  : List Nat
  tileRows  : List Nat
  deriving DecidableEq, Repr

/-- What the coded data of one SEGMENT holds as the slice decodes it (R135, R167). -/
structure SegFacts where
  /-- CTUs the segment's data spans -/
  count  : Nat
  /-- how many CTUs precede the first at which a condition of R167 holds, if one does -/
  failAt : Option Nat
  /-- CTUs of the segment, counted from its first, whose prediction reads a substitute (R171) -/
  subst  : List Nat
  deriving DecidableEq, Repr

/-- What the encoder's coding of one row produces, CTU by CTU (R194, R197): mode decisions are not defined (R178). -/
structure RowFacts where
  /-- bits each CTU takes as the engine chooses to code it -/
  bits : List Nat
  /-- bits each takes by the last resort -/
  last : List Nat
  /-- CTUs coded intra as the engine chooses to code them (R196) -/
  intra : List Bool
  deriving DecidableEq, Repr

/-- One word of the record an encoder sends its sequencer (R133, R136). What the codec's own syntax says is given as it
stands; LEVEL, HRD and the enabling of delta_q are the session's (R180, R196). -/
inductive HeaderElem where
  /-- a word the syntax alone determines -/
  | value (w : Word)
  /-- the level code -/
  | level
  /-- HRD or decoder-model parameters are present -/
  | hrd
  /-- a word of those parameters, present with them only -/
  | hrdValue (w : Word)
  /-- delta_q is enabled -/
  | deltaQ
  deriving DecidableEq, Repr

/-- One received network frame: whether its FCS is good, whether the receive FIFO has room for it, and its bytes from the
destination address up to the FCS. -/
structure NetFrame where
  fcsOk    : Bool
  fifoRoom : Bool
  bytes    : List Byte
  deriving DecidableEq, Repr

/-- A towpath frame as a receive side sees it: the lane it arrived on, and what its Ethernet framing and header say of it
(R309, R310): a VLAN tag, its EtherType, VERSION, and whether its FCS is good. -/
structure MacFacts where
  lane      : Nat
  vlan      : Bool
  etherType : Nat
  version   : Nat
  /-- the frame check sequence is good -/
  fcsOk     : Bool
  deriving DecidableEq, Repr

/-- A line of a preview output's frame. -/
structure OutLine where
  out  : Nat
  line : Nat
  deriving DecidableEq, Repr

/-- A write of IGR_FLOW_CMD: its data, and the port whose part of a moving entry its arbiter grants later (R362). -/
structure FlowWrite where
  data : Word
  late : Option Nat
  deriving DecidableEq, Repr

/-- One touch contact of a TOUCH frame (R326). -/
structure Contact where
  id       : Nat
  event    : Nat
  u        : Nat
  v        : Nat
  pressure : Nat
  deriving DecidableEq, Repr

/-- The payload of a DISCOVER_REPLY (R329). -/
structure ReplyFacts where
  pos    : Nat
  serial : Nat
  wM1    : Nat
  hM1    : Nat
  caps   : Nat
  leadNs : Nat
  fw     : Nat
  maker  : Nat
  calib  : Nat
  deriving DecidableEq, Repr

/-- The payload of a STATUS frame (R325). -/
structure StatusFacts where
  pos       : Nat
  frame     : Nat
  temp      : Nat
  homeB     : Bool
  missed    : Nat
  ctlSeq    : Nat
  ctlResult : Nat
  deriving DecidableEq, Repr

/-- What a locked SDI input reports of its raster (R202, R210). -/
structure SdiRaster where
  locked : Bool
  /-- the ST 352 identifier or the measured raster says interlaced, 3G level B-DS, quad-link or a raster of another kind -/
  odd    : Bool
  link   : Nat
  raster : Nat
  rate   : Nat
  /-- each frame comes as two segments, its even lines before its odd ones -/
  psf    : Bool
  deriving DecidableEq, Repr

/-- The commands: one constructor per row of the opcode table, those with operands first. -/
inductive Instr where
  -- registers, doorbells and the scratchpad window
  | registerWrite (addr : Nat) (data : Word)
  | badAccess (bar : Nat) (offset : Nat)
  | sqTail (k : Nat) (value : Word)
  | cqHead (k : Nat) (value : Word)
  | scratchpadPlainWrite (addr : Nat) (data : Word) (be : BitVec 4)
  | bitSetAliasWrite (addr : Nat) (data : Word) (be : BitVec 4)
  | bitClearAliasWrite (addr : Nat) (data : Word) (be : BitVec 4)
  | scratchpadBankGrant (reqs : List SpdReq)
  | spdCollClr (data : Word)
  | hqSqCfgWrite (n : Nat) (reg : Nat) (data : Word)
  | hqCqCfgWrite (k : Nat) (reg : Nat) (data : Word)
  | peakClr (data : Word)
  -- the host queue manager
  | submissionFetch (n : Nat)
  | submissionEntryArrival (n : Nat) (entries : List (List Word))
  | fetchError (n : Nat)
  | jobDispatch (slot : Nat)
  | completionCommit (slot : Nat)
  | completionWrite (slot : Nat)
  | coalTime (k : Nat)
  | uncorrectableTagEntry (slot : Nat)
  -- jobs
  | streamOpen (slot : Nat)
  | streamCloseDrain (slot : Nat)
  | streamCloseDiscard (slot : Nat)
  | decodeUnit (slot : Nat)
  | encodePicture (slot : Nat)
  | layerUpdate (slot : Nat)
  | tilemapUpdate (slot : Nat)
  | ledgerOpStart (slot : Nat)
  | ledgerOpStop (slot : Nat)
  | ledgerOpSave (slot : Nat)
  | ledgerOpRebase (slot : Nat)
  | ledgerOpReplace (slot : Nat)
  | ledgerOpLoadClasses (slot : Nat)
  | ledgerOpFormat (slot : Nat)
  | ledgerOpTest (slot : Nat) (pass : Bool)
  | dmaList (slot : Nat)
  | bufferOpAlloc (slot : Nat)
  | bufferOpRetain (slot : Nat)
  | bufferOpRelease (slot : Nat)
  | bufferOpFree (slot : Nat)
  | linkSend (slot : Nat)
  | microcodeLoad (slot : Nat)
  | fence (slot : Nat)
  | abortTag (slot : Nat)
  | abortRing (slot : Nat)
  | abortOpcodeContext (slot : Nat)
  | runningJobStop (slot : Nat)
  -- decode slices
  | contextGrant (slice : Nat)
  | gangGather (slice : Nat)
  | pictureStart (slice : Nat)
  | pictureDescriptor (slice : Nat) (pic : PicFacts)
  | segmentDescriptor (slice : Nat) (seg : SegFacts)
  | rowComplete (slice : Nat) (bytes : List (List Byte))
  | pictureComplete (slice : Nat) (bytes : List (List Byte))
  | unitWait (slice : Nat) (bytes : List (List Byte))
  | wdog (slice : Nat)
  | rerunStart (slice : Nat)
  | sliceResetDone (slice : Nat)
  | now (data : Word)
  | drain (slice : Nat) (data : Word)
  | drainedPictureDone (slice : Nat)
  | bistStart (slice : Nat) (data : Word)
  | bistDone (slice : Nat) (pass : Bool) (failGroup : Nat)
  -- header sequencers
  | parseUnitStart (seq : Nat) (offset : Nat) (length : Nat) (last : Bool)
  | headerReq (enc : Nat) (record : List HeaderElem)
  | aluNop (seq : Nat)
  | aluAdd (seq : Nat)
  | aluSub (seq : Nat)
  | aluAnd (seq : Nat)
  | aluOr (seq : Nat)
  | aluXor (seq : Nat)
  | aluShl (seq : Nat)
  | aluShr (seq : Nat)
  | aluAsr (seq : Nat)
  | aluExt (seq : Nat)
  | aluMin (seq : Nat)
  | aluMax (seq : Nat)
  | aluClz (seq : Nat)
  | aluMul (seq : Nat)
  | aluCmp (seq : Nat)
  | aluMov (seq : Nat)
  | aluTrap (seq : Nat)
  | spNop (seq : Nat)
  | spU (seq : Nat)
  | spPeek (seq : Nat)
  | spSkip (seq : Nat)
  | spUe (seq : Nat)
  | spSe (seq : Nat)
  | spSu (seq : Nat)
  | spNs (seq : Nat)
  | spLeb (seq : Nat)
  | spAlign (seq : Nat)
  | spPos (seq : Nat)
  | spWu (seq : Nat)
  | spWue (seq : Nat)
  | spWse (seq : Nat)
  | spWleb (seq : Nat)
  | spWtrail (seq : Nat)
  | spTrap (seq : Nat)
  | seqTrap (seq : Nat)
  | seqNext (seq : Nat)
  | seqJump (seq : Nat)
  | seqCall (seq : Nat)
  | seqRet (seq : Nat)
  | seqSwitch (seq : Nat)
  | seqEnd (seq : Nat)
  | seqAbandon (seq : Nat)
  | outNop (seq : Nat)
  | outDw (seq : Nat)
  | outDwi (seq : Nat)
  | outSend (seq : Nat)
  | outCwr (seq : Nat)
  | outCrd (seq : Nat)
  | outTrap (seq : Nat)
  | descriptorRelease (seq : Nat)
  | headerDone (seq : Nat)
  | machineCheck (seq : Nat)
  | mcReloadDone (seq : Nat) (readBackOk : Bool)
  | microcodeLoadDone (slot : Nat) (parityOk : Bool)
  | bankSwitch (seq : Nat)
  | hsqCsSel (data : Word)
  -- encoders and SDI
  | encoderRow (enc : Nat) (row : RowFacts)
  | encodeDone (enc : Nat) (bytes : List Byte) (recon : List (List Byte))
  | rtpPacket (enc : Nat) (length : Nat) (last : Bool)
  | sourceLost (enc : Nat)
  | sdiEn (n : Nat) (data : Word)
  | sdiFrameStart (n : Nat)
  | sdiRows (n : Nat)
  | sdiFrameEnd (n : Nat)
  | sdiLine (n : Nat) (crcOk : Bool) (overflow : Bool) (bytes : List Byte) (chroma : List Byte)
  | carrier (n : Nat) (present : Bool)
  | lock (n : Nat) (raster : SdiRaster)
  | previewFrameStart (m : Nat)
  | previewUnderrun (line : OutLine)
  -- the compositor
  | holdQueueGrant (pool : Nat)
  | hold (data : Word)
  | cmpWbCfgWrite (data : Word)
  | guardCheck (region : Nat)
  | cmpGrForced (half : Nat) (data : Word)
  | cmpGrnExpect (region : Nat) (data : Word)
  | xferLoad (set : Nat) (data : Word)
  | xferLoadDone (set : Nat)
  | touch (mac : MacFacts) (pos : Nat) (contacts : List Contact)
  | touchSpriteLoad (data : Word)
  -- lamp correction and the ledger
  | serialWrite (tile : Nat)
  | lmpEotfLoad (data : Word)
  | lmpMtxGo (data : Word)
  | emmcCommandDone (ok : Bool)
  | calibUp (mac : MacFacts) (arg : Nat) (last : Bool) (bytes : List Byte)
  -- the panel links
  | rateAlternation (lane : Nat)
  | blockLock (lane : Nat)
  | blockLockLoss (lane : Nat)
  | settlingEnd (lane : Nat)
  | discover (lane : Nat) (data : Word)
  | discoveryWindow (lane : Nat)
  | discoverReply (mac : MacFacts) (reply : ReplyFacts)
  | status (mac : MacFacts) (st : StatusFacts)
  | crcReport (mac : MacFacts) (pos : Nat) (frame : Nat) (entries : List (Nat × Nat × Word))
  | alert (mac : MacFacts) (pos : Nat) (code : Nat) (detail : List Word)
  | loopFrame (mac : MacFacts) (srcLane : Nat)
  | towpathDrop (lane : Nat)
  | statusCheck (frame : Nat)
  | splitWrite (lane : Nat) (data : Word)
  | pixel (tile : Nat)
  | laneEgressSelect (lane : Nat)
  | creditRefill (lane : Nat)
  | linkSendDone (lane : Nat)
  | laneBistStart (lane : Nat) (data : Word)
  | laneBistDone (lane : Nat) (pass : Bool)
  | eyeScan (lane : Nat) (data : Word)
  | eyeScanDone (lane : Nat) (width : Nat) (height : Nat)
  | pop (lane : Nat) (data : Word)
  | rate (data : Word)
  -- ingress
  | ingressFrame (port : Nat) (frame : NetFrame)
  | reorderTimeout (flow : Nat)
  | igrFlowWrite (wr : FlowWrite)
  | igrFlowRead (data : Word)
  | igrLink (port : Nat) (up : Bool) (fecLock : Bool)
  -- the buffer pool manager
  | alloc (requester : Nat) (byPool : Bool) (arg : Nat) (spillUp : Bool) (share : Bool)
  | retain (requester : Nat) (handle : Word)
  | release (requester : Nat) (handle : Word)
  | free (requester : Nat) (handle : Word)
  | poolEn (pool : Nat) (data : Word)
  | poolReady (pool : Nat)
  | cacheRefill (pool : Nat)
  | cacheWriteBack (pool : Nat)
  | minFreeClr (pool : Nat) (data : Word)
  | misuseClr (data : Word)
  -- DMA
  | dmaGo (channel : Nat) (data : Word)
  | dmaEnClear (channel : Nat) (data : Word)
  | dmaEntry (channel : Nat) (dst : Bool) (hostEntry : Option (List Word))
  | dmaSegment (channel : Nat) (facts : DmaFacts)
  | dmaListEnd (channel : Nat)
  -- the memory system
  | drcInit (data : Word)
  | drcWinEn (window : Nat) (data : Word)
  | windowZeroDone (window : Nat)
  | drcMapWrite (index : Nat) (data : Word)
  | channelSchedule (channel : Nat) (arrivals : List DrcArrival) (slot : SlotFacts)
  | urgencyRise (channel : Nat)
  | selfRefresh (channel : Nat)
  | selfRefreshExit (channel : Nat)
  | retraining (channel : Nat) (durationNs : Nat) (inRange : Bool)
  | freeze (channel : Nat) (cmdPath : Bool) (engAddr : Nat) (facts : FreezeFacts)
  | freezeRelease (channel : Nat) (data : Word)
  | eccWrite (channel : Nat) (data : Word)
  | secLcArm (data : Word)
  | secLcGo (data : Word)
  -- interrupts and faults
  | message (source : Nat)
  | icuDoorbell (data : Word)
  | notification (context : Nat)
  | claim (context : Nat)
  | complete (context : Nat) (data : Word)
  | icuConfigWrite (addr : Nat) (data : Word)
  | deliverEn (data : Word)
  | mirrorWrite (collided : Bool)
  | wakeLatch (source : Nat)
  | faultInject (addr : Nat) (data : Word)
  | assert (data : Word)
  | faultPinRelease (data : Word)
  -- power, clocks and life cycle
  | pwrCmdOn (data : Word)
  | pwrCmdOff (data : Word)
  | powerFailCommitDone (durationUs : Nat)
  | sleepGo (data : Word)
  | perstN (level : Bool)
  | topReset (data : Word)
  | topSetupLock (data : Word)
  | temperatureRead (temps : List Int)
  | pwrTempPeakClr (sensor : Nat) (data : Word)
  | memtestGo (data : Word)
  | memtestDone (failAt : Option Nat)
  | laneEn (lane : Nat) (data : Word)
  | msixUnmask (vector : Nat)
  -- rows whose command carries no operand, in the table's order
  | functionLevelReset
  | rotation
  | rotationPeriod
  | lockGate
  | canvasLineStart
  | lineComposed
  | wbRows
  | wbDrop
  | exhausted
  | headroomManager
  | summaryCommit
  | epoch
  | tileStep
  | generationDone
  | journalWrite
  | emmcCommand
  | calibTimeout
  | calibRecordComplete
  | genlockEdge
  | genlockLoss
  | drcInitDone
  | scrub
  | tamper
  | lcDone
  | pinEvent
  | pulseEnd
  | domainSwitchDone
  | powerFail
  | shedRestart
  | supplySwitchOver
  | supplySwitchBack
  | vaonMainLow
  | sleepCommit
  | wake
  | bwTimer
  | porstN
  | porstNRelease
  | pllLockLoss
  | refclkStop
  | svcKey
  | identifyTimeout
  | refclkReturn
  | tamperNRise
  | svcKeyRelease
  | pwrfailNRise
  | lmpEotfLoadDone
  | lmpMtxLoadDone
  deriving DecidableEq, Repr

end Sys2Proof
end

