-- ==== Sys2Proof/Config.lean ====
section
/-!
DEFINITION. What an implementation fixes: the free values. A free value is any word: the function has no body, so no
proof can use what it answers.
-/
namespace Sys2Proof

/-- The `k`-th free value of a run: the value of a result the spec leaves undefined or does not state (assumption 9). -/
opaque Config.freeWord : Nat → BitVec 32

/-- What the encoder's polyphase filter answers: its coefficients are not defined (R178; assumption 122). The arguments are
the axis, the length it scales to, the index of the sample and the line it scales. -/
opaque Config.scaled : Bool → Nat → Nat → List Nat → BitVec 10

/-- Whether a transport-stream flow that feeds no open context carries HEVC rather than H.264: no field of its entry says
(R360, R370; assumption 133). The argument is the flow. -/
opaque Config.tsHevc : Nat → Bool

/-- The test access port's instruction codes, which the spec does not give: which of IDCODE, SAMPLE/PRELOAD, EXTEST,
EXTEST_PULSE and EXTEST_TRAIN a code selects (0 to 4; any other number BYPASS), and how much longer than two bits the
instruction register is (R536; assumption 105). -/
opaque Config.tapCode : List Bool → Nat
opaque Config.tapIrLen : Nat

end Sys2Proof
end

