-- ==== Sys2Proof/Machine/Tab.lean ====
section
/-!
DEFINITION. Sparse tables in one canonical form: the plain data behind every register window, memory,
store and table of the machine. A table is a list of (key, value) pairs with strictly rising keys that
lists no pair equal to what an unlisted key reads as, so equal tables are equal lists.
-/
namespace Sys2Proof.Machine

/-- A sparse table from numbers to values. A `Tab Byte` is a list of `Host.Cell`s. -/
abbrev Tab (α : Type) := List (Nat × α)

/-- Read a table: `d` says what an unlisted key reads as. -/
def tabGet {α : Type} (d : Nat → α) : Tab α → Nat → α
  | [], a => d a
  | (k, v) :: t, a => if a = k then v else tabGet d t a

/-- Write a table, keeping the canonical form: writing what an unlisted key reads as removes the entry. -/
def tabSet {α : Type} [DecidableEq α] (d : Nat → α) : Tab α → Nat → α → Tab α
  | [], a, v => if v = d a then [] else [(a, v)]
  | (k, w) :: t, a, v =>
    if a = k then (if v = d a then tabSet d t a v else (k, v) :: t)
    else if a < k ∧ v ≠ d a then (a, v) :: (k, w) :: t
    else (k, w) :: tabSet d t a v

/-- The canonical form: every key above `lo` (when given), keys strictly rising, no default listed. -/
def tabWfFrom {α : Type} [DecidableEq α] (d : Nat → α) : Option Nat → Tab α → Bool
  | _, [] => true
  | lo, (k, v) :: t =>
    (match lo with | none => true | some l => decide (l < k)) && decide (v ≠ d k) && tabWfFrom d (some k) t

/-- A table is in canonical form. -/
def tabWf {α : Type} [DecidableEq α] (d : Nat → α) (t : Tab α) : Bool := tabWfFrom d none t

/-- Remove every entry whose key satisfies `p`, so that it reads as unlisted again. -/
def tabDrop {α : Type} (p : Nat → Bool) (t : Tab α) : Tab α := t.filter (fun e => !p e.1)

/-- The keys a table lists, in rising order. -/
def tabKeys {α : Type} (t : Tab α) : List Nat := t.map (fun e => e.1)

/-- Write `vals` at consecutive keys from `a`. -/
def tabSetRange {α : Type} [DecidableEq α] (d : Nat → α) : Tab α → Nat → List α → Tab α
  | t, _, [] => t
  | t, a, v :: vs => tabSetRange d (tabSet d t a v) (a + 1) vs

/-- Read `n` values at consecutive keys from `a`. -/
def tabGetRange {α : Type} (d : Nat → α) (t : Tab α) (a n : Nat) : List α :=
  (List.range n).map (fun i => tabGet d t (a + i))

end Sys2Proof.Machine
end

