-- ==== Sys2Proof/Machine/Regs.lean ====
section
/-!
DEFINITION. The BAR0 registers (R34 and the register rules R7, R68, R116, R117, R150, R174, R208, R210, R248, R272,
R302, R354, R380, R382, R414, R416, R452 to R455, R475, R479, R511, R512): the address of each register, the place of
each of its fields, and the table of access codes, power domains and reset values the spec gives.
-/
namespace Sys2Proof.Machine

/-- A field of a register: its lowest bit and its width. -/
structure Fld where
  lo : Nat
  w  : Nat
  deriving DecidableEq, Repr

/-- The access codes of R10; `rwl` is RW-L. -/
inductive Acc where
  | rw | ro | wo | w1c | w1s | rwl
  deriving DecidableEq, Repr

/-- The three variants of the die (R2). -/
inductive Variant where
  | lzw4480 | lzw4460 | lzw4430
  deriving DecidableEq, Repr

/-- How a field's reset value is given: a number, the register's index (ICU_CTXk_CFG.VECTOR), by variant (R7, R117),
the home bit of an address mask (R425), a port's latency target or flags (R429), or the MSI-X table layout (R68). -/
inductive ResetVal where
  | val (n : Nat)
  | index
  | part
  | caps (lo w : Nat)
  | drcCaps
  | topSlice
  | home (first : Nat)
  | qosTarget
  | qosTop
  | msix
  deriving DecidableEq, Repr

/-- The power domain that holds a register (R486): a fixed one, or the one of the register's unit index. -/
inductive RegDom where
  | fixed (n : Nat)
  | hsq | drc | en | layer | plk | igr
  deriving DecidableEq, Repr

/-- One field of the register table. -/
structure FldDesc where
  lo  : Nat
  w   : Nat
  acc : Acc
  rst : ResetVal
  deriving DecidableEq, Repr

/-- One row of the register table: `n` units `stride` apart, each with `n2` words `stride2` apart. -/
structure RegDesc where
  base    : Nat
  n       : Nat
  stride  : Nat
  n2      : Nat
  stride2 : Nat
  dom     : RegDom
  flds    : List FldDesc
  deriving DecidableEq, Repr

/-! Register addresses in BAR0 and the fields within them. -/

/-- TOP_ID, R7. -/
abbrev TOP_ID : Nat := 0x0
abbrev TOP_ID.PART : Fld := ⟨0, 16⟩
abbrev TOP_ID.STEPPING : Fld := ⟨16, 8⟩
abbrev TOP_ID.VENDOR : Fld := ⟨24, 8⟩
/-- TOP_CAPS0, R7. -/
abbrev TOP_CAPS0 : Nat := 0x4
abbrev TOP_CAPS0.DS_PRESENT : Fld := ⟨0, 9⟩
abbrev TOP_CAPS0.EN_PRESENT : Fld := ⟨9, 2⟩
abbrev TOP_CAPS0.IGR_PRESENT : Fld := ⟨11, 2⟩
abbrev TOP_CAPS0.PLK_GROUP_PRESENT : Fld := ⟨13, 4⟩
abbrev TOP_CAPS0.SDI_IN_PRESENT : Fld := ⟨17, 8⟩
abbrev TOP_CAPS0.SDI_OUT_PRESENT : Fld := ⟨25, 2⟩
/-- TOP_CAPS1, R7. -/
abbrev TOP_CAPS1 : Nat := 0x8
abbrev TOP_CAPS1.DRC_GROUP_PRESENT : Fld := ⟨0, 8⟩
/-- TOP_SETUP_LOCK, R511. -/
abbrev TOP_SETUP_LOCK : Nat := 0x10
abbrev TOP_SETUP_LOCK.LOCK : Fld := ⟨0, 1⟩
/-- TOP_RESET, R511. -/
abbrev TOP_RESET : Nat := 0x14
abbrev TOP_RESET.KEY : Fld := ⟨0, 32⟩
/-- TOP_RESET_CAUSE, R511. -/
abbrev TOP_RESET_CAUSE : Nat := 0x18
abbrev TOP_RESET_CAUSE.PORST : Fld := ⟨0, 1⟩
abbrev TOP_RESET_CAUSE.SW_RESET : Fld := ⟨1, 1⟩
abbrev TOP_RESET_CAUSE.PF_RESTART : Fld := ⟨2, 1⟩
abbrev TOP_RESET_CAUSE.THERMAL : Fld := ⟨3, 1⟩
abbrev TOP_RESET_CAUSE.PLL : Fld := ⟨4, 1⟩
abbrev TOP_RESET_CAUSE.WAKE : Fld := ⟨5, 1⟩
/-- TOP_FAULT_PIN, R475. -/
abbrev TOP_FAULT_PIN : Nat := 0x40
abbrev TOP_FAULT_PIN.ASSERT : Fld := ⟨0, 1⟩
abbrev TOP_FAULT_PIN.RELEASE : Fld := ⟨1, 1⟩
abbrev TOP_FAULT_PIN.LATCH_EN : Fld := ⟨2, 1⟩
abbrev TOP_FAULT_PIN.PULSING : Fld := ⟨3, 1⟩
abbrev TOP_FAULT_PIN.PIN : Fld := ⟨4, 1⟩
abbrev TOP_FAULT_PIN.EVENT : Fld := ⟨5, 1⟩
abbrev TOP_FAULT_PIN.PULSE_US : Fld := ⟨8, 8⟩
abbrev TOP_FAULT_PIN.EVENTS : Fld := ⟨16, 16⟩
/-- TOP_MEMTEST_CTL, R511. -/
abbrev TOP_MEMTEST_CTL : Nat := 0x80
abbrev TOP_MEMTEST_CTL.WINDOW : Fld := ⟨0, 6⟩
abbrev TOP_MEMTEST_CTL.GO : Fld := ⟨8, 1⟩
abbrev TOP_MEMTEST_CTL.BUSY : Fld := ⟨9, 1⟩
abbrev TOP_MEMTEST_CTL.RESULT : Fld := ⟨10, 2⟩
/-- TOP_MEMTEST_FAIL_LO, R511. -/
abbrev TOP_MEMTEST_FAIL_LO : Nat := 0x84
abbrev TOP_MEMTEST_FAIL_LO.PHYS_LO : Fld := ⟨0, 32⟩
/-- TOP_MEMTEST_FAIL_HI, R511. -/
abbrev TOP_MEMTEST_FAIL_HI : Nat := 0x88
abbrev TOP_MEMTEST_FAIL_HI.PHYS_HI : Fld := ⟨0, 5⟩
/-- PWR_STATE_LO, R512. -/
abbrev PWR_STATE_LO : Nat := 0x100000
abbrev PWR_STATE_LO.ON : Fld := ⟨0, 32⟩
/-- PWR_STATE_HI, R512. -/
abbrev PWR_STATE_HI : Nat := 0x100004
abbrev PWR_STATE_HI.ON : Fld := ⟨0, 8⟩
/-- PWR_CMD, R512. -/
abbrev PWR_CMD : Nat := 0x100008
abbrev PWR_CMD.DOMAIN : Fld := ⟨0, 6⟩
abbrev PWR_CMD.ON : Fld := ⟨8, 1⟩
abbrev PWR_CMD.OFF : Fld := ⟨9, 1⟩
abbrev PWR_CMD.BUSY : Fld := ⟨16, 1⟩
/-- PWR_ERR, R512. -/
abbrev PWR_ERR : Nat := 0x10000C
abbrev PWR_ERR.REFUSED : Fld := ⟨0, 1⟩
abbrev PWR_ERR.DOMAIN : Fld := ⟨8, 6⟩
abbrev PWR_ERR.CAUSE : Fld := ⟨16, 3⟩
abbrev PWR_ERR.COUNT : Fld := ⟨24, 8⟩
/-- CLK_STATUS, R512. -/
abbrev CLK_STATUS : Nat := 0x100010
abbrev CLK_STATUS.MAIN_LOCK : Fld := ⟨0, 1⟩
abbrev CLK_STATUS.PHY_LOCK : Fld := ⟨1, 1⟩
abbrev CLK_STATUS.AON_OSC : Fld := ⟨2, 1⟩
abbrev CLK_STATUS.UNLOCKS : Fld := ⟨16, 16⟩
/-- PWR_SUPPLY, R512. -/
abbrev PWR_SUPPLY : Nat := 0x100020
abbrev PWR_SUPPLY.ON_BKP : Fld := ⟨0, 1⟩
abbrev PWR_SUPPLY.PWRFAIL : Fld := ⟨1, 1⟩
abbrev PWR_SUPPLY.SWITCHES : Fld := ⟨16, 16⟩
/-- PWR_PF_CFG, R512. -/
abbrev PWR_PF_CFG : Nat := 0x100024
abbrev PWR_PF_CFG.HOLDOFF_MS : Fld := ⟨0, 16⟩
abbrev PWR_PF_CFG.AUTO_RESTART : Fld := ⟨16, 1⟩
/-- PWR_SLEEP_KEEP_LO, R512. -/
abbrev PWR_SLEEP_KEEP_LO : Nat := 0x100028
abbrev PWR_SLEEP_KEEP_LO.KEEP : Fld := ⟨0, 32⟩
/-- PWR_SLEEP_KEEP_HI, R512. -/
abbrev PWR_SLEEP_KEEP_HI : Nat := 0x10002C
abbrev PWR_SLEEP_KEEP_HI.KEEP : Fld := ⟨0, 8⟩
/-- PWR_SLEEP_CTL, R512. -/
abbrev PWR_SLEEP_CTL : Nat := 0x100030
abbrev PWR_SLEEP_CTL.GO : Fld := ⟨0, 1⟩
abbrev PWR_SLEEP_CTL.RESULT : Fld := ⟨2, 2⟩
/-- PWR_SVC, R512. -/
abbrev PWR_SVC : Nat := 0x100034
abbrev PWR_SVC.IDENT_S : Fld := ⟨0, 16⟩
abbrev PWR_SVC.PRESSED : Fld := ⟨16, 1⟩
abbrev PWR_SVC.PRESSES : Fld := ⟨24, 8⟩
/-- PWR_TEMP_CFG, R512. -/
abbrev PWR_TEMP_CFG : Nat := 0x100040
abbrev PWR_TEMP_CFG.WARN_C : Fld := ⟨0, 8⟩
abbrev PWR_TEMP_CFG.HOT_C : Fld := ⟨8, 8⟩
abbrev PWR_TEMP_CFG.RESTART_C : Fld := ⟨16, 8⟩
/-- PWR_TEMP, R512. -/
abbrev PWR_TEMP (i : Nat) : Nat := 0x100080 + i * 0x4
abbrev PWR_TEMP.TEMP : Fld := ⟨0, 8⟩
abbrev PWR_TEMP.PEAK : Fld := ⟨8, 8⟩
abbrev PWR_TEMP.PEAK_CLR : Fld := ⟨31, 1⟩
/-- PWR_IRQ_STATUS, R512. -/
abbrev PWR_IRQ_STATUS : Nat := 0x1000C0
abbrev PWR_IRQ_STATUS.DOMAIN_DONE : Fld := ⟨0, 1⟩
abbrev PWR_IRQ_STATUS.DOMAIN_ERR : Fld := ⟨1, 1⟩
abbrev PWR_IRQ_STATUS.SLEEP : Fld := ⟨2, 1⟩
abbrev PWR_IRQ_STATUS.TEMP_WARN : Fld := ⟨3, 1⟩
abbrev PWR_IRQ_STATUS.TEMP_HOT : Fld := ⟨4, 1⟩
abbrev PWR_IRQ_STATUS.ON_BKP : Fld := ⟨5, 1⟩
abbrev PWR_IRQ_STATUS.MEMTEST : Fld := ⟨6, 1⟩
abbrev PWR_IRQ_STATUS.FAULT : Fld := ⟨7, 1⟩
/-- PWR_IRQ_EN, R512. -/
abbrev PWR_IRQ_EN : Nat := 0x1000C4
abbrev PWR_IRQ_EN.DOMAIN_DONE : Fld := ⟨0, 1⟩
abbrev PWR_IRQ_EN.DOMAIN_ERR : Fld := ⟨1, 1⟩
abbrev PWR_IRQ_EN.SLEEP : Fld := ⟨2, 1⟩
abbrev PWR_IRQ_EN.TEMP_WARN : Fld := ⟨3, 1⟩
abbrev PWR_IRQ_EN.TEMP_HOT : Fld := ⟨4, 1⟩
abbrev PWR_IRQ_EN.ON_BKP : Fld := ⟨5, 1⟩
abbrev PWR_IRQ_EN.MEMTEST : Fld := ⟨6, 1⟩
abbrev PWR_IRQ_EN.FAULT : Fld := ⟨7, 1⟩
/-- PWR_FAULT_STATUS, R512. -/
abbrev PWR_FAULT_STATUS : Nat := 0x1000D0
/-- PWR_FAULT_MASK, R512. -/
abbrev PWR_FAULT_MASK : Nat := 0x1000D4
abbrev PWR_FAULT_MASK.MASK : Fld := ⟨0, 6⟩
/-- PWR_FAULT_PIN_EN, R512. -/
abbrev PWR_FAULT_PIN_EN : Nat := 0x1000D8
abbrev PWR_FAULT_PIN_EN.PIN_EN : Fld := ⟨0, 6⟩
/-- PWR_FAULT_INJECT, R512. -/
abbrev PWR_FAULT_INJECT : Nat := 0x1000DC
abbrev PWR_FAULT_INJECT.COUNT : Fld := ⟨0, 8⟩
abbrev PWR_FAULT_INJECT.DOUBLE : Fld := ⟨8, 1⟩
abbrev PWR_FAULT_INJECT.SITE : Fld := ⟨9, 2⟩
/-- ICU_GLOBAL, R479. -/
abbrev ICU_GLOBAL : Nat := 0x200000
abbrev ICU_GLOBAL.DELIVER_EN : Fld := ⟨0, 1⟩
abbrev ICU_GLOBAL.MIRROR_EN : Fld := ⟨1, 1⟩
/-- ICU_ERR, R479. -/
abbrev ICU_ERR : Nat := 0x200004
abbrev ICU_ERR.SOURCE : Fld := ⟨0, 10⟩
abbrev ICU_ERR.MIRROR_LOST : Fld := ⟨16, 16⟩
/-- ICU_STRAY_COMPLETE, R479. -/
abbrev ICU_STRAY_COMPLETE : Nat := 0x200008
abbrev ICU_STRAY_COMPLETE.COUNT : Fld := ⟨0, 32⟩
/-- ICU_STRAY_LAST, R479. -/
abbrev ICU_STRAY_LAST : Nat := 0x20000C
abbrev ICU_STRAY_LAST.SOURCE : Fld := ⟨0, 10⟩
abbrev ICU_STRAY_LAST.CONTEXT : Fld := ⟨16, 6⟩
/-- ICU_MIRROR, R479. -/
abbrev ICU_MIRROR : Nat := 0x200010
abbrev ICU_MIRROR.ADDR : Fld := ⟨7, 15⟩
/-- ICU_IRQ_STATUS, R479. -/
abbrev ICU_IRQ_STATUS : Nat := 0x200020
abbrev ICU_IRQ_STATUS.FAULT : Fld := ⟨0, 1⟩
abbrev ICU_IRQ_STATUS.STRAY : Fld := ⟨1, 1⟩
abbrev ICU_IRQ_STATUS.BAD_DOORBELL : Fld := ⟨2, 1⟩
abbrev ICU_IRQ_STATUS.MIRROR : Fld := ⟨3, 1⟩
/-- ICU_IRQ_EN, R479. -/
abbrev ICU_IRQ_EN : Nat := 0x200024
abbrev ICU_IRQ_EN.FAULT : Fld := ⟨0, 1⟩
abbrev ICU_IRQ_EN.STRAY : Fld := ⟨1, 1⟩
abbrev ICU_IRQ_EN.BAD_DOORBELL : Fld := ⟨2, 1⟩
abbrev ICU_IRQ_EN.MIRROR : Fld := ⟨3, 1⟩
/-- ICU_FAULT_STATUS, R479. -/
abbrev ICU_FAULT_STATUS : Nat := 0x200030
/-- ICU_FAULT_MASK, R479. -/
abbrev ICU_FAULT_MASK : Nat := 0x200034
abbrev ICU_FAULT_MASK.MASK : Fld := ⟨0, 3⟩
/-- ICU_FAULT_PIN_EN, R479. -/
abbrev ICU_FAULT_PIN_EN : Nat := 0x200038
abbrev ICU_FAULT_PIN_EN.PIN_EN : Fld := ⟨0, 3⟩
/-- ICU_FAULT_INJECT, R479. -/
abbrev ICU_FAULT_INJECT : Nat := 0x20003C
abbrev ICU_FAULT_INJECT.COUNT : Fld := ⟨0, 8⟩
abbrev ICU_FAULT_INJECT.DOUBLE : Fld := ⟨8, 1⟩
abbrev ICU_FAULT_INJECT.SITE : Fld := ⟨9, 2⟩
/-- ICU_FAULT_SRC, R479. -/
abbrev ICU_FAULT_SRC : Nat := 0x200040
abbrev ICU_FAULT_SRC.SOURCE : Fld := ⟨0, 10⟩
abbrev ICU_FAULT_SRC.IS_CTX : Fld := ⟨15, 1⟩
/-- ICU_CTX_CFG, R479. -/
abbrev ICU_CTX_CFG (i : Nat) : Nat := 0x200100 + i * 0x10
abbrev ICU_CTX_CFG.THRESHOLD : Fld := ⟨0, 4⟩
abbrev ICU_CTX_CFG.VECTOR : Fld := ⟨8, 6⟩
abbrev ICU_CTX_CFG.NOTIFIED : Fld := ⟨16, 1⟩
/-- ICU_CTX_COUNT, R479. -/
abbrev ICU_CTX_COUNT (i : Nat) : Nat := 0x200104 + i * 0x10
abbrev ICU_CTX_COUNT.CLAIMS : Fld := ⟨0, 16⟩
abbrev ICU_CTX_COUNT.SPURIOUS : Fld := ⟨16, 16⟩
/-- ICU_SRC_CFG, R479. -/
abbrev ICU_SRC_CFG (i : Nat) : Nat := 0x201000 + i * 0x4
abbrev ICU_SRC_CFG.PRIORITY : Fld := ⟨0, 4⟩
abbrev ICU_SRC_CFG.CONTEXT : Fld := ⟨4, 6⟩
abbrev ICU_SRC_CFG.MASK : Fld := ⟨16, 1⟩
abbrev ICU_SRC_CFG.PENDING : Fld := ⟨24, 1⟩
abbrev ICU_SRC_CFG.ACTIVE : Fld := ⟨25, 1⟩
abbrev ICU_SRC_CFG.ACT_CTX : Fld := ⟨26, 6⟩
/-- ICU_PENDING, R479. -/
abbrev ICU_PENDING (i : Nat) : Nat := 0x202000 + i * 0x4
abbrev ICU_PENDING.PENDING : Fld := ⟨0, 32⟩
/-- ICU_ACTIVE, R479. -/
abbrev ICU_ACTIVE (i : Nat) : Nat := 0x202080 + i * 0x4
abbrev ICU_ACTIVE.ACTIVE : Fld := ⟨0, 32⟩
/-- BW_WAKE_SRC, R479. -/
abbrev BW_WAKE_SRC (i : Nat) : Nat := 0x208000 + i * 0x4
abbrev BW_WAKE_SRC.SOURCE : Fld := ⟨0, 10⟩
abbrev BW_WAKE_SRC.EN : Fld := ⟨31, 1⟩
/-- BW_WAKE_CAUSE, R479. -/
abbrev BW_WAKE_CAUSE : Nat := 0x208100
abbrev BW_WAKE_CAUSE.SOURCE : Fld := ⟨0, 10⟩
abbrev BW_WAKE_CAUSE.VALID : Fld := ⟨16, 1⟩
/-- BW_WAKE_LATCH_LO, R479. -/
abbrev BW_WAKE_LATCH_LO : Nat := 0x208104
abbrev BW_WAKE_LATCH_LO.LATCH : Fld := ⟨0, 32⟩
/-- BW_WAKE_LATCH_HI, R479. -/
abbrev BW_WAKE_LATCH_HI : Nat := 0x208108
abbrev BW_WAKE_LATCH_HI.LATCH : Fld := ⟨0, 32⟩
/-- BW_TIMER, R479. -/
abbrev BW_TIMER : Nat := 0x208110
abbrev BW_TIMER.SECONDS : Fld := ⟨0, 24⟩
/-- BW_IRQ_STATUS, R479. -/
abbrev BW_IRQ_STATUS : Nat := 0x208120
abbrev BW_IRQ_STATUS.FAULT_PIN : Fld := ⟨0, 1⟩
abbrev BW_IRQ_STATUS.WAKE : Fld := ⟨1, 1⟩
abbrev BW_IRQ_STATUS.TIMER : Fld := ⟨2, 1⟩
abbrev BW_IRQ_STATUS.SVC_KEY : Fld := ⟨3, 1⟩
abbrev BW_IRQ_STATUS.PERST : Fld := ⟨4, 1⟩
abbrev BW_IRQ_STATUS.PWRFAIL : Fld := ⟨5, 1⟩
abbrev BW_IRQ_STATUS.FAULT : Fld := ⟨6, 1⟩
/-- BW_IRQ_EN, R479. -/
abbrev BW_IRQ_EN : Nat := 0x208124
abbrev BW_IRQ_EN.FAULT_PIN : Fld := ⟨0, 1⟩
abbrev BW_IRQ_EN.WAKE : Fld := ⟨1, 1⟩
abbrev BW_IRQ_EN.TIMER : Fld := ⟨2, 1⟩
abbrev BW_IRQ_EN.SVC_KEY : Fld := ⟨3, 1⟩
abbrev BW_IRQ_EN.PERST : Fld := ⟨4, 1⟩
abbrev BW_IRQ_EN.PWRFAIL : Fld := ⟨5, 1⟩
abbrev BW_IRQ_EN.FAULT : Fld := ⟨6, 1⟩
/-- BW_FAULT_STATUS, R479. -/
abbrev BW_FAULT_STATUS : Nat := 0x208130
/-- BW_FAULT_MASK, R479. -/
abbrev BW_FAULT_MASK : Nat := 0x208134
abbrev BW_FAULT_MASK.MASK : Fld := ⟨0, 3⟩
/-- BW_FAULT_PIN_EN, R479. -/
abbrev BW_FAULT_PIN_EN : Nat := 0x208138
abbrev BW_FAULT_PIN_EN.PIN_EN : Fld := ⟨0, 3⟩
/-- BW_FAULT_INJECT, R479. -/
abbrev BW_FAULT_INJECT : Nat := 0x20813C
abbrev BW_FAULT_INJECT.COUNT : Fld := ⟨0, 8⟩
abbrev BW_FAULT_INJECT.DOUBLE : Fld := ⟨8, 1⟩
abbrev BW_FAULT_INJECT.SITE : Fld := ⟨9, 2⟩
/-- BPM_ERR, R414. -/
abbrev BPM_ERR : Nat := 0x300000
abbrev BPM_ERR.BAD_CONFIG : Fld := ⟨0, 1⟩
abbrev BPM_ERR.POOL : Fld := ⟨1, 3⟩
/-- BPM_MISUSE_HANDLE, R414. -/
abbrev BPM_MISUSE_HANDLE : Nat := 0x300010
abbrev BPM_MISUSE_HANDLE.HANDLE : Fld := ⟨0, 32⟩
/-- BPM_MISUSE_INFO, R414. -/
abbrev BPM_MISUSE_INFO : Nat := 0x300014
abbrev BPM_MISUSE_INFO.REQUESTER : Fld := ⟨0, 6⟩
abbrev BPM_MISUSE_INFO.OP : Fld := ⟨6, 2⟩
abbrev BPM_MISUSE_INFO.CODE : Fld := ⟨8, 8⟩
abbrev BPM_MISUSE_INFO.OVERRUN : Fld := ⟨16, 1⟩
abbrev BPM_MISUSE_INFO.CLR : Fld := ⟨31, 1⟩
/-- BPM_MISUSE_COUNT, R414. -/
abbrev BPM_MISUSE_COUNT : Nat := 0x300018
abbrev BPM_MISUSE_COUNT.EVENTS : Fld := ⟨0, 32⟩
/-- BPM_BST_SEL, R414. -/
abbrev BPM_BST_SEL : Nat := 0x300020
abbrev BPM_BST_SEL.ENTRY : Fld := ⟨0, 20⟩
/-- BPM_BST_DATA, R414. -/
abbrev BPM_BST_DATA : Nat := 0x300024
abbrev BPM_BST_DATA.ENTRY : Fld := ⟨0, 32⟩
/-- BPM_FAULT_STATUS, R414. -/
abbrev BPM_FAULT_STATUS : Nat := 0x300040
/-- BPM_FAULT_MASK, R414. -/
abbrev BPM_FAULT_MASK : Nat := 0x300044
abbrev BPM_FAULT_MASK.MASK : Fld := ⟨0, 3⟩
/-- BPM_FAULT_PIN_EN, R414. -/
abbrev BPM_FAULT_PIN_EN : Nat := 0x300048
abbrev BPM_FAULT_PIN_EN.PIN_EN : Fld := ⟨0, 3⟩
/-- BPM_FAULT_INJECT, R414. -/
abbrev BPM_FAULT_INJECT : Nat := 0x30004C
abbrev BPM_FAULT_INJECT.COUNT : Fld := ⟨0, 8⟩
abbrev BPM_FAULT_INJECT.DOUBLE : Fld := ⟨8, 1⟩
abbrev BPM_FAULT_INJECT.SITE : Fld := ⟨9, 2⟩
/-- BPM_FAULT_POOL, R414. -/
abbrev BPM_FAULT_POOL : Nat := 0x300050
abbrev BPM_FAULT_POOL.POOL : Fld := ⟨0, 3⟩
/-- BPM_POOL_BASE_LO, R414. -/
abbrev BPM_POOL_BASE_LO (i : Nat) : Nat := 0x300100 + i * 0x40
abbrev BPM_POOL_BASE_LO.VALID : Fld := ⟨0, 1⟩
abbrev BPM_POOL_BASE_LO.ADDR_LO : Fld := ⟨12, 20⟩
/-- BPM_POOL_BASE_HI, R414. -/
abbrev BPM_POOL_BASE_HI (i : Nat) : Nat := 0x300104 + i * 0x40
abbrev BPM_POOL_BASE_HI.ADDR_HI : Fld := ⟨0, 32⟩
/-- BPM_POOL_RING_LO, R414. -/
abbrev BPM_POOL_RING_LO (i : Nat) : Nat := 0x300108 + i * 0x40
abbrev BPM_POOL_RING_LO.VALID : Fld := ⟨0, 1⟩
abbrev BPM_POOL_RING_LO.ADDR_LO : Fld := ⟨12, 20⟩
/-- BPM_POOL_RING_HI, R414. -/
abbrev BPM_POOL_RING_HI (i : Nat) : Nat := 0x30010C + i * 0x40
abbrev BPM_POOL_RING_HI.ADDR_HI : Fld := ⟨0, 32⟩
/-- BPM_POOL_CFG, R414. -/
abbrev BPM_POOL_CFG (i : Nat) : Nat := 0x300110 + i * 0x40
abbrev BPM_POOL_CFG.COUNT : Fld := ⟨0, 21⟩
abbrev BPM_POOL_CFG.EN : Fld := ⟨31, 1⟩
/-- BPM_POOL_BST, R414. -/
abbrev BPM_POOL_BST (i : Nat) : Nat := 0x300114 + i * 0x40
abbrev BPM_POOL_BST.FIRST : Fld := ⟨0, 20⟩
/-- BPM_POOL_TIDE, R414. -/
abbrev BPM_POOL_TIDE (i : Nat) : Nat := 0x300118 + i * 0x40
abbrev BPM_POOL_TIDE.LOW_TIDE : Fld := ⟨0, 21⟩
/-- BPM_POOL_STATUS, R414. -/
abbrev BPM_POOL_STATUS (i : Nat) : Nat := 0x30011C + i * 0x40
abbrev BPM_POOL_STATUS.FREE : Fld := ⟨0, 21⟩
abbrev BPM_POOL_STATUS.READY : Fld := ⟨21, 1⟩
abbrev BPM_POOL_STATUS.CACHED : Fld := ⟨22, 6⟩
/-- BPM_POOL_ALLOCATED, R414. -/
abbrev BPM_POOL_ALLOCATED (i : Nat) : Nat := 0x300120 + i * 0x40
abbrev BPM_POOL_ALLOCATED.ALLOCATED : Fld := ⟨0, 21⟩
/-- BPM_POOL_MIN_FREE, R414. -/
abbrev BPM_POOL_MIN_FREE (i : Nat) : Nat := 0x300124 + i * 0x40
abbrev BPM_POOL_MIN_FREE.MIN_FREE : Fld := ⟨0, 21⟩
abbrev BPM_POOL_MIN_FREE.CLR : Fld := ⟨31, 1⟩
/-- BPM_POOL_EMPTY, R414. -/
abbrev BPM_POOL_EMPTY (i : Nat) : Nat := 0x300128 + i * 0x40
abbrev BPM_POOL_EMPTY.COUNT : Fld := ⟨0, 32⟩
/-- BPM_POOL_SPILLS, R414. -/
abbrev BPM_POOL_SPILLS (i : Nat) : Nat := 0x30012C + i * 0x40
abbrev BPM_POOL_SPILLS.COUNT : Fld := ⟨0, 32⟩
/-- BPM_POOL_IRQ_STATUS, R414. -/
abbrev BPM_POOL_IRQ_STATUS (i : Nat) : Nat := 0x300130 + i * 0x40
abbrev BPM_POOL_IRQ_STATUS.LOW : Fld := ⟨0, 1⟩
abbrev BPM_POOL_IRQ_STATUS.EMPTY : Fld := ⟨1, 1⟩
abbrev BPM_POOL_IRQ_STATUS.MISUSE : Fld := ⟨2, 1⟩
abbrev BPM_POOL_IRQ_STATUS.FAULT : Fld := ⟨3, 1⟩
/-- BPM_POOL_IRQ_EN, R414. -/
abbrev BPM_POOL_IRQ_EN (i : Nat) : Nat := 0x300134 + i * 0x40
abbrev BPM_POOL_IRQ_EN.LOW : Fld := ⟨0, 1⟩
abbrev BPM_POOL_IRQ_EN.EMPTY : Fld := ⟨1, 1⟩
abbrev BPM_POOL_IRQ_EN.MISUSE : Fld := ⟨2, 1⟩
abbrev BPM_POOL_IRQ_EN.FAULT : Fld := ⟨3, 1⟩
/-- DMA_CH_CTL, R416. -/
abbrev DMA_CH_CTL (i : Nat) : Nat := 0x400000 + i * 0x100
abbrev DMA_CH_CTL.EN : Fld := ⟨0, 1⟩
abbrev DMA_CH_CTL.GO : Fld := ⟨1, 1⟩
abbrev DMA_CH_CTL.LIST_HOST : Fld := ⟨2, 1⟩
/-- DMA_CH_LIST_LO, R416. -/
abbrev DMA_CH_LIST_LO (i : Nat) : Nat := 0x400004 + i * 0x100
abbrev DMA_CH_LIST_LO.ADDR_LO : Fld := ⟨4, 28⟩
/-- DMA_CH_LIST_HI, R416. -/
abbrev DMA_CH_LIST_HI (i : Nat) : Nat := 0x400008 + i * 0x100
abbrev DMA_CH_LIST_HI.ADDR_HI : Fld := ⟨0, 32⟩
/-- DMA_CH_COUNT, R416. -/
abbrev DMA_CH_COUNT (i : Nat) : Nat := 0x40000C + i * 0x100
abbrev DMA_CH_COUNT.COUNT : Fld := ⟨0, 21⟩
/-- DMA_CH_STATUS, R416. -/
abbrev DMA_CH_STATUS (i : Nat) : Nat := 0x400010 + i * 0x100
abbrev DMA_CH_STATUS.BUSY : Fld := ⟨0, 1⟩
abbrev DMA_CH_STATUS.BY_GO : Fld := ⟨1, 1⟩
abbrev DMA_CH_STATUS.RESULT : Fld := ⟨8, 8⟩
abbrev DMA_CH_STATUS.GO_IGNORED : Fld := ⟨16, 16⟩
/-- DMA_CH_CRC, R416. -/
abbrev DMA_CH_CRC (i : Nat) : Nat := 0x400014 + i * 0x100
abbrev DMA_CH_CRC.CRC : Fld := ⟨0, 32⟩
/-- DMA_CH_BYTES_LO, R416. -/
abbrev DMA_CH_BYTES_LO (i : Nat) : Nat := 0x400018 + i * 0x100
abbrev DMA_CH_BYTES_LO.BYTES : Fld := ⟨0, 32⟩
/-- DMA_CH_BYTES_HI, R416. -/
abbrev DMA_CH_BYTES_HI (i : Nat) : Nat := 0x40001C + i * 0x100
abbrev DMA_CH_BYTES_HI.BYTES : Fld := ⟨0, 32⟩
/-- DMA_CH_FAIL_INDEX, R416. -/
abbrev DMA_CH_FAIL_INDEX (i : Nat) : Nat := 0x400020 + i * 0x100
abbrev DMA_CH_FAIL_INDEX.INDEX : Fld := ⟨0, 32⟩
/-- DMA_CH_IRQ_STATUS, R416. -/
abbrev DMA_CH_IRQ_STATUS (i : Nat) : Nat := 0x400030 + i * 0x100
abbrev DMA_CH_IRQ_STATUS.DONE : Fld := ⟨0, 1⟩
abbrev DMA_CH_IRQ_STATUS.ERROR : Fld := ⟨1, 1⟩
abbrev DMA_CH_IRQ_STATUS.FAULT : Fld := ⟨2, 1⟩
/-- DMA_CH_IRQ_EN, R416. -/
abbrev DMA_CH_IRQ_EN (i : Nat) : Nat := 0x400034 + i * 0x100
abbrev DMA_CH_IRQ_EN.DONE : Fld := ⟨0, 1⟩
abbrev DMA_CH_IRQ_EN.ERROR : Fld := ⟨1, 1⟩
abbrev DMA_CH_IRQ_EN.FAULT : Fld := ⟨2, 1⟩
/-- DMA_CH_FAULT_STATUS, R416. -/
abbrev DMA_CH_FAULT_STATUS (i : Nat) : Nat := 0x400040 + i * 0x100
/-- DMA_CH_FAULT_MASK, R416. -/
abbrev DMA_CH_FAULT_MASK (i : Nat) : Nat := 0x400044 + i * 0x100
abbrev DMA_CH_FAULT_MASK.MASK : Fld := ⟨0, 3⟩
/-- DMA_CH_FAULT_PIN_EN, R416. -/
abbrev DMA_CH_FAULT_PIN_EN (i : Nat) : Nat := 0x400048 + i * 0x100
abbrev DMA_CH_FAULT_PIN_EN.PIN_EN : Fld := ⟨0, 3⟩
/-- DMA_CH_FAULT_INJECT, R416. -/
abbrev DMA_CH_FAULT_INJECT (i : Nat) : Nat := 0x40004C + i * 0x100
abbrev DMA_CH_FAULT_INJECT.COUNT : Fld := ⟨0, 8⟩
abbrev DMA_CH_FAULT_INJECT.DOUBLE : Fld := ⟨8, 1⟩
abbrev DMA_CH_FAULT_INJECT.SITE : Fld := ⟨9, 2⟩
/-- HQ_CTL, R68. -/
abbrev HQ_CTL : Nat := 0x500000
abbrev HQ_CTL.FETCH_EN : Fld := ⟨0, 1⟩
abbrev HQ_CTL.TAG_TIDE : Fld := ⟨16, 10⟩
/-- HQ_TAG_STATUS, R68. -/
abbrev HQ_TAG_STATUS : Nat := 0x500004
abbrev HQ_TAG_STATUS.INFLIGHT : Fld := ⟨0, 11⟩
abbrev HQ_TAG_STATUS.PEAK : Fld := ⟨16, 11⟩
abbrev HQ_TAG_STATUS.PEAK_CLR : Fld := ⟨31, 1⟩
/-- HQ_ERR_STATUS, R68. -/
abbrev HQ_ERR_STATUS : Nat := 0x500008
abbrev HQ_ERR_STATUS.SQ_TAIL_RANGE : Fld := ⟨0, 1⟩
abbrev HQ_ERR_STATUS.CQ_HEAD_RANGE : Fld := ⟨1, 1⟩
abbrev HQ_ERR_STATUS.FETCH_ERROR : Fld := ⟨2, 1⟩
abbrev HQ_ERR_STATUS.BAD_CONFIG : Fld := ⟨3, 1⟩
abbrev HQ_ERR_STATUS.BAD_ACCESS : Fld := ⟨4, 1⟩
/-- HQ_ERR_INFO, R68. -/
abbrev HQ_ERR_INFO : Nat := 0x50000C
abbrev HQ_ERR_INFO.RING : Fld := ⟨0, 9⟩
abbrev HQ_ERR_INFO.IS_CQ : Fld := ⟨9, 1⟩
abbrev HQ_ERR_INFO.VALUE : Fld := ⟨16, 16⟩
/-- HQ_BAD_ACCESS, R68. -/
abbrev HQ_BAD_ACCESS : Nat := 0x500010
abbrev HQ_BAD_ACCESS.OFFSET : Fld := ⟨0, 26⟩
abbrev HQ_BAD_ACCESS.BAR : Fld := ⟨26, 2⟩
/-- HQ_FAULT_STATUS, R68. -/
abbrev HQ_FAULT_STATUS : Nat := 0x500020
/-- HQ_FAULT_MASK, R68. -/
abbrev HQ_FAULT_MASK : Nat := 0x500024
abbrev HQ_FAULT_MASK.MASK : Fld := ⟨0, 3⟩
/-- HQ_FAULT_PIN_EN, R68. -/
abbrev HQ_FAULT_PIN_EN : Nat := 0x500028
abbrev HQ_FAULT_PIN_EN.PIN_EN : Fld := ⟨0, 3⟩
/-- HQ_FAULT_INJECT, R68. -/
abbrev HQ_FAULT_INJECT : Nat := 0x50002C
abbrev HQ_FAULT_INJECT.COUNT : Fld := ⟨0, 8⟩
abbrev HQ_FAULT_INJECT.DOUBLE : Fld := ⟨8, 1⟩
abbrev HQ_FAULT_INJECT.SITE : Fld := ⟨9, 2⟩
/-- HQ_MSIX_TABLE, R68. -/
abbrev HQ_MSIX_TABLE (i : Nat) : Nat := 0x50F000 + i * 0x4
abbrev HQ_MSIX_TABLE.WORD : Fld := ⟨0, 32⟩
/-- HQ_MSIX_PBA, R68. -/
abbrev HQ_MSIX_PBA (i : Nat) : Nat := 0x50F800 + i * 0x4
abbrev HQ_MSIX_PBA.PBA : Fld := ⟨0, 32⟩
/-- HQ_SQ_BASE_LO, R68. -/
abbrev HQ_SQ_BASE_LO (i : Nat) : Nat := 0x510000 + i * 0x10
abbrev HQ_SQ_BASE_LO.BASE_LO : Fld := ⟨12, 20⟩
/-- HQ_SQ_BASE_HI, R68. -/
abbrev HQ_SQ_BASE_HI (i : Nat) : Nat := 0x510004 + i * 0x10
abbrev HQ_SQ_BASE_HI.BASE_HI : Fld := ⟨0, 32⟩
/-- HQ_SQ_CFG, R68. -/
abbrev HQ_SQ_CFG (i : Nat) : Nat := 0x510008 + i * 0x10
abbrev HQ_SQ_CFG.EN : Fld := ⟨0, 1⟩
abbrev HQ_SQ_CFG.CTRL : Fld := ⟨1, 1⟩
abbrev HQ_SQ_CFG.SIZE_LOG2 : Fld := ⟨4, 4⟩
abbrev HQ_SQ_CFG.BURST : Fld := ⟨8, 3⟩
abbrev HQ_SQ_CFG.CQ_ID : Fld := ⟨16, 8⟩
/-- HQ_SQ_STATUS, R68. -/
abbrev HQ_SQ_STATUS (i : Nat) : Nat := 0x51000C + i * 0x10
abbrev HQ_SQ_STATUS.HEAD : Fld := ⟨0, 16⟩
abbrev HQ_SQ_STATUS.INFLIGHT : Fld := ⟨16, 11⟩
abbrev HQ_SQ_STATUS.FENCED : Fld := ⟨29, 1⟩
abbrev HQ_SQ_STATUS.ERROR : Fld := ⟨30, 1⟩
/-- HQ_CQ_BASE_LO, R68. -/
abbrev HQ_CQ_BASE_LO (i : Nat) : Nat := 0x520000 + i * 0x20
abbrev HQ_CQ_BASE_LO.BASE_LO : Fld := ⟨12, 20⟩
/-- HQ_CQ_BASE_HI, R68. -/
abbrev HQ_CQ_BASE_HI (i : Nat) : Nat := 0x520004 + i * 0x20
abbrev HQ_CQ_BASE_HI.BASE_HI : Fld := ⟨0, 32⟩
/-- HQ_CQ_CFG, R68. -/
abbrev HQ_CQ_CFG (i : Nat) : Nat := 0x520008 + i * 0x20
abbrev HQ_CQ_CFG.EN : Fld := ⟨0, 1⟩
abbrev HQ_CQ_CFG.SIZE_LOG2 : Fld := ⟨4, 4⟩
abbrev HQ_CQ_CFG.COAL_COUNT : Fld := ⟨16, 10⟩
/-- HQ_CQ_COAL, R68. -/
abbrev HQ_CQ_COAL (i : Nat) : Nat := 0x52000C + i * 0x20
abbrev HQ_CQ_COAL.COAL_TIME : Fld := ⟨0, 16⟩
/-- HQ_CQ_STATUS, R68. -/
abbrev HQ_CQ_STATUS (i : Nat) : Nat := 0x520010 + i * 0x20
abbrev HQ_CQ_STATUS.TAIL : Fld := ⟨0, 16⟩
abbrev HQ_CQ_STATUS.PHASE : Fld := ⟨16, 1⟩
/-- HQ_CQ_RESV, R68. -/
abbrev HQ_CQ_RESV (i : Nat) : Nat := 0x520014 + i * 0x20
abbrev HQ_CQ_RESV.RESERVED : Fld := ⟨0, 11⟩
abbrev HQ_CQ_RESV.BOUND_SQS : Fld := ⟨16, 10⟩
/-- HSQ_CTL, R150. -/
abbrev HSQ_CTL (i : Nat) : Nat := 0x600000 + i * 0x1000
abbrev HSQ_CTL.EN : Fld := ⟨0, 1⟩
/-- HSQ_STATUS, R150. -/
abbrev HSQ_STATUS (i : Nat) : Nat := 0x600004 + i * 0x1000
abbrev HSQ_STATUS.ACTIVE_BANK : Fld := ⟨0, 1⟩
abbrev HSQ_STATUS.SWITCH_PENDING : Fld := ⟨1, 1⟩
abbrev HSQ_STATUS.BANK_A : Fld := ⟨2, 2⟩
abbrev HSQ_STATUS.BANK_B : Fld := ⟨4, 2⟩
abbrev HSQ_STATUS.STATE : Fld := ⟨6, 2⟩
abbrev HSQ_STATUS.CONTEXT : Fld := ⟨8, 9⟩
abbrev HSQ_STATUS.PC : Fld := ⟨18, 14⟩
/-- HSQ_UNITS, R150. -/
abbrev HSQ_UNITS (i : Nat) : Nat := 0x600008 + i * 0x1000
abbrev HSQ_UNITS.UNITS : Fld := ⟨0, 32⟩
/-- HSQ_MC, R150. -/
abbrev HSQ_MC (i : Nat) : Nat := 0x600010 + i * 0x1000
abbrev HSQ_MC.ADDR : Fld := ⟨0, 14⟩
abbrev HSQ_MC.BANK : Fld := ⟨14, 1⟩
abbrev HSQ_MC.GROUPS : Fld := ⟨15, 6⟩
abbrev HSQ_MC.HARD : Fld := ⟨21, 1⟩
abbrev HSQ_MC.COUNT : Fld := ⟨22, 8⟩
/-- HSQ_TRAP, R150. -/
abbrev HSQ_TRAP (i : Nat) : Nat := 0x600014 + i * 0x1000
abbrev HSQ_TRAP.ADDR : Fld := ⟨0, 14⟩
abbrev HSQ_TRAP.TRACE_ID : Fld := ⟨14, 8⟩
abbrev HSQ_TRAP.COUNT : Fld := ⟨22, 10⟩
/-- HSQ_BANK_HANDLE, R150. -/
abbrev HSQ_BANK_HANDLE (i j : Nat) : Nat := 0x600020 + i * 0x1000 + j * 0x10
abbrev HSQ_BANK_HANDLE.HANDLE : Fld := ⟨0, 32⟩
/-- HSQ_BANK_OFFSET, R150. -/
abbrev HSQ_BANK_OFFSET (i j : Nat) : Nat := 0x600024 + i * 0x1000 + j * 0x10
abbrev HSQ_BANK_OFFSET.OFFSET : Fld := ⟨0, 32⟩
/-- HSQ_BANK_ID, R150. -/
abbrev HSQ_BANK_ID (i j : Nat) : Nat := 0x600028 + i * 0x1000 + j * 0x10
abbrev HSQ_BANK_ID.IMAGE_ID : Fld := ⟨0, 32⟩
/-- HSQ_BANK_CRC, R150. -/
abbrev HSQ_BANK_CRC (i j : Nat) : Nat := 0x60002C + i * 0x1000 + j * 0x10
abbrev HSQ_BANK_CRC.CRC : Fld := ⟨0, 32⟩
/-- HSQ_IRQ_STATUS, R150. -/
abbrev HSQ_IRQ_STATUS (i : Nat) : Nat := 0x600040 + i * 0x1000
abbrev HSQ_IRQ_STATUS.MC : Fld := ⟨0, 1⟩
abbrev HSQ_IRQ_STATUS.TRAP : Fld := ⟨1, 1⟩
abbrev HSQ_IRQ_STATUS.BANK : Fld := ⟨2, 1⟩
abbrev HSQ_IRQ_STATUS.FAULT : Fld := ⟨3, 1⟩
/-- HSQ_IRQ_EN, R150. -/
abbrev HSQ_IRQ_EN (i : Nat) : Nat := 0x600044 + i * 0x1000
abbrev HSQ_IRQ_EN.MC : Fld := ⟨0, 1⟩
abbrev HSQ_IRQ_EN.TRAP : Fld := ⟨1, 1⟩
abbrev HSQ_IRQ_EN.BANK : Fld := ⟨2, 1⟩
abbrev HSQ_IRQ_EN.FAULT : Fld := ⟨3, 1⟩
/-- HSQ_FAULT_STATUS, R150. -/
abbrev HSQ_FAULT_STATUS (i : Nat) : Nat := 0x600050 + i * 0x1000
/-- HSQ_FAULT_MASK, R150. -/
abbrev HSQ_FAULT_MASK (i : Nat) : Nat := 0x600054 + i * 0x1000
abbrev HSQ_FAULT_MASK.MASK : Fld := ⟨0, 5⟩
/-- HSQ_FAULT_PIN_EN, R150. -/
abbrev HSQ_FAULT_PIN_EN (i : Nat) : Nat := 0x600058 + i * 0x1000
abbrev HSQ_FAULT_PIN_EN.PIN_EN : Fld := ⟨0, 5⟩
/-- HSQ_FAULT_INJECT, R150. -/
abbrev HSQ_FAULT_INJECT (i : Nat) : Nat := 0x60005C + i * 0x1000
abbrev HSQ_FAULT_INJECT.COUNT : Fld := ⟨0, 8⟩
abbrev HSQ_FAULT_INJECT.DOUBLE : Fld := ⟨8, 1⟩
abbrev HSQ_FAULT_INJECT.SITE : Fld := ⟨9, 2⟩
/-- HSQ_EN_BIND, R150. -/
abbrev HSQ_EN_BIND : Nat := 0x608000
abbrev HSQ_EN_BIND.EN0 : Fld := ⟨0, 2⟩
abbrev HSQ_EN_BIND.EN1 : Fld := ⟨2, 2⟩
/-- HSQ_CS_SEL, R150. -/
abbrev HSQ_CS_SEL : Nat := 0x608010
abbrev HSQ_CS_SEL.ADDR : Fld := ⟨0, 14⟩
abbrev HSQ_CS_SEL.BANK : Fld := ⟨14, 1⟩
abbrev HSQ_CS_SEL.SEQ : Fld := ⟨15, 2⟩
abbrev HSQ_CS_SEL.REFUSED : Fld := ⟨31, 1⟩
/-- HSQ_CS_DATA, R150. -/
abbrev HSQ_CS_DATA (i : Nat) : Nat := 0x608020 + i * 0x4
abbrev HSQ_CS_DATA.GROUP : Fld := ⟨0, 32⟩
/-- HSQ_CS_PAR, R150. -/
abbrev HSQ_CS_PAR : Nat := 0x608038
abbrev HSQ_CS_PAR.PARITY : Fld := ⟨0, 6⟩
/-- DS_CTL, R116. -/
abbrev DS_CTL (i : Nat) : Nat := 0x1000000 + i * 0x10000
abbrev DS_CTL.DRAIN : Fld := ⟨0, 1⟩
abbrev DS_CTL.BIST_START : Fld := ⟨1, 1⟩
/-- DS_STATUS, R116. -/
abbrev DS_STATUS (i : Nat) : Nat := 0x1000004 + i * 0x10000
abbrev DS_STATUS.ROLE : Fld := ⟨0, 3⟩
abbrev DS_STATUS.BUSY : Fld := ⟨3, 1⟩
abbrev DS_STATUS.CONTEXT : Fld := ⟨4, 9⟩
abbrev DS_STATUS.MEMBER : Fld := ⟨13, 3⟩
abbrev DS_STATUS.IN_GANG : Fld := ⟨16, 1⟩
/-- DS_PIC_COUNT, R116. -/
abbrev DS_PIC_COUNT (i : Nat) : Nat := 0x1000008 + i * 0x10000
abbrev DS_PIC_COUNT.PICTURES : Fld := ⟨0, 32⟩
/-- DS_BUSY_CYCLES, R116. -/
abbrev DS_BUSY_CYCLES (i : Nat) : Nat := 0x100000C + i * 0x10000
abbrev DS_BUSY_CYCLES.BUSY_KCYC : Fld := ⟨0, 32⟩
/-- DS_SWITCH_COUNT, R116. -/
abbrev DS_SWITCH_COUNT (i : Nat) : Nat := 0x1000010 + i * 0x10000
abbrev DS_SWITCH_COUNT.SWITCHES : Fld := ⟨0, 32⟩
/-- DS_LAYER_DROP, R116. -/
abbrev DS_LAYER_DROP (i : Nat) : Nat := 0x1000014 + i * 0x10000
abbrev DS_LAYER_DROP.DROPPED : Fld := ⟨0, 32⟩
/-- DS_WDOG, R116. -/
abbrev DS_WDOG (i : Nat) : Nat := 0x1000020 + i * 0x10000
abbrev DS_WDOG.LIMIT_US : Fld := ⟨0, 16⟩
abbrev DS_WDOG.EN : Fld := ⟨16, 1⟩
abbrev DS_WDOG.FIRED_COUNT : Fld := ⟨24, 8⟩
/-- DS_BIST, R116. -/
abbrev DS_BIST (i : Nat) : Nat := 0x1000024 + i * 0x10000
abbrev DS_BIST.RESULT : Fld := ⟨0, 2⟩
abbrev DS_BIST.FAIL_GROUP : Fld := ⟨8, 8⟩
abbrev DS_BIST.RUNS : Fld := ⟨16, 16⟩
/-- DS_IRQ_STATUS, R116. -/
abbrev DS_IRQ_STATUS (i : Nat) : Nat := 0x1000030 + i * 0x10000
abbrev DS_IRQ_STATUS.WDOG : Fld := ⟨0, 1⟩
abbrev DS_IRQ_STATUS.BIST_DONE : Fld := ⟨1, 1⟩
abbrev DS_IRQ_STATUS.BIST_FAIL : Fld := ⟨2, 1⟩
abbrev DS_IRQ_STATUS.ROLE_CHANGE : Fld := ⟨3, 1⟩
abbrev DS_IRQ_STATUS.FAULT : Fld := ⟨4, 1⟩
abbrev DS_IRQ_STATUS.UNIT_WAIT : Fld := ⟨5, 1⟩
abbrev DS_IRQ_STATUS.STREAM_ERR : Fld := ⟨6, 1⟩
/-- DS_IRQ_EN, R116. -/
abbrev DS_IRQ_EN (i : Nat) : Nat := 0x1000034 + i * 0x10000
abbrev DS_IRQ_EN.WDOG : Fld := ⟨0, 1⟩
abbrev DS_IRQ_EN.BIST_DONE : Fld := ⟨1, 1⟩
abbrev DS_IRQ_EN.BIST_FAIL : Fld := ⟨2, 1⟩
abbrev DS_IRQ_EN.ROLE_CHANGE : Fld := ⟨3, 1⟩
abbrev DS_IRQ_EN.FAULT : Fld := ⟨4, 1⟩
abbrev DS_IRQ_EN.UNIT_WAIT : Fld := ⟨5, 1⟩
abbrev DS_IRQ_EN.STREAM_ERR : Fld := ⟨6, 1⟩
/-- DS_FAULT_STATUS, R116. -/
abbrev DS_FAULT_STATUS (i : Nat) : Nat := 0x1000040 + i * 0x10000
/-- DS_FAULT_MASK, R116. -/
abbrev DS_FAULT_MASK (i : Nat) : Nat := 0x1000044 + i * 0x10000
abbrev DS_FAULT_MASK.MASK : Fld := ⟨0, 4⟩
/-- DS_FAULT_PIN_EN, R116. -/
abbrev DS_FAULT_PIN_EN (i : Nat) : Nat := 0x1000048 + i * 0x10000
abbrev DS_FAULT_PIN_EN.PIN_EN : Fld := ⟨0, 4⟩
/-- DS_FAULT_INJECT, R116. -/
abbrev DS_FAULT_INJECT (i : Nat) : Nat := 0x100004C + i * 0x10000
abbrev DS_FAULT_INJECT.COUNT : Fld := ⟨0, 8⟩
abbrev DS_FAULT_INJECT.DOUBLE : Fld := ⟨8, 1⟩
abbrev DS_FAULT_INJECT.SITE : Fld := ⟨9, 2⟩
/-- DS_CTX_BASE_LO, R117. -/
abbrev DS_CTX_BASE_LO : Nat := 0x1008000
abbrev DS_CTX_BASE_LO.VALID : Fld := ⟨0, 1⟩
abbrev DS_CTX_BASE_LO.BASE_LO : Fld := ⟨16, 16⟩
/-- DS_CTX_BASE_HI, R117. -/
abbrev DS_CTX_BASE_HI : Nat := 0x1008004
abbrev DS_CTX_BASE_HI.BASE_HI : Fld := ⟨0, 32⟩
/-- DS_ROT_CFG, R117. -/
abbrev DS_ROT_CFG : Nat := 0x1008010
abbrev DS_ROT_CFG.PERIOD_H : Fld := ⟨0, 16⟩
/-- DS_ROT_CTL, R117. -/
abbrev DS_ROT_CTL : Nat := 0x1008014
abbrev DS_ROT_CTL.NOW : Fld := ⟨0, 1⟩
/-- DS_ROT_STATUS, R117. -/
abbrev DS_ROT_STATUS : Nat := 0x1008018
abbrev DS_ROT_STATUS.SLIPWAY : Fld := ⟨0, 4⟩
abbrev DS_ROT_STATUS.LAST_DRAINED : Fld := ⟨4, 4⟩
abbrev DS_ROT_STATUS.ELAPSED_MIN : Fld := ⟨16, 16⟩
/-- DS_UNIT_WAIT, R117. -/
abbrev DS_UNIT_WAIT : Nat := 0x1008020
abbrev DS_UNIT_WAIT.TIME_US : Fld := ⟨0, 16⟩
/-- DS_SCHED_STATUS, R117. -/
abbrev DS_SCHED_STATUS : Nat := 0x1008024
abbrev DS_SCHED_STATUS.OPEN : Fld := ⟨0, 10⟩
abbrev DS_SCHED_STATUS.READY : Fld := ⟨16, 10⟩
abbrev DS_SCHED_STATUS.GATHERING : Fld := ⟨26, 1⟩
/-- DS_DMG_BASE_LO, R174. -/
abbrev DS_DMG_BASE_LO : Nat := 0x1008040
abbrev DS_DMG_BASE_LO.VALID : Fld := ⟨0, 1⟩
abbrev DS_DMG_BASE_LO.BASE_LO : Fld := ⟨20, 12⟩
/-- DS_DMG_BASE_HI, R174. -/
abbrev DS_DMG_BASE_HI : Nat := 0x1008044
abbrev DS_DMG_BASE_HI.BASE_HI : Fld := ⟨0, 32⟩
/-- DS_CONCEAL_PICS, R174. -/
abbrev DS_CONCEAL_PICS : Nat := 0x1008048
abbrev DS_CONCEAL_PICS.PICTURES : Fld := ⟨0, 32⟩
/-- DS_REFMISS_PICS, R174. -/
abbrev DS_REFMISS_PICS : Nat := 0x100804C
abbrev DS_REFMISS_PICS.PICTURES : Fld := ⟨0, 32⟩
/-- DS_LOST_PICS, R174. -/
abbrev DS_LOST_PICS : Nat := 0x1008050
abbrev DS_LOST_PICS.PICTURES : Fld := ⟨0, 32⟩
/-- DS_GATE_WAITS, R174. -/
abbrev DS_GATE_WAITS : Nat := 0x1008054
abbrev DS_GATE_WAITS.WAITS : Fld := ⟨0, 32⟩
/-- DS_PPT, R117. -/
abbrev DS_PPT (i j : Nat) : Nat := 0x100C000 + i * 0x20 + j * 0x4
abbrev DS_PPT.WORD : Fld := ⟨0, 32⟩
/-- EN_STATUS, R208. -/
abbrev EN_STATUS (i : Nat) : Nat := 0x1200000 + i * 0x10000
abbrev EN_STATUS.BUSY : Fld := ⟨0, 1⟩
abbrev EN_STATUS.WAITING : Fld := ⟨1, 1⟩
abbrev EN_STATUS.SESSION : Fld := ⟨2, 4⟩
/-- EN_PIC_COUNT, R208. -/
abbrev EN_PIC_COUNT (i : Nat) : Nat := 0x1200004 + i * 0x10000
abbrev EN_PIC_COUNT.PICTURES : Fld := ⟨0, 32⟩
/-- EN_EBB_COUNT, R208. -/
abbrev EN_EBB_COUNT (i : Nat) : Nat := 0x1200008 + i * 0x10000
abbrev EN_EBB_COUNT.EBB_PICS : Fld := ⟨0, 16⟩
abbrev EN_EBB_COUNT.FORCED_PICS : Fld := ⟨16, 16⟩
/-- EN_HRD_SHORT, R208. -/
abbrev EN_HRD_SHORT (i : Nat) : Nat := 0x120000C + i * 0x10000
abbrev EN_HRD_SHORT.PICTURES : Fld := ⟨0, 32⟩
/-- EN_IRQ_STATUS, R208. -/
abbrev EN_IRQ_STATUS (i : Nat) : Nat := 0x1200030 + i * 0x10000
abbrev EN_IRQ_STATUS.JOB_ERR : Fld := ⟨0, 1⟩
abbrev EN_IRQ_STATUS.EBB : Fld := ⟨1, 1⟩
abbrev EN_IRQ_STATUS.SOURCE_LOST : Fld := ⟨2, 1⟩
abbrev EN_IRQ_STATUS.FAULT : Fld := ⟨3, 1⟩
/-- EN_IRQ_EN, R208. -/
abbrev EN_IRQ_EN (i : Nat) : Nat := 0x1200034 + i * 0x10000
abbrev EN_IRQ_EN.JOB_ERR : Fld := ⟨0, 1⟩
abbrev EN_IRQ_EN.EBB : Fld := ⟨1, 1⟩
abbrev EN_IRQ_EN.SOURCE_LOST : Fld := ⟨2, 1⟩
abbrev EN_IRQ_EN.FAULT : Fld := ⟨3, 1⟩
/-- EN_FAULT_STATUS, R208. -/
abbrev EN_FAULT_STATUS (i : Nat) : Nat := 0x1200040 + i * 0x10000
/-- EN_FAULT_MASK, R208. -/
abbrev EN_FAULT_MASK (i : Nat) : Nat := 0x1200044 + i * 0x10000
abbrev EN_FAULT_MASK.MASK : Fld := ⟨0, 3⟩
/-- EN_FAULT_PIN_EN, R208. -/
abbrev EN_FAULT_PIN_EN (i : Nat) : Nat := 0x1200048 + i * 0x10000
abbrev EN_FAULT_PIN_EN.PIN_EN : Fld := ⟨0, 3⟩
/-- EN_FAULT_INJECT, R208. -/
abbrev EN_FAULT_INJECT (i : Nat) : Nat := 0x120004C + i * 0x10000
abbrev EN_FAULT_INJECT.COUNT : Fld := ⟨0, 8⟩
abbrev EN_FAULT_INJECT.DOUBLE : Fld := ⟨8, 1⟩
abbrev EN_FAULT_INJECT.SITE : Fld := ⟨9, 2⟩
/-- EN_SESS_BASE_LO, R208. -/
abbrev EN_SESS_BASE_LO : Nat := 0x1208000
abbrev EN_SESS_BASE_LO.VALID : Fld := ⟨0, 1⟩
abbrev EN_SESS_BASE_LO.BASE_LO : Fld := ⟨12, 20⟩
/-- EN_SESS_BASE_HI, R208. -/
abbrev EN_SESS_BASE_HI : Nat := 0x1208004
abbrev EN_SESS_BASE_HI.BASE_HI : Fld := ⟨0, 32⟩
/-- CMP_CTL, R248. -/
abbrev CMP_CTL : Nat := 0x1400000
abbrev CMP_CTL.HOLD : Fld := ⟨0, 1⟩
/-- CMP_STATUS, R248. -/
abbrev CMP_STATUS : Nat := 0x1400004
abbrev CMP_STATUS.FRAME : Fld := ⟨0, 24⟩
abbrev CMP_STATUS.IN_HOLD : Fld := ⟨24, 1⟩
abbrev CMP_STATUS.HOLD_DRC : Fld := ⟨25, 1⟩
/-- CMP_CANVAS_SIZE, R248. -/
abbrev CMP_CANVAS_SIZE : Nat := 0x1400008
abbrev CMP_CANVAS_SIZE.WIDTH : Fld := ⟨0, 16⟩
abbrev CMP_CANVAS_SIZE.HEIGHT : Fld := ⟨16, 16⟩
/-- CMP_CANVAS_SPACE, R248. -/
abbrev CMP_CANVAS_SPACE : Nat := 0x140000C
abbrev CMP_CANVAS_SPACE.XFER : Fld := ⟨0, 2⟩
abbrev CMP_CANVAS_SPACE.PRIM : Fld := ⟨2, 1⟩
/-- CMP_LINE_CYC, R248. -/
abbrev CMP_LINE_CYC : Nat := 0x1400010
abbrev CMP_LINE_CYC.LINE_CYC : Fld := ⟨0, 16⟩
/-- CMP_SCAN_START, R248. -/
abbrev CMP_SCAN_START : Nat := 0x1400014
abbrev CMP_SCAN_START.SCAN_START : Fld := ⟨0, 24⟩
/-- CMP_BG_RG, R248. -/
abbrev CMP_BG_RG : Nat := 0x1400018
abbrev CMP_BG_RG.BG_R : Fld := ⟨0, 12⟩
abbrev CMP_BG_RG.BG_G : Fld := ⟨16, 12⟩
/-- CMP_BG_BA, R248. -/
abbrev CMP_BG_BA : Nat := 0x140001C
abbrev CMP_BG_BA.BG_B : Fld := ⟨0, 12⟩
abbrev CMP_BG_BA.BG_A : Fld := ⟨16, 10⟩
/-- CMP_COVERAGE, R248. -/
abbrev CMP_COVERAGE : Nat := 0x1400020
abbrev CMP_COVERAGE.PIX64 : Fld := ⟨0, 32⟩
/-- CMP_ALLOWANCE, R248. -/
abbrev CMP_ALLOWANCE : Nat := 0x1400024
abbrev CMP_ALLOWANCE.PIX64 : Fld := ⟨0, 32⟩
/-- CMP_UPD_ERR, R248. -/
abbrev CMP_UPD_ERR : Nat := 0x1400028
abbrev CMP_UPD_ERR.LAYER : Fld := ⟨0, 6⟩
abbrev CMP_UPD_ERR.CAUSE : Fld := ⟨8, 4⟩
abbrev CMP_UPD_ERR.COUNT : Fld := ⟨16, 16⟩
/-- CMP_LATE_LINES, R248. -/
abbrev CMP_LATE_LINES : Nat := 0x140002C
abbrev CMP_LATE_LINES.LINES : Fld := ⟨0, 32⟩
/-- CMP_IRQ_STATUS, R248. -/
abbrev CMP_IRQ_STATUS : Nat := 0x1400040
abbrev CMP_IRQ_STATUS.GUARD : Fld := ⟨0, 1⟩
abbrev CMP_IRQ_STATUS.GUARD_MISS : Fld := ⟨1, 1⟩
abbrev CMP_IRQ_STATUS.FAR_MISS : Fld := ⟨2, 1⟩
abbrev CMP_IRQ_STATUS.OVERDRAW : Fld := ⟨3, 1⟩
abbrev CMP_IRQ_STATUS.HOLD : Fld := ⟨4, 1⟩
abbrev CMP_IRQ_STATUS.WB_DROP : Fld := ⟨5, 1⟩
abbrev CMP_IRQ_STATUS.TOUCH_DROP : Fld := ⟨6, 1⟩
abbrev CMP_IRQ_STATUS.FAULT : Fld := ⟨7, 1⟩
/-- CMP_IRQ_EN, R248. -/
abbrev CMP_IRQ_EN : Nat := 0x1400044
abbrev CMP_IRQ_EN.GUARD : Fld := ⟨0, 1⟩
abbrev CMP_IRQ_EN.GUARD_MISS : Fld := ⟨1, 1⟩
abbrev CMP_IRQ_EN.FAR_MISS : Fld := ⟨2, 1⟩
abbrev CMP_IRQ_EN.OVERDRAW : Fld := ⟨3, 1⟩
abbrev CMP_IRQ_EN.HOLD : Fld := ⟨4, 1⟩
abbrev CMP_IRQ_EN.WB_DROP : Fld := ⟨5, 1⟩
abbrev CMP_IRQ_EN.TOUCH_DROP : Fld := ⟨6, 1⟩
abbrev CMP_IRQ_EN.FAULT : Fld := ⟨7, 1⟩
/-- CMP_FAULT_STATUS, R248. -/
abbrev CMP_FAULT_STATUS : Nat := 0x1400050
/-- CMP_FAULT_MASK, R248. -/
abbrev CMP_FAULT_MASK : Nat := 0x1400054
abbrev CMP_FAULT_MASK.MASK : Fld := ⟨0, 5⟩
/-- CMP_FAULT_PIN_EN, R248. -/
abbrev CMP_FAULT_PIN_EN : Nat := 0x1400058
abbrev CMP_FAULT_PIN_EN.PIN_EN : Fld := ⟨0, 5⟩
/-- CMP_FAULT_INJECT, R248. -/
abbrev CMP_FAULT_INJECT : Nat := 0x140005C
abbrev CMP_FAULT_INJECT.COUNT : Fld := ⟨0, 8⟩
abbrev CMP_FAULT_INJECT.DOUBLE : Fld := ⟨8, 1⟩
abbrev CMP_FAULT_INJECT.SITE : Fld := ⟨9, 2⟩
/-- CMP_XFER_SRC_LO, R248. -/
abbrev CMP_XFER_SRC_LO (i : Nat) : Nat := 0x1400100 + i * 0x10
abbrev CMP_XFER_SRC_LO.ADDR_LO : Fld := ⟨6, 26⟩
/-- CMP_XFER_SRC_HI, R248. -/
abbrev CMP_XFER_SRC_HI (i : Nat) : Nat := 0x1400104 + i * 0x10
abbrev CMP_XFER_SRC_HI.ADDR_HI : Fld := ⟨0, 32⟩
/-- CMP_XFER_CTL, R248. -/
abbrev CMP_XFER_CTL (i : Nat) : Nat := 0x1400108 + i * 0x10
abbrev CMP_XFER_CTL.LOAD : Fld := ⟨0, 1⟩
abbrev CMP_XFER_CTL.PENDING : Fld := ⟨1, 1⟩
abbrev CMP_XFER_CTL.VALID : Fld := ⟨2, 1⟩
abbrev CMP_XFER_CTL.ERROR : Fld := ⟨3, 1⟩
/-- CMP_WB_CFG, R248. -/
abbrev CMP_WB_CFG : Nat := 0x1400200
abbrev CMP_WB_CFG.EN : Fld := ⟨0, 1⟩
abbrev CMP_WB_CFG.FMT : Fld := ⟨1, 2⟩
abbrev CMP_WB_CFG.FX_M1 : Fld := ⟨3, 4⟩
abbrev CMP_WB_CFG.FY_M1 : Fld := ⟨7, 4⟩
abbrev CMP_WB_CFG.POOL : Fld := ⟨11, 3⟩
abbrev CMP_WB_CFG.SPILL_UP : Fld := ⟨14, 1⟩
/-- CMP_WB_WIN_XY, R248. -/
abbrev CMP_WB_WIN_XY : Nat := 0x1400204
abbrev CMP_WB_WIN_XY.WIN_X : Fld := ⟨0, 16⟩
abbrev CMP_WB_WIN_XY.WIN_Y : Fld := ⟨16, 16⟩
/-- CMP_WB_WIN_WH, R248. -/
abbrev CMP_WB_WIN_WH : Nat := 0x1400208
abbrev CMP_WB_WIN_WH.WIN_W : Fld := ⟨0, 16⟩
abbrev CMP_WB_WIN_WH.WIN_H : Fld := ⟨16, 16⟩
/-- CMP_WB_STATUS, R248. -/
abbrev CMP_WB_STATUS : Nat := 0x140020C
abbrev CMP_WB_STATUS.PPT_BASE : Fld := ⟨0, 9⟩
abbrev CMP_WB_STATUS.PPT_FAIL : Fld := ⟨9, 1⟩
abbrev CMP_WB_STATUS.CFG_ERR : Fld := ⟨10, 1⟩
abbrev CMP_WB_STATUS.DROPS : Fld := ⟨16, 16⟩
/-- CMP_GUARD_CTL, R248. -/
abbrev CMP_GUARD_CTL : Nat := 0x1400300
abbrev CMP_GUARD_CTL.EN : Fld := ⟨0, 1⟩
/-- CMP_GR_FORCED, R248. -/
abbrev CMP_GR_FORCED (i : Nat) : Nat := 0x1400304 + i * 0x4
abbrev CMP_GR_FORCED.FORCED : Fld := ⟨0, 32⟩
/-- CMP_TOUCH_CFG, R248. -/
abbrev CMP_TOUCH_CFG : Nat := 0x1400380
abbrev CMP_TOUCH_CFG.EN : Fld := ⟨0, 1⟩
abbrev CMP_TOUCH_CFG.ECHO_EN : Fld := ⟨1, 1⟩
abbrev CMP_TOUCH_CFG.ECHO_LAYER : Fld := ⟨8, 6⟩
abbrev CMP_TOUCH_CFG.CQ : Fld := ⟨16, 8⟩
/-- CMP_TOUCH_SPRITE, R248. -/
abbrev CMP_TOUCH_SPRITE : Nat := 0x1400384
abbrev CMP_TOUCH_SPRITE.HANDLE : Fld := ⟨0, 32⟩
/-- CMP_TOUCH_SPRITE_SIZE, R248. -/
abbrev CMP_TOUCH_SPRITE_SIZE : Nat := 0x1400388
abbrev CMP_TOUCH_SPRITE_SIZE.W : Fld := ⟨0, 7⟩
abbrev CMP_TOUCH_SPRITE_SIZE.H : Fld := ⟨8, 7⟩
abbrev CMP_TOUCH_SPRITE_SIZE.LOAD : Fld := ⟨31, 1⟩
/-- CMP_TOUCH_STATUS, R248. -/
abbrev CMP_TOUCH_STATUS : Nat := 0x140038C
abbrev CMP_TOUCH_STATUS.CONTACTS : Fld := ⟨0, 9⟩
abbrev CMP_TOUCH_STATUS.TOUCH_DROPS : Fld := ⟨16, 16⟩
/-- CMP_GR_RECT0, R248. -/
abbrev CMP_GR_RECT0 (i : Nat) : Nat := 0x1400400 + i * 0x10
abbrev CMP_GR_RECT0.X : Fld := ⟨0, 16⟩
abbrev CMP_GR_RECT0.Y : Fld := ⟨16, 16⟩
/-- CMP_GR_RECT1, R248. -/
abbrev CMP_GR_RECT1 (i : Nat) : Nat := 0x1400404 + i * 0x10
abbrev CMP_GR_RECT1.W : Fld := ⟨0, 16⟩
abbrev CMP_GR_RECT1.H : Fld := ⟨16, 16⟩
/-- CMP_GR_EXPECT, R248. -/
abbrev CMP_GR_EXPECT (i : Nat) : Nat := 0x1400408 + i * 0x10
abbrev CMP_GR_EXPECT.EXPECT : Fld := ⟨0, 32⟩
/-- CMP_GR_CFG, R248. -/
abbrev CMP_GR_CFG (i : Nat) : Nat := 0x140040C + i * 0x10
abbrev CMP_GR_CFG.EN : Fld := ⟨0, 1⟩
abbrev CMP_GR_CFG.FAR_EN : Fld := ⟨1, 1⟩
abbrev CMP_GR_CFG.FORCE_EN : Fld := ⟨2, 1⟩
abbrev CMP_GR_CFG.FORCED : Fld := ⟨3, 1⟩
abbrev CMP_GR_CFG.MISS_RUN : Fld := ⟨8, 8⟩
abbrev CMP_GR_CFG.MISS_COUNT : Fld := ⟨16, 16⟩
/-- CMP_GR_CRC, R248. -/
abbrev CMP_GR_CRC (i : Nat) : Nat := 0x1400800 + i * 0x4
abbrev CMP_GR_CRC.CRC : Fld := ⟨0, 32⟩
/-- CMP_GR_CRC_FAR, R248. -/
abbrev CMP_GR_CRC_FAR (i : Nat) : Nat := 0x1400900 + i * 0x4
abbrev CMP_GR_CRC_FAR.FAR_COUNT : Fld := ⟨0, 16⟩
/-- CMP_L_ACT, R248. -/
abbrev CMP_L_ACT (i j : Nat) : Nat := 0x1410000 + i * 0x100 + j * 0x4
abbrev CMP_L_ACT.WORD : Fld := ⟨0, 32⟩
/-- CMP_L_SHD, R248. -/
abbrev CMP_L_SHD (i j : Nat) : Nat := 0x1410040 + i * 0x100 + j * 0x4
abbrev CMP_L_SHD.WORD : Fld := ⟨0, 32⟩
/-- CMP_L_STATE, R248. -/
abbrev CMP_L_STATE (i : Nat) : Nat := 0x1410080 + i * 0x100
abbrev CMP_L_STATE.COMMIT_GEN : Fld := ⟨0, 16⟩
abbrev CMP_L_STATE.ARMED : Fld := ⟨16, 1⟩
abbrev CMP_L_STATE.STATE : Fld := ⟨17, 3⟩
/-- CMP_L_PICTURE, R248. -/
abbrev CMP_L_PICTURE (i : Nat) : Nat := 0x1410084 + i * 0x100
abbrev CMP_L_PICTURE.HANDLE : Fld := ⟨0, 32⟩
/-- CMP_L_SEQ, R248. -/
abbrev CMP_L_SEQ (i : Nat) : Nat := 0x1410088 + i * 0x100
abbrev CMP_L_SEQ.PIC_SEQ : Fld := ⟨0, 16⟩
/-- CMP_L_REPEAT, R248. -/
abbrev CMP_L_REPEAT (i : Nat) : Nat := 0x141008C + i * 0x100
abbrev CMP_L_REPEAT.REPEAT_COUNT : Fld := ⟨0, 32⟩
/-- CMP_L_CHASE_LOST, R248. -/
abbrev CMP_L_CHASE_LOST (i : Nat) : Nat := 0x1410090 + i * 0x100
abbrev CMP_L_CHASE_LOST.CHASE_LOST : Fld := ⟨0, 32⟩
/-- CMP_L_IRQ_STATUS, R248. -/
abbrev CMP_L_IRQ_STATUS (i : Nat) : Nat := 0x14100A0 + i * 0x100
abbrev CMP_L_IRQ_STATUS.COMMIT : Fld := ⟨0, 1⟩
abbrev CMP_L_IRQ_STATUS.REPEAT : Fld := ⟨1, 1⟩
abbrev CMP_L_IRQ_STATUS.CHASE_LOST : Fld := ⟨2, 1⟩
abbrev CMP_L_IRQ_STATUS.SOURCE_ERR : Fld := ⟨3, 1⟩
abbrev CMP_L_IRQ_STATUS.OVERDRAW : Fld := ⟨4, 1⟩
/-- CMP_L_IRQ_EN, R248. -/
abbrev CMP_L_IRQ_EN (i : Nat) : Nat := 0x14100A4 + i * 0x100
abbrev CMP_L_IRQ_EN.COMMIT : Fld := ⟨0, 1⟩
abbrev CMP_L_IRQ_EN.REPEAT : Fld := ⟨1, 1⟩
abbrev CMP_L_IRQ_EN.CHASE_LOST : Fld := ⟨2, 1⟩
abbrev CMP_L_IRQ_EN.SOURCE_ERR : Fld := ⟨3, 1⟩
abbrev CMP_L_IRQ_EN.OVERDRAW : Fld := ⟨4, 1⟩
/-- LMP_CTL, R272. -/
abbrev LMP_CTL : Nat := 0x1600000
abbrev LMP_CTL.EN : Fld := ⟨0, 1⟩
abbrev LMP_CTL.AUTO_ACCEPT : Fld := ⟨1, 1⟩
abbrev LMP_CTL.REPLACE_FILL : Fld := ⟨2, 1⟩
abbrev LMP_CTL.DITHER_EN : Fld := ⟨3, 1⟩
abbrev LMP_CTL.TEMPORAL : Fld := ⟨4, 1⟩
/-- LMP_LAMPS, R272. -/
abbrev LMP_LAMPS : Nat := 0x1600004
abbrev LMP_LAMPS.LAMPS : Fld := ⟨0, 29⟩
/-- LMP_TILE_COUNT, R272. -/
abbrev LMP_TILE_COUNT : Nat := 0x1600008
abbrev LMP_TILE_COUNT.LIT : Fld := ⟨0, 17⟩
/-- LMP_GAIN_BASE_LO, R272. -/
abbrev LMP_GAIN_BASE_LO : Nat := 0x1600010
abbrev LMP_GAIN_BASE_LO.BASE_LO : Fld := ⟨6, 26⟩
/-- LMP_GAIN_BASE_HI, R272. -/
abbrev LMP_GAIN_BASE_HI : Nat := 0x1600014
abbrev LMP_GAIN_BASE_HI.BASE_HI : Fld := ⟨0, 32⟩
/-- LMP_GAIN_SIZE, R272. -/
abbrev LMP_GAIN_SIZE : Nat := 0x1600018
abbrev LMP_GAIN_SIZE.LAMPS : Fld := ⟨0, 29⟩
/-- LMP_HEADROOM_RG, R272. -/
abbrev LMP_HEADROOM_RG : Nat := 0x1600020
abbrev LMP_HEADROOM_RG.HR_R : Fld := ⟨0, 16⟩
abbrev LMP_HEADROOM_RG.HR_G : Fld := ⟨16, 16⟩
/-- LMP_HEADROOM_B, R272. -/
abbrev LMP_HEADROOM_B : Nat := 0x1600024
abbrev LMP_HEADROOM_B.HR_B : Fld := ⟨0, 16⟩
/-- LMP_EOTF_SRC_LO, R272. -/
abbrev LMP_EOTF_SRC_LO : Nat := 0x1600030
abbrev LMP_EOTF_SRC_LO.ADDR_LO : Fld := ⟨6, 26⟩
/-- LMP_EOTF_SRC_HI, R272. -/
abbrev LMP_EOTF_SRC_HI : Nat := 0x1600034
abbrev LMP_EOTF_SRC_HI.ADDR_HI : Fld := ⟨0, 32⟩
/-- LMP_EOTF_CTL, R272. -/
abbrev LMP_EOTF_CTL : Nat := 0x1600038
abbrev LMP_EOTF_CTL.LOAD : Fld := ⟨0, 1⟩
abbrev LMP_EOTF_CTL.PENDING : Fld := ⟨1, 1⟩
abbrev LMP_EOTF_CTL.VALID : Fld := ⟨2, 1⟩
abbrev LMP_EOTF_CTL.ERROR : Fld := ⟨3, 1⟩
/-- LMP_MTX_SRC_LO, R272. -/
abbrev LMP_MTX_SRC_LO : Nat := 0x1600040
abbrev LMP_MTX_SRC_LO.ADDR_LO : Fld := ⟨5, 27⟩
/-- LMP_MTX_SRC_HI, R272. -/
abbrev LMP_MTX_SRC_HI : Nat := 0x1600044
abbrev LMP_MTX_SRC_HI.ADDR_HI : Fld := ⟨0, 32⟩
/-- LMP_MTX_CTL, R272. -/
abbrev LMP_MTX_CTL : Nat := 0x1600048
abbrev LMP_MTX_CTL.FIRST : Fld := ⟨0, 16⟩
abbrev LMP_MTX_CTL.ERROR : Fld := ⟨29, 1⟩
abbrev LMP_MTX_CTL.BUSY : Fld := ⟨30, 1⟩
abbrev LMP_MTX_CTL.GO : Fld := ⟨31, 1⟩
/-- LMP_MTX_COUNT, R272. -/
abbrev LMP_MTX_COUNT : Nat := 0x160004C
abbrev LMP_MTX_COUNT.COUNT : Fld := ⟨0, 17⟩
/-- LMP_LEVEL, R272. -/
abbrev LMP_LEVEL : Nat := 0x1600050
abbrev LMP_LEVEL.LEVEL : Fld := ⟨0, 24⟩
/-- LMP_LEVEL_MAX, R272. -/
abbrev LMP_LEVEL_MAX : Nat := 0x1600054
abbrev LMP_LEVEL_MAX.LEVEL_MAX : Fld := ⟨0, 24⟩
/-- LMP_LEVEL_MIN, R272. -/
abbrev LMP_LEVEL_MIN : Nat := 0x1600058
abbrev LMP_LEVEL_MIN.LEVEL_MIN : Fld := ⟨0, 24⟩
/-- LMP_HRM_CTL, R272. -/
abbrev LMP_HRM_CTL : Nat := 0x160005C
abbrev LMP_HRM_CTL.EN : Fld := ⟨0, 1⟩
/-- LMP_HRM_STATUS, R272. -/
abbrev LMP_HRM_STATUS : Nat := 0x1600060
abbrev LMP_HRM_STATUS.TARGET : Fld := ⟨0, 24⟩
abbrev LMP_HRM_STATUS.AT_FLOOR : Fld := ⟨24, 1⟩
/-- LMP_NEED_MAX, R272. -/
abbrev LMP_NEED_MAX (i : Nat) : Nat := 0x1600064 + i * 0x4
abbrev LMP_NEED_MAX.NEED_MAX : Fld := ⟨0, 23⟩
/-- LMP_EXH_TILES, R272. -/
abbrev LMP_EXH_TILES : Nat := 0x1600070
abbrev LMP_EXH_TILES.TILES : Fld := ⟨0, 17⟩
/-- LMP_PLACEHOLDER_RG, R272. -/
abbrev LMP_PLACEHOLDER_RG : Nat := 0x1600080
abbrev LMP_PLACEHOLDER_RG.PH_R : Fld := ⟨0, 16⟩
abbrev LMP_PLACEHOLDER_RG.PH_G : Fld := ⟨16, 16⟩
/-- LMP_PLACEHOLDER_B, R272. -/
abbrev LMP_PLACEHOLDER_B : Nat := 0x1600084
abbrev LMP_PLACEHOLDER_B.PH_B : Fld := ⟨0, 16⟩
/-- LMP_TM_ERR, R272. -/
abbrev LMP_TM_ERR : Nat := 0x1600090
abbrev LMP_TM_ERR.TILE : Fld := ⟨0, 16⟩
abbrev LMP_TM_ERR.CAUSE : Fld := ⟨16, 4⟩
abbrev LMP_TM_ERR.COUNT : Fld := ⟨20, 12⟩
/-- LMP_TM_SEL, R272. -/
abbrev LMP_TM_SEL : Nat := 0x16000A0
abbrev LMP_TM_SEL.TILE : Fld := ⟨0, 16⟩
/-- LMP_TM_DATA, R272. -/
abbrev LMP_TM_DATA (i : Nat) : Nat := 0x16000A4 + i * 0x4
abbrev LMP_TM_DATA.WORD : Fld := ⟨0, 32⟩
/-- LMP_TM_REP, R272. -/
abbrev LMP_TM_REP (i : Nat) : Nat := 0x16000C4 + i * 0x4
abbrev LMP_TM_REP.SERIAL : Fld := ⟨0, 32⟩
/-- LMP_TM_STATE, R272. -/
abbrev LMP_TM_STATE : Nat := 0x16000CC
abbrev LMP_TM_STATE.STATE : Fld := ⟨0, 3⟩
abbrev LMP_TM_STATE.EXHAUSTED : Fld := ⟨3, 1⟩
/-- LMP_STRG_COUNT, R272. -/
abbrev LMP_STRG_COUNT : Nat := 0x16000D0
abbrev LMP_STRG_COUNT.LISTED : Fld := ⟨0, 9⟩
abbrev LMP_STRG_COUNT.OVERFLOW : Fld := ⟨16, 16⟩
/-- LMP_IRQ_STATUS, R272. -/
abbrev LMP_IRQ_STATUS : Nat := 0x16000E0
abbrev LMP_IRQ_STATUS.STATE : Fld := ⟨0, 1⟩
abbrev LMP_IRQ_STATUS.STRANGER : Fld := ⟨1, 1⟩
abbrev LMP_IRQ_STATUS.REPLACED : Fld := ⟨2, 1⟩
abbrev LMP_IRQ_STATUS.MISPLACED : Fld := ⟨3, 1⟩
abbrev LMP_IRQ_STATUS.EXHAUSTED : Fld := ⟨4, 1⟩
abbrev LMP_IRQ_STATUS.LEVEL : Fld := ⟨5, 1⟩
abbrev LMP_IRQ_STATUS.TM_ERR : Fld := ⟨6, 1⟩
abbrev LMP_IRQ_STATUS.FAULT : Fld := ⟨7, 1⟩
/-- LMP_IRQ_EN, R272. -/
abbrev LMP_IRQ_EN : Nat := 0x16000E4
abbrev LMP_IRQ_EN.STATE : Fld := ⟨0, 1⟩
abbrev LMP_IRQ_EN.STRANGER : Fld := ⟨1, 1⟩
abbrev LMP_IRQ_EN.REPLACED : Fld := ⟨2, 1⟩
abbrev LMP_IRQ_EN.MISPLACED : Fld := ⟨3, 1⟩
abbrev LMP_IRQ_EN.EXHAUSTED : Fld := ⟨4, 1⟩
abbrev LMP_IRQ_EN.LEVEL : Fld := ⟨5, 1⟩
abbrev LMP_IRQ_EN.TM_ERR : Fld := ⟨6, 1⟩
abbrev LMP_IRQ_EN.FAULT : Fld := ⟨7, 1⟩
/-- LMP_FAULT_STATUS, R272. -/
abbrev LMP_FAULT_STATUS : Nat := 0x16000F0
/-- LMP_FAULT_MASK, R272. -/
abbrev LMP_FAULT_MASK : Nat := 0x16000F4
abbrev LMP_FAULT_MASK.MASK : Fld := ⟨0, 3⟩
/-- LMP_FAULT_PIN_EN, R272. -/
abbrev LMP_FAULT_PIN_EN : Nat := 0x16000F8
abbrev LMP_FAULT_PIN_EN.PIN_EN : Fld := ⟨0, 3⟩
/-- LMP_FAULT_INJECT, R272. -/
abbrev LMP_FAULT_INJECT : Nat := 0x16000FC
abbrev LMP_FAULT_INJECT.COUNT : Fld := ⟨0, 8⟩
abbrev LMP_FAULT_INJECT.DOUBLE : Fld := ⟨8, 1⟩
abbrev LMP_FAULT_INJECT.SITE : Fld := ⟨9, 2⟩
/-- LMP_STRG_LO, R272. -/
abbrev LMP_STRG_LO (i : Nat) : Nat := 0x1600400 + i * 0x10
abbrev LMP_STRG_LO.SERIAL : Fld := ⟨0, 32⟩
/-- LMP_STRG_HI, R272. -/
abbrev LMP_STRG_HI (i : Nat) : Nat := 0x1600404 + i * 0x10
abbrev LMP_STRG_HI.SERIAL : Fld := ⟨0, 32⟩
/-- LMP_STRG_POS, R272. -/
abbrev LMP_STRG_POS (i : Nat) : Nat := 0x1600408 + i * 0x10
abbrev LMP_STRG_POS.LANE : Fld := ⟨0, 6⟩
abbrev LMP_STRG_POS.POS : Fld := ⟨6, 10⟩
abbrev LMP_STRG_POS.VALID : Fld := ⟨31, 1⟩
/-- LMP_TSTATE, R272. -/
abbrev LMP_TSTATE (i : Nat) : Nat := 0x1610000 + i * 0x4
abbrev LMP_TSTATE.STATES : Fld := ⟨0, 32⟩
/-- LMP_EXH_BITMAP, R272. -/
abbrev LMP_EXH_BITMAP (i : Nat) : Nat := 0x1618000 + i * 0x4
abbrev LMP_EXH_BITMAP.EXHAUSTED : Fld := ⟨0, 32⟩
/-- LDG_CFG, R302. -/
abbrev LDG_CFG : Nat := 0x1700000
abbrev LDG_CFG.SAMPLE_N : Fld := ⟨0, 9⟩
abbrev LDG_CFG.EPOCH_H : Fld := ⟨16, 5⟩
abbrev LDG_CFG.COMMIT_S : Fld := ⟨24, 8⟩
/-- LDG_STATUS, R302. -/
abbrev LDG_STATUS : Nat := 0x1700004
abbrev LDG_STATUS.STATE : Fld := ⟨0, 2⟩
abbrev LDG_STATUS.SUM_VALID : Fld := ⟨2, 1⟩
abbrev LDG_STATUS.PASS : Fld := ⟨3, 1⟩
abbrev LDG_STATUS.STORE_FAIL : Fld := ⟨4, 1⟩
/-- LDG_EPOCH, R302. -/
abbrev LDG_EPOCH : Nat := 0x1700008
abbrev LDG_EPOCH.EPOCH : Fld := ⟨0, 32⟩
/-- LDG_PASS, R302. -/
abbrev LDG_PASS : Nat := 0x170000C
abbrev LDG_PASS.TILE : Fld := ⟨0, 17⟩
/-- LDG_SAMPLES, R302. -/
abbrev LDG_SAMPLES : Nat := 0x1700010
abbrev LDG_SAMPLES.S : Fld := ⟨0, 32⟩
/-- LDG_K, R302. -/
abbrev LDG_K : Nat := 0x1700014
abbrev LDG_K.K : Fld := ⟨0, 32⟩
/-- LDG_ACC_BASE_LO, R302. -/
abbrev LDG_ACC_BASE_LO : Nat := 0x1700020
abbrev LDG_ACC_BASE_LO.ADDR_LO : Fld := ⟨6, 26⟩
/-- LDG_ACC_BASE_HI, R302. -/
abbrev LDG_ACC_BASE_HI : Nat := 0x1700024
abbrev LDG_ACC_BASE_HI.ADDR_HI : Fld := ⟨0, 32⟩
/-- LDG_BL_BASE_LO, R302. -/
abbrev LDG_BL_BASE_LO : Nat := 0x1700028
abbrev LDG_BL_BASE_LO.ADDR_LO : Fld := ⟨6, 26⟩
/-- LDG_BL_BASE_HI, R302. -/
abbrev LDG_BL_BASE_HI : Nat := 0x170002C
abbrev LDG_BL_BASE_HI.ADDR_HI : Fld := ⟨0, 32⟩
/-- LDG_STAGE_BASE_LO, R302. -/
abbrev LDG_STAGE_BASE_LO : Nat := 0x1700030
abbrev LDG_STAGE_BASE_LO.ADDR_LO : Fld := ⟨6, 26⟩
/-- LDG_STAGE_BASE_HI, R302. -/
abbrev LDG_STAGE_BASE_HI : Nat := 0x1700034
abbrev LDG_STAGE_BASE_HI.ADDR_HI : Fld := ⟨0, 32⟩
/-- LDG_TEMP_CFG, R302. -/
abbrev LDG_TEMP_CFG : Nat := 0x1700040
abbrev LDG_TEMP_CFG.T0 : Fld := ⟨0, 8⟩
abbrev LDG_TEMP_CFG.TSHIFT : Fld := ⟨8, 3⟩
abbrev LDG_TEMP_CFG.TDEF : Fld := ⟨12, 4⟩
abbrev LDG_TEMP_CFG.STALE_S : Fld := ⟨16, 16⟩
/-- LDG_TEMPW, R302. -/
abbrev LDG_TEMPW (i : Nat) : Nat := 0x1700080 + i * 0x4
abbrev LDG_TEMPW.W : Fld := ⟨0, 12⟩
/-- LDG_CALIB_CFG, R302. -/
abbrev LDG_CALIB_CFG : Nat := 0x17000C0
abbrev LDG_CALIB_CFG.TIMEOUT_MS : Fld := ⟨0, 16⟩
/-- LDG_STORE, R302. -/
abbrev LDG_STORE : Nat := 0x17000D0
abbrev LDG_STORE.PRESENT : Fld := ⟨0, 1⟩
abbrev LDG_STORE.LABEL_OK : Fld := ⟨1, 1⟩
abbrev LDG_STORE.LIFE_A : Fld := ⟨4, 4⟩
abbrev LDG_STORE.LIFE_B : Fld := ⟨8, 4⟩
abbrev LDG_STORE.IO_ERRORS : Fld := ⟨16, 16⟩
/-- LDG_STORE_SIZE, R302. -/
abbrev LDG_STORE_SIZE : Nat := 0x17000D4
abbrev LDG_STORE_SIZE.MIB : Fld := ⟨0, 32⟩
/-- LDG_COMMIT, R302. -/
abbrev LDG_COMMIT : Nat := 0x17000E0
abbrev LDG_COMMIT.COMMIT_SEQ : Fld := ⟨0, 32⟩
/-- LDG_PF, R302. -/
abbrev LDG_PF : Nat := 0x17000E4
abbrev LDG_PF.PF_TIME_US : Fld := ⟨0, 13⟩
abbrev LDG_PF.DONE : Fld := ⟨13, 1⟩
abbrev LDG_PF.PF_TIME_MS : Fld := ⟨16, 16⟩
/-- LDG_JOURNAL, R302. -/
abbrev LDG_JOURNAL : Nat := 0x17000E8
abbrev LDG_JOURNAL.FREE_MIB : Fld := ⟨0, 16⟩
abbrev LDG_JOURNAL.ENTRIES : Fld := ⟨16, 16⟩
/-- LDG_IRQ_STATUS, R302. -/
abbrev LDG_IRQ_STATUS : Nat := 0x1700100
abbrev LDG_IRQ_STATUS.EPOCH_DONE : Fld := ⟨0, 1⟩
abbrev LDG_IRQ_STATUS.STORE_ERR : Fld := ⟨1, 1⟩
abbrev LDG_IRQ_STATUS.COMMIT_FAIL : Fld := ⟨2, 1⟩
abbrev LDG_IRQ_STATUS.RESTORED : Fld := ⟨3, 1⟩
abbrev LDG_IRQ_STATUS.UNMATCHED : Fld := ⟨4, 1⟩
abbrev LDG_IRQ_STATUS.EPOCH_LATE : Fld := ⟨5, 1⟩
abbrev LDG_IRQ_STATUS.STORE_WEAR : Fld := ⟨6, 1⟩
abbrev LDG_IRQ_STATUS.FAULT : Fld := ⟨7, 1⟩
/-- LDG_IRQ_EN, R302. -/
abbrev LDG_IRQ_EN : Nat := 0x1700104
abbrev LDG_IRQ_EN.EPOCH_DONE : Fld := ⟨0, 1⟩
abbrev LDG_IRQ_EN.STORE_ERR : Fld := ⟨1, 1⟩
abbrev LDG_IRQ_EN.COMMIT_FAIL : Fld := ⟨2, 1⟩
abbrev LDG_IRQ_EN.RESTORED : Fld := ⟨3, 1⟩
abbrev LDG_IRQ_EN.UNMATCHED : Fld := ⟨4, 1⟩
abbrev LDG_IRQ_EN.EPOCH_LATE : Fld := ⟨5, 1⟩
abbrev LDG_IRQ_EN.STORE_WEAR : Fld := ⟨6, 1⟩
abbrev LDG_IRQ_EN.FAULT : Fld := ⟨7, 1⟩
/-- LDG_FAULT_STATUS, R302. -/
abbrev LDG_FAULT_STATUS : Nat := 0x1700110
/-- LDG_FAULT_MASK, R302. -/
abbrev LDG_FAULT_MASK : Nat := 0x1700114
abbrev LDG_FAULT_MASK.MASK : Fld := ⟨0, 3⟩
/-- LDG_FAULT_PIN_EN, R302. -/
abbrev LDG_FAULT_PIN_EN : Nat := 0x1700118
abbrev LDG_FAULT_PIN_EN.PIN_EN : Fld := ⟨0, 3⟩
/-- LDG_FAULT_INJECT, R302. -/
abbrev LDG_FAULT_INJECT : Nat := 0x170011C
abbrev LDG_FAULT_INJECT.COUNT : Fld := ⟨0, 8⟩
abbrev LDG_FAULT_INJECT.DOUBLE : Fld := ⟨8, 1⟩
abbrev LDG_FAULT_INJECT.SITE : Fld := ⟨9, 2⟩
/-- PLK_LANE_CFG, R354. -/
abbrev PLK_LANE_CFG (i : Nat) : Nat := 0x1800000 + i * 0x400
abbrev PLK_LANE_CFG.EN : Fld := ⟨0, 1⟩
abbrev PLK_LANE_CFG.RATE : Fld := ⟨1, 2⟩
abbrev PLK_LANE_CFG.AUTO_DISCOVER : Fld := ⟨3, 1⟩
abbrev PLK_LANE_CFG.AUTO_SPLIT : Fld := ⟨4, 1⟩
abbrev PLK_LANE_CFG.CABLE_NS : Fld := ⟨16, 16⟩
/-- PLK_LANE_STATUS, R354. -/
abbrev PLK_LANE_STATUS (i : Nat) : Nat := 0x1800004 + i * 0x400
abbrev PLK_LANE_STATUS.STATE : Fld := ⟨0, 3⟩
abbrev PLK_LANE_STATUS.SPEED : Fld := ⟨3, 2⟩
abbrev PLK_LANE_STATUS.REACH : Fld := ⟨5, 11⟩
abbrev PLK_LANE_STATUS.LOOP_SEEN : Fld := ⟨16, 1⟩
abbrev PLK_LANE_STATUS.LOOP_FROM : Fld := ⟨17, 6⟩
abbrev PLK_LANE_STATUS.REDISCOVER : Fld := ⟨23, 1⟩
/-- PLK_LANE_LOOP, R354. -/
abbrev PLK_LANE_LOOP (i : Nat) : Nat := 0x1800008 + i * 0x400
abbrev PLK_LANE_LOOP.EN : Fld := ⟨0, 1⟩
abbrev PLK_LANE_LOOP.PARTNER : Fld := ⟨1, 6⟩
abbrev PLK_LANE_LOOP.LOOP_LEN : Fld := ⟨7, 11⟩
abbrev PLK_LANE_LOOP.SPLIT : Fld := ⟨18, 11⟩
/-- PLK_LANE_CTL, R354. -/
abbrev PLK_LANE_CTL (i : Nat) : Nat := 0x180000C + i * 0x400
abbrev PLK_LANE_CTL.DISCOVER : Fld := ⟨0, 1⟩
abbrev PLK_LANE_CTL.BIST_START : Fld := ⟨1, 1⟩
abbrev PLK_LANE_CTL.EYE_SCAN : Fld := ⟨2, 1⟩
/-- PLK_LANE_BIST, R354. -/
abbrev PLK_LANE_BIST (i : Nat) : Nat := 0x1800010 + i * 0x400
abbrev PLK_LANE_BIST.RESULT : Fld := ⟨0, 2⟩
abbrev PLK_LANE_BIST.RUNS : Fld := ⟨16, 16⟩
/-- PLK_LANE_EYE, R354. -/
abbrev PLK_LANE_EYE (i : Nat) : Nat := 0x1800014 + i * 0x400
abbrev PLK_LANE_EYE.WIDTH : Fld := ⟨0, 8⟩
abbrev PLK_LANE_EYE.HEIGHT : Fld := ⟨8, 8⟩
abbrev PLK_LANE_EYE.DONE : Fld := ⟨16, 1⟩
/-- PLK_LANE_TX_FRAMES, R354. -/
abbrev PLK_LANE_TX_FRAMES (i : Nat) : Nat := 0x1800020 + i * 0x400
abbrev PLK_LANE_TX_FRAMES.COUNT : Fld := ⟨0, 32⟩
/-- PLK_LANE_PIXEL_DROP, R354. -/
abbrev PLK_LANE_PIXEL_DROP (i : Nat) : Nat := 0x1800024 + i * 0x400
abbrev PLK_LANE_PIXEL_DROP.COUNT : Fld := ⟨0, 32⟩
/-- PLK_LANE_RX_FRAMES, R354. -/
abbrev PLK_LANE_RX_FRAMES (i : Nat) : Nat := 0x1800028 + i * 0x400
abbrev PLK_LANE_RX_FRAMES.COUNT : Fld := ⟨0, 32⟩
/-- PLK_LANE_RX_DROP, R354. -/
abbrev PLK_LANE_RX_DROP (i : Nat) : Nat := 0x180002C + i * 0x400
abbrev PLK_LANE_RX_DROP.COUNT : Fld := ⟨0, 32⟩
/-- PLK_LANE_STATUS_MISS, R354. -/
abbrev PLK_LANE_STATUS_MISS (i : Nat) : Nat := 0x1800030 + i * 0x400
abbrev PLK_LANE_STATUS_MISS.COUNT : Fld := ⟨0, 32⟩
/-- PLK_LANE_CRC_MISSING, R354. -/
abbrev PLK_LANE_CRC_MISSING (i : Nat) : Nat := 0x1800034 + i * 0x400
abbrev PLK_LANE_CRC_MISSING.COUNT : Fld := ⟨0, 32⟩
/-- PLK_LANE_GUARD_SKIP, R354. -/
abbrev PLK_LANE_GUARD_SKIP (i : Nat) : Nat := 0x1800038 + i * 0x400
abbrev PLK_LANE_GUARD_SKIP.COUNT : Fld := ⟨0, 32⟩
/-- PLK_LANE_ALERT_LOST, R354. -/
abbrev PLK_LANE_ALERT_LOST (i : Nat) : Nat := 0x180003C + i * 0x400
abbrev PLK_LANE_ALERT_LOST.COUNT : Fld := ⟨0, 32⟩
/-- PLK_LANE_ALERT, R354. -/
abbrev PLK_LANE_ALERT (i : Nat) : Nat := 0x1800040 + i * 0x400
abbrev PLK_LANE_ALERT.POS : Fld := ⟨0, 10⟩
abbrev PLK_LANE_ALERT.CODE : Fld := ⟨16, 8⟩
abbrev PLK_LANE_ALERT.VALID : Fld := ⟨31, 1⟩
/-- PLK_LANE_ALERT_D, R354. -/
abbrev PLK_LANE_ALERT_D (i j : Nat) : Nat := 0x1800044 + i * 0x400 + j * 0x4
abbrev PLK_LANE_ALERT_D.DETAIL : Fld := ⟨0, 32⟩
/-- PLK_LANE_ALERT_POP, R354. -/
abbrev PLK_LANE_ALERT_POP (i : Nat) : Nat := 0x1800054 + i * 0x400
abbrev PLK_LANE_ALERT_POP.POP : Fld := ⟨0, 1⟩
/-- PLK_LANE_IRQ_STATUS, R354. -/
abbrev PLK_LANE_IRQ_STATUS (i : Nat) : Nat := 0x1800060 + i * 0x400
abbrev PLK_LANE_IRQ_STATUS.STATE : Fld := ⟨0, 1⟩
abbrev PLK_LANE_IRQ_STATUS.ROSTER : Fld := ⟨1, 1⟩
abbrev PLK_LANE_IRQ_STATUS.SPLIT : Fld := ⟨2, 1⟩
abbrev PLK_LANE_IRQ_STATUS.LOOP_MISMATCH : Fld := ⟨3, 1⟩
abbrev PLK_LANE_IRQ_STATUS.ALERT : Fld := ⟨4, 1⟩
abbrev PLK_LANE_IRQ_STATUS.PIXEL_DROP : Fld := ⟨5, 1⟩
abbrev PLK_LANE_IRQ_STATUS.RX_DROP : Fld := ⟨6, 1⟩
abbrev PLK_LANE_IRQ_STATUS.GENLOCK : Fld := ⟨7, 1⟩
abbrev PLK_LANE_IRQ_STATUS.FAULT : Fld := ⟨8, 1⟩
/-- PLK_LANE_IRQ_EN, R354. -/
abbrev PLK_LANE_IRQ_EN (i : Nat) : Nat := 0x1800064 + i * 0x400
abbrev PLK_LANE_IRQ_EN.STATE : Fld := ⟨0, 1⟩
abbrev PLK_LANE_IRQ_EN.ROSTER : Fld := ⟨1, 1⟩
abbrev PLK_LANE_IRQ_EN.SPLIT : Fld := ⟨2, 1⟩
abbrev PLK_LANE_IRQ_EN.LOOP_MISMATCH : Fld := ⟨3, 1⟩
abbrev PLK_LANE_IRQ_EN.ALERT : Fld := ⟨4, 1⟩
abbrev PLK_LANE_IRQ_EN.PIXEL_DROP : Fld := ⟨5, 1⟩
abbrev PLK_LANE_IRQ_EN.RX_DROP : Fld := ⟨6, 1⟩
abbrev PLK_LANE_IRQ_EN.GENLOCK : Fld := ⟨7, 1⟩
abbrev PLK_LANE_IRQ_EN.FAULT : Fld := ⟨8, 1⟩
/-- PLK_LANE_FAULT_STATUS, R354. -/
abbrev PLK_LANE_FAULT_STATUS (i : Nat) : Nat := 0x1800070 + i * 0x400
/-- PLK_LANE_FAULT_MASK, R354. -/
abbrev PLK_LANE_FAULT_MASK (i : Nat) : Nat := 0x1800074 + i * 0x400
abbrev PLK_LANE_FAULT_MASK.MASK : Fld := ⟨0, 3⟩
/-- PLK_LANE_FAULT_PIN_EN, R354. -/
abbrev PLK_LANE_FAULT_PIN_EN (i : Nat) : Nat := 0x1800078 + i * 0x400
abbrev PLK_LANE_FAULT_PIN_EN.PIN_EN : Fld := ⟨0, 3⟩
/-- PLK_LANE_FAULT_INJECT, R354. -/
abbrev PLK_LANE_FAULT_INJECT (i : Nat) : Nat := 0x180007C + i * 0x400
abbrev PLK_LANE_FAULT_INJECT.COUNT : Fld := ⟨0, 8⟩
abbrev PLK_LANE_FAULT_INJECT.DOUBLE : Fld := ⟨8, 1⟩
abbrev PLK_LANE_FAULT_INJECT.SITE : Fld := ⟨9, 2⟩
/-- PLK_LANE_SHAPE, R382. -/
abbrev PLK_LANE_SHAPE (i : Nat) : Nat := 0x1800100 + i * 0x400
abbrev PLK_LANE_SHAPE.OVERHEAD : Fld := ⟨0, 8⟩
/-- PLK_LANE_PIX_RATE, R382. -/
abbrev PLK_LANE_PIX_RATE (i : Nat) : Nat := 0x1800104 + i * 0x400
abbrev PLK_LANE_PIX_RATE.RATE : Fld := ⟨0, 20⟩
/-- PLK_LANE_PIX_BURST, R382. -/
abbrev PLK_LANE_PIX_BURST (i : Nat) : Nat := 0x1800108 + i * 0x400
abbrev PLK_LANE_PIX_BURST.BURST : Fld := ⟨0, 17⟩
/-- PLK_LANE_CTL_RATE, R382. -/
abbrev PLK_LANE_CTL_RATE (i : Nat) : Nat := 0x180010C + i * 0x400
abbrev PLK_LANE_CTL_RATE.RATE : Fld := ⟨0, 20⟩
/-- PLK_LANE_CTL_BURST, R382. -/
abbrev PLK_LANE_CTL_BURST (i : Nat) : Nat := 0x1800110 + i * 0x400
abbrev PLK_LANE_CTL_BURST.BURST : Fld := ⟨0, 17⟩
/-- PLK_LANE_DRR, R382. -/
abbrev PLK_LANE_DRR (i : Nat) : Nat := 0x1800114 + i * 0x400
abbrev PLK_LANE_DRR.QUANTUM : Fld := ⟨0, 17⟩
/-- PLK_LANE_CREDIT, R382. -/
abbrev PLK_LANE_CREDIT (i j : Nat) : Nat := 0x1800118 + i * 0x400 + j * 0x4
abbrev PLK_LANE_CREDIT.CREDIT : Fld := ⟨0, 17⟩
/-- PLK_LANE_CLASS_BYTES, R382. -/
abbrev PLK_LANE_CLASS_BYTES (i j : Nat) : Nat := 0x1800120 + i * 0x400 + j * 0x4
abbrev PLK_LANE_CLASS_BYTES.BYTES64 : Fld := ⟨0, 32⟩
/-- PLK_FRAME_CFG, R354. -/
abbrev PLK_FRAME_CFG : Nat := 0x1810000
abbrev PLK_FRAME_CFG.RATE : Fld := ⟨0, 4⟩
abbrev PLK_FRAME_CFG.GENLOCK_EN : Fld := ⟨4, 1⟩
abbrev PLK_FRAME_CFG.GL_DIV : Fld := ⟨5, 2⟩
abbrev PLK_FRAME_CFG.IDENTIFY : Fld := ⟨7, 1⟩
/-- PLK_FRAME_STATUS, R354. -/
abbrev PLK_FRAME_STATUS : Nat := 0x1810004
abbrev PLK_FRAME_STATUS.RATE : Fld := ⟨0, 4⟩
abbrev PLK_FRAME_STATUS.LOCKED : Fld := ⟨4, 1⟩
abbrev PLK_FRAME_STATUS.RATE_REFUSED : Fld := ⟨5, 1⟩
abbrev PLK_FRAME_STATUS.LOCK_LOSSES : Fld := ⟨16, 16⟩
/-- PLK_PERIOD_INT, R354. -/
abbrev PLK_PERIOD_INT : Nat := 0x1810008
abbrev PLK_PERIOD_INT.PERIOD_INT : Fld := ⟨0, 32⟩
/-- PLK_PERIOD_FRAC, R354. -/
abbrev PLK_PERIOD_FRAC : Nat := 0x181000C
abbrev PLK_PERIOD_FRAC.PERIOD_FRAC : Fld := ⟨0, 32⟩
/-- PLK_GENLOCK_DELAY, R354. -/
abbrev PLK_GENLOCK_DELAY : Nat := 0x1810010
abbrev PLK_GENLOCK_DELAY.DELAY : Fld := ⟨0, 24⟩
/-- PLK_GENLOCK_ERR, R354. -/
abbrev PLK_GENLOCK_ERR : Nat := 0x1810014
abbrev PLK_GENLOCK_ERR.E : Fld := ⟨0, 32⟩
/-- PLK_PRESENT, R354. -/
abbrev PLK_PRESENT : Nat := 0x1810020
abbrev PLK_PRESENT.OFFSET_NS : Fld := ⟨0, 32⟩
/-- PLK_STATUS_CFG, R354. -/
abbrev PLK_STATUS_CFG : Nat := 0x1810024
abbrev PLK_STATUS_CFG.WAIT_US : Fld := ⟨0, 16⟩
abbrev PLK_STATUS_CFG.SILENT_N : Fld := ⟨16, 4⟩
/-- PLK_ROSTER_SEL, R354. -/
abbrev PLK_ROSTER_SEL : Nat := 0x1810040
abbrev PLK_ROSTER_SEL.LANE : Fld := ⟨0, 6⟩
abbrev PLK_ROSTER_SEL.POS : Fld := ⟨6, 10⟩
/-- PLK_ROSTER_SERIAL, R354. -/
abbrev PLK_ROSTER_SERIAL (i : Nat) : Nat := 0x1810044 + i * 0x4
abbrev PLK_ROSTER_SERIAL.SERIAL : Fld := ⟨0, 32⟩
/-- PLK_ROSTER_INFO, R354. -/
abbrev PLK_ROSTER_INFO : Nat := 0x181004C
abbrev PLK_ROSTER_INFO.W_M1 : Fld := ⟨0, 10⟩
abbrev PLK_ROSTER_INFO.H_M1 : Fld := ⟨10, 10⟩
abbrev PLK_ROSTER_INFO.VALID : Fld := ⟨20, 1⟩
abbrev PLK_ROSTER_INFO.HOME_B : Fld := ⟨21, 1⟩
abbrev PLK_ROSTER_INFO.TEMP : Fld := ⟨22, 8⟩
/-- PLK_ROSTER_STAT, R354. -/
abbrev PLK_ROSTER_STAT : Nat := 0x1810050
abbrev PLK_ROSTER_STAT.MISSED : Fld := ⟨0, 16⟩
abbrev PLK_ROSTER_STAT.CTL_RESULT : Fld := ⟨16, 8⟩
/-- PLK_ROSTER_FW, R354. -/
abbrev PLK_ROSTER_FW : Nat := 0x1810054
abbrev PLK_ROSTER_FW.CTL_SEQ : Fld := ⟨0, 16⟩
abbrev PLK_ROSTER_FW.FW_LOW : Fld := ⟨16, 16⟩
/-- PLK_ROSTER_LEAD, R354. -/
abbrev PLK_ROSTER_LEAD : Nat := 0x1810058
abbrev PLK_ROSTER_LEAD.LEAD_NS : Fld := ⟨0, 32⟩
/-- IGR_PORT_CFG, R380. -/
abbrev IGR_PORT_CFG (i : Nat) : Nat := 0x1A00000 + i * 0x1000
abbrev IGR_PORT_CFG.EN : Fld := ⟨0, 1⟩
abbrev IGR_PORT_CFG.FEC : Fld := ⟨1, 1⟩
abbrev IGR_PORT_CFG.ACCEPT_MCAST : Fld := ⟨2, 1⟩
abbrev IGR_PORT_CFG.OVERHEAD : Fld := ⟨8, 8⟩
/-- IGR_PORT_MAC_LO, R380. -/
abbrev IGR_PORT_MAC_LO (i : Nat) : Nat := 0x1A00004 + i * 0x1000
abbrev IGR_PORT_MAC_LO.MAC_2_5 : Fld := ⟨0, 32⟩
/-- IGR_PORT_MAC_HI, R380. -/
abbrev IGR_PORT_MAC_HI (i : Nat) : Nat := 0x1A00008 + i * 0x1000
abbrev IGR_PORT_MAC_HI.MAC_0_1 : Fld := ⟨0, 16⟩
/-- IGR_PORT_STATUS, R380. -/
abbrev IGR_PORT_STATUS (i : Nat) : Nat := 0x1A0000C + i * 0x1000
abbrev IGR_PORT_STATUS.LINK_UP : Fld := ⟨0, 1⟩
abbrev IGR_PORT_STATUS.FEC_LOCK : Fld := ⟨1, 1⟩
/-- IGR_PORT_REORDER, R380. -/
abbrev IGR_PORT_REORDER (i : Nat) : Nat := 0x1A00010 + i * 0x1000
abbrev IGR_PORT_REORDER.TIMEOUT_US : Fld := ⟨0, 16⟩
/-- IGR_PORT_RS_LO, R380. -/
abbrev IGR_PORT_RS_LO (i : Nat) : Nat := 0x1A00014 + i * 0x1000
abbrev IGR_PORT_RS_LO.BASE_LO : Fld := ⟨6, 26⟩
/-- IGR_PORT_RS_HI, R380. -/
abbrev IGR_PORT_RS_HI (i : Nat) : Nat := 0x1A00018 + i * 0x1000
abbrev IGR_PORT_RS_HI.BASE_HI : Fld := ⟨0, 32⟩
/-- IGR_PORT_RS_SLOTS, R380. -/
abbrev IGR_PORT_RS_SLOTS (i : Nat) : Nat := 0x1A0001C + i * 0x1000
abbrev IGR_PORT_RS_SLOTS.SLOTS : Fld := ⟨0, 15⟩
/-- IGR_PORT_RX_FRAMES, R380. -/
abbrev IGR_PORT_RX_FRAMES (i : Nat) : Nat := 0x1A00020 + i * 0x1000
abbrev IGR_PORT_RX_FRAMES.COUNT : Fld := ⟨0, 32⟩
/-- IGR_PORT_RX_FIFO_DROP, R380. -/
abbrev IGR_PORT_RX_FIFO_DROP (i : Nat) : Nat := 0x1A00024 + i * 0x1000
abbrev IGR_PORT_RX_FIFO_DROP.COUNT : Fld := ⟨0, 32⟩
/-- IGR_PORT_BAD_FRAME, R380. -/
abbrev IGR_PORT_BAD_FRAME (i : Nat) : Nat := 0x1A00028 + i * 0x1000
abbrev IGR_PORT_BAD_FRAME.COUNT : Fld := ⟨0, 32⟩
/-- IGR_PORT_UNMATCHED, R380. -/
abbrev IGR_PORT_UNMATCHED (i : Nat) : Nat := 0x1A0002C + i * 0x1000
abbrev IGR_PORT_UNMATCHED.COUNT : Fld := ⟨0, 32⟩
/-- IGR_PORT_RS_FULL, R380. -/
abbrev IGR_PORT_RS_FULL (i : Nat) : Nat := 0x1A00030 + i * 0x1000
abbrev IGR_PORT_RS_FULL.COUNT : Fld := ⟨0, 32⟩
/-- IGR_PORT_TX_FRAMES, R380. -/
abbrev IGR_PORT_TX_FRAMES (i : Nat) : Nat := 0x1A00034 + i * 0x1000
abbrev IGR_PORT_TX_FRAMES.COUNT : Fld := ⟨0, 32⟩
/-- IGR_PORT_IRQ_STATUS, R380. -/
abbrev IGR_PORT_IRQ_STATUS (i : Nat) : Nat := 0x1A00040 + i * 0x1000
abbrev IGR_PORT_IRQ_STATUS.LINK : Fld := ⟨0, 1⟩
abbrev IGR_PORT_IRQ_STATUS.RX_DROP : Fld := ⟨1, 1⟩
abbrev IGR_PORT_IRQ_STATUS.RED : Fld := ⟨2, 1⟩
abbrev IGR_PORT_IRQ_STATUS.YELLOW_DROP : Fld := ⟨3, 1⟩
abbrev IGR_PORT_IRQ_STATUS.LOSS : Fld := ⟨4, 1⟩
abbrev IGR_PORT_IRQ_STATUS.UNIT_DROP : Fld := ⟨5, 1⟩
abbrev IGR_PORT_IRQ_STATUS.KEY : Fld := ⟨6, 1⟩
abbrev IGR_PORT_IRQ_STATUS.RS_FULL : Fld := ⟨7, 1⟩
abbrev IGR_PORT_IRQ_STATUS.FAULT : Fld := ⟨8, 1⟩
abbrev IGR_PORT_IRQ_STATUS.FLOW_ERR : Fld := ⟨9, 1⟩
/-- IGR_PORT_IRQ_EN, R380. -/
abbrev IGR_PORT_IRQ_EN (i : Nat) : Nat := 0x1A00044 + i * 0x1000
abbrev IGR_PORT_IRQ_EN.LINK : Fld := ⟨0, 1⟩
abbrev IGR_PORT_IRQ_EN.RX_DROP : Fld := ⟨1, 1⟩
abbrev IGR_PORT_IRQ_EN.RED : Fld := ⟨2, 1⟩
abbrev IGR_PORT_IRQ_EN.YELLOW_DROP : Fld := ⟨3, 1⟩
abbrev IGR_PORT_IRQ_EN.LOSS : Fld := ⟨4, 1⟩
abbrev IGR_PORT_IRQ_EN.UNIT_DROP : Fld := ⟨5, 1⟩
abbrev IGR_PORT_IRQ_EN.KEY : Fld := ⟨6, 1⟩
abbrev IGR_PORT_IRQ_EN.RS_FULL : Fld := ⟨7, 1⟩
abbrev IGR_PORT_IRQ_EN.FAULT : Fld := ⟨8, 1⟩
abbrev IGR_PORT_IRQ_EN.FLOW_ERR : Fld := ⟨9, 1⟩
/-- IGR_PORT_FAULT_STATUS, R380. -/
abbrev IGR_PORT_FAULT_STATUS (i : Nat) : Nat := 0x1A00050 + i * 0x1000
/-- IGR_PORT_FAULT_MASK, R380. -/
abbrev IGR_PORT_FAULT_MASK (i : Nat) : Nat := 0x1A00054 + i * 0x1000
abbrev IGR_PORT_FAULT_MASK.MASK : Fld := ⟨0, 3⟩
/-- IGR_PORT_FAULT_PIN_EN, R380. -/
abbrev IGR_PORT_FAULT_PIN_EN (i : Nat) : Nat := 0x1A00058 + i * 0x1000
abbrev IGR_PORT_FAULT_PIN_EN.PIN_EN : Fld := ⟨0, 3⟩
/-- IGR_PORT_FAULT_INJECT, R380. -/
abbrev IGR_PORT_FAULT_INJECT (i : Nat) : Nat := 0x1A0005C + i * 0x1000
abbrev IGR_PORT_FAULT_INJECT.COUNT : Fld := ⟨0, 8⟩
abbrev IGR_PORT_FAULT_INJECT.DOUBLE : Fld := ⟨8, 1⟩
abbrev IGR_PORT_FAULT_INJECT.SITE : Fld := ⟨9, 2⟩
/-- IGR_FLOW_SEL, R380. -/
abbrev IGR_FLOW_SEL : Nat := 0x1A08000
abbrev IGR_FLOW_SEL.INDEX : Fld := ⟨0, 12⟩
/-- IGR_FLOW_W, R380. -/
abbrev IGR_FLOW_W (i : Nat) : Nat := 0x1A08010 + i * 0x4
abbrev IGR_FLOW_W.WORD : Fld := ⟨0, 32⟩
/-- IGR_FLOW_CMD, R380. -/
abbrev IGR_FLOW_CMD : Nat := 0x1A08040
abbrev IGR_FLOW_CMD.WRITE : Fld := ⟨0, 1⟩
abbrev IGR_FLOW_CMD.READ : Fld := ⟨1, 1⟩
abbrev IGR_FLOW_CMD.BUSY : Fld := ⟨2, 1⟩
/-- IGR_FLOW_ERR, R380. -/
abbrev IGR_FLOW_ERR : Nat := 0x1A08044
abbrev IGR_FLOW_ERR.INDEX : Fld := ⟨0, 12⟩
abbrev IGR_FLOW_ERR.CAUSE : Fld := ⟨12, 4⟩
abbrev IGR_FLOW_ERR.COUNT : Fld := ⟨16, 16⟩
/-- IGR_FLOW_CNT, R380. -/
abbrev IGR_FLOW_CNT (i : Nat) : Nat := 0x1A08080 + i * 0x4
abbrev IGR_FLOW_CNT.COUNT : Fld := ⟨0, 32⟩
/-- IGR_FLOW_STATE, R380. -/
abbrev IGR_FLOW_STATE : Nat := 0x1A080A0
abbrev IGR_FLOW_STATE.NEXT : Fld := ⟨0, 16⟩
abbrev IGR_FLOW_STATE.SYNCED : Fld := ⟨16, 1⟩
abbrev IGR_FLOW_STATE.HELD : Fld := ⟨17, 11⟩
/-- DRC_CH_STATUS, R452. -/
abbrev DRC_CH_STATUS (i : Nat) : Nat := 0x1C00000 + i * 0x4000
abbrev DRC_CH_STATUS.STATE : Fld := ⟨0, 3⟩
abbrev DRC_CH_STATUS.RQ : Fld := ⟨8, 7⟩
abbrev DRC_CH_STATUS.WQ : Fld := ⟨16, 7⟩
abbrev DRC_CH_STATUS.DRAIN : Fld := ⟨24, 1⟩
/-- DRC_CH_FREEZE, R452. -/
abbrev DRC_CH_FREEZE (i : Nat) : Nat := 0x1C00004 + i * 0x4000
abbrev DRC_CH_FREEZE.FROZEN : Fld := ⟨0, 1⟩
abbrev DRC_CH_FREEZE.CAUSE : Fld := ⟨1, 2⟩
abbrev DRC_CH_FREEZE.COUNT : Fld := ⟨8, 8⟩
abbrev DRC_CH_FREEZE.RELEASE : Fld := ⟨16, 1⟩
abbrev DRC_CH_FREEZE.DISCARDED : Fld := ⟨24, 8⟩
/-- DRC_CH_ECC, R452. -/
abbrev DRC_CH_ECC (i : Nat) : Nat := 0x1C00008 + i * 0x4000
abbrev DRC_CH_ECC.CE_COUNT : Fld := ⟨0, 16⟩
abbrev DRC_CH_ECC.CE_TIDE : Fld := ⟨16, 16⟩
/-- DRC_CH_TRAIN, R452. -/
abbrev DRC_CH_TRAIN (i : Nat) : Nat := 0x1C0000C + i * 0x4000
abbrev DRC_CH_TRAIN.LAST_NS : Fld := ⟨0, 12⟩
abbrev DRC_CH_TRAIN.RUNS : Fld := ⟨16, 16⟩
/-- DRC_CH_IRQ_STATUS, R452. -/
abbrev DRC_CH_IRQ_STATUS (i : Nat) : Nat := 0x1C00020 + i * 0x4000
abbrev DRC_CH_IRQ_STATUS.CE_TIDE : Fld := ⟨0, 1⟩
abbrev DRC_CH_IRQ_STATUS.SCRUB_UE : Fld := ⟨1, 1⟩
abbrev DRC_CH_IRQ_STATUS.TRAIN_FAIL : Fld := ⟨2, 1⟩
abbrev DRC_CH_IRQ_STATUS.FROZEN : Fld := ⟨3, 1⟩
abbrev DRC_CH_IRQ_STATUS.FAULT : Fld := ⟨4, 1⟩
/-- DRC_CH_IRQ_EN, R452. -/
abbrev DRC_CH_IRQ_EN (i : Nat) : Nat := 0x1C00024 + i * 0x4000
abbrev DRC_CH_IRQ_EN.CE_TIDE : Fld := ⟨0, 1⟩
abbrev DRC_CH_IRQ_EN.SCRUB_UE : Fld := ⟨1, 1⟩
abbrev DRC_CH_IRQ_EN.TRAIN_FAIL : Fld := ⟨2, 1⟩
abbrev DRC_CH_IRQ_EN.FROZEN : Fld := ⟨3, 1⟩
abbrev DRC_CH_IRQ_EN.FAULT : Fld := ⟨4, 1⟩
/-- DRC_CH_FAULT_STATUS, R452. -/
abbrev DRC_CH_FAULT_STATUS (i : Nat) : Nat := 0x1C00030 + i * 0x4000
/-- DRC_CH_FAULT_MASK, R452. -/
abbrev DRC_CH_FAULT_MASK (i : Nat) : Nat := 0x1C00034 + i * 0x4000
abbrev DRC_CH_FAULT_MASK.MASK : Fld := ⟨0, 4⟩
/-- DRC_CH_FAULT_PIN_EN, R452. -/
abbrev DRC_CH_FAULT_PIN_EN (i : Nat) : Nat := 0x1C00038 + i * 0x4000
abbrev DRC_CH_FAULT_PIN_EN.PIN_EN : Fld := ⟨0, 4⟩
/-- DRC_CH_FAULT_INJECT, R452. -/
abbrev DRC_CH_FAULT_INJECT (i : Nat) : Nat := 0x1C0003C + i * 0x4000
abbrev DRC_CH_FAULT_INJECT.COUNT : Fld := ⟨0, 8⟩
abbrev DRC_CH_FAULT_INJECT.DOUBLE : Fld := ⟨8, 1⟩
abbrev DRC_CH_FAULT_INJECT.SITE : Fld := ⟨9, 2⟩
/-- DRC_CLIFF_CMD, R452. -/
abbrev DRC_CLIFF_CMD (i j : Nat) : Nat := 0x1C00040 + i * 0x4000 + j * 0x4
abbrev DRC_CLIFF_CMD.CMD : Fld := ⟨0, 4⟩
abbrev DRC_CLIFF_CMD.RANK : Fld := ⟨4, 1⟩
abbrev DRC_CLIFF_CMD.BANK : Fld := ⟨5, 4⟩
abbrev DRC_CLIFF_CMD.ROW_COL : Fld := ⟨9, 17⟩
abbrev DRC_CLIFF_CMD.PORT : Fld := ⟨26, 6⟩
/-- DRC_CLIFF_PHYS_LO, R452. -/
abbrev DRC_CLIFF_PHYS_LO (i : Nat) : Nat := 0x1C00080 + i * 0x4000
abbrev DRC_CLIFF_PHYS_LO.PHYS : Fld := ⟨0, 32⟩
/-- DRC_CLIFF_PHYS_HI, R452. -/
abbrev DRC_CLIFF_PHYS_HI (i : Nat) : Nat := 0x1C00084 + i * 0x4000
abbrev DRC_CLIFF_PHYS_HI.PHYS : Fld := ⟨0, 32⟩
/-- DRC_CLIFF_ENG_LO, R452. -/
abbrev DRC_CLIFF_ENG_LO (i : Nat) : Nat := 0x1C00088 + i * 0x4000
abbrev DRC_CLIFF_ENG_LO.ENG : Fld := ⟨0, 32⟩
/-- DRC_CLIFF_ENG_HI, R452. -/
abbrev DRC_CLIFF_ENG_HI (i : Nat) : Nat := 0x1C0008C + i * 0x4000
abbrev DRC_CLIFF_ENG_HI.ENG : Fld := ⟨0, 32⟩
/-- DRC_CLIFF_SYN, R452. -/
abbrev DRC_CLIFF_SYN (i : Nat) : Nat := 0x1C00090 + i * 0x4000
abbrev DRC_CLIFF_SYN.SYNDROME : Fld := ⟨0, 7⟩
abbrev DRC_CLIFF_SYN.WORD : Fld := ⟨8, 4⟩
/-- DRC_CLIFF_QUEUES, R452. -/
abbrev DRC_CLIFF_QUEUES (i : Nat) : Nat := 0x1C00094 + i * 0x4000
abbrev DRC_CLIFF_QUEUES.RQ : Fld := ⟨0, 7⟩
abbrev DRC_CLIFF_QUEUES.WQ : Fld := ⟨16, 7⟩
/-- DRC_CLIFF_FRAME, R452. -/
abbrev DRC_CLIFF_FRAME (i : Nat) : Nat := 0x1C00098 + i * 0x4000
abbrev DRC_CLIFF_FRAME.FRAME : Fld := ⟨0, 24⟩
/-- DRC_CFG, R453. -/
abbrev DRC_CFG : Nat := 0x1D00000
abbrev DRC_CFG.RATE : Fld := ⟨0, 2⟩
abbrev DRC_CFG.DENSITY : Fld := ⟨2, 2⟩
abbrev DRC_CFG.RANKS2 : Fld := ⟨4, 1⟩
abbrev DRC_CFG.INIT : Fld := ⟨8, 1⟩
abbrev DRC_CFG.READY : Fld := ⟨9, 1⟩
/-- DRC_FROZEN, R453. -/
abbrev DRC_FROZEN : Nat := 0x1D00004
abbrev DRC_FROZEN.FROZEN : Fld := ⟨0, 32⟩
/-- DRC_SR, R453. -/
abbrev DRC_SR : Nat := 0x1D00008
abbrev DRC_SR.IDLE_SR_NS : Fld := ⟨0, 24⟩
/-- DRC_TRAIN_CFG, R453. -/
abbrev DRC_TRAIN_CFG : Nat := 0x1D0000C
abbrev DRC_TRAIN_CFG.PERIOD_MS : Fld := ⟨0, 16⟩
abbrev DRC_TRAIN_CFG.EN : Fld := ⟨16, 1⟩
/-- DRC_ERR, R453. -/
abbrev DRC_ERR : Nat := 0x1D00010
abbrev DRC_ERR.UNMAPPED : Fld := ⟨0, 1⟩
abbrev DRC_ERR.BAD_MAP : Fld := ⟨1, 1⟩
abbrev DRC_ERR.BAD_WIN : Fld := ⟨2, 1⟩
abbrev DRC_ERR.BAD_CFG : Fld := ⟨3, 1⟩
abbrev DRC_ERR.WINDOW : Fld := ⟨8, 6⟩
/-- DRC_ERR_ADDR_LO, R453. -/
abbrev DRC_ERR_ADDR_LO : Nat := 0x1D00014
abbrev DRC_ERR_ADDR_LO.ADDR : Fld := ⟨0, 32⟩
/-- DRC_ERR_ADDR_HI, R453. -/
abbrev DRC_ERR_ADDR_HI : Nat := 0x1D00018
abbrev DRC_ERR_ADDR_HI.ADDR : Fld := ⟨0, 32⟩
/-- DRC_SCRUB, R453. -/
abbrev DRC_SCRUB : Nat := 0x1D00020
abbrev DRC_SCRUB.PERIOD_H : Fld := ⟨0, 8⟩
abbrev DRC_SCRUB.EN : Fld := ⟨8, 1⟩
abbrev DRC_SCRUB.UE_COUNT : Fld := ⟨16, 16⟩
/-- DRC_SCRUB_UE_LO, R453. -/
abbrev DRC_SCRUB_UE_LO : Nat := 0x1D00024
abbrev DRC_SCRUB_UE_LO.ADDR : Fld := ⟨0, 32⟩
/-- DRC_SCRUB_UE_HI, R453. -/
abbrev DRC_SCRUB_UE_HI : Nat := 0x1D00028
abbrev DRC_SCRUB_UE_HI.ADDR : Fld := ⟨0, 32⟩
/-- DRC_MAP_CH, R453. -/
abbrev DRC_MAP_CH (i : Nat) : Nat := 0x1D00040 + i * 0x4
abbrev DRC_MAP_CH.MASK : Fld := ⟨0, 31⟩
/-- DRC_MAP_BG, R453. -/
abbrev DRC_MAP_BG (i : Nat) : Nat := 0x1D00054 + i * 0x4
abbrev DRC_MAP_BG.MASK : Fld := ⟨0, 31⟩
/-- DRC_MAP_BA, R453. -/
abbrev DRC_MAP_BA (i : Nat) : Nat := 0x1D0005C + i * 0x4
abbrev DRC_MAP_BA.MASK : Fld := ⟨0, 31⟩
/-- DRC_WIN_BASE_LO, R453. -/
abbrev DRC_WIN_BASE_LO (i : Nat) : Nat := 0x1D01000 + i * 0x20
abbrev DRC_WIN_BASE_LO.BASE_LO : Fld := ⟨20, 12⟩
/-- DRC_WIN_BASE_HI, R453. -/
abbrev DRC_WIN_BASE_HI (i : Nat) : Nat := 0x1D01004 + i * 0x20
abbrev DRC_WIN_BASE_HI.BASE_HI : Fld := ⟨0, 8⟩
/-- DRC_WIN_SIZE, R453. -/
abbrev DRC_WIN_SIZE (i : Nat) : Nat := 0x1D01008 + i * 0x20
abbrev DRC_WIN_SIZE.MIB : Fld := ⟨0, 18⟩
/-- DRC_WIN_PHYS_LO, R453. -/
abbrev DRC_WIN_PHYS_LO (i : Nat) : Nat := 0x1D0100C + i * 0x20
abbrev DRC_WIN_PHYS_LO.PHYS_LO : Fld := ⟨20, 12⟩
/-- DRC_WIN_PHYS_HI, R453. -/
abbrev DRC_WIN_PHYS_HI (i : Nat) : Nat := 0x1D01010 + i * 0x20
abbrev DRC_WIN_PHYS_HI.PHYS_HI : Fld := ⟨0, 5⟩
/-- DRC_WIN_CFG, R453. -/
abbrev DRC_WIN_CFG (i : Nat) : Nat := 0x1D01014 + i * 0x20
abbrev DRC_WIN_CFG.EN : Fld := ⟨0, 1⟩
abbrev DRC_WIN_CFG.PROTECTED : Fld := ⟨1, 1⟩
abbrev DRC_WIN_CFG.ZERO : Fld := ⟨2, 1⟩
abbrev DRC_WIN_CFG.READY : Fld := ⟨3, 1⟩
/-- DRC_PORT_QOS, R453. -/
abbrev DRC_PORT_QOS (i : Nat) : Nat := 0x1D02000 + i * 0x4
abbrev DRC_PORT_QOS.TARGET : Fld := ⟨0, 16⟩
abbrev DRC_PORT_QOS.TOP : Fld := ⟨16, 1⟩
abbrev DRC_PORT_QOS.KEEP_AWAKE : Fld := ⟨17, 1⟩
/-- SPD_COLL_COUNT, R454. -/
abbrev SPD_COLL_COUNT : Nat := 0x1E00000
abbrev SPD_COLL_COUNT.LOST : Fld := ⟨0, 32⟩
/-- SPD_COLL_ADDR, R454. -/
abbrev SPD_COLL_ADDR : Nat := 0x1E00004
abbrev SPD_COLL_ADDR.ADDR : Fld := ⟨0, 22⟩
/-- SPD_COLL_INFO, R454. -/
abbrev SPD_COLL_INFO : Nat := 0x1E00008
abbrev SPD_COLL_INFO.WINNER : Fld := ⟨0, 2⟩
abbrev SPD_COLL_INFO.LOSERS : Fld := ⟨4, 4⟩
abbrev SPD_COLL_INFO.OVERRUN : Fld := ⟨8, 1⟩
abbrev SPD_COLL_INFO.CLR : Fld := ⟨31, 1⟩
/-- SPD_IRQ_STATUS, R454. -/
abbrev SPD_IRQ_STATUS : Nat := 0x1E00020
abbrev SPD_IRQ_STATUS.COLLISION : Fld := ⟨0, 1⟩
abbrev SPD_IRQ_STATUS.FAULT : Fld := ⟨1, 1⟩
/-- SPD_IRQ_EN, R454. -/
abbrev SPD_IRQ_EN : Nat := 0x1E00024
abbrev SPD_IRQ_EN.COLLISION : Fld := ⟨0, 1⟩
abbrev SPD_IRQ_EN.FAULT : Fld := ⟨1, 1⟩
/-- SPD_FAULT_STATUS, R454. -/
abbrev SPD_FAULT_STATUS : Nat := 0x1E00030
/-- SPD_FAULT_MASK, R454. -/
abbrev SPD_FAULT_MASK : Nat := 0x1E00034
abbrev SPD_FAULT_MASK.MASK : Fld := ⟨0, 3⟩
/-- SPD_FAULT_PIN_EN, R454. -/
abbrev SPD_FAULT_PIN_EN : Nat := 0x1E00038
abbrev SPD_FAULT_PIN_EN.PIN_EN : Fld := ⟨0, 3⟩
/-- SPD_FAULT_INJECT, R454. -/
abbrev SPD_FAULT_INJECT : Nat := 0x1E0003C
abbrev SPD_FAULT_INJECT.COUNT : Fld := ⟨0, 8⟩
abbrev SPD_FAULT_INJECT.DOUBLE : Fld := ⟨8, 1⟩
abbrev SPD_FAULT_INJECT.SITE : Fld := ⟨9, 2⟩
/-- SPD_FAULT_ADDR, R454. -/
abbrev SPD_FAULT_ADDR : Nat := 0x1E00040
abbrev SPD_FAULT_ADDR.ADDR : Fld := ⟨0, 22⟩
/-- SEC_LC_STATE, R455. -/
abbrev SEC_LC_STATE : Nat := 0x1F00000
abbrev SEC_LC_STATE.STATE : Fld := ⟨0, 2⟩
/-- SEC_LC_ARM, R455. -/
abbrev SEC_LC_ARM : Nat := 0x1F00004
abbrev SEC_LC_ARM.CODE : Fld := ⟨0, 32⟩
/-- SEC_LC_CTL, R455. -/
abbrev SEC_LC_CTL : Nat := 0x1F00008
abbrev SEC_LC_CTL.TARGET : Fld := ⟨0, 2⟩
abbrev SEC_LC_CTL.GO : Fld := ⟨2, 1⟩
abbrev SEC_LC_CTL.BUSY : Fld := ⟨3, 1⟩
abbrev SEC_LC_CTL.RESULT : Fld := ⟨4, 2⟩
/-- SEC_TAMPER, R455. -/
abbrev SEC_TAMPER : Nat := 0x1F00010
abbrev SEC_TAMPER.PIN : Fld := ⟨0, 1⟩
abbrev SEC_TAMPER.TAMPERED : Fld := ⟨1, 1⟩
abbrev SEC_TAMPER.EVENTS : Fld := ⟨16, 16⟩
/-- SEC_WIPES, R455. -/
abbrev SEC_WIPES : Nat := 0x1F00014
abbrev SEC_WIPES.WIPES : Fld := ⟨0, 32⟩
/-- SEC_IRQ_STATUS, R455. -/
abbrev SEC_IRQ_STATUS : Nat := 0x1F00020
abbrev SEC_IRQ_STATUS.TAMPER : Fld := ⟨0, 1⟩
abbrev SEC_IRQ_STATUS.WIPE_DONE : Fld := ⟨1, 1⟩
abbrev SEC_IRQ_STATUS.LC_DONE : Fld := ⟨2, 1⟩
abbrev SEC_IRQ_STATUS.FAULT : Fld := ⟨3, 1⟩
/-- SEC_IRQ_EN, R455. -/
abbrev SEC_IRQ_EN : Nat := 0x1F00024
abbrev SEC_IRQ_EN.TAMPER : Fld := ⟨0, 1⟩
abbrev SEC_IRQ_EN.WIPE_DONE : Fld := ⟨1, 1⟩
abbrev SEC_IRQ_EN.LC_DONE : Fld := ⟨2, 1⟩
abbrev SEC_IRQ_EN.FAULT : Fld := ⟨3, 1⟩
/-- SEC_FAULT_STATUS, R455. -/
abbrev SEC_FAULT_STATUS : Nat := 0x1F00030
/-- SEC_FAULT_MASK, R455. -/
abbrev SEC_FAULT_MASK : Nat := 0x1F00034
abbrev SEC_FAULT_MASK.MASK : Fld := ⟨0, 3⟩
/-- SEC_FAULT_PIN_EN, R455. -/
abbrev SEC_FAULT_PIN_EN : Nat := 0x1F00038
abbrev SEC_FAULT_PIN_EN.PIN_EN : Fld := ⟨0, 3⟩
/-- SEC_FAULT_INJECT, R455. -/
abbrev SEC_FAULT_INJECT : Nat := 0x1F0003C
abbrev SEC_FAULT_INJECT.COUNT : Fld := ⟨0, 8⟩
abbrev SEC_FAULT_INJECT.DOUBLE : Fld := ⟨8, 1⟩
abbrev SEC_FAULT_INJECT.SITE : Fld := ⟨9, 2⟩
/-- SDI_IN_CFG, R210. -/
abbrev SDI_IN_CFG (i : Nat) : Nat := 0x2000000 + i * 0x100
abbrev SDI_IN_CFG.EN : Fld := ⟨0, 1⟩
abbrev SDI_IN_CFG.CHROMA420 : Fld := ⟨1, 1⟩
abbrev SDI_IN_CFG.POOL : Fld := ⟨2, 3⟩
abbrev SDI_IN_CFG.SPILL_UP : Fld := ⟨5, 1⟩
/-- SDI_IN_STATUS, R210. -/
abbrev SDI_IN_STATUS (i : Nat) : Nat := 0x2000004 + i * 0x100
abbrev SDI_IN_STATUS.CARRIER : Fld := ⟨0, 1⟩
abbrev SDI_IN_STATUS.LOCKED : Fld := ⟨1, 1⟩
abbrev SDI_IN_STATUS.SUPPORTED : Fld := ⟨2, 1⟩
abbrev SDI_IN_STATUS.LINK : Fld := ⟨3, 3⟩
abbrev SDI_IN_STATUS.RASTER : Fld := ⟨6, 3⟩
abbrev SDI_IN_STATUS.RATE : Fld := ⟨9, 4⟩
abbrev SDI_IN_STATUS.PPT_BASE : Fld := ⟨13, 9⟩
abbrev SDI_IN_STATUS.PPT_FAIL : Fld := ⟨22, 1⟩
/-- SDI_IN_FRAMES, R210. -/
abbrev SDI_IN_FRAMES (i : Nat) : Nat := 0x2000008 + i * 0x100
abbrev SDI_IN_FRAMES.FRAMES : Fld := ⟨0, 32⟩
/-- SDI_IN_ERRORS, R210. -/
abbrev SDI_IN_ERRORS (i : Nat) : Nat := 0x200000C + i * 0x100
abbrev SDI_IN_ERRORS.POOL_DROPS : Fld := ⟨0, 10⟩
abbrev SDI_IN_ERRORS.CRC_LINES : Fld := ⟨10, 11⟩
abbrev SDI_IN_ERRORS.FIFO_LINES : Fld := ⟨21, 11⟩
/-- SDI_IN_IRQ_STATUS, R210. -/
abbrev SDI_IN_IRQ_STATUS (i : Nat) : Nat := 0x2000020 + i * 0x100
abbrev SDI_IN_IRQ_STATUS.CARRIER : Fld := ⟨0, 1⟩
abbrev SDI_IN_IRQ_STATUS.LOCK : Fld := ⟨1, 1⟩
abbrev SDI_IN_IRQ_STATUS.CAPTURE : Fld := ⟨2, 1⟩
/-- SDI_IN_IRQ_EN, R210. -/
abbrev SDI_IN_IRQ_EN (i : Nat) : Nat := 0x2000024 + i * 0x100
abbrev SDI_IN_IRQ_EN.CARRIER : Fld := ⟨0, 1⟩
abbrev SDI_IN_IRQ_EN.LOCK : Fld := ⟨1, 1⟩
abbrev SDI_IN_IRQ_EN.CAPTURE : Fld := ⟨2, 1⟩
/-- SDI_OUT_CFG, R210. -/
abbrev SDI_OUT_CFG (i : Nat) : Nat := 0x2001000 + i * 0x100
abbrev SDI_OUT_CFG.EN : Fld := ⟨0, 1⟩
abbrev SDI_OUT_CFG.RASTER : Fld := ⟨1, 3⟩
abbrev SDI_OUT_CFG.RATE : Fld := ⟨4, 4⟩
abbrev SDI_OUT_CFG.LOCK_TO_GATE : Fld := ⟨8, 1⟩
/-- SDI_OUT_WIN, R210. -/
abbrev SDI_OUT_WIN (i : Nat) : Nat := 0x2001004 + i * 0x100
abbrev SDI_OUT_WIN.SRC_X : Fld := ⟨0, 16⟩
abbrev SDI_OUT_WIN.SRC_Y : Fld := ⟨16, 16⟩
/-- SDI_OUT_STATUS, R210. -/
abbrev SDI_OUT_STATUS (i : Nat) : Nat := 0x2001008 + i * 0x100
abbrev SDI_OUT_STATUS.FREE : Fld := ⟨0, 1⟩
abbrev SDI_OUT_STATUS.UNDERRUN_LINES : Fld := ⟨16, 16⟩
/-- SDI_OUT_IRQ_STATUS, R210. -/
abbrev SDI_OUT_IRQ_STATUS (i : Nat) : Nat := 0x2001020 + i * 0x100
abbrev SDI_OUT_IRQ_STATUS.UNDERRUN : Fld := ⟨0, 1⟩
/-- SDI_OUT_IRQ_EN, R210. -/
abbrev SDI_OUT_IRQ_EN (i : Nat) : Nat := 0x2001024 + i * 0x100
abbrev SDI_OUT_IRQ_EN.UNDERRUN : Fld := ⟨0, 1⟩
/-- SDI_FAULT_STATUS, R210. -/
abbrev SDI_FAULT_STATUS : Nat := 0x2002000
/-- SDI_FAULT_MASK, R210. -/
abbrev SDI_FAULT_MASK : Nat := 0x2002004
abbrev SDI_FAULT_MASK.MASK : Fld := ⟨0, 3⟩
/-- SDI_FAULT_PIN_EN, R210. -/
abbrev SDI_FAULT_PIN_EN : Nat := 0x2002008
abbrev SDI_FAULT_PIN_EN.PIN_EN : Fld := ⟨0, 3⟩
/-- SDI_FAULT_INJECT, R210. -/
abbrev SDI_FAULT_INJECT : Nat := 0x200200C
abbrev SDI_FAULT_INJECT.COUNT : Fld := ⟨0, 8⟩
abbrev SDI_FAULT_INJECT.DOUBLE : Fld := ⟨8, 1⟩
abbrev SDI_FAULT_INJECT.SITE : Fld := ⟨9, 2⟩

/-! The register table, one list per window of R34. -/

def regRowsTop0 : List RegDesc :=
  [⟨0x0, 1, 0x0, 1, 0x0, .fixed 1, [⟨0, 16, .ro, .part⟩, ⟨16, 8, .ro, .val 16⟩, ⟨24, 8, .ro, .val 178⟩]⟩,
   ⟨0x4, 1, 0x0, 1, 0x0, .fixed 1, [⟨0, 9, .ro, .caps 0 9⟩, ⟨9, 2, .ro, .caps 9 2⟩, ⟨11, 2, .ro, .caps 11 2⟩, ⟨13, 4, .ro, .caps 13 4⟩, ⟨17, 8, .ro, .caps 17 8⟩, ⟨25, 2, .ro, .caps 25 2⟩]⟩,
   ⟨0x8, 1, 0x0, 1, 0x0, .fixed 1, [⟨0, 8, .ro, .drcCaps⟩]⟩,
   ⟨0x10, 1, 0x0, 1, 0x0, .fixed 1, [⟨0, 1, .w1s, .val 0⟩]⟩,
   ⟨0x14, 1, 0x0, 1, 0x0, .fixed 1, [⟨0, 32, .wo, .val 0⟩]⟩,
   ⟨0x18, 1, 0x0, 1, 0x0, .fixed 0, [⟨0, 1, .w1c, .val 1⟩, ⟨1, 1, .w1c, .val 0⟩, ⟨2, 1, .w1c, .val 0⟩, ⟨3, 1, .w1c, .val 0⟩, ⟨4, 1, .w1c, .val 0⟩, ⟨5, 1, .w1c, .val 0⟩]⟩,
   ⟨0x40, 1, 0x0, 1, 0x0, .fixed 0, [⟨0, 1, .w1s, .val 0⟩, ⟨1, 1, .wo, .val 0⟩, ⟨2, 1, .rw, .val 1⟩, ⟨3, 1, .ro, .val 0⟩, ⟨4, 1, .ro, .val 1⟩, ⟨5, 1, .w1c, .val 0⟩, ⟨8, 8, .rw, .val 10⟩, ⟨16, 16, .ro, .val 0⟩]⟩,
   ⟨0x80, 1, 0x0, 1, 0x0, .fixed 1, [⟨0, 6, .rw, .val 0⟩, ⟨8, 1, .wo, .val 0⟩, ⟨9, 1, .ro, .val 0⟩, ⟨10, 2, .ro, .val 0⟩]⟩,
   ⟨0x84, 1, 0x0, 1, 0x0, .fixed 1, [⟨0, 32, .ro, .val 0⟩]⟩,
   ⟨0x88, 1, 0x0, 1, 0x0, .fixed 1, [⟨0, 5, .ro, .val 0⟩]⟩]
/-- The registers of the TOP window. -/
def regRowsTop : List RegDesc := regRowsTop0
def regRowsPwr0 : List RegDesc :=
  [⟨0x100000, 1, 0x0, 1, 0x0, .fixed 1, [⟨0, 32, .ro, .val 15⟩]⟩,
   ⟨0x100004, 1, 0x0, 1, 0x0, .fixed 1, [⟨0, 8, .ro, .val 0⟩]⟩,
   ⟨0x100008, 1, 0x0, 1, 0x0, .fixed 1, [⟨0, 6, .rw, .val 0⟩, ⟨8, 1, .wo, .val 0⟩, ⟨9, 1, .wo, .val 0⟩, ⟨16, 1, .ro, .val 0⟩]⟩,
   ⟨0x10000C, 1, 0x0, 1, 0x0, .fixed 1, [⟨0, 1, .w1c, .val 0⟩, ⟨8, 6, .ro, .val 0⟩, ⟨16, 3, .ro, .val 0⟩, ⟨24, 8, .ro, .val 0⟩]⟩,
   ⟨0x100010, 1, 0x0, 1, 0x0, .fixed 0, [⟨0, 1, .ro, .val 0⟩, ⟨1, 1, .ro, .val 0⟩, ⟨2, 1, .ro, .val 0⟩, ⟨16, 16, .ro, .val 0⟩]⟩,
   ⟨0x100020, 1, 0x0, 1, 0x0, .fixed 0, [⟨0, 1, .ro, .val 0⟩, ⟨1, 1, .ro, .val 0⟩, ⟨16, 16, .ro, .val 0⟩]⟩,
   ⟨0x100024, 1, 0x0, 1, 0x0, .fixed 0, [⟨0, 16, .rw, .val 100⟩, ⟨16, 1, .rw, .val 1⟩]⟩,
   ⟨0x100028, 1, 0x0, 1, 0x0, .fixed 0, [⟨0, 32, .rw, .val 1⟩]⟩,
   ⟨0x10002C, 1, 0x0, 1, 0x0, .fixed 0, [⟨0, 8, .rw, .val 0⟩]⟩,
   ⟨0x100030, 1, 0x0, 1, 0x0, .fixed 0, [⟨0, 1, .wo, .val 0⟩, ⟨2, 2, .ro, .val 0⟩]⟩,
   ⟨0x100034, 1, 0x0, 1, 0x0, .fixed 0, [⟨0, 16, .rw, .val 300⟩, ⟨16, 1, .ro, .val 0⟩, ⟨24, 8, .ro, .val 0⟩]⟩,
   ⟨0x100040, 1, 0x0, 1, 0x0, .fixed 0, [⟨0, 8, .rw, .val 95⟩, ⟨8, 8, .rw, .val 103⟩, ⟨16, 8, .rw, .val 90⟩]⟩]
def regRowsPwr1 : List RegDesc :=
  [⟨0x100080, 16, 0x4, 1, 0x0, .fixed 0, [⟨0, 8, .ro, .val 0⟩, ⟨8, 8, .ro, .val 0⟩, ⟨31, 1, .wo, .val 0⟩]⟩,
   ⟨0x1000C0, 1, 0x0, 1, 0x0, .fixed 1, [⟨0, 1, .w1c, .val 0⟩, ⟨1, 1, .w1c, .val 0⟩, ⟨2, 1, .w1c, .val 0⟩, ⟨3, 1, .w1c, .val 0⟩, ⟨4, 1, .w1c, .val 0⟩, ⟨5, 1, .w1c, .val 0⟩, ⟨6, 1, .w1c, .val 0⟩, ⟨7, 1, .ro, .val 0⟩]⟩,
   ⟨0x1000C4, 1, 0x0, 1, 0x0, .fixed 1, [⟨0, 1, .rw, .val 0⟩, ⟨1, 1, .rw, .val 1⟩, ⟨2, 1, .rw, .val 1⟩, ⟨3, 1, .rw, .val 1⟩, ⟨4, 1, .rw, .val 1⟩, ⟨5, 1, .rw, .val 1⟩, ⟨6, 1, .rw, .val 0⟩, ⟨7, 1, .rw, .val 1⟩]⟩,
   ⟨0x1000D0, 1, 0x0, 1, 0x0, .fixed 1, [⟨0, 1, .w1c, .val 0⟩, ⟨1, 1, .w1c, .val 0⟩, ⟨2, 1, .w1c, .val 0⟩, ⟨3, 1, .w1c, .val 0⟩, ⟨4, 1, .w1c, .val 0⟩, ⟨5, 1, .w1c, .val 0⟩]⟩,
   ⟨0x1000D4, 1, 0x0, 1, 0x0, .fixed 1, [⟨0, 6, .rw, .val 1⟩]⟩,
   ⟨0x1000D8, 1, 0x0, 1, 0x0, .fixed 1, [⟨0, 6, .rw, .val 0⟩]⟩,
   ⟨0x1000DC, 1, 0x0, 1, 0x0, .fixed 1, [⟨0, 8, .rw, .val 0⟩, ⟨8, 1, .rw, .val 0⟩, ⟨9, 2, .rw, .val 0⟩]⟩]
/-- The registers of the PWR window. -/
def regRowsPwr : List RegDesc := regRowsPwr0 ++ regRowsPwr1
def regRowsIcu0 : List RegDesc :=
  [⟨0x200000, 1, 0x0, 1, 0x0, .fixed 1, [⟨0, 1, .rw, .val 0⟩, ⟨1, 1, .rw, .val 0⟩]⟩,
   ⟨0x200004, 1, 0x0, 1, 0x0, .fixed 1, [⟨0, 10, .ro, .val 0⟩, ⟨16, 16, .ro, .val 0⟩]⟩,
   ⟨0x200008, 1, 0x0, 1, 0x0, .fixed 1, [⟨0, 32, .ro, .val 0⟩]⟩,
   ⟨0x20000C, 1, 0x0, 1, 0x0, .fixed 1, [⟨0, 10, .ro, .val 0⟩, ⟨16, 6, .ro, .val 0⟩]⟩,
   ⟨0x200010, 1, 0x0, 1, 0x0, .fixed 1, [⟨7, 15, .rw, .val 0⟩]⟩,
   ⟨0x200020, 1, 0x0, 1, 0x0, .fixed 1, [⟨0, 1, .ro, .val 0⟩, ⟨1, 1, .w1c, .val 0⟩, ⟨2, 1, .w1c, .val 0⟩, ⟨3, 1, .w1c, .val 0⟩]⟩,
   ⟨0x200024, 1, 0x0, 1, 0x0, .fixed 1, [⟨0, 1, .rw, .val 1⟩, ⟨1, 1, .rw, .val 0⟩, ⟨2, 1, .rw, .val 1⟩, ⟨3, 1, .rw, .val 0⟩]⟩,
   ⟨0x200030, 1, 0x0, 1, 0x0, .fixed 1, [⟨0, 1, .w1c, .val 0⟩, ⟨1, 1, .w1c, .val 0⟩, ⟨2, 1, .w1c, .val 0⟩]⟩,
   ⟨0x200034, 1, 0x0, 1, 0x0, .fixed 1, [⟨0, 3, .rw, .val 1⟩]⟩,
   ⟨0x200038, 1, 0x0, 1, 0x0, .fixed 1, [⟨0, 3, .rw, .val 0⟩]⟩,
   ⟨0x20003C, 1, 0x0, 1, 0x0, .fixed 1, [⟨0, 8, .rw, .val 0⟩, ⟨8, 1, .rw, .val 0⟩, ⟨9, 2, .rw, .val 0⟩]⟩,
   ⟨0x200040, 1, 0x0, 1, 0x0, .fixed 1, [⟨0, 10, .ro, .val 0⟩, ⟨15, 1, .ro, .val 0⟩]⟩]
def regRowsIcu1 : List RegDesc :=
  [⟨0x200100, 64, 0x10, 1, 0x0, .fixed 1, [⟨0, 4, .rw, .val 0⟩, ⟨8, 6, .rw, .index⟩, ⟨16, 1, .ro, .val 0⟩]⟩,
   ⟨0x200104, 64, 0x10, 1, 0x0, .fixed 1, [⟨0, 16, .ro, .val 0⟩, ⟨16, 16, .ro, .val 0⟩]⟩,
   ⟨0x201000, 1024, 0x4, 1, 0x0, .fixed 1, [⟨0, 4, .rw, .val 0⟩, ⟨4, 6, .rw, .val 0⟩, ⟨16, 1, .rw, .val 0⟩, ⟨24, 1, .ro, .val 0⟩, ⟨25, 1, .ro, .val 0⟩, ⟨26, 6, .ro, .val 0⟩]⟩,
   ⟨0x202000, 32, 0x4, 1, 0x0, .fixed 1, [⟨0, 32, .ro, .val 0⟩]⟩,
   ⟨0x202080, 32, 0x4, 1, 0x0, .fixed 1, [⟨0, 32, .ro, .val 0⟩]⟩,
   ⟨0x208000, 64, 0x4, 1, 0x0, .fixed 0, [⟨0, 10, .rw, .val 0⟩, ⟨31, 1, .rw, .val 0⟩]⟩,
   ⟨0x208100, 1, 0x0, 1, 0x0, .fixed 0, [⟨0, 10, .ro, .val 0⟩, ⟨16, 1, .w1c, .val 0⟩]⟩,
   ⟨0x208104, 1, 0x0, 1, 0x0, .fixed 0, [⟨0, 32, .w1c, .val 0⟩]⟩,
   ⟨0x208108, 1, 0x0, 1, 0x0, .fixed 0, [⟨0, 32, .w1c, .val 0⟩]⟩,
   ⟨0x208110, 1, 0x0, 1, 0x0, .fixed 0, [⟨0, 24, .rw, .val 0⟩]⟩,
   ⟨0x208120, 1, 0x0, 1, 0x0, .fixed 0, [⟨0, 1, .ro, .val 0⟩, ⟨1, 1, .w1c, .val 0⟩, ⟨2, 1, .w1c, .val 0⟩, ⟨3, 1, .w1c, .val 0⟩, ⟨4, 1, .w1c, .val 0⟩, ⟨5, 1, .w1c, .val 0⟩, ⟨6, 1, .ro, .val 0⟩]⟩,
   ⟨0x208124, 1, 0x0, 1, 0x0, .fixed 0, [⟨0, 1, .rw, .val 0⟩, ⟨1, 1, .rw, .val 1⟩, ⟨2, 1, .rw, .val 1⟩, ⟨3, 1, .rw, .val 1⟩, ⟨4, 1, .rw, .val 0⟩, ⟨5, 1, .rw, .val 1⟩, ⟨6, 1, .rw, .val 1⟩]⟩]
def regRowsIcu2 : List RegDesc :=
  [⟨0x208130, 1, 0x0, 1, 0x0, .fixed 0, [⟨0, 1, .w1c, .val 0⟩, ⟨1, 1, .w1c, .val 0⟩, ⟨2, 1, .w1c, .val 0⟩]⟩,
   ⟨0x208134, 1, 0x0, 1, 0x0, .fixed 0, [⟨0, 3, .rw, .val 1⟩]⟩,
   ⟨0x208138, 1, 0x0, 1, 0x0, .fixed 0, [⟨0, 3, .rw, .val 0⟩]⟩,
   ⟨0x20813C, 1, 0x0, 1, 0x0, .fixed 0, [⟨0, 8, .rw, .val 0⟩, ⟨8, 1, .rw, .val 0⟩, ⟨9, 2, .rw, .val 0⟩]⟩]
/-- The registers of the ICU window. -/
def regRowsIcu : List RegDesc := regRowsIcu0 ++ regRowsIcu1 ++ regRowsIcu2
def regRowsBpm0 : List RegDesc :=
  [⟨0x300000, 1, 0x0, 1, 0x0, .fixed 1, [⟨0, 1, .w1c, .val 0⟩, ⟨1, 3, .ro, .val 0⟩]⟩,
   ⟨0x300010, 1, 0x0, 1, 0x0, .fixed 1, [⟨0, 32, .ro, .val 0⟩]⟩,
   ⟨0x300014, 1, 0x0, 1, 0x0, .fixed 1, [⟨0, 6, .ro, .val 0⟩, ⟨6, 2, .ro, .val 0⟩, ⟨8, 8, .ro, .val 0⟩, ⟨16, 1, .ro, .val 0⟩, ⟨31, 1, .wo, .val 0⟩]⟩,
   ⟨0x300018, 1, 0x0, 1, 0x0, .fixed 1, [⟨0, 32, .ro, .val 0⟩]⟩,
   ⟨0x300020, 1, 0x0, 1, 0x0, .fixed 1, [⟨0, 20, .rw, .val 0⟩]⟩,
   ⟨0x300024, 1, 0x0, 1, 0x0, .fixed 1, [⟨0, 32, .ro, .val 0⟩]⟩,
   ⟨0x300040, 1, 0x0, 1, 0x0, .fixed 1, [⟨0, 1, .w1c, .val 0⟩, ⟨1, 1, .w1c, .val 0⟩, ⟨2, 1, .w1c, .val 0⟩]⟩,
   ⟨0x300044, 1, 0x0, 1, 0x0, .fixed 1, [⟨0, 3, .rw, .val 1⟩]⟩,
   ⟨0x300048, 1, 0x0, 1, 0x0, .fixed 1, [⟨0, 3, .rw, .val 0⟩]⟩,
   ⟨0x30004C, 1, 0x0, 1, 0x0, .fixed 1, [⟨0, 8, .rw, .val 0⟩, ⟨8, 1, .rw, .val 0⟩, ⟨9, 2, .rw, .val 0⟩]⟩,
   ⟨0x300050, 1, 0x0, 1, 0x0, .fixed 1, [⟨0, 3, .ro, .val 0⟩]⟩,
   ⟨0x300100, 8, 0x40, 1, 0x0, .fixed 1, [⟨0, 1, .rw, .val 0⟩, ⟨12, 20, .rw, .val 0⟩]⟩]
def regRowsBpm1 : List RegDesc :=
  [⟨0x300104, 8, 0x40, 1, 0x0, .fixed 1, [⟨0, 32, .rw, .val 0⟩]⟩,
   ⟨0x300108, 8, 0x40, 1, 0x0, .fixed 1, [⟨0, 1, .rw, .val 0⟩, ⟨12, 20, .rw, .val 0⟩]⟩,
   ⟨0x30010C, 8, 0x40, 1, 0x0, .fixed 1, [⟨0, 32, .rw, .val 0⟩]⟩,
   ⟨0x300110, 8, 0x40, 1, 0x0, .fixed 1, [⟨0, 21, .rw, .val 0⟩, ⟨31, 1, .rw, .val 0⟩]⟩,
   ⟨0x300114, 8, 0x40, 1, 0x0, .fixed 1, [⟨0, 20, .rw, .val 0⟩]⟩,
   ⟨0x300118, 8, 0x40, 1, 0x0, .fixed 1, [⟨0, 21, .rw, .val 0⟩]⟩,
   ⟨0x30011C, 8, 0x40, 1, 0x0, .fixed 1, [⟨0, 21, .ro, .val 0⟩, ⟨21, 1, .ro, .val 0⟩, ⟨22, 6, .ro, .val 0⟩]⟩,
   ⟨0x300120, 8, 0x40, 1, 0x0, .fixed 1, [⟨0, 21, .ro, .val 0⟩]⟩,
   ⟨0x300124, 8, 0x40, 1, 0x0, .fixed 1, [⟨0, 21, .ro, .val 0⟩, ⟨31, 1, .wo, .val 0⟩]⟩,
   ⟨0x300128, 8, 0x40, 1, 0x0, .fixed 1, [⟨0, 32, .ro, .val 0⟩]⟩,
   ⟨0x30012C, 8, 0x40, 1, 0x0, .fixed 1, [⟨0, 32, .ro, .val 0⟩]⟩,
   ⟨0x300130, 8, 0x40, 1, 0x0, .fixed 1, [⟨0, 1, .w1c, .val 0⟩, ⟨1, 1, .w1c, .val 0⟩, ⟨2, 1, .w1c, .val 0⟩, ⟨3, 1, .ro, .val 0⟩]⟩]
def regRowsBpm2 : List RegDesc :=
  [⟨0x300134, 8, 0x40, 1, 0x0, .fixed 1, [⟨0, 1, .rw, .val 0⟩, ⟨1, 1, .rw, .val 1⟩, ⟨2, 1, .rw, .val 1⟩, ⟨3, 1, .rw, .val 1⟩]⟩]
/-- The registers of the BPM window. -/
def regRowsBpm : List RegDesc := regRowsBpm0 ++ regRowsBpm1 ++ regRowsBpm2
def regRowsDma0 : List RegDesc :=
  [⟨0x400000, 16, 0x100, 1, 0x0, .fixed 1, [⟨0, 1, .rw, .val 1⟩, ⟨1, 1, .wo, .val 0⟩, ⟨2, 1, .rw, .val 0⟩]⟩,
   ⟨0x400004, 16, 0x100, 1, 0x0, .fixed 1, [⟨4, 28, .rw, .val 0⟩]⟩,
   ⟨0x400008, 16, 0x100, 1, 0x0, .fixed 1, [⟨0, 32, .rw, .val 0⟩]⟩,
   ⟨0x40000C, 16, 0x100, 1, 0x0, .fixed 1, [⟨0, 21, .rw, .val 0⟩]⟩,
   ⟨0x400010, 16, 0x100, 1, 0x0, .fixed 1, [⟨0, 1, .ro, .val 0⟩, ⟨1, 1, .ro, .val 0⟩, ⟨8, 8, .ro, .val 0⟩, ⟨16, 16, .ro, .val 0⟩]⟩,
   ⟨0x400014, 16, 0x100, 1, 0x0, .fixed 1, [⟨0, 32, .ro, .val 0⟩]⟩,
   ⟨0x400018, 16, 0x100, 1, 0x0, .fixed 1, [⟨0, 32, .ro, .val 0⟩]⟩,
   ⟨0x40001C, 16, 0x100, 1, 0x0, .fixed 1, [⟨0, 32, .ro, .val 0⟩]⟩,
   ⟨0x400020, 16, 0x100, 1, 0x0, .fixed 1, [⟨0, 32, .ro, .val 0⟩]⟩,
   ⟨0x400030, 16, 0x100, 1, 0x0, .fixed 1, [⟨0, 1, .w1c, .val 0⟩, ⟨1, 1, .w1c, .val 0⟩, ⟨2, 1, .ro, .val 0⟩]⟩,
   ⟨0x400034, 16, 0x100, 1, 0x0, .fixed 1, [⟨0, 1, .rw, .val 0⟩, ⟨1, 1, .rw, .val 1⟩, ⟨2, 1, .rw, .val 1⟩]⟩,
   ⟨0x400040, 16, 0x100, 1, 0x0, .fixed 1, [⟨0, 1, .w1c, .val 0⟩, ⟨1, 1, .w1c, .val 0⟩, ⟨2, 1, .w1c, .val 0⟩]⟩]
def regRowsDma1 : List RegDesc :=
  [⟨0x400044, 16, 0x100, 1, 0x0, .fixed 1, [⟨0, 3, .rw, .val 1⟩]⟩,
   ⟨0x400048, 16, 0x100, 1, 0x0, .fixed 1, [⟨0, 3, .rw, .val 0⟩]⟩,
   ⟨0x40004C, 16, 0x100, 1, 0x0, .fixed 1, [⟨0, 8, .rw, .val 0⟩, ⟨8, 1, .rw, .val 0⟩, ⟨9, 2, .rw, .val 0⟩]⟩]
/-- The registers of the DMA window. -/
def regRowsDma : List RegDesc := regRowsDma0 ++ regRowsDma1
def regRowsHq0 : List RegDesc :=
  [⟨0x500000, 1, 0x0, 1, 0x0, .fixed 1, [⟨0, 1, .rw, .val 0⟩, ⟨16, 10, .rw, .val 1008⟩]⟩,
   ⟨0x500004, 1, 0x0, 1, 0x0, .fixed 1, [⟨0, 11, .ro, .val 0⟩, ⟨16, 11, .ro, .val 0⟩, ⟨31, 1, .wo, .val 0⟩]⟩,
   ⟨0x500008, 1, 0x0, 1, 0x0, .fixed 1, [⟨0, 1, .w1c, .val 0⟩, ⟨1, 1, .w1c, .val 0⟩, ⟨2, 1, .w1c, .val 0⟩, ⟨3, 1, .w1c, .val 0⟩, ⟨4, 1, .w1c, .val 0⟩]⟩,
   ⟨0x50000C, 1, 0x0, 1, 0x0, .fixed 1, [⟨0, 9, .ro, .val 0⟩, ⟨9, 1, .ro, .val 0⟩, ⟨16, 16, .ro, .val 0⟩]⟩,
   ⟨0x500010, 1, 0x0, 1, 0x0, .fixed 1, [⟨0, 26, .ro, .val 0⟩, ⟨26, 2, .ro, .val 0⟩]⟩,
   ⟨0x500020, 1, 0x0, 1, 0x0, .fixed 1, [⟨0, 1, .w1c, .val 0⟩, ⟨1, 1, .w1c, .val 0⟩, ⟨2, 1, .w1c, .val 0⟩]⟩,
   ⟨0x500024, 1, 0x0, 1, 0x0, .fixed 1, [⟨0, 3, .rw, .val 1⟩]⟩,
   ⟨0x500028, 1, 0x0, 1, 0x0, .fixed 1, [⟨0, 3, .rw, .val 0⟩]⟩,
   ⟨0x50002C, 1, 0x0, 1, 0x0, .fixed 1, [⟨0, 8, .rw, .val 0⟩, ⟨8, 1, .rw, .val 0⟩, ⟨9, 2, .rw, .val 0⟩]⟩,
   ⟨0x50F000, 256, 0x4, 1, 0x0, .fixed 1, [⟨0, 32, .rw, .msix⟩]⟩,
   ⟨0x50F800, 2, 0x4, 1, 0x0, .fixed 1, [⟨0, 32, .ro, .val 0⟩]⟩,
   ⟨0x510000, 512, 0x10, 1, 0x0, .fixed 1, [⟨12, 20, .rw, .val 0⟩]⟩]
def regRowsHq1 : List RegDesc :=
  [⟨0x510004, 512, 0x10, 1, 0x0, .fixed 1, [⟨0, 32, .rw, .val 0⟩]⟩,
   ⟨0x510008, 512, 0x10, 1, 0x0, .fixed 1, [⟨0, 1, .rw, .val 0⟩, ⟨1, 1, .rw, .val 0⟩, ⟨4, 4, .rw, .val 4⟩, ⟨8, 3, .rw, .val 0⟩, ⟨16, 8, .rw, .val 0⟩]⟩,
   ⟨0x51000C, 512, 0x10, 1, 0x0, .fixed 1, [⟨0, 16, .ro, .val 0⟩, ⟨16, 11, .ro, .val 0⟩, ⟨29, 1, .ro, .val 0⟩, ⟨30, 1, .ro, .val 0⟩]⟩,
   ⟨0x520000, 256, 0x20, 1, 0x0, .fixed 1, [⟨12, 20, .rw, .val 0⟩]⟩,
   ⟨0x520004, 256, 0x20, 1, 0x0, .fixed 1, [⟨0, 32, .rw, .val 0⟩]⟩,
   ⟨0x520008, 256, 0x20, 1, 0x0, .fixed 1, [⟨0, 1, .rw, .val 0⟩, ⟨4, 4, .rw, .val 4⟩, ⟨16, 10, .rw, .val 1⟩]⟩,
   ⟨0x52000C, 256, 0x20, 1, 0x0, .fixed 1, [⟨0, 16, .rw, .val 0⟩]⟩,
   ⟨0x520010, 256, 0x20, 1, 0x0, .fixed 1, [⟨0, 16, .ro, .val 0⟩, ⟨16, 1, .ro, .val 1⟩]⟩,
   ⟨0x520014, 256, 0x20, 1, 0x0, .fixed 1, [⟨0, 11, .ro, .val 0⟩, ⟨16, 10, .ro, .val 0⟩]⟩]
/-- The registers of the HQ window. -/
def regRowsHq : List RegDesc := regRowsHq0 ++ regRowsHq1
def regRowsHsq0 : List RegDesc :=
  [⟨0x600000, 4, 0x1000, 1, 0x0, .hsq, [⟨0, 1, .rw, .val 1⟩]⟩,
   ⟨0x600004, 4, 0x1000, 1, 0x0, .hsq, [⟨0, 1, .ro, .val 0⟩, ⟨1, 1, .ro, .val 0⟩, ⟨2, 2, .ro, .val 0⟩, ⟨4, 2, .ro, .val 0⟩, ⟨6, 2, .ro, .val 0⟩, ⟨8, 9, .ro, .val 0⟩, ⟨18, 14, .ro, .val 0⟩]⟩,
   ⟨0x600008, 4, 0x1000, 1, 0x0, .hsq, [⟨0, 32, .ro, .val 0⟩]⟩,
   ⟨0x600010, 4, 0x1000, 1, 0x0, .hsq, [⟨0, 14, .ro, .val 0⟩, ⟨14, 1, .ro, .val 0⟩, ⟨15, 6, .ro, .val 0⟩, ⟨21, 1, .ro, .val 0⟩, ⟨22, 8, .ro, .val 0⟩]⟩,
   ⟨0x600014, 4, 0x1000, 1, 0x0, .hsq, [⟨0, 14, .ro, .val 0⟩, ⟨14, 8, .ro, .val 0⟩, ⟨22, 10, .ro, .val 0⟩]⟩,
   ⟨0x600020, 4, 0x1000, 2, 0x10, .hsq, [⟨0, 32, .ro, .val 0⟩]⟩,
   ⟨0x600024, 4, 0x1000, 2, 0x10, .hsq, [⟨0, 32, .ro, .val 0⟩]⟩,
   ⟨0x600028, 4, 0x1000, 2, 0x10, .hsq, [⟨0, 32, .ro, .val 0⟩]⟩,
   ⟨0x60002C, 4, 0x1000, 2, 0x10, .hsq, [⟨0, 32, .ro, .val 0⟩]⟩,
   ⟨0x600040, 4, 0x1000, 1, 0x0, .hsq, [⟨0, 1, .w1c, .val 0⟩, ⟨1, 1, .w1c, .val 0⟩, ⟨2, 1, .w1c, .val 0⟩, ⟨3, 1, .ro, .val 0⟩]⟩,
   ⟨0x600044, 4, 0x1000, 1, 0x0, .hsq, [⟨0, 1, .rw, .val 1⟩, ⟨1, 1, .rw, .val 0⟩, ⟨2, 1, .rw, .val 0⟩, ⟨3, 1, .rw, .val 1⟩]⟩,
   ⟨0x600050, 4, 0x1000, 1, 0x0, .hsq, [⟨0, 1, .w1c, .val 0⟩, ⟨1, 1, .w1c, .val 0⟩, ⟨2, 1, .w1c, .val 0⟩, ⟨3, 1, .w1c, .val 0⟩, ⟨4, 1, .w1c, .val 0⟩]⟩]
def regRowsHsq1 : List RegDesc :=
  [⟨0x600054, 4, 0x1000, 1, 0x0, .hsq, [⟨0, 5, .rw, .val 1⟩]⟩,
   ⟨0x600058, 4, 0x1000, 1, 0x0, .hsq, [⟨0, 5, .rw, .val 0⟩]⟩,
   ⟨0x60005C, 4, 0x1000, 1, 0x0, .hsq, [⟨0, 8, .rw, .val 0⟩, ⟨8, 1, .rw, .val 0⟩, ⟨9, 2, .rw, .val 0⟩]⟩,
   ⟨0x608000, 1, 0x0, 1, 0x0, .fixed 1, [⟨0, 2, .rw, .val 1⟩, ⟨2, 2, .rw, .val 3⟩]⟩,
   ⟨0x608010, 1, 0x0, 1, 0x0, .fixed 1, [⟨0, 14, .rw, .val 0⟩, ⟨14, 1, .rw, .val 0⟩, ⟨15, 2, .rw, .val 0⟩, ⟨31, 1, .ro, .val 0⟩]⟩,
   ⟨0x608020, 6, 0x4, 1, 0x0, .fixed 1, [⟨0, 32, .ro, .val 0⟩]⟩,
   ⟨0x608038, 1, 0x0, 1, 0x0, .fixed 1, [⟨0, 6, .ro, .val 0⟩]⟩]
/-- The registers of the HSQ window. -/
def regRowsHsq : List RegDesc := regRowsHsq0 ++ regRowsHsq1
def regRowsDs0 : List RegDesc :=
  [⟨0x1000000, 9, 0x10000, 1, 0x0, .fixed 1, [⟨0, 1, .rw, .val 0⟩, ⟨1, 1, .wo, .val 0⟩]⟩,
   ⟨0x1000004, 9, 0x10000, 1, 0x0, .fixed 1, [⟨0, 3, .ro, .val 4⟩, ⟨3, 1, .ro, .val 0⟩, ⟨4, 9, .ro, .val 0⟩, ⟨13, 3, .ro, .val 0⟩, ⟨16, 1, .ro, .val 0⟩]⟩,
   ⟨0x1000008, 9, 0x10000, 1, 0x0, .fixed 1, [⟨0, 32, .ro, .val 0⟩]⟩,
   ⟨0x100000C, 9, 0x10000, 1, 0x0, .fixed 1, [⟨0, 32, .ro, .val 0⟩]⟩,
   ⟨0x1000010, 9, 0x10000, 1, 0x0, .fixed 1, [⟨0, 32, .ro, .val 0⟩]⟩,
   ⟨0x1000014, 9, 0x10000, 1, 0x0, .fixed 1, [⟨0, 32, .ro, .val 0⟩]⟩,
   ⟨0x1000020, 9, 0x10000, 1, 0x0, .fixed 1, [⟨0, 16, .rw, .val 500⟩, ⟨16, 1, .rw, .val 1⟩, ⟨24, 8, .ro, .val 0⟩]⟩,
   ⟨0x1000024, 9, 0x10000, 1, 0x0, .fixed 1, [⟨0, 2, .ro, .val 0⟩, ⟨8, 8, .ro, .val 0⟩, ⟨16, 16, .ro, .val 0⟩]⟩,
   ⟨0x1000030, 9, 0x10000, 1, 0x0, .fixed 1, [⟨0, 1, .w1c, .val 0⟩, ⟨1, 1, .w1c, .val 0⟩, ⟨2, 1, .w1c, .val 0⟩, ⟨3, 1, .w1c, .val 0⟩, ⟨4, 1, .ro, .val 0⟩, ⟨5, 1, .w1c, .val 0⟩, ⟨6, 1, .w1c, .val 0⟩]⟩,
   ⟨0x1000034, 9, 0x10000, 1, 0x0, .fixed 1, [⟨0, 1, .rw, .val 1⟩, ⟨1, 1, .rw, .val 0⟩, ⟨2, 1, .rw, .val 1⟩, ⟨3, 1, .rw, .val 0⟩, ⟨4, 1, .rw, .val 1⟩, ⟨5, 1, .rw, .val 0⟩, ⟨6, 1, .rw, .val 0⟩]⟩,
   ⟨0x1000040, 9, 0x10000, 1, 0x0, .fixed 1, [⟨0, 1, .w1c, .val 0⟩, ⟨1, 1, .w1c, .val 0⟩, ⟨2, 1, .w1c, .val 0⟩, ⟨3, 1, .w1c, .val 0⟩]⟩,
   ⟨0x1000044, 9, 0x10000, 1, 0x0, .fixed 1, [⟨0, 4, .rw, .val 1⟩]⟩]
def regRowsDs1 : List RegDesc :=
  [⟨0x1000048, 9, 0x10000, 1, 0x0, .fixed 1, [⟨0, 4, .rw, .val 0⟩]⟩,
   ⟨0x100004C, 9, 0x10000, 1, 0x0, .fixed 1, [⟨0, 8, .rw, .val 0⟩, ⟨8, 1, .rw, .val 0⟩, ⟨9, 2, .rw, .val 0⟩]⟩,
   ⟨0x1008000, 1, 0x0, 1, 0x0, .fixed 1, [⟨0, 1, .rwl, .val 0⟩, ⟨16, 16, .rwl, .val 0⟩]⟩,
   ⟨0x1008004, 1, 0x0, 1, 0x0, .fixed 1, [⟨0, 32, .rwl, .val 0⟩]⟩,
   ⟨0x1008010, 1, 0x0, 1, 0x0, .fixed 1, [⟨0, 16, .rw, .val 24⟩]⟩,
   ⟨0x1008014, 1, 0x0, 1, 0x0, .fixed 1, [⟨0, 1, .wo, .val 0⟩]⟩,
   ⟨0x1008018, 1, 0x0, 1, 0x0, .fixed 1, [⟨0, 4, .ro, .val 15⟩, ⟨4, 4, .ro, .topSlice⟩, ⟨16, 16, .ro, .val 0⟩]⟩,
   ⟨0x1008020, 1, 0x0, 1, 0x0, .fixed 1, [⟨0, 16, .rw, .val 2000⟩]⟩,
   ⟨0x1008024, 1, 0x0, 1, 0x0, .fixed 1, [⟨0, 10, .ro, .val 0⟩, ⟨16, 10, .ro, .val 0⟩, ⟨26, 1, .ro, .val 0⟩]⟩,
   ⟨0x1008040, 1, 0x0, 1, 0x0, .fixed 1, [⟨0, 1, .rwl, .val 0⟩, ⟨20, 12, .rwl, .val 0⟩]⟩,
   ⟨0x1008044, 1, 0x0, 1, 0x0, .fixed 1, [⟨0, 32, .rwl, .val 0⟩]⟩,
   ⟨0x1008048, 1, 0x0, 1, 0x0, .fixed 1, [⟨0, 32, .ro, .val 0⟩]⟩]
def regRowsDs2 : List RegDesc :=
  [⟨0x100804C, 1, 0x0, 1, 0x0, .fixed 1, [⟨0, 32, .ro, .val 0⟩]⟩,
   ⟨0x1008050, 1, 0x0, 1, 0x0, .fixed 1, [⟨0, 32, .ro, .val 0⟩]⟩,
   ⟨0x1008054, 1, 0x0, 1, 0x0, .fixed 1, [⟨0, 32, .ro, .val 0⟩]⟩,
   ⟨0x100C000, 512, 0x20, 8, 0x4, .fixed 1, [⟨0, 32, .ro, .val 0⟩]⟩]
/-- The registers of the DS window. -/
def regRowsDs : List RegDesc := regRowsDs0 ++ regRowsDs1 ++ regRowsDs2
def regRowsEn0 : List RegDesc :=
  [⟨0x1200000, 2, 0x10000, 1, 0x0, .en, [⟨0, 1, .ro, .val 0⟩, ⟨1, 1, .ro, .val 0⟩, ⟨2, 4, .ro, .val 0⟩]⟩,
   ⟨0x1200004, 2, 0x10000, 1, 0x0, .en, [⟨0, 32, .ro, .val 0⟩]⟩,
   ⟨0x1200008, 2, 0x10000, 1, 0x0, .en, [⟨0, 16, .ro, .val 0⟩, ⟨16, 16, .ro, .val 0⟩]⟩,
   ⟨0x120000C, 2, 0x10000, 1, 0x0, .en, [⟨0, 32, .ro, .val 0⟩]⟩,
   ⟨0x1200030, 2, 0x10000, 1, 0x0, .en, [⟨0, 1, .w1c, .val 0⟩, ⟨1, 1, .w1c, .val 0⟩, ⟨2, 1, .w1c, .val 0⟩, ⟨3, 1, .ro, .val 0⟩]⟩,
   ⟨0x1200034, 2, 0x10000, 1, 0x0, .en, [⟨0, 1, .rw, .val 0⟩, ⟨1, 1, .rw, .val 0⟩, ⟨2, 1, .rw, .val 1⟩, ⟨3, 1, .rw, .val 1⟩]⟩,
   ⟨0x1200040, 2, 0x10000, 1, 0x0, .en, [⟨0, 1, .w1c, .val 0⟩, ⟨1, 1, .w1c, .val 0⟩, ⟨2, 1, .w1c, .val 0⟩]⟩,
   ⟨0x1200044, 2, 0x10000, 1, 0x0, .en, [⟨0, 3, .rw, .val 1⟩]⟩,
   ⟨0x1200048, 2, 0x10000, 1, 0x0, .en, [⟨0, 3, .rw, .val 0⟩]⟩,
   ⟨0x120004C, 2, 0x10000, 1, 0x0, .en, [⟨0, 8, .rw, .val 0⟩, ⟨8, 1, .rw, .val 0⟩, ⟨9, 2, .rw, .val 0⟩]⟩,
   ⟨0x1208000, 1, 0x0, 1, 0x0, .fixed 1, [⟨0, 1, .rwl, .val 0⟩, ⟨12, 20, .rwl, .val 0⟩]⟩,
   ⟨0x1208004, 1, 0x0, 1, 0x0, .fixed 1, [⟨0, 32, .rwl, .val 0⟩]⟩]
/-- The registers of the EN window. -/
def regRowsEn : List RegDesc := regRowsEn0
def regRowsCmp0 : List RegDesc :=
  [⟨0x1400000, 1, 0x0, 1, 0x0, .fixed 26, [⟨0, 1, .rw, .val 0⟩]⟩,
   ⟨0x1400004, 1, 0x0, 1, 0x0, .fixed 26, [⟨0, 24, .ro, .val 0⟩, ⟨24, 1, .ro, .val 0⟩, ⟨25, 1, .ro, .val 0⟩]⟩,
   ⟨0x1400008, 1, 0x0, 1, 0x0, .fixed 26, [⟨0, 16, .rw, .val 0⟩, ⟨16, 16, .rw, .val 0⟩]⟩,
   ⟨0x140000C, 1, 0x0, 1, 0x0, .fixed 26, [⟨0, 2, .rw, .val 0⟩, ⟨2, 1, .rw, .val 0⟩]⟩,
   ⟨0x1400010, 1, 0x0, 1, 0x0, .fixed 26, [⟨0, 16, .rw, .val 1024⟩]⟩,
   ⟨0x1400014, 1, 0x0, 1, 0x0, .fixed 26, [⟨0, 24, .rw, .val 4096⟩]⟩,
   ⟨0x1400018, 1, 0x0, 1, 0x0, .fixed 26, [⟨0, 12, .rw, .val 0⟩, ⟨16, 12, .rw, .val 0⟩]⟩,
   ⟨0x140001C, 1, 0x0, 1, 0x0, .fixed 26, [⟨0, 12, .rw, .val 0⟩, ⟨16, 10, .rw, .val 1023⟩]⟩,
   ⟨0x1400020, 1, 0x0, 1, 0x0, .fixed 26, [⟨0, 32, .ro, .val 0⟩]⟩,
   ⟨0x1400024, 1, 0x0, 1, 0x0, .fixed 26, [⟨0, 32, .ro, .val 0⟩]⟩,
   ⟨0x1400028, 1, 0x0, 1, 0x0, .fixed 26, [⟨0, 6, .ro, .val 0⟩, ⟨8, 4, .ro, .val 0⟩, ⟨16, 16, .ro, .val 0⟩]⟩,
   ⟨0x140002C, 1, 0x0, 1, 0x0, .fixed 26, [⟨0, 32, .ro, .val 0⟩]⟩]
def regRowsCmp1 : List RegDesc :=
  [⟨0x1400040, 1, 0x0, 1, 0x0, .fixed 26, [⟨0, 1, .w1c, .val 0⟩, ⟨1, 1, .w1c, .val 0⟩, ⟨2, 1, .w1c, .val 0⟩, ⟨3, 1, .w1c, .val 0⟩, ⟨4, 1, .w1c, .val 0⟩, ⟨5, 1, .w1c, .val 0⟩, ⟨6, 1, .w1c, .val 0⟩, ⟨7, 1, .ro, .val 0⟩]⟩,
   ⟨0x1400044, 1, 0x0, 1, 0x0, .fixed 26, [⟨0, 1, .rw, .val 1⟩, ⟨1, 1, .rw, .val 0⟩, ⟨2, 1, .rw, .val 1⟩, ⟨3, 1, .rw, .val 1⟩, ⟨4, 1, .rw, .val 1⟩, ⟨5, 1, .rw, .val 0⟩, ⟨6, 1, .rw, .val 0⟩, ⟨7, 1, .rw, .val 1⟩]⟩,
   ⟨0x1400050, 1, 0x0, 1, 0x0, .fixed 26, [⟨0, 1, .w1c, .val 0⟩, ⟨1, 1, .w1c, .val 0⟩, ⟨2, 1, .w1c, .val 0⟩, ⟨3, 1, .w1c, .val 0⟩, ⟨4, 1, .w1c, .val 0⟩]⟩,
   ⟨0x1400054, 1, 0x0, 1, 0x0, .fixed 26, [⟨0, 5, .rw, .val 1⟩]⟩,
   ⟨0x1400058, 1, 0x0, 1, 0x0, .fixed 26, [⟨0, 5, .rw, .val 0⟩]⟩,
   ⟨0x140005C, 1, 0x0, 1, 0x0, .fixed 26, [⟨0, 8, .rw, .val 0⟩, ⟨8, 1, .rw, .val 0⟩, ⟨9, 2, .rw, .val 0⟩]⟩,
   ⟨0x1400100, 4, 0x10, 1, 0x0, .fixed 26, [⟨6, 26, .rw, .val 0⟩]⟩,
   ⟨0x1400104, 4, 0x10, 1, 0x0, .fixed 26, [⟨0, 32, .rw, .val 0⟩]⟩,
   ⟨0x1400108, 4, 0x10, 1, 0x0, .fixed 26, [⟨0, 1, .wo, .val 0⟩, ⟨1, 1, .ro, .val 0⟩, ⟨2, 1, .ro, .val 0⟩, ⟨3, 1, .ro, .val 0⟩]⟩,
   ⟨0x1400200, 1, 0x0, 1, 0x0, .fixed 26, [⟨0, 1, .rw, .val 0⟩, ⟨1, 2, .rw, .val 0⟩, ⟨3, 4, .rw, .val 0⟩, ⟨7, 4, .rw, .val 0⟩, ⟨11, 3, .rw, .val 0⟩, ⟨14, 1, .rw, .val 0⟩]⟩,
   ⟨0x1400204, 1, 0x0, 1, 0x0, .fixed 26, [⟨0, 16, .rw, .val 0⟩, ⟨16, 16, .rw, .val 0⟩]⟩,
   ⟨0x1400208, 1, 0x0, 1, 0x0, .fixed 26, [⟨0, 16, .rw, .val 0⟩, ⟨16, 16, .rw, .val 0⟩]⟩]
def regRowsCmp2 : List RegDesc :=
  [⟨0x140020C, 1, 0x0, 1, 0x0, .fixed 26, [⟨0, 9, .ro, .val 0⟩, ⟨9, 1, .ro, .val 0⟩, ⟨10, 1, .ro, .val 0⟩, ⟨16, 16, .ro, .val 0⟩]⟩,
   ⟨0x1400300, 1, 0x0, 1, 0x0, .fixed 26, [⟨0, 1, .rw, .val 0⟩]⟩,
   ⟨0x1400304, 2, 0x4, 1, 0x0, .fixed 26, [⟨0, 32, .w1c, .val 0⟩]⟩,
   ⟨0x1400380, 1, 0x0, 1, 0x0, .fixed 26, [⟨0, 1, .rw, .val 0⟩, ⟨1, 1, .rw, .val 0⟩, ⟨8, 6, .rw, .val 63⟩, ⟨16, 8, .rw, .val 0⟩]⟩,
   ⟨0x1400384, 1, 0x0, 1, 0x0, .fixed 26, [⟨0, 32, .rw, .val 0⟩]⟩,
   ⟨0x1400388, 1, 0x0, 1, 0x0, .fixed 26, [⟨0, 7, .rw, .val 16⟩, ⟨8, 7, .rw, .val 16⟩, ⟨31, 1, .wo, .val 0⟩]⟩,
   ⟨0x140038C, 1, 0x0, 1, 0x0, .fixed 26, [⟨0, 9, .ro, .val 0⟩, ⟨16, 16, .ro, .val 0⟩]⟩,
   ⟨0x1400400, 64, 0x10, 1, 0x0, .fixed 26, [⟨0, 16, .rw, .val 0⟩, ⟨16, 16, .rw, .val 0⟩]⟩,
   ⟨0x1400404, 64, 0x10, 1, 0x0, .fixed 26, [⟨0, 16, .rw, .val 0⟩, ⟨16, 16, .rw, .val 0⟩]⟩,
   ⟨0x1400408, 64, 0x10, 1, 0x0, .fixed 26, [⟨0, 32, .rw, .val 0⟩]⟩,
   ⟨0x140040C, 64, 0x10, 1, 0x0, .fixed 26, [⟨0, 1, .rw, .val 0⟩, ⟨1, 1, .rw, .val 0⟩, ⟨2, 1, .rw, .val 1⟩, ⟨3, 1, .ro, .val 0⟩, ⟨8, 8, .ro, .val 0⟩, ⟨16, 16, .ro, .val 0⟩]⟩,
   ⟨0x1400800, 64, 0x4, 1, 0x0, .fixed 26, [⟨0, 32, .ro, .val 0⟩]⟩]
def regRowsCmp3 : List RegDesc :=
  [⟨0x1400900, 64, 0x4, 1, 0x0, .fixed 26, [⟨0, 16, .ro, .val 0⟩]⟩,
   ⟨0x1410000, 64, 0x100, 13, 0x4, .layer, [⟨0, 32, .ro, .val 0⟩]⟩,
   ⟨0x1410040, 64, 0x100, 13, 0x4, .layer, [⟨0, 32, .ro, .val 0⟩]⟩,
   ⟨0x1410080, 64, 0x100, 1, 0x0, .layer, [⟨0, 16, .ro, .val 0⟩, ⟨16, 1, .ro, .val 0⟩, ⟨17, 3, .ro, .val 0⟩]⟩,
   ⟨0x1410084, 64, 0x100, 1, 0x0, .layer, [⟨0, 32, .ro, .val 0⟩]⟩,
   ⟨0x1410088, 64, 0x100, 1, 0x0, .layer, [⟨0, 16, .ro, .val 0⟩]⟩,
   ⟨0x141008C, 64, 0x100, 1, 0x0, .layer, [⟨0, 32, .ro, .val 0⟩]⟩,
   ⟨0x1410090, 64, 0x100, 1, 0x0, .layer, [⟨0, 32, .ro, .val 0⟩]⟩,
   ⟨0x14100A0, 64, 0x100, 1, 0x0, .layer, [⟨0, 1, .w1c, .val 0⟩, ⟨1, 1, .w1c, .val 0⟩, ⟨2, 1, .w1c, .val 0⟩, ⟨3, 1, .w1c, .val 0⟩, ⟨4, 1, .w1c, .val 0⟩]⟩,
   ⟨0x14100A4, 64, 0x100, 1, 0x0, .layer, [⟨0, 1, .rw, .val 0⟩, ⟨1, 1, .rw, .val 0⟩, ⟨2, 1, .rw, .val 0⟩, ⟨3, 1, .rw, .val 1⟩, ⟨4, 1, .rw, .val 1⟩]⟩]
/-- The registers of the CMP window. -/
def regRowsCmp : List RegDesc := regRowsCmp0 ++ regRowsCmp1 ++ regRowsCmp2 ++ regRowsCmp3
def regRowsLmp0 : List RegDesc :=
  [⟨0x1600000, 1, 0x0, 1, 0x0, .fixed 32, [⟨0, 1, .rw, .val 0⟩, ⟨1, 1, .rw, .val 1⟩, ⟨2, 1, .rw, .val 0⟩, ⟨3, 1, .rw, .val 1⟩, ⟨4, 1, .rw, .val 1⟩]⟩,
   ⟨0x1600004, 1, 0x0, 1, 0x0, .fixed 32, [⟨0, 29, .ro, .val 0⟩]⟩,
   ⟨0x1600008, 1, 0x0, 1, 0x0, .fixed 32, [⟨0, 17, .ro, .val 0⟩]⟩,
   ⟨0x1600010, 1, 0x0, 1, 0x0, .fixed 32, [⟨6, 26, .rwl, .val 0⟩]⟩,
   ⟨0x1600014, 1, 0x0, 1, 0x0, .fixed 32, [⟨0, 32, .rwl, .val 0⟩]⟩,
   ⟨0x1600018, 1, 0x0, 1, 0x0, .fixed 32, [⟨0, 29, .rwl, .val 0⟩]⟩,
   ⟨0x1600020, 1, 0x0, 1, 0x0, .fixed 32, [⟨0, 16, .rw, .val 65535⟩, ⟨16, 16, .rw, .val 65535⟩]⟩,
   ⟨0x1600024, 1, 0x0, 1, 0x0, .fixed 32, [⟨0, 16, .rw, .val 65535⟩]⟩,
   ⟨0x1600030, 1, 0x0, 1, 0x0, .fixed 32, [⟨6, 26, .rw, .val 0⟩]⟩,
   ⟨0x1600034, 1, 0x0, 1, 0x0, .fixed 32, [⟨0, 32, .rw, .val 0⟩]⟩,
   ⟨0x1600038, 1, 0x0, 1, 0x0, .fixed 32, [⟨0, 1, .wo, .val 0⟩, ⟨1, 1, .ro, .val 0⟩, ⟨2, 1, .ro, .val 0⟩, ⟨3, 1, .ro, .val 0⟩]⟩,
   ⟨0x1600040, 1, 0x0, 1, 0x0, .fixed 32, [⟨5, 27, .rw, .val 0⟩]⟩]
def regRowsLmp1 : List RegDesc :=
  [⟨0x1600044, 1, 0x0, 1, 0x0, .fixed 32, [⟨0, 32, .rw, .val 0⟩]⟩,
   ⟨0x1600048, 1, 0x0, 1, 0x0, .fixed 32, [⟨0, 16, .rw, .val 0⟩, ⟨29, 1, .ro, .val 0⟩, ⟨30, 1, .ro, .val 0⟩, ⟨31, 1, .wo, .val 0⟩]⟩,
   ⟨0x160004C, 1, 0x0, 1, 0x0, .fixed 32, [⟨0, 17, .rw, .val 0⟩]⟩,
   ⟨0x1600050, 1, 0x0, 1, 0x0, .fixed 32, [⟨0, 24, .rw, .val 8388608⟩]⟩,
   ⟨0x1600054, 1, 0x0, 1, 0x0, .fixed 32, [⟨0, 24, .rw, .val 8388608⟩]⟩,
   ⟨0x1600058, 1, 0x0, 1, 0x0, .fixed 32, [⟨0, 24, .rw, .val 4194304⟩]⟩,
   ⟨0x160005C, 1, 0x0, 1, 0x0, .fixed 32, [⟨0, 1, .rw, .val 0⟩]⟩,
   ⟨0x1600060, 1, 0x0, 1, 0x0, .fixed 32, [⟨0, 24, .ro, .val 0⟩, ⟨24, 1, .ro, .val 0⟩]⟩,
   ⟨0x1600064, 3, 0x4, 1, 0x0, .fixed 32, [⟨0, 23, .ro, .val 0⟩]⟩,
   ⟨0x1600070, 1, 0x0, 1, 0x0, .fixed 32, [⟨0, 17, .ro, .val 0⟩]⟩,
   ⟨0x1600080, 1, 0x0, 1, 0x0, .fixed 32, [⟨0, 16, .rw, .val 4096⟩, ⟨16, 16, .rw, .val 4096⟩]⟩,
   ⟨0x1600084, 1, 0x0, 1, 0x0, .fixed 32, [⟨0, 16, .rw, .val 4096⟩]⟩]
def regRowsLmp2 : List RegDesc :=
  [⟨0x1600090, 1, 0x0, 1, 0x0, .fixed 32, [⟨0, 16, .ro, .val 0⟩, ⟨16, 4, .ro, .val 0⟩, ⟨20, 12, .ro, .val 0⟩]⟩,
   ⟨0x16000A0, 1, 0x0, 1, 0x0, .fixed 32, [⟨0, 16, .rw, .val 0⟩]⟩,
   ⟨0x16000A4, 8, 0x4, 1, 0x0, .fixed 32, [⟨0, 32, .ro, .val 0⟩]⟩,
   ⟨0x16000C4, 2, 0x4, 1, 0x0, .fixed 32, [⟨0, 32, .ro, .val 0⟩]⟩,
   ⟨0x16000CC, 1, 0x0, 1, 0x0, .fixed 32, [⟨0, 3, .ro, .val 0⟩, ⟨3, 1, .ro, .val 0⟩]⟩,
   ⟨0x16000D0, 1, 0x0, 1, 0x0, .fixed 32, [⟨0, 9, .ro, .val 0⟩, ⟨16, 16, .ro, .val 0⟩]⟩,
   ⟨0x16000E0, 1, 0x0, 1, 0x0, .fixed 32, [⟨0, 1, .w1c, .val 0⟩, ⟨1, 1, .w1c, .val 0⟩, ⟨2, 1, .w1c, .val 0⟩, ⟨3, 1, .w1c, .val 0⟩, ⟨4, 1, .w1c, .val 0⟩, ⟨5, 1, .w1c, .val 0⟩, ⟨6, 1, .w1c, .val 0⟩, ⟨7, 1, .ro, .val 0⟩]⟩,
   ⟨0x16000E4, 1, 0x0, 1, 0x0, .fixed 32, [⟨0, 1, .rw, .val 0⟩, ⟨1, 1, .rw, .val 1⟩, ⟨2, 1, .rw, .val 1⟩, ⟨3, 1, .rw, .val 1⟩, ⟨4, 1, .rw, .val 1⟩, ⟨5, 1, .rw, .val 1⟩, ⟨6, 1, .rw, .val 0⟩, ⟨7, 1, .rw, .val 1⟩]⟩,
   ⟨0x16000F0, 1, 0x0, 1, 0x0, .fixed 32, [⟨0, 1, .w1c, .val 0⟩, ⟨1, 1, .w1c, .val 0⟩, ⟨2, 1, .w1c, .val 0⟩]⟩,
   ⟨0x16000F4, 1, 0x0, 1, 0x0, .fixed 32, [⟨0, 3, .rw, .val 1⟩]⟩,
   ⟨0x16000F8, 1, 0x0, 1, 0x0, .fixed 32, [⟨0, 3, .rw, .val 0⟩]⟩,
   ⟨0x16000FC, 1, 0x0, 1, 0x0, .fixed 32, [⟨0, 8, .rw, .val 0⟩, ⟨8, 1, .rw, .val 0⟩, ⟨9, 2, .rw, .val 0⟩]⟩]
def regRowsLmp3 : List RegDesc :=
  [⟨0x1600400, 256, 0x10, 1, 0x0, .fixed 32, [⟨0, 32, .ro, .val 0⟩]⟩,
   ⟨0x1600404, 256, 0x10, 1, 0x0, .fixed 32, [⟨0, 32, .ro, .val 0⟩]⟩,
   ⟨0x1600408, 256, 0x10, 1, 0x0, .fixed 32, [⟨0, 6, .ro, .val 0⟩, ⟨6, 10, .ro, .val 0⟩, ⟨31, 1, .ro, .val 0⟩]⟩,
   ⟨0x1610000, 8192, 0x4, 1, 0x0, .fixed 32, [⟨0, 32, .ro, .val 0⟩]⟩,
   ⟨0x1618000, 2048, 0x4, 1, 0x0, .fixed 32, [⟨0, 32, .w1c, .val 0⟩]⟩,
   ⟨0x1700000, 1, 0x0, 1, 0x0, .fixed 32, [⟨0, 9, .rw, .val 64⟩, ⟨16, 5, .rw, .val 4⟩, ⟨24, 8, .rw, .val 60⟩]⟩,
   ⟨0x1700004, 1, 0x0, 1, 0x0, .fixed 32, [⟨0, 2, .ro, .val 0⟩, ⟨2, 1, .ro, .val 0⟩, ⟨3, 1, .ro, .val 0⟩, ⟨4, 1, .ro, .val 0⟩]⟩,
   ⟨0x1700008, 1, 0x0, 1, 0x0, .fixed 32, [⟨0, 32, .ro, .val 0⟩]⟩,
   ⟨0x170000C, 1, 0x0, 1, 0x0, .fixed 32, [⟨0, 17, .ro, .val 0⟩]⟩,
   ⟨0x1700010, 1, 0x0, 1, 0x0, .fixed 32, [⟨0, 32, .ro, .val 0⟩]⟩,
   ⟨0x1700014, 1, 0x0, 1, 0x0, .fixed 32, [⟨0, 32, .ro, .val 0⟩]⟩,
   ⟨0x1700020, 1, 0x0, 1, 0x0, .fixed 32, [⟨6, 26, .rwl, .val 0⟩]⟩]
def regRowsLmp4 : List RegDesc :=
  [⟨0x1700024, 1, 0x0, 1, 0x0, .fixed 32, [⟨0, 32, .rwl, .val 0⟩]⟩,
   ⟨0x1700028, 1, 0x0, 1, 0x0, .fixed 32, [⟨6, 26, .rwl, .val 0⟩]⟩,
   ⟨0x170002C, 1, 0x0, 1, 0x0, .fixed 32, [⟨0, 32, .rwl, .val 0⟩]⟩,
   ⟨0x1700030, 1, 0x0, 1, 0x0, .fixed 32, [⟨6, 26, .rwl, .val 0⟩]⟩,
   ⟨0x1700034, 1, 0x0, 1, 0x0, .fixed 32, [⟨0, 32, .rwl, .val 0⟩]⟩,
   ⟨0x1700040, 1, 0x0, 1, 0x0, .fixed 32, [⟨0, 8, .rw, .val 0⟩, ⟨8, 3, .rw, .val 3⟩, ⟨12, 4, .rw, .val 4⟩, ⟨16, 16, .rw, .val 60⟩]⟩,
   ⟨0x1700080, 16, 0x4, 1, 0x0, .fixed 32, [⟨0, 12, .rw, .val 256⟩]⟩,
   ⟨0x17000C0, 1, 0x0, 1, 0x0, .fixed 32, [⟨0, 16, .rw, .val 5000⟩]⟩,
   ⟨0x17000D0, 1, 0x0, 1, 0x0, .fixed 0, [⟨0, 1, .ro, .val 0⟩, ⟨1, 1, .ro, .val 0⟩, ⟨4, 4, .ro, .val 0⟩, ⟨8, 4, .ro, .val 0⟩, ⟨16, 16, .ro, .val 0⟩]⟩,
   ⟨0x17000D4, 1, 0x0, 1, 0x0, .fixed 0, [⟨0, 32, .ro, .val 0⟩]⟩,
   ⟨0x17000E0, 1, 0x0, 1, 0x0, .fixed 0, [⟨0, 32, .ro, .val 0⟩]⟩,
   ⟨0x17000E4, 1, 0x0, 1, 0x0, .fixed 0, [⟨0, 13, .ro, .val 0⟩, ⟨13, 1, .ro, .val 0⟩, ⟨16, 16, .ro, .val 0⟩]⟩]
def regRowsLmp5 : List RegDesc :=
  [⟨0x17000E8, 1, 0x0, 1, 0x0, .fixed 0, [⟨0, 16, .ro, .val 512⟩, ⟨16, 16, .ro, .val 0⟩]⟩,
   ⟨0x1700100, 1, 0x0, 1, 0x0, .fixed 32, [⟨0, 1, .w1c, .val 0⟩, ⟨1, 1, .w1c, .val 0⟩, ⟨2, 1, .w1c, .val 0⟩, ⟨3, 1, .w1c, .val 0⟩, ⟨4, 1, .w1c, .val 0⟩, ⟨5, 1, .w1c, .val 0⟩, ⟨6, 1, .w1c, .val 0⟩, ⟨7, 1, .ro, .val 0⟩]⟩,
   ⟨0x1700104, 1, 0x0, 1, 0x0, .fixed 32, [⟨0, 1, .rw, .val 0⟩, ⟨1, 1, .rw, .val 1⟩, ⟨2, 1, .rw, .val 1⟩, ⟨3, 1, .rw, .val 0⟩, ⟨4, 1, .rw, .val 1⟩, ⟨5, 1, .rw, .val 1⟩, ⟨6, 1, .rw, .val 1⟩, ⟨7, 1, .rw, .val 1⟩]⟩,
   ⟨0x1700110, 1, 0x0, 1, 0x0, .fixed 32, [⟨0, 1, .w1c, .val 0⟩, ⟨1, 1, .w1c, .val 0⟩, ⟨2, 1, .w1c, .val 0⟩]⟩,
   ⟨0x1700114, 1, 0x0, 1, 0x0, .fixed 32, [⟨0, 3, .rw, .val 1⟩]⟩,
   ⟨0x1700118, 1, 0x0, 1, 0x0, .fixed 32, [⟨0, 3, .rw, .val 0⟩]⟩,
   ⟨0x170011C, 1, 0x0, 1, 0x0, .fixed 32, [⟨0, 8, .rw, .val 0⟩, ⟨8, 1, .rw, .val 0⟩, ⟨9, 2, .rw, .val 0⟩]⟩]
/-- The registers of the LMP window. -/
def regRowsLmp : List RegDesc := regRowsLmp0 ++ regRowsLmp1 ++ regRowsLmp2 ++ regRowsLmp3 ++ regRowsLmp4 ++ regRowsLmp5
def regRowsPlk0 : List RegDesc :=
  [⟨0x1800000, 64, 0x400, 1, 0x0, .plk, [⟨0, 1, .rw, .val 0⟩, ⟨1, 2, .rw, .val 0⟩, ⟨3, 1, .rw, .val 1⟩, ⟨4, 1, .rw, .val 1⟩, ⟨16, 16, .rw, .val 10⟩]⟩,
   ⟨0x1800004, 64, 0x400, 1, 0x0, .plk, [⟨0, 3, .ro, .val 0⟩, ⟨3, 2, .ro, .val 0⟩, ⟨5, 11, .ro, .val 0⟩, ⟨16, 1, .ro, .val 0⟩, ⟨17, 6, .ro, .val 0⟩, ⟨23, 1, .ro, .val 0⟩]⟩,
   ⟨0x1800008, 64, 0x400, 1, 0x0, .plk, [⟨0, 1, .rw, .val 0⟩, ⟨1, 6, .rw, .val 0⟩, ⟨7, 11, .rw, .val 0⟩, ⟨18, 11, .rw, .val 0⟩]⟩,
   ⟨0x180000C, 64, 0x400, 1, 0x0, .plk, [⟨0, 1, .wo, .val 0⟩, ⟨1, 1, .wo, .val 0⟩, ⟨2, 1, .wo, .val 0⟩]⟩,
   ⟨0x1800010, 64, 0x400, 1, 0x0, .plk, [⟨0, 2, .ro, .val 0⟩, ⟨16, 16, .ro, .val 0⟩]⟩,
   ⟨0x1800014, 64, 0x400, 1, 0x0, .plk, [⟨0, 8, .ro, .val 0⟩, ⟨8, 8, .ro, .val 0⟩, ⟨16, 1, .ro, .val 0⟩]⟩,
   ⟨0x1800020, 64, 0x400, 1, 0x0, .plk, [⟨0, 32, .ro, .val 0⟩]⟩,
   ⟨0x1800024, 64, 0x400, 1, 0x0, .plk, [⟨0, 32, .ro, .val 0⟩]⟩,
   ⟨0x1800028, 64, 0x400, 1, 0x0, .plk, [⟨0, 32, .ro, .val 0⟩]⟩,
   ⟨0x180002C, 64, 0x400, 1, 0x0, .plk, [⟨0, 32, .ro, .val 0⟩]⟩,
   ⟨0x1800030, 64, 0x400, 1, 0x0, .plk, [⟨0, 32, .ro, .val 0⟩]⟩,
   ⟨0x1800034, 64, 0x400, 1, 0x0, .plk, [⟨0, 32, .ro, .val 0⟩]⟩]
def regRowsPlk1 : List RegDesc :=
  [⟨0x1800038, 64, 0x400, 1, 0x0, .plk, [⟨0, 32, .ro, .val 0⟩]⟩,
   ⟨0x180003C, 64, 0x400, 1, 0x0, .plk, [⟨0, 32, .ro, .val 0⟩]⟩,
   ⟨0x1800040, 64, 0x400, 1, 0x0, .plk, [⟨0, 10, .ro, .val 0⟩, ⟨16, 8, .ro, .val 0⟩, ⟨31, 1, .ro, .val 0⟩]⟩,
   ⟨0x1800044, 64, 0x400, 4, 0x4, .plk, [⟨0, 32, .ro, .val 0⟩]⟩,
   ⟨0x1800054, 64, 0x400, 1, 0x0, .plk, [⟨0, 1, .wo, .val 0⟩]⟩,
   ⟨0x1800060, 64, 0x400, 1, 0x0, .plk, [⟨0, 1, .w1c, .val 0⟩, ⟨1, 1, .w1c, .val 0⟩, ⟨2, 1, .w1c, .val 0⟩, ⟨3, 1, .w1c, .val 0⟩, ⟨4, 1, .w1c, .val 0⟩, ⟨5, 1, .w1c, .val 0⟩, ⟨6, 1, .w1c, .val 0⟩, ⟨7, 1, .w1c, .val 0⟩, ⟨8, 1, .ro, .val 0⟩]⟩,
   ⟨0x1800064, 64, 0x400, 1, 0x0, .plk, [⟨0, 1, .rw, .val 1⟩, ⟨1, 1, .rw, .val 0⟩, ⟨2, 1, .rw, .val 1⟩, ⟨3, 1, .rw, .val 1⟩, ⟨4, 1, .rw, .val 1⟩, ⟨5, 1, .rw, .val 0⟩, ⟨6, 1, .rw, .val 0⟩, ⟨7, 1, .rw, .val 1⟩, ⟨8, 1, .rw, .val 1⟩]⟩,
   ⟨0x1800070, 64, 0x400, 1, 0x0, .plk, [⟨0, 1, .w1c, .val 0⟩, ⟨1, 1, .w1c, .val 0⟩, ⟨2, 1, .w1c, .val 0⟩]⟩,
   ⟨0x1800074, 64, 0x400, 1, 0x0, .plk, [⟨0, 3, .rw, .val 1⟩]⟩,
   ⟨0x1800078, 64, 0x400, 1, 0x0, .plk, [⟨0, 3, .rw, .val 0⟩]⟩,
   ⟨0x180007C, 64, 0x400, 1, 0x0, .plk, [⟨0, 8, .rw, .val 0⟩, ⟨8, 1, .rw, .val 0⟩, ⟨9, 2, .rw, .val 0⟩]⟩,
   ⟨0x1800100, 64, 0x400, 1, 0x0, .plk, [⟨0, 8, .rw, .val 20⟩]⟩]
def regRowsPlk2 : List RegDesc :=
  [⟨0x1800104, 64, 0x400, 1, 0x0, .plk, [⟨0, 20, .rw, .val 170449⟩]⟩,
   ⟨0x1800108, 64, 0x400, 1, 0x0, .plk, [⟨0, 17, .rw, .val 27708⟩]⟩,
   ⟨0x180010C, 64, 0x400, 1, 0x0, .plk, [⟨0, 20, .rw, .val 208⟩]⟩,
   ⟨0x1800110, 64, 0x400, 1, 0x0, .plk, [⟨0, 17, .rw, .val 9236⟩]⟩,
   ⟨0x1800114, 64, 0x400, 1, 0x0, .plk, [⟨0, 17, .rw, .val 9236⟩]⟩,
   ⟨0x1800118, 64, 0x400, 2, 0x4, .plk, [⟨0, 17, .ro, .val 0⟩]⟩,
   ⟨0x1800120, 64, 0x400, 4, 0x4, .plk, [⟨0, 32, .ro, .val 0⟩]⟩,
   ⟨0x1810000, 1, 0x0, 1, 0x0, .fixed 1, [⟨0, 4, .rw, .val 8⟩, ⟨4, 1, .rw, .val 0⟩, ⟨5, 2, .rw, .val 0⟩, ⟨7, 1, .rw, .val 0⟩]⟩,
   ⟨0x1810004, 1, 0x0, 1, 0x0, .fixed 1, [⟨0, 4, .ro, .val 8⟩, ⟨4, 1, .ro, .val 0⟩, ⟨5, 1, .w1c, .val 0⟩, ⟨16, 16, .ro, .val 0⟩]⟩,
   ⟨0x1810008, 1, 0x0, 1, 0x0, .fixed 1, [⟨0, 32, .ro, .val 20000000⟩]⟩,
   ⟨0x181000C, 1, 0x0, 1, 0x0, .fixed 1, [⟨0, 32, .ro, .val 0⟩]⟩,
   ⟨0x1810010, 1, 0x0, 1, 0x0, .fixed 1, [⟨0, 24, .rw, .val 0⟩]⟩]
def regRowsPlk3 : List RegDesc :=
  [⟨0x1810014, 1, 0x0, 1, 0x0, .fixed 1, [⟨0, 32, .ro, .val 0⟩]⟩,
   ⟨0x1810020, 1, 0x0, 1, 0x0, .fixed 1, [⟨0, 32, .rw, .val 20000000⟩]⟩,
   ⟨0x1810024, 1, 0x0, 1, 0x0, .fixed 1, [⟨0, 16, .rw, .val 1000⟩, ⟨16, 4, .rw, .val 3⟩]⟩,
   ⟨0x1810040, 1, 0x0, 1, 0x0, .fixed 1, [⟨0, 6, .rw, .val 0⟩, ⟨6, 10, .rw, .val 0⟩]⟩,
   ⟨0x1810044, 2, 0x4, 1, 0x0, .fixed 1, [⟨0, 32, .ro, .val 0⟩]⟩,
   ⟨0x181004C, 1, 0x0, 1, 0x0, .fixed 1, [⟨0, 10, .ro, .val 0⟩, ⟨10, 10, .ro, .val 0⟩, ⟨20, 1, .ro, .val 0⟩, ⟨21, 1, .ro, .val 0⟩, ⟨22, 8, .ro, .val 0⟩]⟩,
   ⟨0x1810050, 1, 0x0, 1, 0x0, .fixed 1, [⟨0, 16, .ro, .val 0⟩, ⟨16, 8, .ro, .val 0⟩]⟩,
   ⟨0x1810054, 1, 0x0, 1, 0x0, .fixed 1, [⟨0, 16, .ro, .val 0⟩, ⟨16, 16, .ro, .val 0⟩]⟩,
   ⟨0x1810058, 1, 0x0, 1, 0x0, .fixed 1, [⟨0, 32, .ro, .val 0⟩]⟩]
/-- The registers of the PLK window. -/
def regRowsPlk : List RegDesc := regRowsPlk0 ++ regRowsPlk1 ++ regRowsPlk2 ++ regRowsPlk3
def regRowsIgr0 : List RegDesc :=
  [⟨0x1A00000, 2, 0x1000, 1, 0x0, .igr, [⟨0, 1, .rw, .val 0⟩, ⟨1, 1, .rw, .val 1⟩, ⟨2, 1, .rw, .val 1⟩, ⟨8, 8, .rw, .val 38⟩]⟩,
   ⟨0x1A00004, 2, 0x1000, 1, 0x0, .igr, [⟨0, 32, .rw, .val 0⟩]⟩,
   ⟨0x1A00008, 2, 0x1000, 1, 0x0, .igr, [⟨0, 16, .rw, .val 0⟩]⟩,
   ⟨0x1A0000C, 2, 0x1000, 1, 0x0, .igr, [⟨0, 1, .ro, .val 0⟩, ⟨1, 1, .ro, .val 0⟩]⟩,
   ⟨0x1A00010, 2, 0x1000, 1, 0x0, .igr, [⟨0, 16, .rw, .val 500⟩]⟩,
   ⟨0x1A00014, 2, 0x1000, 1, 0x0, .igr, [⟨6, 26, .rwl, .val 0⟩]⟩,
   ⟨0x1A00018, 2, 0x1000, 1, 0x0, .igr, [⟨0, 32, .rwl, .val 0⟩]⟩,
   ⟨0x1A0001C, 2, 0x1000, 1, 0x0, .igr, [⟨0, 15, .rwl, .val 0⟩]⟩,
   ⟨0x1A00020, 2, 0x1000, 1, 0x0, .igr, [⟨0, 32, .ro, .val 0⟩]⟩,
   ⟨0x1A00024, 2, 0x1000, 1, 0x0, .igr, [⟨0, 32, .ro, .val 0⟩]⟩,
   ⟨0x1A00028, 2, 0x1000, 1, 0x0, .igr, [⟨0, 32, .ro, .val 0⟩]⟩,
   ⟨0x1A0002C, 2, 0x1000, 1, 0x0, .igr, [⟨0, 32, .ro, .val 0⟩]⟩]
def regRowsIgr1 : List RegDesc :=
  [⟨0x1A00030, 2, 0x1000, 1, 0x0, .igr, [⟨0, 32, .ro, .val 0⟩]⟩,
   ⟨0x1A00034, 2, 0x1000, 1, 0x0, .igr, [⟨0, 32, .ro, .val 0⟩]⟩,
   ⟨0x1A00040, 2, 0x1000, 1, 0x0, .igr, [⟨0, 1, .w1c, .val 0⟩, ⟨1, 1, .w1c, .val 0⟩, ⟨2, 1, .w1c, .val 0⟩, ⟨3, 1, .w1c, .val 0⟩, ⟨4, 1, .w1c, .val 0⟩, ⟨5, 1, .w1c, .val 0⟩, ⟨6, 1, .w1c, .val 0⟩, ⟨7, 1, .w1c, .val 0⟩, ⟨8, 1, .ro, .val 0⟩, ⟨9, 1, .w1c, .val 0⟩]⟩,
   ⟨0x1A00044, 2, 0x1000, 1, 0x0, .igr, [⟨0, 1, .rw, .val 1⟩, ⟨1, 1, .rw, .val 1⟩, ⟨2, 1, .rw, .val 0⟩, ⟨3, 1, .rw, .val 0⟩, ⟨4, 1, .rw, .val 0⟩, ⟨5, 1, .rw, .val 1⟩, ⟨6, 1, .rw, .val 1⟩, ⟨7, 1, .rw, .val 1⟩, ⟨8, 1, .rw, .val 1⟩, ⟨9, 1, .rw, .val 0⟩]⟩,
   ⟨0x1A00050, 2, 0x1000, 1, 0x0, .igr, [⟨0, 1, .w1c, .val 0⟩, ⟨1, 1, .w1c, .val 0⟩, ⟨2, 1, .w1c, .val 0⟩]⟩,
   ⟨0x1A00054, 2, 0x1000, 1, 0x0, .igr, [⟨0, 3, .rw, .val 1⟩]⟩,
   ⟨0x1A00058, 2, 0x1000, 1, 0x0, .igr, [⟨0, 3, .rw, .val 0⟩]⟩,
   ⟨0x1A0005C, 2, 0x1000, 1, 0x0, .igr, [⟨0, 8, .rw, .val 0⟩, ⟨8, 1, .rw, .val 0⟩, ⟨9, 2, .rw, .val 0⟩]⟩,
   ⟨0x1A08000, 1, 0x0, 1, 0x0, .fixed 1, [⟨0, 12, .rw, .val 0⟩]⟩,
   ⟨0x1A08010, 12, 0x4, 1, 0x0, .fixed 1, [⟨0, 32, .rw, .val 0⟩]⟩,
   ⟨0x1A08040, 1, 0x0, 1, 0x0, .fixed 1, [⟨0, 1, .wo, .val 0⟩, ⟨1, 1, .wo, .val 0⟩, ⟨2, 1, .ro, .val 0⟩]⟩,
   ⟨0x1A08044, 1, 0x0, 1, 0x0, .fixed 1, [⟨0, 12, .ro, .val 0⟩, ⟨12, 4, .ro, .val 0⟩, ⟨16, 16, .ro, .val 0⟩]⟩]
def regRowsIgr2 : List RegDesc :=
  [⟨0x1A08080, 8, 0x4, 1, 0x0, .fixed 1, [⟨0, 32, .ro, .val 0⟩]⟩,
   ⟨0x1A080A0, 1, 0x0, 1, 0x0, .fixed 1, [⟨0, 16, .ro, .val 0⟩, ⟨16, 1, .ro, .val 0⟩, ⟨17, 11, .ro, .val 0⟩]⟩]
/-- The registers of the IGR window. -/
def regRowsIgr : List RegDesc := regRowsIgr0 ++ regRowsIgr1 ++ regRowsIgr2
def regRowsDrc0 : List RegDesc :=
  [⟨0x1C00000, 32, 0x4000, 1, 0x0, .drc, [⟨0, 3, .ro, .val 0⟩, ⟨8, 7, .ro, .val 0⟩, ⟨16, 7, .ro, .val 0⟩, ⟨24, 1, .ro, .val 0⟩]⟩,
   ⟨0x1C00004, 32, 0x4000, 1, 0x0, .drc, [⟨0, 1, .ro, .val 0⟩, ⟨1, 2, .ro, .val 0⟩, ⟨8, 8, .ro, .val 0⟩, ⟨16, 1, .wo, .val 0⟩, ⟨24, 8, .ro, .val 0⟩]⟩,
   ⟨0x1C00008, 32, 0x4000, 1, 0x0, .drc, [⟨0, 16, .ro, .val 0⟩, ⟨16, 16, .rw, .val 1024⟩]⟩,
   ⟨0x1C0000C, 32, 0x4000, 1, 0x0, .drc, [⟨0, 12, .ro, .val 0⟩, ⟨16, 16, .ro, .val 0⟩]⟩,
   ⟨0x1C00020, 32, 0x4000, 1, 0x0, .drc, [⟨0, 1, .w1c, .val 0⟩, ⟨1, 1, .w1c, .val 0⟩, ⟨2, 1, .w1c, .val 0⟩, ⟨3, 1, .w1c, .val 0⟩, ⟨4, 1, .ro, .val 0⟩]⟩,
   ⟨0x1C00024, 32, 0x4000, 1, 0x0, .drc, [⟨0, 1, .rw, .val 1⟩, ⟨1, 1, .rw, .val 1⟩, ⟨2, 1, .rw, .val 1⟩, ⟨3, 1, .rw, .val 1⟩, ⟨4, 1, .rw, .val 1⟩]⟩,
   ⟨0x1C00030, 32, 0x4000, 1, 0x0, .drc, [⟨0, 1, .w1c, .val 0⟩, ⟨1, 1, .w1c, .val 0⟩, ⟨2, 1, .w1c, .val 0⟩, ⟨3, 1, .w1c, .val 0⟩]⟩,
   ⟨0x1C00034, 32, 0x4000, 1, 0x0, .drc, [⟨0, 4, .rw, .val 1⟩]⟩,
   ⟨0x1C00038, 32, 0x4000, 1, 0x0, .drc, [⟨0, 4, .rw, .val 0⟩]⟩,
   ⟨0x1C0003C, 32, 0x4000, 1, 0x0, .drc, [⟨0, 8, .rw, .val 0⟩, ⟨8, 1, .rw, .val 0⟩, ⟨9, 2, .rw, .val 0⟩]⟩,
   ⟨0x1C00040, 32, 0x4000, 16, 0x4, .drc, [⟨0, 4, .ro, .val 0⟩, ⟨4, 1, .ro, .val 0⟩, ⟨5, 4, .ro, .val 0⟩, ⟨9, 17, .ro, .val 0⟩, ⟨26, 6, .ro, .val 0⟩]⟩,
   ⟨0x1C00080, 32, 0x4000, 1, 0x0, .drc, [⟨0, 32, .ro, .val 0⟩]⟩]
def regRowsDrc1 : List RegDesc :=
  [⟨0x1C00084, 32, 0x4000, 1, 0x0, .drc, [⟨0, 32, .ro, .val 0⟩]⟩,
   ⟨0x1C00088, 32, 0x4000, 1, 0x0, .drc, [⟨0, 32, .ro, .val 0⟩]⟩,
   ⟨0x1C0008C, 32, 0x4000, 1, 0x0, .drc, [⟨0, 32, .ro, .val 0⟩]⟩,
   ⟨0x1C00090, 32, 0x4000, 1, 0x0, .drc, [⟨0, 7, .ro, .val 0⟩, ⟨8, 4, .ro, .val 0⟩]⟩,
   ⟨0x1C00094, 32, 0x4000, 1, 0x0, .drc, [⟨0, 7, .ro, .val 0⟩, ⟨16, 7, .ro, .val 0⟩]⟩,
   ⟨0x1C00098, 32, 0x4000, 1, 0x0, .drc, [⟨0, 24, .ro, .val 0⟩]⟩,
   ⟨0x1D00000, 1, 0x0, 1, 0x0, .fixed 1, [⟨0, 2, .rwl, .val 0⟩, ⟨2, 2, .rwl, .val 0⟩, ⟨4, 1, .rwl, .val 0⟩, ⟨8, 1, .wo, .val 0⟩, ⟨9, 1, .ro, .val 0⟩]⟩,
   ⟨0x1D00004, 1, 0x0, 1, 0x0, .fixed 1, [⟨0, 32, .ro, .val 0⟩]⟩,
   ⟨0x1D00008, 1, 0x0, 1, 0x0, .fixed 1, [⟨0, 24, .rw, .val 10000⟩]⟩,
   ⟨0x1D0000C, 1, 0x0, 1, 0x0, .fixed 1, [⟨0, 16, .rw, .val 100⟩, ⟨16, 1, .rw, .val 1⟩]⟩,
   ⟨0x1D00010, 1, 0x0, 1, 0x0, .fixed 1, [⟨0, 1, .w1c, .val 0⟩, ⟨1, 1, .w1c, .val 0⟩, ⟨2, 1, .w1c, .val 0⟩, ⟨3, 1, .w1c, .val 0⟩, ⟨8, 6, .ro, .val 0⟩]⟩,
   ⟨0x1D00014, 1, 0x0, 1, 0x0, .fixed 1, [⟨0, 32, .ro, .val 0⟩]⟩]
def regRowsDrc2 : List RegDesc :=
  [⟨0x1D00018, 1, 0x0, 1, 0x0, .fixed 1, [⟨0, 32, .ro, .val 0⟩]⟩,
   ⟨0x1D00020, 1, 0x0, 1, 0x0, .fixed 1, [⟨0, 8, .rw, .val 24⟩, ⟨8, 1, .rw, .val 1⟩, ⟨16, 16, .ro, .val 0⟩]⟩,
   ⟨0x1D00024, 1, 0x0, 1, 0x0, .fixed 1, [⟨0, 32, .ro, .val 0⟩]⟩,
   ⟨0x1D00028, 1, 0x0, 1, 0x0, .fixed 1, [⟨0, 32, .ro, .val 0⟩]⟩,
   ⟨0x1D00040, 5, 0x4, 1, 0x0, .fixed 1, [⟨0, 31, .rwl, .home 0⟩]⟩,
   ⟨0x1D00054, 2, 0x4, 1, 0x0, .fixed 1, [⟨0, 31, .rwl, .home 5⟩]⟩,
   ⟨0x1D0005C, 2, 0x4, 1, 0x0, .fixed 1, [⟨0, 31, .rwl, .home 7⟩]⟩,
   ⟨0x1D01000, 64, 0x20, 1, 0x0, .fixed 1, [⟨20, 12, .rwl, .val 0⟩]⟩,
   ⟨0x1D01004, 64, 0x20, 1, 0x0, .fixed 1, [⟨0, 8, .rwl, .val 0⟩]⟩,
   ⟨0x1D01008, 64, 0x20, 1, 0x0, .fixed 1, [⟨0, 18, .rwl, .val 0⟩]⟩,
   ⟨0x1D0100C, 64, 0x20, 1, 0x0, .fixed 1, [⟨20, 12, .rwl, .val 0⟩]⟩,
   ⟨0x1D01010, 64, 0x20, 1, 0x0, .fixed 1, [⟨0, 5, .rwl, .val 0⟩]⟩]
def regRowsDrc3 : List RegDesc :=
  [⟨0x1D01014, 64, 0x20, 1, 0x0, .fixed 1, [⟨0, 1, .rwl, .val 0⟩, ⟨1, 1, .rwl, .val 0⟩, ⟨2, 1, .rwl, .val 0⟩, ⟨3, 1, .ro, .val 0⟩]⟩,
   ⟨0x1D02000, 48, 0x4, 1, 0x0, .fixed 1, [⟨0, 16, .rw, .qosTarget⟩, ⟨16, 1, .rw, .qosTop⟩, ⟨17, 1, .rw, .qosTop⟩]⟩]
/-- The registers of the DRC window. -/
def regRowsDrc : List RegDesc := regRowsDrc0 ++ regRowsDrc1 ++ regRowsDrc2 ++ regRowsDrc3
def regRowsSpd0 : List RegDesc :=
  [⟨0x1E00000, 1, 0x0, 1, 0x0, .fixed 1, [⟨0, 32, .ro, .val 0⟩]⟩,
   ⟨0x1E00004, 1, 0x0, 1, 0x0, .fixed 1, [⟨0, 22, .ro, .val 0⟩]⟩,
   ⟨0x1E00008, 1, 0x0, 1, 0x0, .fixed 1, [⟨0, 2, .ro, .val 0⟩, ⟨4, 4, .ro, .val 0⟩, ⟨8, 1, .ro, .val 0⟩, ⟨31, 1, .wo, .val 0⟩]⟩,
   ⟨0x1E00020, 1, 0x0, 1, 0x0, .fixed 1, [⟨0, 1, .w1c, .val 0⟩, ⟨1, 1, .ro, .val 0⟩]⟩,
   ⟨0x1E00024, 1, 0x0, 1, 0x0, .fixed 1, [⟨0, 1, .rw, .val 0⟩, ⟨1, 1, .rw, .val 1⟩]⟩,
   ⟨0x1E00030, 1, 0x0, 1, 0x0, .fixed 1, [⟨0, 1, .w1c, .val 0⟩, ⟨1, 1, .w1c, .val 0⟩, ⟨2, 1, .w1c, .val 0⟩]⟩,
   ⟨0x1E00034, 1, 0x0, 1, 0x0, .fixed 1, [⟨0, 3, .rw, .val 1⟩]⟩,
   ⟨0x1E00038, 1, 0x0, 1, 0x0, .fixed 1, [⟨0, 3, .rw, .val 0⟩]⟩,
   ⟨0x1E0003C, 1, 0x0, 1, 0x0, .fixed 1, [⟨0, 8, .rw, .val 0⟩, ⟨8, 1, .rw, .val 0⟩, ⟨9, 2, .rw, .val 0⟩]⟩,
   ⟨0x1E00040, 1, 0x0, 1, 0x0, .fixed 1, [⟨0, 22, .ro, .val 0⟩]⟩]
/-- The registers of the SPD window. -/
def regRowsSpd : List RegDesc := regRowsSpd0
def regRowsSec0 : List RegDesc :=
  [⟨0x1F00000, 1, 0x0, 1, 0x0, .fixed 0, [⟨0, 2, .ro, .val 0⟩]⟩,
   ⟨0x1F00004, 1, 0x0, 1, 0x0, .fixed 12, [⟨0, 32, .wo, .val 0⟩]⟩,
   ⟨0x1F00008, 1, 0x0, 1, 0x0, .fixed 12, [⟨0, 2, .rw, .val 0⟩, ⟨2, 1, .wo, .val 0⟩, ⟨3, 1, .ro, .val 0⟩, ⟨4, 2, .ro, .val 0⟩]⟩,
   ⟨0x1F00010, 1, 0x0, 1, 0x0, .fixed 0, [⟨0, 1, .ro, .val 0⟩, ⟨1, 1, .w1c, .val 0⟩, ⟨16, 16, .ro, .val 0⟩]⟩,
   ⟨0x1F00014, 1, 0x0, 1, 0x0, .fixed 12, [⟨0, 32, .ro, .val 0⟩]⟩,
   ⟨0x1F00020, 1, 0x0, 1, 0x0, .fixed 12, [⟨0, 1, .w1c, .val 0⟩, ⟨1, 1, .w1c, .val 0⟩, ⟨2, 1, .w1c, .val 0⟩, ⟨3, 1, .ro, .val 0⟩]⟩,
   ⟨0x1F00024, 1, 0x0, 1, 0x0, .fixed 12, [⟨0, 1, .rw, .val 1⟩, ⟨1, 1, .rw, .val 0⟩, ⟨2, 1, .rw, .val 1⟩, ⟨3, 1, .rw, .val 1⟩]⟩,
   ⟨0x1F00030, 1, 0x0, 1, 0x0, .fixed 12, [⟨0, 1, .w1c, .val 0⟩, ⟨1, 1, .w1c, .val 0⟩, ⟨2, 1, .w1c, .val 0⟩]⟩,
   ⟨0x1F00034, 1, 0x0, 1, 0x0, .fixed 12, [⟨0, 3, .rw, .val 1⟩]⟩,
   ⟨0x1F00038, 1, 0x0, 1, 0x0, .fixed 12, [⟨0, 3, .rw, .val 0⟩]⟩,
   ⟨0x1F0003C, 1, 0x0, 1, 0x0, .fixed 12, [⟨0, 8, .rw, .val 0⟩, ⟨8, 1, .rw, .val 0⟩, ⟨9, 2, .rw, .val 0⟩]⟩]
/-- The registers of the SEC window. -/
def regRowsSec : List RegDesc := regRowsSec0
def regRowsSdi0 : List RegDesc :=
  [⟨0x2000000, 8, 0x100, 1, 0x0, .fixed 39, [⟨0, 1, .rw, .val 0⟩, ⟨1, 1, .rw, .val 1⟩, ⟨2, 3, .rw, .val 0⟩, ⟨5, 1, .rw, .val 0⟩]⟩,
   ⟨0x2000004, 8, 0x100, 1, 0x0, .fixed 39, [⟨0, 1, .ro, .val 0⟩, ⟨1, 1, .ro, .val 0⟩, ⟨2, 1, .ro, .val 0⟩, ⟨3, 3, .ro, .val 0⟩, ⟨6, 3, .ro, .val 0⟩, ⟨9, 4, .ro, .val 0⟩, ⟨13, 9, .ro, .val 0⟩, ⟨22, 1, .ro, .val 0⟩]⟩,
   ⟨0x2000008, 8, 0x100, 1, 0x0, .fixed 39, [⟨0, 32, .ro, .val 0⟩]⟩,
   ⟨0x200000C, 8, 0x100, 1, 0x0, .fixed 39, [⟨0, 10, .ro, .val 0⟩, ⟨10, 11, .ro, .val 0⟩, ⟨21, 11, .ro, .val 0⟩]⟩,
   ⟨0x2000020, 8, 0x100, 1, 0x0, .fixed 39, [⟨0, 1, .w1c, .val 0⟩, ⟨1, 1, .w1c, .val 0⟩, ⟨2, 1, .w1c, .val 0⟩]⟩,
   ⟨0x2000024, 8, 0x100, 1, 0x0, .fixed 39, [⟨0, 1, .rw, .val 1⟩, ⟨1, 1, .rw, .val 1⟩, ⟨2, 1, .rw, .val 0⟩]⟩,
   ⟨0x2001000, 2, 0x100, 1, 0x0, .fixed 39, [⟨0, 1, .rw, .val 0⟩, ⟨1, 3, .rw, .val 2⟩, ⟨4, 4, .rw, .val 10⟩, ⟨8, 1, .rw, .val 1⟩]⟩,
   ⟨0x2001004, 2, 0x100, 1, 0x0, .fixed 39, [⟨0, 16, .rw, .val 0⟩, ⟨16, 16, .rw, .val 0⟩]⟩,
   ⟨0x2001008, 2, 0x100, 1, 0x0, .fixed 39, [⟨0, 1, .ro, .val 0⟩, ⟨16, 16, .ro, .val 0⟩]⟩,
   ⟨0x2001020, 2, 0x100, 1, 0x0, .fixed 39, [⟨0, 1, .w1c, .val 0⟩]⟩,
   ⟨0x2001024, 2, 0x100, 1, 0x0, .fixed 39, [⟨0, 1, .rw, .val 0⟩]⟩,
   ⟨0x2002000, 1, 0x0, 1, 0x0, .fixed 39, [⟨0, 1, .w1c, .val 0⟩, ⟨1, 1, .w1c, .val 0⟩, ⟨2, 1, .w1c, .val 0⟩]⟩]
def regRowsSdi1 : List RegDesc :=
  [⟨0x2002004, 1, 0x0, 1, 0x0, .fixed 39, [⟨0, 3, .rw, .val 1⟩]⟩,
   ⟨0x2002008, 1, 0x0, 1, 0x0, .fixed 39, [⟨0, 3, .rw, .val 0⟩]⟩,
   ⟨0x200200C, 1, 0x0, 1, 0x0, .fixed 39, [⟨0, 8, .rw, .val 0⟩, ⟨8, 1, .rw, .val 0⟩, ⟨9, 2, .rw, .val 0⟩]⟩]
/-- The registers of the SDI window. -/
def regRowsSdi : List RegDesc := regRowsSdi0 ++ regRowsSdi1

/-- The rows of the window that holds BAR0 offset `a` (R34). -/
def regRowsOf (a : Nat) : List RegDesc :=
  if a < 0x100000 then regRowsTop else if a < 0x200000 then regRowsPwr else if a < 0x300000 then regRowsIcu
  else if a < 0x400000 then regRowsBpm else if a < 0x500000 then regRowsDma else if a < 0x600000 then regRowsHq
  else if a < 0x1000000 then regRowsHsq else if a < 0x1200000 then regRowsDs else if a < 0x1400000 then regRowsEn
  else if a < 0x1600000 then regRowsCmp else if a < 0x1800000 then regRowsLmp else if a < 0x1A00000 then regRowsPlk
  else if a < 0x1C00000 then regRowsIgr else if a < 0x1E00000 then regRowsDrc else if a < 0x1F00000 then regRowsSpd
  else if a < 0x2000000 then regRowsSec else if a < 0x2100000 then regRowsSdi else []

/-- The unit and word index of offset `a` within a row of the table, if the row covers it. -/
def regIndex (r : RegDesc) (a : Nat) : Option (Nat × Nat) :=
  if a < r.base then none
  else
    let o := a - r.base
    let i := if r.n ≤ 1 then 0 else o / r.stride
    let q := if r.n ≤ 1 then o else o % r.stride
    let j := if r.n2 ≤ 1 then 0 else q / r.stride2
    let z := if r.n2 ≤ 1 then q else q % r.stride2
    if z = 0 && decide (i < max r.n 1) && decide (j < max r.n2 1) then some (i, j) else none

/-- Find the row that covers offset `a`. -/
def regFindIn : List RegDesc → Nat → Option (RegDesc × Nat × Nat)
  | [], _ => none
  | r :: rs, a => match regIndex r a with
    | some (i, j) => some (r, i, j)
    | none => regFindIn rs a

/-- The register at BAR0 offset `a`, with its unit and word index; none where no table lists it (R11). -/
def regFind (a : Nat) : Option (RegDesc × Nat × Nat) := regFindIn (regRowsOf a) a

/-- TOP_CAPS0 by variant (R7). -/
def variantCaps0 : Variant → Nat
  | .lzw4480 => 0x07FFFFFF
  | .lzw4460 => 0x021E7A1F
  | .lzw4430 => 0x00062807

/-- TOP_CAPS1 by variant (R7). -/
def variantCaps1 : Variant → Nat
  | .lzw4480 => 0xFF
  | .lzw4460 => 0xFF
  | .lzw4430 => 0x0F

/-- TOP_ID.PART by variant (R7). -/
def variantPart : Variant → Nat
  | .lzw4480 => 0x4480
  | .lzw4460 => 0x4460
  | .lzw4430 => 0x4430

/-- Active decode slices, and slices per gang, by variant (R8). -/
def variantActive : Variant → Nat
  | .lzw4480 => 8
  | .lzw4460 => 4
  | .lzw4430 => 2

/-- DRAM channel bits by variant (R424). -/
def variantChanBits : Variant → Nat
  | .lzw4430 => 4
  | _ => 5

/-- Latency target of DRAM port `p` in units of 10 ns (R429). -/
def qosTargetReset (p : Nat) : Nat :=
  if p ≤ 8 then 400 else if p ≤ 10 then 800 else if p ≤ 26 then 100 else if p = 27 then 400 else if p = 28 then 100
  else if p = 29 then 200 else if p = 30 then 2000 else if p ≤ 34 then 200 else if p = 35 then 400
  else if p = 36 then 200 else if p = 37 then 2000 else if p = 38 then 10000 else 0

/-- TOP and KEEP_AWAKE flags of DRAM port `p` (R429). -/
def qosTopReset (p : Nat) : Nat := if (11 ≤ p ∧ p ≤ 26) ∨ p = 28 then 1 else 0

/-- The reset value of one field of unit `i`, word `j` (R12). -/
def resetOf (v : Variant) (i : Nat) : ResetVal → Nat
  | .val n => n
  | .index => i
  | .part => variantPart v
  | .caps lo w => (variantCaps0 v >>> lo) % 2 ^ w
  | .drcCaps => variantCaps1 v
  | .topSlice => variantActive v
  | .home f =>
    if f = 0 then (if i < variantChanBits v then 2 ^ i else 0) else 2 ^ (f - (5 - variantChanBits v) + i)
  | .qosTarget => qosTargetReset i
  | .qosTop => qosTopReset i
  | .msix => if i % 4 = 3 then 1 else 0

/-- The value of a register whose fields hold the given values. -/
def packFields (v : Variant) (i : Nat) : List FldDesc → Nat
  | [] => 0
  | f :: fs => (resetOf v i f.rst % 2 ^ f.w) * 2 ^ f.lo + packFields v i fs

/-- What the register at offset `a` holds when the reset of its power domain is released (R12); zero elsewhere (R11). -/
def regReset (v : Variant) (a : Nat) : Word :=
  match regFind a with
  | some (r, i, _) => BitVec.ofNat 32 (packFields v i r.flds)
  | none => 0

end Sys2Proof.Machine
end

