-- ==== Sys2Proof/Machine/State.lean ====
section
/-!
DEFINITION. The state of the LZW-4480 as plain data: the register file of BAR0 (the home of every register the spec
lists), the stores, rings, queues and sequencers of each block, the pins, and the queue of waiting commands. Registers
that only report another part of the state are views (R10 RO fields), computed where the host reads them.
-/
namespace Sys2Proof.Machine

/-- The states of a tag-table entry (R50). -/
inductive JobSt where
  | free | fetching | queued | running | committed
  deriving DecidableEq, Repr

/-- One entry of the tag table (R50): the job's words, its rings, its state and its completion record. -/
structure Job where
  st      : JobSt
  sq      : Nat
  cq      : Nat
  /-- order of admission: entries are numbered as they enter FETCHING and again as they enter QUEUED -/
  seq     : Nat
  words   : List Word
  /-- the unit has presented its completion record to the tag arbiter -/
  record  : Bool
  status  : Nat
  results : List Word
  /-- an ABORT was granted while the job was RUNNING (R61) -/
  stop    : Bool
  /-- the row that carries out the job has begun it -/
  begun   : Bool
  /-- FENCE: slots of the snapshot still waited for, with their numbers (R56) -/
  snap    : List (Nat × Nat)
  waited  : Nat
  /-- FENCE with LOCK_GATE: the wait for jobs has ended and a lock gate is awaited -/
  gate    : Bool
  /-- uncorrectable tag entry: the completion is never written (R66) -/
  damaged : Bool
  /-- HQ's fetch head of the ring when the job was committed (R47) -/
  head    : Nat
  deriving DecidableEq, Repr

/-- The FREE tag-table entry. -/
def Job.empty : Job :=
  ⟨.free, 0, 0, 0, [], false, 0, [], false, false, [], 0, false, false, 0⟩

/-- How a unit names the job it works on: its slot and its number of admission, so that a job a Function Level Reset
discarded is not mistaken for a later one (R39). -/
structure JobRef where
  slot : Nat
  seq  : Nat
  deriving DecidableEq, Repr

/-- An outstanding submission read (R52): its ring, its first index and the reserved slots in order. -/
structure Fetch where
  sq    : Nat
  first : Nat
  slots : List Nat
  /-- false once the ring has been enabled again since the read was issued -/
  live  : Bool
  deriving DecidableEq, Repr

/-- Coalescing state of a completion ring (R63): entries since the last notification, and whether the timer runs. -/
structure Coal where
  count   : Nat
  running : Bool
  deriving DecidableEq, Repr

/-- The host queue manager beyond its registers. -/
structure HqSt where
  jobs    : Tab Job
  /-- doorbell register file (R41, R42): stored tails and heads -/
  sqTail  : Tab Nat
  cqHead  : Tab Nat
  fetches : List Fetch
  coal    : Tab Coal
  /-- the last source the admission arbiter visited: a ring, or 512 + p for ingress port p (R20, R374) -/
  rr      : Nat
  seq     : Nat
  deriving DecidableEq, Repr

/-- What leaves over PCI Express: the host memory the engine has written, the MSI-X messages sent by vector, the last
value a side-effect read returned. -/
structure HostSt where
  mem      : Tab Byte
  msix     : Tab Nat
  lastRead : Word
  /-- the last memory write carried Relaxed Ordering (R36) -/
  relaxed  : Bool
  deriving DecidableEq, Repr

/-- The configuration space of the PCI Express function as the host has set it (R36, R37): maximum payload and maximum
read request in bytes, Relaxed Ordering enable, D3hot, ASPM L1 enable, the status and mask words of Advanced Error
Reporting, and the three 64-bit memory BARs. The identity fields are constants (R539). -/
structure PcieSt where
  maxPayload : Nat
  maxRead    : Nat
  relaxed    : Bool
  d3hot      : Bool
  aspmL1     : Bool
  aer        : List Word
  bar0       : Nat
  bar2       : Nat
  bar4       : Nat
  deriving DecidableEq, Repr

/-! ## The test access port (R536) -/

/-- The sixteen states of the IEEE 1149.1 controller. -/
inductive TapCtl where
  | testLogicReset | runTestIdle
  | selectDr | captureDr | shiftDr | exit1Dr | pauseDr | exit2Dr | updateDr
  | selectIr | captureIr | shiftIr | exit1Ir | pauseIr | exit2Ir | updateIr
  deriving DecidableEq, Repr

/-- The six instructions of R536. -/
inductive TapInstr where
  | bypass | idcode | samplePreload | extest | extestPulse | extestTrain
  deriving DecidableEq, Repr

/-- The test access port: controller, instruction in force, the instruction and data shift registers (bit nearest TDO
first), and the update latches of the boundary-scan cells, where a bit not listed is 0, and the AC test signal of
EXTEST_PULSE and EXTEST_TRAIN. -/
structure TapSt where
  ctl   : TapCtl
  instr : TapInstr
  ir    : List Bool
  dr    : List Bool
  cells : List Bool
  ac    : Bool
  deriving DecidableEq, Repr

/-- The interrupt controller beyond its registers (R457 to R470). -/
structure IcuSt where
  /-- block messages on the fabric, oldest first: source and retract bit -/
  msgs    : List (Nat × Bool)
  /-- sources whose block has announced its condition as true (R459) -/
  told    : List Nat
  /-- mirror writes not yet performed: source and new PENDING value, oldest first (R467) -/
  mirror  : List (Nat × Bool)
  collide : Nat
  deriving DecidableEq, Repr

/-- The buffer pool manager beyond its registers (R383 to R400). -/
structure BpmSt where
  /-- the Buffer State Table in the layout of R391 -/
  bst       : Tab Word
  /-- the on-chip cache of each pool, oldest first: buffer indices -/
  cache     : Tab (List Nat)
  ringHead  : Tab Nat
  ringLen   : Tab Nat
  /-- table entries withdrawn after an uncorrectable error (R414) -/
  withdrawn : List Nat
  /-- pools whose initialisation is under way (R386) -/
  initing   : List Nat
  /-- requester of the last round-robin grant, by pool -/
  rrLast    : Tab Nat
  /-- the response to the last request granted on its own: status and handle -/
  answer    : Nat × Word
  /-- units' releases that wait behind the compositor's hold queue: requester and handle, oldest first (R20) -/
  waits     : List (Nat × Word)
  deriving DecidableEq, Repr

/-- One entry of a DMA list (R404). -/
structure DmaEnt where
  index  : Nat
  addr   : Nat
  handle : Nat
  len    : Nat
  space  : Nat
  rsvd   : Bool
  dst    : Bool
  deriving DecidableEq, Repr

/-- The list a channel runs (R404 to R412). -/
structure DmaRun where
  /-- tag-table slot of the job, none for a list started by GO -/
  slot     : Option JobRef
  listAddr : Nat
  listHost : Bool
  count    : Nat
  /-- next list index each stream examines -/
  nextSrc  : Nat
  nextDst  : Nat
  src      : Option DmaEnt
  dst      : Option DmaEnt
  srcOff   : Nat
  dstOff   : Nat
  crc      : Nat
  bytes    : Nat
  /-- the segment in progress: destination offset at its start -/
  segDst   : Nat
  /-- the list has failed: status and failing index -/
  failed   : Option (Nat × Nat)
  deriving DecidableEq, Repr

/-- The DMA channels: the running list of each, if any, and the job of the list that ended last on each. -/
structure DmaSt where
  runs : Tab (Option DmaRun)
  last : Tab (Option JobRef)
  deriving DecidableEq, Repr

/-- A request in a DRAM channel queue (R431): its physical 64-byte burst, the engine address of the first byte it means
and how many, and the bytes of a write. -/
structure DramReq where
  port   : Nat
  burst  : Nat
  isRead : Bool
  urg    : Nat
  seq    : Nat
  /-- cycle in which it entered the queue -/
  since  : Nat
  eng    : Nat
  len    : Nat
  data   : List Byte
  /-- the check burst of its granule, in a protected window (R422) -/
  chk    : Option Nat
  /-- an access of a unit's command that waits for the channel: the command makes it again (R436) -/
  unit   : Bool
  deriving DecidableEq, Repr

/-- A DRAM channel's response to a read of its queue: whether it is uncorrectable, and its bytes (R426, R432, R439). -/
structure DramAnswer where
  port  : Nat
  burst : Nat
  bad   : Bool
  bytes : List Byte
  deriving DecidableEq, Repr

/-- A DRAM channel's queues and command history (R431, R437). -/
structure DramChan where
  rq    : List DramReq
  wq    : List DramReq
  drain : Bool
  /-- the last 16 commands, newest first, in the layout of DRCc_CLIFF_CMDj -/
  hist  : List Word
  seq   : Nat
  /-- port the fabric's arbiter for the channel granted last (R20) -/
  last  : Nat
  /-- the responses of its last command slot or release -/
  answers : List DramAnswer
  deriving DecidableEq, Repr

/-- A channel with nothing queued and no command issued. -/
def DramChan.idle : DramChan := ⟨[], [], false, [], 0, 0, []⟩

/-- A request a released channel has handed back (R439): the unit's access that made it is answered as uncorrectable, or
discarded where the command path failed (`cause` 2), when the command makes it again. -/
structure DramBack where
  port   : Nat
  burst  : Nat
  isRead : Bool
  cause  : Nat
  deriving DecidableEq, Repr

/-- What stopped an access while a command ran: a channel that does not serve it now, one in self-refresh, which exits for
it, or the error that freezes one, with its cause, the failing physical address and the request. -/
inductive Trip where
  | wait
  | exit (channel : Nat)
  | freeze (channel cause phys : Nat) (req : DramReq)
  deriving DecidableEq, Repr

/-- The memory system beyond its registers (R418 to R439). -/
structure DrcSt where
  /-- DRAM bytes by physical address -/
  dram     : Tab Byte
  /-- check errors by physical word number in protected windows: 1 correctable, 2 uncorrectable -/
  err      : Tab Nat
  /-- units' accesses handed back by a release and not yet made again (R439) -/
  returned : List DramBack
  /-- the failing request a frozen channel holds: one more than its number in the queues (R436) -/
  held     : Tab Nat
  trip     : Option Trip
  chans    : Tab DramChan
  /-- initialisation is under way (R419) -/
  initing  : Bool
  /-- windows being zero-filled (R421) -/
  zeroing  : List Nat
  /-- engine address the patrol scrubber reads next (R427) -/
  scrubPos : Nat
  /-- channel the retraining sequencer serves next (R435) -/
  trainPos : Nat
  deriving DecidableEq, Repr

/-- A scratchpad bank's response to a port: the word a read returned, whether it is uncorrectable, and WRITE_COLLISION
(R441, R445). -/
structure SpdAnswer where
  port    : Nat
  word    : Word
  bad     : Bool
  collide : Bool
  deriving DecidableEq, Repr

/-- The shared scratchpad (R440 to R445): words by word index, words with an uncorrectable error, the round-robin position
of each bank, and the responses of the last grant. -/
structure SpdSt where
  mem : Tab Word
  err : List Nat
  rr  : Tab Nat
  answers : List SpdAnswer
  deriving DecidableEq, Repr

/-- The secure scratchpad (R446 to R451): words by word index, words with an uncorrectable error, the armed code and
the cycle it was written, and the transition in progress. -/
structure SecSt where
  mem    : Tab Word
  err    : List Nat
  arm    : Option Word
  armAt  : Nat
  target : Option Nat
  deriving DecidableEq, Repr

/-! ## Decode (R71 to R118, R152 to R175) -/

/-- Reference marks of a frame-buffer slot (R152). -/
inductive Mark where
  | short | long | nonref
  deriving DecidableEq, Repr

/-- States of a frame-buffer slot that holds a buffer (R153); an EMPTY slot is not listed. -/
inductive FbSt where
  | decoding | held | gate
  deriving DecidableEq, Repr

/-- One frame-buffer slot of a stream context (R152, R153). -/
structure FbSlot where
  handle   : Word
  st       : FbSt
  mark     : Mark
  /-- OUTPUT_PENDING -/
  output   : Bool
  published : Bool
  /-- the progress-table entry that names the picture -/
  entry    : Option Nat
  /-- decoded and not ABANDONED: it can be a reference -/
  good     : Bool
  /-- the display copy of a film-grain pair (R154) -/
  display  : Bool
  order    : Int
  outOrder : Nat
  /-- number of its completion, rising -/
  doneSeq  : Nat
  /-- TIMESTAMP of the job that carried it -/
  stamp    : Nat
  /-- the words of R96 it is published with -/
  words    : List Word
  /-- damage codes other than 0b00 by CTU (R171) -/
  damage   : Tab Nat
  /-- GATE: its lock gate has passed, and the gate's RETAINs are not all granted yet (R157) -/
  passed   : Bool
  deriving DecidableEq, Repr

/-- A DECODE_UNIT the stream context scheduler has seen: its job and its words. -/
structure UnitJob where
  ref   : JobRef
  words : List Word
  deriving DecidableEq, Repr

/-- An open stream context (R75): its STREAM_OPEN words, its progress-table run, its slots and its waiting units. -/
structure Ctx where
  words   : List Word
  pptBase : Nat
  /-- PIC_SEQ of the next publication (R95) -/
  picSeq  : Nat
  slots   : List FbSlot
  waiting : List UnitJob
  /-- a STREAM_CLOSE with DISCARD = 0 that waits for the units already seen -/
  closing : Option JobRef
  /-- slices of the context's last gang, by member index (R110) -/
  gang    : List Nat
  deriving DecidableEq, Repr

/-- A job of the picture in progress: how many of its parse units have been taken, whether its parsing has ended, and the
conditions of its own units (R119, R173). -/
structure PicJob where
  ref    : JobRef
  words  : List Word
  taken  : Nat
  parsed : Bool
  conds  : List Nat
  deriving DecidableEq, Repr

/-- A descriptor (R132) on its way to a slice: class, context, the job its unit came from and its words. -/
structure Desc where
  cls   : Nat
  ctx   : Nat
  ref   : JobRef
  words : List Word
  deriving DecidableEq, Repr

/-- What a PICTURE descriptor said, with its syntax record from word 48 on (R134). -/
structure PicInfo where
  width     : Nat
  height    : Nat
  ctuLog2   : Nat
  chroma    : Nat
  bits10    : Bool
  grain     : Bool
  noOutput  : Bool
  /-- RANDOM_ACCESS -/
  random    : Bool
  order     : Int
  refHandle : List Word
  refOrder  : List Int
  missing   : Nat
  /-- entry indices of LIST0 and LIST1 -/
  list0     : List Nat
  list1     : List Nat
  record    : List Word
  facts     : PicFacts
  deriving DecidableEq, Repr

/-- The picture a context decodes (R85): it has one at a time. -/
structure DecPic where
  /-- the sequencer that parses it (R120) -/
  seq     : Nat
  /-- the slices that decode it, by member index -/
  members : List Nat
  jobs    : List PicJob
  info    : Option PicInfo
  /-- the picture is lost, with its status (R166) -/
  lost    : Option Nat
  started : Bool
  /-- its start has been counted as waiting for a lock gate (R160) -/
  counted : Bool
  fb      : Word
  disp    : Word
  /-- the entry and PIC_SEQ it was published with as it started -/
  entry   : Option (Nat × Nat)
  /-- rows complete from the top -/
  rows    : Nat
  /-- CTUs covered so far, in decoding order -/
  covered : Nat
  /-- SEGMENT descriptors decoded -/
  segs    : Nat
  /-- SEGMENT descriptors its units have sent (R122) -/
  emitted : Nat
  damage  : Tab Nat
  /-- copy sources of concealed CTUs, by raster address (R169) -/
  srcs    : Tab Word
  /-- a gap of the picture was concealed (R168) -/
  gap     : Bool
  /-- the last segment failed: its damaged run reaches to the next segment (R168) -/
  failing : Bool
  /-- no further unit belongs to the picture -/
  ended   : Bool
  /-- parse units run for it -/
  units   : Nat
  /-- descriptors released for it, oldest first, for a rerun (R111) -/
  descs   : List Desc
  /-- statuses of its jobs that have completed already (R175) -/
  errs    : List Nat
  /-- bitstreams of its units already completed, RELEASEd as the picture ends (R79, R112) -/
  held    : List Word
  /-- what the coded data of each segment decoded so far held: a rerun decodes the same (R112) -/
  walks   : List SegFacts
  deriving DecidableEq, Repr

/-- A slice beyond its registers: the contexts of its current picture, of the next one granted and of those to rerun, the
context it last loaded, and its descriptor queue. -/
structure SliceSt where
  cur    : Option Nat
  next   : Option Nat
  /-- pictures to rerun, in order (R111, R114) -/
  rerun  : List Nat
  loaded : Option Nat
  queue  : List Desc
  /-- SEGMENT descriptors of the current picture taken -/
  segs   : Nat
  /-- CTU rows this slice has completed of its current picture; in a gang, relative rows of its tiles (R93) -/
  parts  : Nat
  /-- CLK_PIX cycles with a picture in progress -/
  busy   : Nat
  /-- role the slice had when its BIST began -/
  origin : Nat
  /-- RESETTING: another slice took the picture (R111) -/
  handed : Bool
  /-- DRAINING or BIST by rotation (R110) -/
  rot    : Bool
  /-- BIST: the domain is on for the run only (R5, R491) -/
  powered : Bool
  deriving DecidableEq, Repr

/-- A buffer hold that ends after a lock gate (R157, R203): its handle, its holder, and whether its gate has passed. -/
structure GateHold where
  handle : Word
  req    : Nat
  passed : Bool
  deriving DecidableEq, Repr

/-- The decode block beyond its registers. -/
structure DecSt where
  ctxs    : Tab (Option Ctx)
  pics    : Tab (Option DecPic)
  slices  : Tab SliceSt
  /-- the gang being gathered and the slices reserved for it (R87) -/
  gather  : Option (Nat × List Nat)
  /-- context last granted, by PRIORITY class (R86) -/
  granted : Tab Nat
  /-- owner of each progress-table entry: 0 free, else one more than the owner's number -/
  owner   : Tab Nat
  /-- holds of closed contexts and capture inputs that end after a lock gate -/
  gates   : List GateHold
  /-- a rotation is requested and not yet committed (R110) -/
  rotate  : Bool
  /-- cycle of the last rotation -/
  rotated : Nat
  doneSeq : Nat
  deriving DecidableEq, Repr

/-! ## Header sequencers (R119 to R151) -/

/-- The parse unit a sequencer runs (R119): a unit of a context's picture, or a header request of an encoder. -/
structure HsqUnit where
  /-- a header request of encoder `ctx`, else a unit of context `ctx` -/
  header  : Bool
  ctx     : Nat
  codec   : Nat
  ref     : JobRef
  /-- G0 to G3 at the start (R122) -/
  start   : List Word
  /-- the unit is the last of its DECODE_UNIT -/
  last    : Bool
  /-- the words of a HEADER_REQ, its record from word 8 on (R136) -/
  req     : List Word
  /-- the unit's bytes without emulation prevention, or the request's capacity in bytes -/
  bytes   : List Byte
  cap     : Nat
  /-- where the unit begins in its job's bytes -/
  place   : Nat
  deriving DecidableEq, Repr

/-- A control-store load in progress (R143). -/
structure HsqLoad where
  ref    : JobRef
  bank   : Nat
  image  : Word
  offset : Nat
  first  : Nat
  count  : Nat
  switch : Bool
  full   : Bool
  deriving DecidableEq, Repr

/-- A header request that has ended (R136): whether by END, the unit status and the bytes written. -/
structure HdrDone where
  enc    : Nat
  ref    : JobRef
  ok     : Bool
  status : Nat
  bytes  : List Byte
  deriving DecidableEq, Repr

/-- A sequencer beyond its registers. -/
structure HsqSt where
  /-- control store: 192-bit words, and the parity bits that differ from even parity, by bank × 16,384 + address -/
  store   : Tab Nat
  parity  : Tab Nat
  /-- per bank: WORD_COUNT, ENTRY_DECODE, ENTRY_ENCODE and DATA_CRC of its golden image -/
  images  : Tab (List Nat)
  load    : Option HsqLoad
  /-- job whose switch awaits a unit boundary, with the bank and the job's result (R145) -/
  switch  : Option (JobRef × Nat × List Word)
  unit    : Option HsqUnit
  /-- G0 to G63 as written so far, and as they stood before the word -/
  regs    : Tab Word
  snap    : Tab Word
  /-- the next slot of the word to act: 0 ALU, 1 stream port, 2 output, 3 sequencing -/
  phase   : Nat
  /-- Z, N, C, EOU, SYNTAX, OUT_FULL -/
  flags   : List Bool
  /-- the flags and bit position as they stood before the word -/
  flags0  : List Bool
  pos0    : Nat
  pos     : Nat
  stack   : List Nat
  /-- the descriptor being staged and those closed: class and words -/
  cur     : Tab Word
  curLen  : Nat
  closed  : List (Nat × List Word)
  /-- the write log, oldest first: parse-area word and value -/
  log     : List (Nat × Word)
  /-- header bits written, and the positions at which a NAL unit among them has ended -/
  out     : List Bool
  cuts    : List Nat
  /-- the copy of a parse area, and whose it is -/
  copyOf  : Option Nat
  copy    : Tab Word
  /-- addresses that have machine-checked in this unit -/
  checked : List Nat
  /-- the unit stands at END, with its status, until its staged descriptors have room (R123, R137) -/
  ending  : Option Nat
  /-- a header request that has ended and awaits its HEADER_DONE -/
  header  : Option HdrDone
  /-- parse units served since the last grant (R120) -/
  served  : Nat
  /-- contexts whose pictures it parses, in order of grant -/
  queue   : List Nat
  /-- units another sequencer failed on, to be run next (R147) -/
  redo    : List HsqUnit
  deriving DecidableEq, Repr

/-! ## Encoders and SDI (R176 to R211) -/

/-- An encode session (R179): whether a START has succeeded, its record, its rate-control and egress state, and its kept
references with their ORDER. -/
structure EncSess where
  started    : Bool
  words      : List Word
  carry      : Nat
  /-- HRD fullness -/
  f          : Nat
  qpI        : Nat
  qpP        : Nat
  qpB        : Nat
  refs       : List (Nat × Word)
  startOrder : Nat
  /-- sequence number of the next RTP packet -/
  rtpSeq     : Nat
  /-- the RTP header of the last packet sent (R200) -/
  lastRtp    : List Word
  /-- cycle before which PACE_MBPS lets no further packet leave -/
  paceAt     : Nat
  deriving DecidableEq, Repr

/-- A picture as a source: its handle and format (R189). -/
structure EncSource where
  handle : Word
  width  : Nat
  height : Nat
  stride : Nat
  chroma : Nat
  bits10 : Bool
  deriving DecidableEq, Repr

/-- A picture's three planes of samples, line by line. -/
structure EncPicture where
  y  : List (List Nat)
  cb : List (List Nat)
  cr : List (List Nat)
  deriving DecidableEq, Repr

/-- Where an encoder is with its job. -/
inductive EncPhase where
  | waiting | needHeader | header | coding | egress
  deriving DecidableEq, Repr

/-- The job an encoder runs (R182): its session as it will stand, its source and its rate control so far. -/
structure EncJob where
  ref      : JobRef
  words    : List Word
  session  : Nat
  sess     : EncSess
  phase    : EncPhase
  /-- lock gates that passed while it waited for a write-back picture (R191) -/
  gates    : Nat
  /-- its input lost lock or its tap stopped (R190, R191) -/
  lost     : Bool
  src      : Word
  /-- the source as it was taken, and the picture the input stage makes of it (R192) -/
  source   : EncSource
  input    : EncPicture
  recon    : Word
  /-- the references it predicts from, earlier and later, nearest first (R187) -/
  lists    : List Word × List Word
  /-- references that leave the kept set when the job ends well -/
  leaving  : List Word
  coded    : Nat
  fallback : Bool
  t        : Nat
  tEff     : Nat
  c        : Nat
  hdrBytes : Nat
  row      : Nat
  bits     : Nat
  qpSum    : Nat
  /-- the quantiser of each row coded: QP, in AV1 the qindex (R194, R196) -/
  quant    : List Nat
  ebbRows  : Nat
  forced   : Nat
  ebb      : Bool
  /-- the units still to be sent as RTP, the bytes of the first already sent, and whether a packet of it has left -/
  units    : List (List Byte)
  sent     : Nat
  begun    : Bool
  results  : List Word
  deriving DecidableEq, Repr

/-- The encoders: the job each runs, the sessions, the ENCODE_PICTURE jobs dispatched and not yet taken, in order,
and what left by the ports. -/
structure EncSt where
  jobs  : Tab (Option EncJob)
  sess  : Tab EncSess
  order : List JobRef
  /-- the last egress frame of each port (R199) -/
  wire  : Tab (List Byte)
  deriving DecidableEq, Repr

/-- The frame an SDI input captures. -/
structure SdiPic where
  handle  : Word
  entry   : Nat
  width   : Nat
  height  : Nat
  c420    : Bool
  lines   : Nat
  luma    : List Byte
  chroma  : List Byte
  /-- PsF: the frame comes as two segments, and the lines of the first (R202) -/
  psf     : Bool
  kept    : List (List Byte × List Byte)
  deriving DecidableEq, Repr

/-- An SDI input: PIC_SEQ of its next publication, the frame in progress, the buffers its entries name, whether its
raster is of a kind that is not captured, and whether it is PsF (R202). -/
structure SdiIn where
  seq   : Nat
  cur   : Option SdiPic
  named : Tab Word
  odd   : Bool
  psf   : Bool
  deriving DecidableEq, Repr

/-- A preview output's frame (R206, R207): the write-back picture it holds and that picture's format code, the window's
origin, the FRAME of the lock gate it started by, and the lines the FIFO underran. -/
structure SdiOut where
  pic      : Option EncSource
  fmt      : Nat
  srcX     : Nat
  srcY     : Nat
  gate     : Option Nat
  repeated : List Nat
  deriving DecidableEq, Repr

/-- The SDI block: its inputs, the frame of each preview output, and the cycle PD_SDI was reset. -/
structure SdiSt where
  ins  : Tab SdiIn
  outs : Tab SdiOut
  base : Nat
  deriving DecidableEq, Repr

/-! ## The compositor (R212 to R249, R542) -/

/-- A picture a layer holds: its handle, the words of its progress-table entry as last read (none for a BUFFER), and the
last watermark read for it (R230). -/
structure LayerPic where
  handle : Word
  words  : List Word
  wm     : Nat
  deriving DecidableEq, Repr

/-- A layer beyond its registers (R230, R232, R238, R542). -/
structure LayerSt where
  cur     : Option LayerPic
  fall    : Option LayerPic
  seq     : Nat
  hasPic  : Bool
  reset   : Bool
  /-- handles whose RELEASE is posted at the next gate's selection -/
  leaving : List Word
  /-- the shadow holds a GUARD_SET that no copy has taken -/
  setting : Bool
  deriving DecidableEq, Repr

/-- Kinds of request in the hold queue (R229). -/
inductive HoldKind where
  | retain | release | alloc
  deriving DecidableEq, Repr

/-- A request in the hold queue: the layer that posted it (64: the write-back tap), its handle and its pool. -/
structure HoldReq where
  kind   : HoldKind
  layer  : Nat
  handle : Word
  pool   : Nat
  deriving DecidableEq, Repr

/-- A LAYER_UPDATE with GUARD_WAIT that has written its shadow (R241). -/
structure GuardWait where
  ref     : JobRef
  layer   : Nat
  /-- the copy that takes the update has been made -/
  copied  : Bool
  regions : List Nat
  miss    : Bool
  /-- FRAME of the gate that made the copy -/
  since   : Nat
  deriving DecidableEq, Repr

/-- The frame in progress (R228, R238): the next canvas line, whether it has started, and the CRC of each region so far. -/
structure ScanSt where
  active  : Bool
  line    : Nat
  started : Bool
  crcs    : Tab Nat
  deriving DecidableEq, Repr

/-- A check of a region that is complete and not yet compared: region, CRC, the expectation of its frame and the frame
(R238, R241). -/
structure GuardDue where
  region : Nat
  crc    : Nat
  expect : Word
  frame  : Nat
  deriving DecidableEq, Repr

/-- A conversion set's image (R217). -/
structure XferImg where
  m    : List Int
  tin  : List Nat
  tout : List Nat
  deriving DecidableEq, Repr

/-- A conversion set: the copy in use, the idle copy loaded, and the address of a load in progress (R217). -/
structure XferSt where
  cur     : Option XferImg
  idle    : Option XferImg
  loading : Option Nat
  deriving DecidableEq, Repr

/-- The write-back picture in progress (R235, R236). -/
structure WbPic where
  handle : Word
  entry  : Nat
  width  : Nat
  height : Nat
  fmt    : Nat
  fx     : Nat
  fy     : Nat
  winX   : Nat
  winY   : Nat
  prim   : Nat
  /-- output lines written -/
  lines  : Nat
  /-- canvas lines of the current box row taken, and the sums of each box -/
  taken  : Nat
  sums   : List (Nat × Nat × Nat)
  /-- 4:2:0: the chroma of the even line that waits for its partner -/
  chroma : List (Nat × Nat)
  deriving DecidableEq, Repr

/-- The write-back tap: whether it holds an entry run, PIC_SEQ of its next publication, the picture in progress and the
buffers its entries name. -/
structure WbSt where
  run   : Bool
  seq   : Nat
  cur   : Option WbPic
  named : Tab Word
  /-- the format of each entry's picture -/
  fmts  : Tab Nat
  deriving DecidableEq, Repr

/-- A tracked touch contact (R245): its number, its tile and receiver ID, its mapped position and hit. -/
structure TouchSt where
  num      : Nat
  tile     : Nat
  id       : Nat
  cx       : Nat
  cy       : Nat
  hit      : Option (Nat × Nat × Nat)
  pressure : Nat
  frame    : Nat
  /-- a MOVE waits for the next lock gate -/
  moved    : Bool
  deriving DecidableEq, Repr

/-- The compositor beyond its registers. -/
structure CmpSt where
  /-- configuration in force since the last gate, for registers whose writes wait for one (R248, R272) -/
  inForce : Tab Word
  layers  : Tab LayerSt
  hold    : List HoldReq
  waits   : List GuardWait
  scan    : ScanSt
  xfer    : Tab XferSt
  wb      : WbSt
  /-- expectations written and not yet in force -/
  expect  : Tab (Option Word)
  due     : List GuardDue
  /-- regions to be forced, and forced regions to be released, at the next gate -/
  toForce : List Nat
  toFree  : List Nat
  touch   : List TouchSt
  /-- contacts dropped for want of a number: tile and ID -/
  deaf    : List (Nat × Nat)
  /-- canvas positions of the contacts down at the last gate, for the echo (R247) -/
  echo    : List (Nat × Nat)
  sprite  : List Word
  /-- a sprite load waits for a lock gate outside HOLD (R233, R248) -/
  spriteDue : Bool
  deriving DecidableEq, Repr

/-! ## Lamp correction (R250 to R273) -/

/-- Rows of a tile corrected and not yet in a PIXEL frame (R316): ROW_START of the next frame, the footprint rows so far
for the frame number `frame`, each a list of drive triples. -/
structure PixRows where
  frame : Nat
  start : Nat
  rows  : List (List (Nat × Nat × Nat))
  deriving DecidableEq, Repr

/-- A serial the engine is to write into a shadow entry (R256, R258, R259). -/
structure SerialWr where
  tile   : Nat
  lane   : Nat
  pos    : Nat
  serial : Nat
  deriving DecidableEq, Repr

/-- Lamp correction beyond its registers. -/
structure LmpSt where
  /-- the active and the shadow tile map by tile index -/
  active  : Tab (List Word)
  shadow  : Tab (List Word)
  /-- state codes by tile (R256) -/
  states  : Tab Nat
  /-- tiles LIT since EN was set and their lane last came up -/
  wasLit  : List Nat
  /-- entries damaged by an uncorrectable error (R266) -/
  damaged : List Nat
  serials : List SerialWr
  /-- tiles that owe an automatic replacement: one that could not start as the tile entered REPLACED, or one whose serial
  has been written and may have been overwritten (R258, R259) -/
  owed    : List Nat
  /-- the EOTF table in use, the idle copy and the address of a load in progress (R262) -/
  eotf    : Tab Nat
  idle    : Tab Nat
  eotfAt  : Option Nat
  /-- the matrix store, and the load in progress: address, first index, count (R263) -/
  mtx     : Tab (List Int)
  mtxLoad : Option (Nat × Nat × Nat)
  /-- gains that tiles changed in the frame in progress are still tested with, by tile, as the gain table held them (R271) -/
  tested  : List (Nat × List Word)
  /-- tiles with an exhausted lamp in the frame, and whether the frame's result is due -/
  exh     : List Nat
  exhDue  : Bool
  /-- largest need of the frame, and of the minute, by channel (R269) -/
  need    : List Nat
  minute  : List Nat
  /-- level the headroom manager sets at the next gate -/
  level   : Option Nat
  /-- strangers counted in OVERFLOW and not listed: lane × 1024 + position, and serial (R257) -/
  unlisted : List (Nat × Nat)
  /-- cycle of the gate at which each tile became LIT (R283) -/
  litAt   : Tab Nat
  pix     : Tab PixRows
  deriving DecidableEq, Repr

/-! ## The aging ledger (R274 to R303) -/

/-- A command of the eMMC store that waits to be issued (R296): its class (0 power-fail commit, 1 periodic commit,
2 journal, 3 generation and the rest), byte address and data (none: a read), whether it ends its item, and the item's
number. -/
structure EmWrite where
  cls  : Nat
  addr : Nat
  data : List Byte
  last : Bool
  item : Nat
  deriving DecidableEq, Repr

/-- Where a REBASE or a replacement is (R299, R300). -/
inductive LdgStage where
  | asking | receiving | complete | ready | journal | durable
  deriving DecidableEq, Repr

/-- A REBASE or a replacement in progress. -/
structure LdgOp where
  /-- its job; none where AUTO_ACCEPT started it -/
  ref     : Option JobRef
  /-- 3 REBASE, 4 REPLACE -/
  kind    : Nat
  tile    : Nat
  stage   : LdgStage
  image   : Word
  offset  : Nat
  order   : Nat
  /-- the roster serial, lane and position the replacement asked -/
  serial  : Nat
  lane    : Nat
  pos     : Nat
  /-- bytes of the record received -/
  got     : Nat
  jseq    : Nat
  results : List Word
  /-- AUTO_ACCEPT started it (R258) -/
  auto    : Bool
  deriving DecidableEq, Repr

/-- The epoch pass in progress (R290). -/
structure LdgPass where
  epoch   : Nat
  jmark   : Nat
  slot    : Nat
  tile    : Nat
  tilesHi : Nat
  frame   : Nat
  saves   : List JobRef
  table   : List Byte
  /-- the tile table and header have been queued -/
  closing : Bool
  deriving DecidableEq, Repr

/-- The restore in progress (R297, R298). -/
structure LdgRestore where
  ref      : JobRef
  tile     : Nat
  newer    : Nat
  older    : Option Nat
  sums     : Tab Nat
  restored : Nat
  missed   : Nat
  fallback : Nat
  deriving DecidableEq, Repr

/-- The sample in progress (R281, R282): K, the sample's number, and the tiles it credits. -/
structure LdgSample where
  k     : Nat
  s     : Nat
  tiles : List Nat
  /-- lines composed, by tile, and the drive of the sample by 3 × tile + channel -/
  lines : Tab Nat
  tsum  : Tab Nat
  deriving DecidableEq, Repr

/-- The ledger engine and Breakwater's eMMC controller beyond their registers. -/
structure LdgSt where
  /-- gates since the last sample -/
  gates   : Nat
  sample  : Option LdgSample
  /-- ledger SRAM: SUM and residual by 3 × tile + channel, and tiles whose summary is lost -/
  sums    : Tab Nat
  rsd     : Tab Nat
  lost    : List Nat
  /-- the class store: the copy in use, the idle copy, whether it waits for a pass, and whether an image was loaded -/
  classes : Tab Byte
  idle    : Tab Byte
  idleNew : Bool
  loaded  : Bool
  /-- the user area of the eMMC device by byte address -/
  store   : Tab Byte
  writes  : List EmWrite
  /-- the command in progress, and how often it has failed -/
  cmd     : Option EmWrite
  tries   : Nat
  pass    : Option LdgPass
  /-- an epoch is due: EPOCH_H has elapsed or a SAVE waits -/
  due     : Bool
  saves   : List JobRef
  restore : Option LdgRestore
  ops     : List LdgOp
  /-- generations that restore found unusable -/
  badGen  : List Nat
  jseq    : Nat
  jhead   : Nat
  /-- entries of the journal not yet free: sequence, first byte, length -/
  entries : List (Nat × Nat × Nat)
  /-- STOP jobs that wait: the commit whose durability ends the wait, 0 while it is not yet started -/
  stops   : List (JobRef × Nat)
  /-- commits started -/
  commits : Nat
  /-- FORMAT jobs that wait for their label write -/
  formats : List JobRef
  /-- the power-fail commit is being written -/
  pfail   : Bool
  /-- TILES_HI of the last active map, as Breakwater keeps it for commits (R285) -/
  hi      : Nat
  /-- the frame in progress is a sampled one (R281, R291) -/
  sampled : Bool
  /-- the power-fail commit waits for the command in progress (R286) -/
  pfDue   : Bool
  deriving DecidableEq, Repr

/-! ## The panel links (R304 to R355, R375 to R382) -/

/-- A forward frame (R309 to R320): its class and sub-queue, header fields, payload, and the job that sent it. -/
structure LinkFrame where
  cls    : Nat
  sub    : Nat
  typ    : Nat
  flags  : Nat
  pos    : Nat
  frame  : Nat
  fmt    : Nat
  row    : Nat
  rows   : Nat
  arg    : Nat
  serial : Nat
  data   : List Byte
  job    : Option JobRef
  /-- the sending job waits for both lanes of a loop -/
  both   : Bool
  /-- SEQ given as it was sent -/
  seq    : Nat
  deriving DecidableEq, Repr

/-- The expected CRC of a far-end window (R348): frame, tile, its lane × 1024 + position, window, region and the CRC
register over the rows so far. -/
structure FarCrc where
  frame  : Nat
  tile   : Nat
  pos    : Nat
  window : Nat
  region : Nat
  crc    : Nat
  deriving DecidableEq, Repr

/-- What a tile was last told by the engine's CONFIG items (R320): the ORIENT item, its windows, the regions beyond the
eighth window (R346), and the state it was told in. -/
structure TileCfg where
  orient  : List Byte
  windows : List (Nat × Nat × Nat × Nat × Nat)
  skipped : List Nat
  state   : Nat
  deriving DecidableEq, Repr

/-- A panel lane beyond its registers. -/
structure LaneSt where
  lock    : Bool
  /-- rate being tried or held: 2 25GBASE-R, 1 10GBASE-R -/
  rate    : Nat
  seq     : Nat
  /-- the replies of the discovery window, if it is open: the lane that heard each and its position in the roster -/
  replies : Option (List (Nat × Nat))
  q0      : List LinkFrame
  q1      : List LinkFrame
  q2      : List LinkFrame
  q3      : List LinkFrame
  cur     : Nat
  started : Bool
  deficit : List Nat
  credit1 : Nat
  credit2 : Nat
  /-- shaping values latched at the last refill: OVERHEAD, PIX_RATE, PIX_BURST, CTL_RATE, CTL_BURST, QUANTUM -/
  shape   : List Nat
  /-- bytes of each class not yet counted in whole units of 64 -/
  rest    : List Nat
  /-- the last frame put on the wire -/
  wire    : Option LinkFrame
  alerts  : List (Nat × Nat × List Word)
  bist    : Bool
  scan    : Bool
  /-- a frame came back on the receive side since it came up -/
  looped  : Bool
  /-- SPLIT in force for the frame (R344) -/
  split   : Nat
  /-- CONTROL frames of the engine that wait for room in class 2 (R375) -/
  wait2   : List LinkFrame
  deriving DecidableEq, Repr

/-- A roster slot (R339, R354). -/
structure RosterSlot where
  serial : Nat
  wM1    : Nat
  hM1    : Nat
  caps   : Nat
  lead   : Nat
  fw     : Nat
  temp   : Nat
  homeB  : Bool
  missed : Nat
  ctlSeq : Nat
  result : Nat
  /-- cycle of the last STATUS -/
  heard  : Option Nat
  /-- consecutive STATUS checks without one -/
  silent : Nat
  maker  : Nat
  calib  : Nat
  deriving DecidableEq, Repr

/-- The links and the frame clock beyond their registers. -/
structure PlkSt where
  lanes   : Tab LaneSt
  /-- roster slots by lane × 1024 + position -/
  roster  : Tab (Option RosterSlot)
  /-- STATUS frames of the last four frames: frame, lane, position on that lane -/
  status  : List (Nat × Nat × Nat)
  /-- frame numbers of the last four gates -/
  frames  : List Nat
  crcs    : List FarCrc
  told    : Tab TileCfg
  /-- RATE to take effect at the next gate -/
  newRate : Option Nat
  frac    : Nat
  /-- cycle of the last gate, and whole cycles of the frame it opened -/
  gateAt  : Nat
  period  : Nat
  /-- genlock: edge not yet seen by a gate, trim and frames it still holds for, good edges in a row -/
  edge    : Option Nat
  trim    : Int
  trimFor : Nat
  good    : Nat
  deriving DecidableEq, Repr

/-! ## Ingress (R356 to R381) -/

/-- A unit that is complete and waits for the packet after it (R369): offset, length, arrival of its first packet, and
whether packets were lost before it. -/
structure ReadyUnit where
  start   : Nat
  len     : Nat
  arrival : Nat
  loss    : Bool
  deriving DecidableEq, Repr

/-- The access unit a flow assembles (R368): its buffer, the timestamp it is known by, bytes written, the start of the
unit in assembly, the arrival of that unit's first packet, whether packets were lost before it, the units that wait to be
handed over, the key and IV latched, and the cipher blocks done; `dropped` ends the rest of it. -/
structure AccessUnit where
  handle  : Word
  stamp   : Nat
  rtp     : Nat
  bytes   : Nat
  start   : Nat
  arrival : Nat
  loss    : Bool
  ready   : List ReadyUnit
  key     : List Word
  blocks  : Nat
  dropped : Bool
  deriving DecidableEq, Repr

/-- A packet in the reorder store: its cycle of arrival, its sequence number, its slot and its length (R365, R366). -/
structure HeldPacket where
  arr  : Nat
  seq  : Nat
  slot : Nat
  len  : Nat
  deriving DecidableEq, Repr

/-- A flow beyond its entry (R363, R365, R380). -/
structure FlowSt where
  next   : Nat
  synced : Bool
  ssrc   : Nat
  lates  : Nat
  /-- packets in the reorder store, oldest first -/
  held   : List HeldPacket
  /-- numbers were declared lost since the last delivery -/
  gap    : Bool
  tc     : Nat
  tp     : Nat
  last   : Nat
  au     : Option AccessUnit
  /-- the NAL unit or OBU in assembly; with FORMAT 3 and CRYPT 2, the bytes not yet decrypted (R367, R370) -/
  frag   : Option (List Byte)
  /-- FORMAT 3: the last continuity counter on PID, and bytes of a PES header still to come -/
  ccLast : Option Nat
  skip   : Nat
  resync : Bool
  units  : Nat
  /-- GREEN, YELLOW, RED, YELLOW_DROP, LOST, LATE, UNITS, DROPPED_UNITS -/
  cnt    : List Nat
  deriving DecidableEq, Repr

/-- The ingress ports: each port's copy of the flow table by port × 4096 + index (R362), the state of each of its flows,
entries an uncorrectable error has made invalid, the cycle each port was reset, and the part of a write that moves an entry
which one port's arbiter has still to grant: the port, the index and the words. -/
structure IgrSt where
  flows : Tab (List Word)
  st    : Tab FlowSt
  bad   : List Nat
  base  : Tab Nat
  late  : Option (Nat × Nat × List Word)
  deriving DecidableEq, Repr

/-- Where the engine as a whole is (R483, R484, R496, R501). -/
inductive PwrMode where
  | run | asleep | powerFail | shed | porst
  deriving DecidableEq, Repr

/-- Why the engine entered SHED (R484, R494, R510). -/
inductive ShedCause where
  | powerFail | thermal | pll
  deriving DecidableEq, Repr

/-- Breakwater's power control beyond its registers (R480 to R513). -/
structure PwrSt where
  /-- bit n: domain n is on (R486) -/
  doms       : Nat
  mode       : PwrMode
  /-- the switch in progress: domain, and true for ON -/
  cmd        : Option (Nat × Bool)
  shed       : ShedCause
  /-- FAULT_N held low after a thermal trip (R510) -/
  tripHold   : Bool
  /-- bit i: sensor i read 115 °C or more in the last reading -/
  hot        : Nat
  /-- sleep was requested and not yet committed or abandoned -/
  sleepReq   : Bool
  /-- an event has woken the sleeping engine (R502) -/
  wakeReq    : Bool
  /-- BW_WAKE_CAUSE has been recorded in this sleep (R469) -/
  causeSet   : Bool
  /-- an identify toggle is held until PD_CTL comes on (R504) -/
  identHeld  : Bool
  /-- Breakwater's identify count runs (R504) -/
  identCount : Bool
  /-- VAON_MAIN below 1.62 V -/
  vaonLow    : Bool
  /-- REFCLK has stopped (R495) -/
  refStopped : Bool
  /-- the domains the requested sleep keeps, checked at SLEEP_GO (R500) -/
  keep       : Nat
  deriving DecidableEq, Repr

/-- The pins that a command changes and a register or a rule reads (R483, R496, R497, R449, R504, R474), the level TRST_N
is held at (R536), and whether another driver of the board net holds FAULT_N low (R475). -/
structure PinSt where
  porstN   : Bool
  perstN   : Bool
  pwrfailN : Bool
  tamperN  : Bool
  svcKeyN  : Bool
  trstN    : Bool
  faultOther : Bool
  deriving DecidableEq, Repr

/-- What the fuses hold: the variant (R2), the life-cycle state as SEC_LC_STATE has read it, and as the fuses hold it
(R450, R451). -/
structure FuseSt where
  variant   : Variant
  lifeCycle : Nat
  burnt     : Nat
  deriving DecidableEq, Repr

/-- The state of the block. -/
structure State where
  /-- BAR0 registers by offset; an unlisted register holds its reset value -/
  regs    : Tab Word
  fuse    : FuseSt
  pins    : PinSt
  pwr     : PwrSt
  tap     : TapSt
  pcie    : PcieSt
  host    : HostSt
  hq      : HqSt
  icu     : IcuSt
  bpm     : BpmSt
  dma     : DmaSt
  drc     : DrcSt
  spd     : SpdSt
  sec     : SecSt
  dec     : DecSt
  hsq     : Tab HsqSt
  enc     : EncSt
  sdi     : SdiSt
  cmp     : CmpSt
  lmp     : LmpSt
  ldg     : LdgSt
  plk     : PlkSt
  igr     : IgrSt
  /-- pin events not yet seen by TOP_FAULT_PIN (R474) -/
  pinEvts : Nat
  /-- CLK_PIX cycles since reset -/
  cyc     : Nat
  /-- the model's own: how many free values have been drawn -/
  free    : Nat
  /-- commands waiting, first in, first out -/
  pending : List Instr
  deriving DecidableEq, Repr

/-- Reasons for a fault: no rule of the spec stops the block, so none is raised. -/
inductive Fault where
  /-- Raised by nobody: the spec stops the machine nowhere. Safe. -/
  | neverRaised
  deriving DecidableEq, Repr

/-- Reasons for a refusal. -/
inductive Refusal where
  /-- Raised by `exec` for a command that has no meaning yet, under its mnemonic. Safe. -/
  | notModelled (mnemonic : String)
  deriving DecidableEq, Repr

/-- Words the reset sequence of R496 leaves different from their reset value: the main PLL has locked (R493). -/
def resetRegs : Tab Word := [(CLK_STATUS, 1)]

/-- The engine right after reset: the end of the reset sequence of R496, on the variant of R1. -/
def State.reset : State where
  regs := resetRegs
  fuse := ⟨.lzw4480, 0, 0⟩
  pins := ⟨true, true, true, true, true, false, false⟩
  pwr := ⟨0xF, .run, none, .powerFail, false, 0, false, false, false, false, false, false, false, 0⟩
  tap := ⟨.testLogicReset, .idcode, [], [], [], false⟩
  pcie := ⟨128, 512, true, false, false, [], 0, 0, 0⟩
  host := ⟨[], [], 0, false⟩
  hq := ⟨[], [], [], [], [], 513, 0⟩
  icu := ⟨[], [], [], 0⟩
  bpm := ⟨[], [], [], [], [], [], [], (0, 0), []⟩
  dma := ⟨[], []⟩
  drc := ⟨[], [], [], [], none, [], false, [], 0, 0⟩
  spd := ⟨[], [], [], []⟩
  sec := ⟨[], [], none, 0, none⟩
  dec := ⟨[], [], [], none, [], [], [], false, 0, 0⟩
  hsq := []
  enc := ⟨[], [], [], []⟩
  sdi := ⟨[], [], 0⟩
  cmp := ⟨[], [], [], [], ⟨false, 0, false, []⟩, [], ⟨false, 0, none, [], []⟩, [], [], [], [], [], [], [], [], false⟩
  lmp := ⟨[], [], [], [], [], [], [], [], [], none, [], none, [], [], false, [0, 0, 0], [0, 0, 0], none, [], [], []⟩
  ldg := ⟨0, none, [], [], [], [], [], false, false, [], [], none, 0, none, false, [], none, [], [], 0, 0, [], [], 0, [], false, 0, false, false⟩
  plk := ⟨[], [], [], [], [], [], none, 0, 0, 20000000, none, 0, 0, 0⟩
  igr := ⟨[], [], [], [], none⟩
  pinEvts := 0
  cyc := 0
  free := 0
  pending := []

end Sys2Proof.Machine
end

