-- ==== Sys2Proof/Machine/Ops.lean ====
section
/-!
DEFINITION. The named operations over the register file, the power domains and the free values, which every meaning
is written with.
-/
namespace Sys2Proof.Machine

/-- What a meaning answers. -/
abbrev Out : Type := Host.Outcome State Fault Refusal

/-- The value of a field of a word. -/
def fget (f : Fld) (w : Word) : Nat := w.toNat / 2 ^ f.lo % 2 ^ f.w

/-- A word with one field replaced. -/
def fput (f : Fld) (w : Word) (v : Nat) : Word :=
  BitVec.ofNat 32 (w.toNat - fget f w * 2 ^ f.lo + v % 2 ^ f.w * 2 ^ f.lo)

/-- Bits `hi` to `lo` of a word, as a job-word table names them. -/
def bitsOf (hi lo : Nat) (w : Word) : Nat := w.toNat / 2 ^ lo % 2 ^ (hi + 1 - lo)

/-- One bit of a word. -/
def bitAt (i : Nat) (w : Word) : Bool := w.toNat.testBit i

/-! ## The register file -/

/-- The register at BAR0 offset `a` as the block holds it. -/
def State.reg (s : State) (a : Nat) : Word := tabGet (regReset s.fuse.variant) s.regs a

/-- The register at `a` where its reset value is zero: a status register. -/
def State.raw (s : State) (a : Nat) : Word := tabGet (fun _ => 0) s.regs a

/-- Set the register at `a`. -/
def State.setReg (s : State) (a : Nat) (w : Word) : State :=
  { s with regs := tabSet (regReset s.fuse.variant) s.regs a w }

/-- The value of a register field. -/
def State.rd (s : State) (a : Nat) (f : Fld) : Nat := fget f (s.reg a)

/-- A one-bit register field. -/
def State.flag (s : State) (a : Nat) (f : Fld) : Bool := s.rd a f == 1

/-- Set a register field. -/
def State.wr (s : State) (a : Nat) (f : Fld) (v : Nat) : State := s.setReg a (fput f (s.reg a) v)

/-- Increment a register field, wrapping in its width. -/
def State.inc (s : State) (a : Nat) (f : Fld) : State := s.wr a f (s.rd a f + 1)

/-- Add to a register field, wrapping in its width. -/
def State.addTo (s : State) (a : Nat) (f : Fld) (n : Nat) : State := s.wr a f (s.rd a f + n)

/-- Increment a register field, saturating at its largest value. -/
def State.incSat (s : State) (a : Nat) (f : Fld) : State :=
  if s.rd a f + 1 < 2 ^ f.w then s.inc a f else s

/-- Set one bit of a status register. -/
def State.setBit (s : State) (a b : Nat) : State := s.wr a ⟨b, 1⟩ 1

/-- Clear one bit of a status register. -/
def State.clrBit (s : State) (a b : Nat) : State := s.wr a ⟨b, 1⟩ 0

/-- A 64-bit value in a LO and HI register pair. -/
def State.reg64 (s : State) (lo hi : Nat) : Nat := (s.reg lo).toNat + (s.reg hi).toNat * 2 ^ 32

/-- Set a LO and HI register pair. -/
def State.setReg64 (s : State) (lo hi v : Nat) : State :=
  (s.setReg lo (BitVec.ofNat 32 v)).setReg hi (BitVec.ofNat 32 (v / 2 ^ 32))

/-- Do `f` when `c` holds; otherwise the event does not take place and nothing changes (assumption 2). -/
def State.when (c : Bool) (f : State → State) (s : State) : State := if c then f s else s

/-- Apply `f` for each element in turn. -/
def foldS {α : Type} (f : α → State → State) (xs : List α) (s : State) : State :=
  xs.foldl (fun t x => f x t) s

/-- The tag-table entries in use, with their slots. Jobs that a Function Level Reset found dispatched and not yet begun
stand above the 1,024 slots of the table (R39). -/
def State.jobList (s : State) : Tab Job := s.hq.jobs.filter (fun e => decide (e.1 < 1024))

/-! ## Free values -/

/-- Draw the next free value (assumption 9). -/
def State.fresh (s : State) : Word × State := (Config.freeWord s.free, { s with free := s.free + 1 })

/-- Draw `n` free bytes. -/
def freshBytes : Nat → State → List Byte × State
  | 0, s => ([], s)
  | n + 1, s =>
    let (w, s1) := s.fresh
    let (bs, s2) := freshBytes n s1
    (w.setWidth 8 :: bs, s2)

/-! ## Variants and power domains -/

/-- The unit counts of R2 by variant: slices, encoders, ports, lanes, SDI inputs, SDI outputs, DRAM channels. -/
def numSlices (v : Variant) : Nat := match v with | .lzw4480 => 9 | .lzw4460 => 5 | .lzw4430 => 3
def numEncoders (v : Variant) : Nat := match v with | .lzw4480 => 2 | .lzw4460 => 1 | .lzw4430 => 0
def numPorts (v : Variant) : Nat := match v with | .lzw4480 => 2 | .lzw4460 => 2 | .lzw4430 => 1
def numLanes (v : Variant) : Nat := match v with | .lzw4480 => 64 | .lzw4460 => 32 | .lzw4430 => 16
def numSdiIn (v : Variant) : Nat := match v with | .lzw4480 => 8 | .lzw4460 => 4 | .lzw4430 => 2
def numSdiOut (v : Variant) : Nat := match v with | .lzw4480 => 2 | .lzw4460 => 1 | .lzw4430 => 0
def numChannels (v : Variant) : Nat := match v with | .lzw4480 => 32 | .lzw4460 => 32 | .lzw4430 => 16

/-- Tiles and active-lamp bounds of R8: tiles, lamps, lamps times frames per second. -/
def maxTiles (v : Variant) : Nat := match v with | .lzw4480 => 65536 | .lzw4460 => 32768 | .lzw4430 => 16384
def maxLamps (v : Variant) : Nat :=
  match v with | .lzw4480 => 268435456 | .lzw4460 => 134217728 | .lzw4430 => 67108864
def maxLampRate (v : Variant) : Nat :=
  match v with | .lzw4480 => 16106127360 | .lzw4460 => 8053063680 | .lzw4430 => 4026531840

/-- Domain `n` exists on the variant (R486). -/
def domPresent (v : Variant) (n : Nat) : Bool :=
  decide (n < 40) && match v with
  | .lzw4480 => true
  | .lzw4460 => !(decide (20 ≤ n ∧ n ≤ 23) || n == 25 || n == 35 || n == 36)
  | .lzw4430 => !(decide (8 ≤ n ∧ n ≤ 11) || decide (18 ≤ n ∧ n ≤ 25) || decide (34 ≤ n ∧ n ≤ 36) || n == 38)

/-- Domain `n` is on. -/
def State.domOn (s : State) (n : Nat) : Bool := s.pwr.doms.testBit n

/-- Requests can leave over PCI Express: PD_PCIE is on and not held in reset by PERST_N (R497), and the function is in D0
(R36; a function in D3hot issues no request, assumption 110). -/
def State.linkUp (s : State) : Bool := s.domOn 3 && s.pins.perstN && !s.pcie.d3hot

/-- The domain that holds unit `i` of a register row (R486). -/
def regDomain (d : RegDom) (i : Nat) : Nat :=
  match d with
  | .fixed n => n
  | .hsq => 13 + i / 2
  | .drc => 4 + i / 4
  | .en => 24 + i
  | .layer => if i < 32 then 27 + i / 8 else 31
  | .plk => 33 + i / 16
  | .igr => 37 + i

/-- The unit of a register row is fused off although its domain is present: slices, SDI inputs and outputs (R3). -/
def unitAbsent (v : Variant) (a i : Nat) : Bool :=
  if 0x1000000 ≤ a ∧ a < 0x1008000 ∨ 0x1010000 ≤ a ∧ a < 0x1090000 then decide (numSlices v ≤ i)
  else if 0x2000000 ≤ a ∧ a < 0x2001000 then decide (numSdiIn v ≤ i)
  else if 0x2001000 ≤ a ∧ a < 0x2002000 then decide (numSdiOut v ≤ i)
  else a == 0x1D00050 && v == .lzw4430

/-- The register at `a` can be reached: its unit is present and its domain is on (R3, R490). -/
def State.regLive (s : State) (a : Nat) : Bool :=
  match regFind a with
  | none => false
  | some (r, i, _) => s.domOn (regDomain r.dom i) && !unitAbsent s.fuse.variant a i

/-- Every listed register of domain `n` returns to its reset value (R12, R491). -/
def State.resetDomainRegs (s : State) (n : Nat) : State :=
  { s with regs := tabDrop (fun a => match regFind a with
      | none => false
      | some (r, i, _) => regDomain r.dom i == n) s.regs }

/-- RW-L registers keep their values (R10). -/
def State.locked (s : State) : Bool := bitAt 0 (s.raw TOP_SETUP_LOCK)

/-- The value a host write leaves in a register, field by field, by the access codes of R10. -/
def accWrite (locked : Bool) (data : Word) : List FldDesc → Word → Word
  | [], w => w
  | f :: fs, w =>
    let fl : Fld := ⟨f.lo, f.w⟩
    let old := fget fl w
    let new := fget fl data
    let w' := match f.acc with
      | .rw => fput fl w new
      | .rwl => if locked then w else fput fl w new
      | .w1c => fput fl w (old - Nat.land old new)
      | .w1s => fput fl w (Nat.lor old new)
      | .ro => w
      | .wo => w
    accWrite locked data fs w'

/-- A host write of the register at `a` by its access codes; ignored where no table lists it, its unit is absent or
its domain is off (R10, R11, R3, R490). -/
def State.hostWrite (s : State) (a : Nat) (data : Word) : State :=
  match regFind a with
  | none => s
  | some (r, _, _) =>
    if s.regLive a then s.setReg a (accWrite s.locked data r.flds (s.reg a)) else s

end Sys2Proof.Machine
end

