-- ==== Sys2Proof/Machine/Flags.lean ====
section
/-!
DEFINITION. Status bits, fault state, pin events and interrupt levels: when a block raises a FAULT_STATUS bit, when
each interrupt source is pending by its rule, the messages a block sends as its conditions change, and the one way a
meaning ends.
-/
namespace Sys2Proof.Machine

/-- A block is in the fault state (R471); `fs` is the offset of its FAULT_STATUS. -/
def State.faultState (s : State) (fs : Nat) : Bool :=
  s.raw fs != 0 && Nat.land (s.raw fs).toNat ((2 ^ 32 - 1) - (s.reg (fs + 4)).toNat) != 0

/-- Set FAULT_STATUS bit `b`; a change from 0 to 1 under its FAULT_PIN_EN bit is a pin event (R471, R474). -/
def State.setFault (s : State) (fs b : Nat) : State :=
  if bitAt b (s.raw fs) then s
  else
    let s1 := s.setBit fs b
    if bitAt b (s.raw (fs + 8)) then { s1 with pinEvts := s1.pinEvts + 1 } else s1

/-- Take one injected access of the block whose FAULT_STATUS is at `fs`, for an access the given SITE values count
(R473, R541): whether it is injected and, if so, whether uncorrectable. -/
def State.takeInjection (s : State) (fs : Nat) (sites : List Nat) : Option Bool × State :=
  let a := fs + 12
  let w := s.raw a
  if bitsOf 7 0 w = 0 || !(sites.contains (bitsOf 10 9 w)) then (none, s)
  else (some (bitAt 8 w), s.setReg a (fput ⟨0, 8⟩ w (bitsOf 7 0 w - 1)))

/-- Take up to `n` injected accesses where one event checks `n` words (R541): whether any is injected and, if so, whether
uncorrectable. -/
def State.takeInjections (s : State) (fs : Nat) (sites : List Nat) (n : Nat) : Option Bool × State :=
  let w := s.raw (fs + 12)
  if n = 0 || bitsOf 7 0 w = 0 || !(sites.contains (bitsOf 10 9 w)) then (none, s)
  else (some (bitAt 8 w), s.setReg (fs + 12) (fput ⟨0, 8⟩ w (bitsOf 7 0 w - n)))

/-- `n` words arrive at the block whose FAULT_STATUS is at `fs` on a fabric path, and are checked there (R473, R541, SITE 0
and 2): an injected single error is corrected; an injected double one sets FABRIC, and the answer is that a word is
uncorrectable. -/
def State.fabricCheck (s : State) (fs n : Nat) : Bool × State :=
  match s.takeInjections fs [0, 2] n with
  | (none, t) => (false, t)
  | (some false, t) => (false, t.setFault fs 0)
  | (some true, t) => (true, t.setFault fs 2)

/-- `n` words are read from an SRAM of the block whose FAULT_STATUS is at `fs`, and are checked (R473, R541; by default SITE
0, 1 and, for a block the table of R541 does not name, 3): an injected single error is corrected; the answer is that a word
is uncorrectable, which its reader handles. -/
def State.sramCheck (s : State) (fs n : Nat) (sites : List Nat := [0, 1, 3]) : Bool × State :=
  match s.takeInjections fs sites n with
  | (none, t) => (false, t)
  | (some false, t) => (false, t.setFault fs 0)
  | (some true, t) => (true, t)

/-- `State.sramCheck` for a block whose FAULT_STATUS bit 1 is UNCORRECTABLE: an uncorrectable word sets it. -/
def State.sramFault (s : State) (fs n : Nat) : Bool × State :=
  match s.sramCheck fs n with
  | (true, t) => (true, t.setFault fs 1)
  | (false, t) => (false, t)

/-- FAULT_STATUS of the block whose registers lie at BAR0 offset `a` (R34, R471); the TOP block has none. -/
def blockFault (a : Nat) : Option Nat :=
  let unit := fun (b stride fs : Nat) => some (fs + (a - b) / stride * stride)
  if a < 0x100000 then none
  else if a < 0x200000 then some PWR_FAULT_STATUS
  else if a < 0x208000 then some ICU_FAULT_STATUS
  else if a < 0x300000 then some BW_FAULT_STATUS
  else if a < 0x400000 then some BPM_FAULT_STATUS
  else if a < 0x401000 then unit 0x400000 0x100 (DMA_CH_FAULT_STATUS 0)
  else if 0x500000 ≤ a ∧ a < 0x600000 then some HQ_FAULT_STATUS
  else if 0x600000 ≤ a ∧ a < 0x604000 then unit 0x600000 0x1000 (HSQ_FAULT_STATUS 0)
  else if 0x1000000 ≤ a ∧ a < 0x1090000 ∧ a % 0x10000 < 0x8000 then unit 0x1000000 0x10000 (DS_FAULT_STATUS 0)
  else if 0x1200000 ≤ a ∧ a < 0x1220000 ∧ a % 0x10000 < 0x8000 then unit 0x1200000 0x10000 (EN_FAULT_STATUS 0)
  else if 0x1400000 ≤ a ∧ a < 0x1600000 then some CMP_FAULT_STATUS
  else if 0x1600000 ≤ a ∧ a < 0x1700000 then some LMP_FAULT_STATUS
  else if 0x1700000 ≤ a ∧ a < 0x1800000 then some LDG_FAULT_STATUS
  else if 0x1800000 ≤ a ∧ a < 0x1810000 then unit 0x1800000 0x400 (PLK_LANE_FAULT_STATUS 0)
  else if 0x1A00000 ≤ a ∧ a < 0x1A02000 then unit 0x1A00000 0x1000 (IGR_PORT_FAULT_STATUS 0)
  else if 0x1C00000 ≤ a ∧ a < 0x1C80000 then unit 0x1C00000 0x4000 (DRC_CH_FAULT_STATUS 0)
  else if 0x1E00000 ≤ a ∧ a < 0x1F00000 then some SPD_FAULT_STATUS
  else if 0x1F00000 ≤ a ∧ a < 0x2000000 then some SEC_FAULT_STATUS
  else if 0x2000000 ≤ a ∧ a < 0x2003000 then some SDI_FAULT_STATUS
  else none

/-- A host word for the register at `a` arrives at its block on a fabric path and is checked there (R473, R541, SITE 0
and 2): an injected single error is corrected, an injected double one sets FABRIC, and the word is used as it is
(assumption 25). -/
def State.fabricWord (s : State) (a : Nat) : State :=
  match blockFault a with
  | none => s
  | some fs =>
    if s.regLive a then (s.fabricCheck fs 1).2 else s

/-! ## Interrupt levels -/

/-- Bit `b` of a status register set together with its enable bit; bit `fb` is the FAULT bit of the block whose
FAULT_STATUS is at `fs`. -/
def State.irqBit (s : State) (st en fs fb b : Nat) : Bool :=
  (if b = fb then s.faultState fs else bitAt b (s.raw st)) && bitAt b (s.reg en)

/-- IRQ_STATUS.FAULT of pool `p` (R414; a pool-0 UNCORRECTABLE error is reported on pool 0, assumption 22). -/
def State.poolFault (s : State) (p : Nat) : Bool :=
  let live := Nat.land (s.raw BPM_FAULT_STATUS).toNat ((2 ^ 32 - 1) - (s.reg BPM_FAULT_MASK).toNat)
  s.raw BPM_FAULT_STATUS != 0 &&
    ((p == 0 && (live.testBit 0 || live.testBit 2)) || (live.testBit 1 && s.rd BPM_FAULT_POOL BPM_FAULT_POOL.POOL == p))

/-- Some bit below `n` of a status register is set together with its enable. -/
def State.irqAny (s : State) (st en fs fb lo n : Nat) : Bool :=
  (List.range n).any (fun b => s.irqBit st en fs fb (lo + b))

/-- The condition under which block source `src` is pending, as its owning chapter states it (R67, R118, R151, R209,
R211, R249, R273, R303, R355, R381, R415, R417, R456, R468, R513). Completion-ring sources have no condition (R63). -/
def State.sourceLevel (s : State) (src : Nat) : Bool :=
  if src < 16 then decide (1 ≤ src ∧ src ≤ 8) && s.irqBit PWR_IRQ_STATUS PWR_IRQ_EN PWR_FAULT_STATUS 7 (src - 1)
  else if src < 20 then s.irqBit ICU_IRQ_STATUS ICU_IRQ_EN ICU_FAULT_STATUS 0 (src - 16)
  else if src = 20 then s.flag TOP_FAULT_PIN TOP_FAULT_PIN.EVENT && bitAt 0 (s.reg BW_IRQ_EN)
  else if src < 32 then decide (src ≤ 26) && s.irqBit BW_IRQ_STATUS BW_IRQ_EN BW_FAULT_STATUS 6 (src - 20)
  else if src < 64 then
    let p := (src - 32) / 4
    if src % 4 = 3 then s.poolFault p && bitAt 3 (s.reg (BPM_POOL_IRQ_EN p))
    else s.irqBit (BPM_POOL_IRQ_STATUS p) (BPM_POOL_IRQ_EN p) 0 9 (src % 4)
  else if src < 96 then
    let c := (src - 64) / 2
    if src % 2 = 0 then s.irqBit (DMA_CH_IRQ_STATUS c) (DMA_CH_IRQ_EN c) 0 9 0
    else s.irqAny (DMA_CH_IRQ_STATUS c) (DMA_CH_IRQ_EN c) (DMA_CH_FAULT_STATUS c) 2 1 2
  else if src < 101 then bitAt (src - 96) (s.raw HQ_ERR_STATUS)
  else if src = 101 then s.faultState HQ_FAULT_STATUS
  else if src = 102 then decide (s.rd HQ_CTL HQ_CTL.TAG_TIDE ≤ s.jobList.length)
  else if src < 512 then false
  else if src < 528 then
    let q := (src - 512) / 4
    s.irqBit (HSQ_IRQ_STATUS q) (HSQ_IRQ_EN q) (HSQ_FAULT_STATUS q) 3 (src % 4)
  else if src < 600 then
    let n := (src - 528) / 8
    decide (src % 8 < 7) && s.irqBit (DS_IRQ_STATUS n) (DS_IRQ_EN n) (DS_FAULT_STATUS n) 4 (src % 8)
  else if src < 616 then
    let n := (src - 600) / 8
    decide (src % 8 < 4) && s.irqBit (EN_IRQ_STATUS n) (EN_IRQ_EN n) (EN_FAULT_STATUS n) 3 (src % 8)
  else if src < 680 then s.irqAny (CMP_L_IRQ_STATUS (src - 616)) (CMP_L_IRQ_EN (src - 616)) 0 9 0 5
  else if src < 696 then
    decide (src < 688) && s.irqBit CMP_IRQ_STATUS CMP_IRQ_EN CMP_FAULT_STATUS 7 (src - 680)
  else if src < 708 then
    decide (src < 704) && s.irqBit LMP_IRQ_STATUS LMP_IRQ_EN LMP_FAULT_STATUS 7 (src - 696)
  else if src < 720 then
    decide (src < 716) && s.irqBit LDG_IRQ_STATUS LDG_IRQ_EN LDG_FAULT_STATUS 7 (src - 708)
  else if src < 848 then
    let n := (src - 720) / 2
    if src % 2 = 0 then s.irqAny (PLK_LANE_IRQ_STATUS n) (PLK_LANE_IRQ_EN n) 0 9 0 8
    else s.irqBit (PLK_LANE_IRQ_STATUS n) (PLK_LANE_IRQ_EN n) (PLK_LANE_FAULT_STATUS n) 8 8
  else if src < 880 then
    let p := (src - 848) / 16
    decide (src % 16 < 10) && s.irqBit (IGR_PORT_IRQ_STATUS p) (IGR_PORT_IRQ_EN p) (IGR_PORT_FAULT_STATUS p) 8 (src % 16)
  else if src < 944 then
    let c := (src - 880) / 2
    if src % 2 = 0 then
      s.irqAny (DRC_CH_IRQ_STATUS c) (DRC_CH_IRQ_EN c) 0 9 0 3
        || (c == 0 && bitsOf 3 0 (s.raw DRC_ERR) != 0 && bitAt 0 (s.reg (DRC_CH_IRQ_EN 0)))
    else s.irqAny (DRC_CH_IRQ_STATUS c) (DRC_CH_IRQ_EN c) (DRC_CH_FAULT_STATUS c) 4 3 2
  else if src < 946 then s.irqBit SPD_IRQ_STATUS SPD_IRQ_EN SPD_FAULT_STATUS 1 (src - 944)
  else if src < 948 then false
  else if src < 952 then s.irqBit SEC_IRQ_STATUS SEC_IRQ_EN SEC_FAULT_STATUS 3 (src - 948)
  else if src < 960 then false
  else if src < 984 then
    let n := (src - 960) / 3
    s.irqBit (SDI_IN_IRQ_STATUS n) (SDI_IN_IRQ_EN n) 0 9 ((src - 960) % 3)
  else if src < 986 then s.irqBit (SDI_OUT_IRQ_STATUS (src - 984)) (SDI_OUT_IRQ_EN (src - 984)) 0 9 0
  else if src = 986 then s.faultState SDI_FAULT_STATUS
  else false

/-- The block sources whose condition holds, in ascending order. -/
def State.highSources (s : State) : List Nat := (List.range 992).filter s.sourceLevel

/-- An enabled wake-set entry names source `src` (R469). -/
def State.wakeNamed (s : State) (src : Nat) : Bool :=
  (List.range 64).any (fun j => bitAt 31 (s.raw (BW_WAKE_SRC j)) && bitsOf 9 0 (s.raw (BW_WAKE_SRC j)) == src)

/-- What blocks send when their conditions change: a set message where one became true, a retract message where one
became false (R459). In sleep only set messages of the wake set go on (R469); without PD_CTL there is no ICU to
reach. -/
def State.irqSync (s : State) : State :=
  let now := s.highSources
  let gone := (s.icu.told.filter (fun x => !now.contains x)).map (fun x => (x, true))
  let came := (now.filter (fun x => !s.icu.told.contains x)).map (fun x => (x, false))
  let msgs := match s.pwr.mode with
    | .asleep => came.filter (fun m => s.wakeNamed m.1)
    | _ => if s.domOn 1 then gone ++ came else []
  { s with icu := { s.icu with msgs := s.icu.msgs ++ msgs, told := now } }

/-- Sources that a block raises from a condition of its own; every other number is set by the host or, for a completion
ring, by HQ alone (R35 and the source rules). -/
def blockSource (src : Nat) : Bool :=
  decide (1 ≤ src ∧ src ≤ 8) || decide (16 ≤ src ∧ src ≤ 26) || decide (32 ≤ src ∧ src ≤ 102)
    || decide (512 ≤ src ∧ src < 528) || (decide (528 ≤ src ∧ src < 600) && decide (src % 8 < 7))
    || (decide (600 ≤ src ∧ src < 616) && decide (src % 8 < 4)) || decide (616 ≤ src ∧ src < 688)
    || decide (696 ≤ src ∧ src < 704) || decide (708 ≤ src ∧ src < 716) || decide (720 ≤ src ∧ src < 848)
    || (decide (848 ≤ src ∧ src < 880) && decide (src % 16 < 10)) || decide (880 ≤ src ∧ src < 946)
    || decide (948 ≤ src ∧ src < 952) || decide (960 ≤ src ∧ src ≤ 986)

/-- Sources of a unit the variant does not have (R3, R35). -/
def absentSource (v : Variant) (src : Nat) : Bool :=
  (decide (528 ≤ src ∧ src < 600) && decide (numSlices v ≤ (src - 528) / 8))
    || (decide (600 ≤ src ∧ src < 616) && decide (numEncoders v ≤ (src - 600) / 8))
    || (decide (720 ≤ src ∧ src < 848) && decide (numLanes v ≤ (src - 720) / 2))
    || (decide (848 ≤ src ∧ src < 880) && decide (numPorts v ≤ (src - 848) / 16))
    || (decide (880 ≤ src ∧ src < 944) && decide (numChannels v ≤ (src - 880) / 2))
    || (decide (960 ≤ src ∧ src < 984) && decide (numSdiIn v ≤ (src - 960) / 3))
    || (decide (984 ≤ src ∧ src < 986) && decide (numSdiOut v ≤ src - 984))

/-- Source `src` as its block last announced it: by the youngest message in flight that names it, else by what the ICU
holds as pending. -/
def State.announced (s : State) (src : Nat) : Bool :=
  match s.icu.msgs.reverse.find? (fun m => m.1 == src) with
  | some (_, retract) => !retract
  | none => bitAt 24 (s.raw (ICU_SRC_CFG src))

/-- Every block samples its sources again: what was announced is what the messages in flight and the pending bits say,
so that the next synchronisation sends every message that makes pending agree with the conditions (R39, R459). -/
def State.resample (s : State) : State :=
  { s with icu := { s.icu with told := (List.range 992).filter (fun x => blockSource x && s.announced x) } }

/-- The block of source `src` samples its condition again, and sends a set message if it still holds (R463). -/
def State.resampleOne (s : State) (src : Nat) : State :=
  { s with icu := { s.icu with told := s.icu.told.filter (fun x => x != src) } }

end Sys2Proof.Machine
end

