-- ==== Sys2Proof/Machine/Mem.lean ====
section
/-!
DEFINITION. Memory as a requester sees it: engine addresses through the windows onto DRAM with its check errors (R420 to
R426, R436), the shared scratchpad (R440 to R445), host memory over PCI Express, and the CRCs. A DRAM access inside a
command either takes place or trips: on a frozen channel, or on the error that freezes one.
-/
namespace Sys2Proof.Machine

/-! ## Bytes and words -/

/-- A word's four bytes, the lowest first (R9). -/
def wordBytes (w : Word) : List Byte :=
  [w.setWidth 8, (w >>> 8).setWidth 8, (w >>> 16).setWidth 8, (w >>> 24).setWidth 8]

/-- The number little-endian bytes spell (R9). -/
def bytesNat : List Byte → Nat
  | [] => 0
  | b :: bs => b.toNat + 256 * bytesNat bs

/-- A number as `n` little-endian bytes. -/
def natBytes : Nat → Nat → List Byte
  | 0, _ => []
  | n + 1, x => BitVec.ofNat 8 x :: natBytes n (x / 256)

/-- Little-endian words of a byte list. -/
def bytesWords : List Byte → List Word
  | b0 :: b1 :: b2 :: b3 :: bs => BitVec.ofNat 32 (bytesNat [b0, b1, b2, b3]) :: bytesWords bs
  | _ => []

/-- The bytes of a list of words. -/
def wordsBytes (ws : List Word) : List Byte := (ws.map wordBytes).flatten

/-- Word `i` of a job or record, zero where the list is shorter. -/
def wordAt (ws : List Word) (i : Nat) : Word := ws.getD i 0

/-! ## CRCs -/

/-- One bit of a reflected 32-bit CRC. -/
def crcBit (poly c : Nat) : Nat := if c % 2 = 1 then Nat.xor (c / 2) poly else c / 2

/-- One byte of a reflected 32-bit CRC register. -/
def crcByte (poly c : Nat) (b : Byte) : Nat :=
  let c0 := Nat.xor c b.toNat
  crcBit poly (crcBit poly (crcBit poly (crcBit poly (crcBit poly (crcBit poly (crcBit poly (crcBit poly c0)))))))

/-- Run a CRC-32C register over bytes (R407). -/
def crc32cRun (c : Nat) (bs : List Byte) : Nat := bs.foldl (crcByte 0x82F63B78) c

/-- CRC-32C of bytes (R407). -/
def crc32c (bs : List Byte) : Word := BitVec.ofNat 32 (Nat.xor (crc32cRun 0xFFFFFFFF bs) 0xFFFFFFFF)

/-! ## DRAM -/

/-- What an unlisted DRAM byte reads as (assumption 8). -/
def dramDefault (_ : Nat) : Byte := 0

def numRanks (s : State) : Nat := if s.flag DRC_CFG DRC_CFG.RANKS2 then 2 else 1

/-- Capacity of R419 for the DRC_CFG values in force; zero for the reserved density (R421). -/
def dramCapacity (s : State) : Nat :=
  let per := match s.rd DRC_CFG DRC_CFG.DENSITY with
    | 0 => 1024 | 1 => 1536 | 2 => 2048 | _ => 0
  numChannels s.fuse.variant * numRanks s * per * 2 ^ 20

def winBase (s : State) (w : Nat) : Nat :=
  s.rd (DRC_WIN_BASE_LO w) ⟨20, 12⟩ * 2 ^ 20 + s.rd (DRC_WIN_BASE_HI w) ⟨0, 8⟩ * 2 ^ 32
def winSize (s : State) (w : Nat) : Nat := s.rd (DRC_WIN_SIZE w) ⟨0, 18⟩ * 2 ^ 20
def winPhys (s : State) (w : Nat) : Nat :=
  s.rd (DRC_WIN_PHYS_LO w) ⟨20, 12⟩ * 2 ^ 20 + s.rd (DRC_WIN_PHYS_HI w) ⟨0, 5⟩ * 2 ^ 32
def winEn (s : State) (w : Nat) : Bool := bitAt 0 (s.raw (DRC_WIN_CFG w))
def winProt (s : State) (w : Nat) : Bool := bitAt 1 (s.raw (DRC_WIN_CFG w))
/-- Bytes of DRAM a window occupies (R420). -/
def winPhysSize (s : State) (w : Nat) : Nat := if winProt s w then winSize s w * 5 / 4 else winSize s w

/-- The enabled window that holds engine address `a` (R420). -/
def winFor (s : State) (a : Nat) : Option Nat :=
  (List.range 64).find? (fun w => winEn s w && decide (winBase s w ≤ a) && decide (a < winBase s w + winSize s w))

/-- The physical address of the data byte at engine address `a` of window `w` (R420, R422). -/
def physOf (s : State) (w a : Nat) : Nat :=
  let o := a - winBase s w
  if winProt s w then winPhys s w + o / 256 * 320 + o % 256 else winPhys s w + o

/-- The physical address of the check byte of the word at offset `o` of a protected window at `phys` (R422). -/
def checkPhys (phys o : Nat) : Nat := phys + o / 256 * 320 + 256 + o % 256 / 4

/-- Parity of a number's low `n` bits. -/
def parity : Nat → Nat → Nat
  | 0, _ => 0
  | n + 1, x => (x % 2 + parity n (x / 2)) % 2

/-- The channel of a physical address: each bit the XOR of the address bits its mask selects (R425). -/
def chanOf (s : State) (p : Nat) : Nat :=
  (List.range (variantChanBits s.fuse.variant)).foldl
    (fun acc i => acc + 2 ^ i * parity 31 (Nat.land (p / 64) (s.reg (DRC_MAP_CH i)).toNat)) 0

/-- Channel `c` has its power domain on. -/
def chanOn (s : State) (c : Nat) : Bool := s.domOn (4 + c / 4)

def chanFrozen (s : State) (c : Nat) : Bool := bitAt 0 (s.raw (DRC_CH_FREEZE c))

/-- Record an access outside every window (R423). -/
def unmapped (s : State) (a : Nat) : State :=
  (s.setBit DRC_ERR 0).setReg64 DRC_ERR_ADDR_LO DRC_ERR_ADDR_HI (a % 2 ^ 40)

/-- A corrected word of channel `c` (R426). -/
def correctedWord (s : State) (c : Nat) : State :=
  let s1 := (s.setFault (DRC_CH_FAULT_STATUS c) 0).incSat (DRC_CH_ECC c) DRC_CH_ECC.CE_COUNT
  if s1.rd (DRC_CH_ECC c) DRC_CH_ECC.CE_COUNT = s1.rd (DRC_CH_ECC c) DRC_CH_ECC.CE_TIDE
  then s1.setBit (DRC_CH_IRQ_STATUS c) 0 else s1

/-- An access of a running command stops: the first stop of the command stands. -/
def State.trip (s : State) (t : Trip) : State :=
  match s.drc.trip with
  | none => { s with drc := { s.drc with trip := some t } }
  | some _ => s

/-! ## Channels (R424, R431, R437) -/

def dramChan (s : State) (c : Nat) : DramChan := tabGet (fun _ => DramChan.idle) s.drc.chans c

def putDramChan (c : Nat) (ch : DramChan) (s : State) : State :=
  { s with drc := { s.drc with chans := tabSet (fun _ => DramChan.idle) s.drc.chans c ch } }

/-- Replace a channel's queues, whose occupancies DRCc_STATUS shows (R431, R452). -/
def setDramChan (c : Nat) (ch : DramChan) (s : State) : State :=
  (((putDramChan c ch s).wr (DRC_CH_STATUS c) DRC_CH_STATUS.RQ ch.rq.length).wr
    (DRC_CH_STATUS c) DRC_CH_STATUS.WQ ch.wq.length).wr (DRC_CH_STATUS c) DRC_CH_STATUS.DRAIN ch.drain.toNat

/-- The row of a physical address: every field above the channel bits lies 5 - C lower, and the row a further 1 - K
(R424). -/
def rowOf (s : State) (a : Nat) : Nat :=
  a / 2 ^ (21 - (5 - variantChanBits s.fuse.variant) - (2 - numRanks s)) % 2 ^ 16

/-- The column burst of a physical address (R424). -/
def columnOf (s : State) (a : Nat) : Nat := a / 2 ^ (15 - (5 - variantChanBits s.fuse.variant)) % 32

/-- The rank of a physical address (R424). -/
def rankOf (s : State) (a : Nat) : Nat :=
  if numRanks s = 2 then a / 2 ^ (20 - (5 - variantChanBits s.fuse.variant)) % 2 else 0

/-- Bank group and bank of a physical address: each bit the XOR of the address bits its mask selects (R424, R425). -/
def bankOf (s : State) (a : Nat) : Nat :=
  let bit := fun (m i : Nat) => 2 ^ i * parity 31 (Nat.land (a / 64) (s.reg m).toNat)
  (bit (DRC_MAP_BG 0) 0 + bit (DRC_MAP_BG 1) 1) * 4 + bit (DRC_MAP_BA 0) 0 + bit (DRC_MAP_BA 1) 1

/-- One word of the command history in the layout of DRCc_CLIFF_CMDj: ACT carries the row, RD and WR the column burst
(R437, R424). -/
def cmdWord (s : State) (cmd port burst : Nat) : Word :=
  let a := burst * 64
  let rowCol := if cmd = 1 then rowOf s a else if cmd = 2 ∨ cmd = 3 then columnOf s a else 0
  BitVec.ofNat 32 (cmd + rankOf s a * 16 + bankOf s a * 32 + rowCol * 2 ^ 9 + port * 2 ^ 26)

/-- Put a command into the history, the newest first, 16 in all. -/
def noteCmd (w : Word) (ch : DramChan) : DramChan := { ch with hist := (w :: ch.hist).take 16 }

/-- The channel of a burst issues command `cmd` for it. -/
def noteBurst (cmd port burst : Nat) (s : State) : State :=
  let c := chanOf s (burst * 64)
  putDramChan c (noteCmd (cmdWord s cmd port burst) (dramChan s c)) s

/-! ## One burst (R421 to R426, R431 to R439) -/

/-- The split of `n` bytes from `a` at 64-byte burst boundaries, with `fuel` bursts. -/
def bursts : Nat → Nat → Nat → List (Nat × Nat)
  | 0, _, _ => []
  | fuel + 1, a, n =>
    if n = 0 then []
    else
      let k := min n (64 - a % 64)
      (a, k) :: bursts fuel (a + k) (n - k)

/-- The bursts of an access of `n` bytes at `a`. -/
def burstsOf (a n : Nat) : List (Nat × Nat) := bursts (n / 64 + 2) a n

/-- The check burst of the granule that holds engine address `a` of protected window `w` (R422). -/
def checkBurst (s : State) (w a : Nat) : Nat := checkPhys (winPhys s w) (a - winBase s w) / 64

/-- The request a port makes for bytes of one burst, at engine address `a` of window `w`. -/
def requestAt (s : State) (port w a : Nat) (isRead : Bool) (len : Nat) (data : List Byte) : DramReq :=
  { port := port, burst := physOf s w a / 64, isRead := isRead, urg := 0, seq := 0, since := s.cyc, eng := a, len := len
    data := data, chk := if winProt s w then some (checkBurst s w a) else none, unit := true }

/-- The physical address of the first byte a request means; windows start on bursts. -/
def reqPhys (r : DramReq) : Nat := r.burst * 64 + r.eng % 64

/-- The channel a request goes to: that of its data (R425). -/
def reqChan (s : State) (r : DramReq) : Nat := chanOf s (r.burst * 64)

/-- The channels a request uses: that of its data and, in a protected window, that of its check burst (R425). -/
def reqChans (s : State) (r : DramReq) : List Nat :=
  reqChan s r :: (match r.chk with | none => [] | some b => [chanOf s (b * 64)])

/-- The channel's commands for a request: its data burst, then its check burst (R437). -/
def noteAccess (r : DramReq) (s : State) : State :=
  let cmd := if r.isRead then 2 else 3
  let t := noteBurst cmd r.port r.burst s
  match r.chk with
  | none => t
  | some b => noteBurst cmd r.port b t

/-- Check the words of a protected burst that hold bytes `p` to `p + n - 1`: the first uncorrectable one, if any (R426). -/
def checkWords (s : State) (c p n : Nat) : Option Nat × State :=
  (List.range ((p % 4 + n + 3) / 4)).foldl (fun (acc : Option Nat × State) i =>
    let k := p / 4 + i
    match tabGet (fun _ => 0) acc.2.drc.err k with
    | 0 => acc
    | 1 => (acc.1, correctedWord acc.2 c)
    | _ => (acc.1.orElse (fun _ => some k), acc.2)) (none, s)

/-- Bytes from physical address `p` with the data of a queued write laid over them (R432). -/
def overlay (p : Nat) (bs : List Byte) (w : DramReq) : List Byte :=
  bs.zipIdx.map (fun e =>
    if reqPhys w ≤ p + e.2 ∧ p + e.2 < reqPhys w + w.data.length then w.data.getD (p + e.2 - reqPhys w) e.1 else e.1)

/-- Two requests of one port to one burst (R432). -/
def sameBurst (a b : DramReq) : Bool := a.port == b.port && a.burst == b.burst

/-- A read is served: its bytes, those of its port's older queued writes to the burst among them, and its first
uncorrectable word (R426, R432). -/
def serveRead (r : DramReq) (s : State) : List Byte × Option Nat × State :=
  let p := reqPhys r
  let chk := if r.chk.isSome then checkWords s (reqChan s r) p r.len else (none, s)
  (((dramChan s (reqChan s r)).wq.filter (fun q => sameBurst r q && (r.unit || decide (q.seq < r.seq)))).foldl (overlay p) (tabGetRange dramDefault s.drc.dram p r.len),
    chk.1, noteAccess r chk.2)

/-- The words a write replaces in part (R422). -/
def partWords (p n : Nat) : List Nat :=
  if p % 4 = 0 then (if n % 4 = 0 then [] else [(p + n) / 4])
  else if (p + n) % 4 = 0 ∨ (p + n) / 4 = p / 4 then [p / 4] else [p / 4, (p + n) / 4]

/-- The words a write replaces in part are read, and corrected where they can be: the first that cannot (R422, R426). -/
def checkParts (c : Nat) (parts : List Nat) (s : State) : Option Nat × State :=
  parts.foldl (fun (acc : Option Nat × State) k =>
    let chk := checkWords acc.2 c (4 * k) 4
    (acc.1.orElse (fun _ => chk.1), chk.2)) (none, s)

/-- A write is served. In a protected window the words it replaces in part are read, corrected and rewritten: the answer is
the first of them that is uncorrectable, and nothing is then written unless the request has been released, when the word
keeps its error (R422, R426; assumption 104). -/
def serveWrite (released : Bool) (r : DramReq) (s : State) : Option Nat × State :=
  let c := reqChan s r
  let p := reqPhys r
  let n := r.data.length
  match r.chk with
  | none => (none, noteAccess r { s with drc := { s.drc with dram := tabSetRange dramDefault s.drc.dram p r.data } })
  | some _ =>
    let parts := partWords p n
    let s0 := if parts.isEmpty then s else noteAccess { r with isRead := true } s
    let chk := checkParts c parts s0
    if chk.1.isSome && !released then chk
    else
      let inj := chk.2.takeInjection (DRC_CH_FAULT_STATUS c) [3]
      let s2 := inj.2
      let mark : Nat := match inj.1 with | none => 0 | some false => 1 | some true => 2
      let words := (List.range ((p % 4 + n + 3) / 4)).map (fun i => p / 4 + i)
      let err := words.foldl (fun t k =>
        if parts.contains k && tabGet (fun _ => 0) t k == 2 then t else tabSet (fun _ => 0) t k mark) s2.drc.err
      (none, noteAccess r { s2 with drc := { s2.drc with dram := tabSetRange dramDefault s2.drc.dram p r.data, err := err } })

/-- The checks of a request on its way through channel `c`: of its `n` words as they arrive on the fabric path, which are
used as they are (assumption 25), and of its queue word as it is issued: whether that one is uncorrectable (R452, R541). -/
def issueCheck (c n : Nat) (s : State) : Bool × State :=
  (s.fabricCheck (DRC_CH_FAULT_STATUS c) n).2.sramCheck (DRC_CH_FAULT_STATUS c) 1 [0, 1]

/-- `issueCheck`, which an access that a release has handed back has passed before (R439). -/
def requestCheck (back : Option Nat) (c n : Nat) (s : State) : Bool × State :=
  if back.isSome then (false, s) else issueCheck c n s

/-- The state code of channel `c` (R452). -/
def chanState (s : State) (c : Nat) : Nat := s.rd (DRC_CH_STATUS c) DRC_CH_STATUS.STATE

/-- The request finds its queue full, or an older one of its port to its burst that must go first (R431, R432). -/
def queueWaits (ch : DramChan) (r : DramReq) : Bool :=
  if r.isRead then decide (64 ≤ ch.rq.length) else decide (64 ≤ ch.wq.length) || (ch.rq ++ ch.wq).any (sameBurst r)

/-- What stops a unit's access through window `w` now, if anything: a frozen channel, a window still being zeroed, a queue,
a channel in self-refresh, which exits for it, or one to be retrained first (R421, R431 to R438). -/
def accessStop (s : State) (w : Nat) (r : DramReq) : Option Trip :=
  let cs := reqChans s r
  if cs.any (chanFrozen s) || s.drc.zeroing.contains w || queueWaits (dramChan s (reqChan s r)) r then some .wait
  else match cs.find? (fun c => chanState s c == 2) with
    | some c => some (.exit c)
    | none => if cs.any (fun c => chanState s c == 3) then some .wait else none

/-- A release has handed the access back: its cause, and the access is handed back once (R439). -/
def takeBack (r : DramReq) (s : State) : Option Nat × State :=
  match s.drc.returned.find? (fun b => b.port == r.port && b.burst == r.burst && b.isRead == r.isRead) with
  | none => (none, s)
  | some b => (some b.cause, { s with drc := { s.drc with returned := s.drc.returned.erase b } })

/-- The uncorrectable response to a read that reaches no memory: it is recorded, and the spec states no data for it
(R423; assumption 78). -/
def deadRead (s : State) (a n : Nat) : List Byte × Bool × State :=
  let (bs, t) := freshBytes n (unmapped s a)
  (bs, true, t)

/-- A request reaches no memory: its burst, or its check burst, maps to a channel whose group is off (R423). -/
def reqDead (s : State) (r : DramReq) : Bool := (reqChans s r).any (fun c => !chanOn s c)

/-- Port `port` reads one burst: its bytes, whether the response is uncorrectable, and the state (R421, R423, R426, R436,
R439). -/
def dramRdBurst (port : Nat) (s : State) (a n : Nat) : List Byte × Bool × State :=
  match winFor s a with
  | none => deadRead s a n
  | some w =>
    let r := requestAt s port w a true n []
    if reqDead s r then deadRead s a n
    else match accessStop s w r with
    | some t => (List.replicate n 0, true, s.trip t)
    | none =>
      let back := takeBack r s
      let chk := requestCheck back.1 (reqChan s r) 1 back.2
      if chk.1 then (List.replicate n 0, true, chk.2.trip (.freeze (reqChan s r) 2 (reqPhys r) r))
      else
        let got := serveRead r chk.2
        match got.2.1 with
        | none => (got.1, back.1.isSome, got.2.2)
        | some k => (got.1, true, if back.1.isSome then got.2.2 else got.2.2.trip (.freeze (reqChan s r) 1 (4 * k) r))

/-- Port `port` writes one burst (R421 to R423, R436, R439). -/
def dramWrBurst (port : Nat) (s : State) (a : Nat) (bs : List Byte) : State :=
  match winFor s a with
  | none => unmapped s a
  | some w =>
    let r := requestAt s port w a false bs.length bs
    if reqDead s r then unmapped s a
    else match accessStop s w r with
    | some t => s.trip t
    | none =>
      let back := takeBack r s
      let chk := requestCheck back.1 (reqChan s r) ((bs.length + 3) / 4) back.2
      if back.1 = some 2 then back.2
      else if chk.1 then chk.2.trip (.freeze (reqChan s r) 2 (reqPhys r) r)
      else
        let put := serveWrite back.1.isSome r chk.2
        match put.1 with
        | none => put.2
        | some k => put.2.trip (.freeze (reqChan s r) 1 (4 * k) r)

/-- Port `port` reads `n` bytes at engine address `a`. -/
def dramRd (port : Nat) (s : State) (a n : Nat) : List Byte × Bool × State :=
  (burstsOf a n).foldl (fun (acc : List Byte × Bool × State) b =>
    let (bs, bad, t) := dramRdBurst port acc.2.2 b.1 b.2
    (acc.1 ++ bs, acc.2.1 || bad, t)) ([], false, s)

/-- Port `port` writes bytes at engine address `a`. -/
def dramWr (port : Nat) (s : State) (a : Nat) (bs : List Byte) : State :=
  (burstsOf a bs.length).foldl (fun t b => dramWrBurst port t b.1 ((bs.drop (b.1 - a)).take b.2)) s

/-- Port `port` reads `n` words at engine address `a`. -/
def dramRdWords (port : Nat) (s : State) (a n : Nat) : List Word × Bool × State :=
  let (bs, bad, t) := dramRd port s a (4 * n)
  (bytesWords bs, bad, t)

/-- A block reads `n` bytes through its port: the words that arrive are checked on its fabric path, and an uncorrectable one
is an uncorrectable data error (R473, R541). -/
def dramRdFor (fs port : Nat) (s : State) (a n : Nat) : List Byte × Bool × State :=
  let (bs, bad, t) := dramRd port s a n
  let (lost, u) := t.fabricCheck fs ((n + 3) / 4)
  (bs, bad || lost, u)

/-- `dramRdFor` for `n` words. -/
def dramRdWordsFor (fs port : Nat) (s : State) (a n : Nat) : List Word × Bool × State :=
  let (bs, bad, t) := dramRdFor fs port s a (4 * n)
  (bytesWords bs, bad, t)

/-- Port `port` writes words at engine address `a`. -/
def dramWrWords (port : Nat) (s : State) (a : Nat) (ws : List Word) : State := dramWr port s a (wordsBytes ws)

/-- The word at engine address `a` holds an error that reading it corrects (R426). -/
def dramSingle (s : State) (a : Nat) : Bool :=
  match winFor s a with
  | none => false
  | some w => winProt s w && tabGet (fun _ => 0) s.drc.err (physOf s w a / 4) == 1

/-! ## The requesters' ports (R429)

The slices' ports are numbered as the slices are. -/

def encPort (n : Nat) : Nat := 9 + n
/-- Output pipe 0: which pipe fetches for which layer or table is not stated (assumption 104). -/
def cmpPort : Nat := 11
def wbPort : Nat := 27
def lampPort : Nat := 28
def samplePort : Nat := 29
def ledgerPort : Nat := 30
def ingressPort (p : Nat) : Nat := 31 + p
def capturePort : Nat := 33
def previewPort : Nat := 34
def hsqPort : Nat := 35
def bpmPort : Nat := 36
def dmaPort : Nat := 37
/-- No port is listed for a lane's payload reads: the lanes read through the port of the block whose stream they carry
(assumption 104). -/
def lanePort : Nat := 28

/-! ## Freezing a channel -/

/-- The write-back picture in progress becomes ABANDONED, and the tap writes nothing more for the frame (R233, R237). -/
def wbAbandon (s : State) : State :=
  match s.cmp.wb.cur with
  | none => s
  | some p =>
    let s1 := s.wr (DS_PPT p.entry 2) ⟨0, 3⟩ 3
    { s1 with cmp := { s1.cmp with wb := { s1.cmp.wb with cur := none } } }

/-- The loads of conversion sets still outstanding are discarded (R233, assumption 128). -/
def dropLoads (t : Tab XferSt) : Tab XferSt :=
  (t.map (fun e => (e.1, { e.2 with loading := none }))).filter (fun e => e.2 != ⟨none, none, none⟩)

/-- The frame in progress ends: no further line is composed, the reads outstanding are discarded, and the rows of tiles
that fill no PIXEL frame are dropped (R233). -/
def stopFrame (s : State) : State :=
  let c := { s.cmp with scan := ⟨false, 0, false, []⟩, xfer := dropLoads s.cmp.xfer,
                        hold := s.cmp.hold.filter (fun r => decide (r.kind ≠ .alloc)) }
  { s with cmp := c, lmp := { s.lmp with pix := [], exh := [], exhDue := false, tested := [] }, ldg := { s.ldg with sample := none } }

/-- The compositor enters HOLD (R233, R234). -/
def enterHold (s : State) : State :=
  if s.flag CMP_STATUS CMP_STATUS.IN_HOLD || !s.domOn 26 then s
  else stopFrame (wbAbandon ((s.wr CMP_STATUS CMP_STATUS.IN_HOLD 1).setBit CMP_IRQ_STATUS 4))

/-- Channel `c` freezes: it stops issuing, and its cliff record is captured (R436, R437). -/
def freezeChannel (s : State) (c cause phys eng syn : Nat) : State :=
  let ch := dramChan s c
  let s1 := ((s.wr (DRC_CH_FREEZE c) DRC_CH_FREEZE.FROZEN 1).wr (DRC_CH_FREEZE c) DRC_CH_FREEZE.CAUSE cause).incSat
    (DRC_CH_FREEZE c) DRC_CH_FREEZE.COUNT
  let s2 := s1.setReg DRC_FROZEN (BitVec.ofNat 32 (Nat.lor (s1.raw DRC_FROZEN).toNat (2 ^ c)))
  let s3 := (s2.wr (DRC_CH_STATUS c) DRC_CH_STATUS.STATE 4).setBit (DRC_CH_IRQ_STATUS c) 3
  let s4 := s3.setFault (DRC_CH_FAULT_STATUS c) (if cause = 1 then 1 else 3)
  let s5 := (List.range 16).foldl (fun t j => t.setReg (DRC_CLIFF_CMD c j) (ch.hist.getD j 0)) s4
  let s6 := (s5.setReg64 (DRC_CLIFF_PHYS_LO c) (DRC_CLIFF_PHYS_HI c) phys).setReg64
    (DRC_CLIFF_ENG_LO c) (DRC_CLIFF_ENG_HI c) eng
  let s7 := s6.setReg (DRC_CLIFF_SYN c) (BitVec.ofNat 32 (syn % 128 + phys / 4 % 16 * 256))
  let s8 := s7.setReg (DRC_CLIFF_QUEUES c) (BitVec.ofNat 32 (ch.rq.length + ch.wq.length * 2 ^ 16))
  enterHold (s8.setReg (DRC_CLIFF_FRAME c) (BitVec.ofNat 32 (s8.rd CMP_STATUS ⟨0, 24⟩)))

/-- Channel `c` holds a request at the head of its queue (R436). -/
def holdRequest (c : Nat) (r : DramReq) (s : State) : State :=
  let ch := dramChan s c
  let r1 := { r with seq := ch.seq }
  let t := setDramChan c (if r.isRead then { ch with rq := r1 :: ch.rq, seq := ch.seq + 1 }
    else { ch with wq := r1 :: ch.wq, seq := ch.seq + 1 }) s
  { t with drc := { t.drc with held := tabSet (fun _ => 0) t.drc.held c (ch.seq + 1) } }

/-- Channel `c` freezes on request `r`, which it holds; the failing byte of its burst is at physical address `phys`
(R436). -/
def freezeOn (c cause phys syn : Nat) (r : DramReq) (s : State) : State :=
  freezeChannel (holdRequest c r s) c cause phys (r.eng / 64 * 64 + phys % 64) syn

/-- A channel leaves self-refresh for a request, to be retrained before it serves it (R433, R435). -/
def leaveSelfRefresh (c : Nat) (s : State) : State :=
  (putDramChan c (noteCmd 9 (dramChan s c)) s).wr (DRC_CH_STATUS c) DRC_CH_STATUS.STATE 3

/-- The one way a meaning ends. A command that met a channel that does not serve it waits: nothing of it takes place, and a
channel in self-refresh exits for it. One whose access met a check error freezes the channel and waits behind it (R433,
R436, R438; assumption 23). Blocks then announce the conditions that changed (R459). -/
def done (s t : State) : Out :=
  match t.drc.trip with
  | none => .next t.irqSync
  | some .wait => .next s.irqSync
  | some (.exit c) => .next (leaveSelfRefresh c s).irqSync
  | some (.freeze c cause p r) =>
    let s0 := if cause = 2 then (s.sramCheck (DRC_CH_FAULT_STATUS c) 1 [0, 1]).2 else s
    let (syn, s1) := s0.fresh
    .next (freezeOn c cause p syn.toNat r s1).irqSync

/-! ## The shared scratchpad -/

/-- One scratchpad word (assumption 8 for a word nothing has written). -/
def spdGet (s : State) (k : Nat) : Word := tabGet (fun _ => 0) s.spd.mem (k % 2 ^ 20)

/-- Replace one whole scratchpad word, which clears an error in it (R445). -/
def spdPut (s : State) (k : Nat) (w : Word) : State :=
  { s with spd := { s.spd with mem := tabSet (fun _ => 0) s.spd.mem (k % 2 ^ 20) w,
                               err := s.spd.err.filter (fun x => x != k % 2 ^ 20) } }

/-- Record an uncorrectable scratchpad word (R445). -/
def spdBad (s : State) (k : Nat) : State :=
  (s.setFault SPD_FAULT_STATUS 1).setReg SPD_FAULT_ADDR (BitVec.ofNat 32 (4 * (k % 2 ^ 20)))

/-- The check of scratchpad word `k` as it is read (R440, R445): uncorrectable, or not, by the word's own error or by an
injected one (R473, R541). -/
def spdCheck (s : State) (k : Nat) : Bool × State :=
  let bad := s.spd.err.contains (k % 2 ^ 20)
  let (lost, t) := s.sramCheck SPD_FAULT_STATUS 1
  (bad || lost, t)

/-- A word with its enabled bytes replaced (R43). -/
def mergeBytes (be : BitVec 4) (old new : Word) : Word :=
  let pick := fun (i : Nat) => if be.toNat.testBit i then bitsOf (8 * i + 7) (8 * i) new else bitsOf (8 * i + 7) (8 * i) old
  BitVec.ofNat 32 (pick 0 + pick 1 * 2 ^ 8 + pick 2 * 2 ^ 16 + pick 3 * 2 ^ 24)

/-- Data with the bytes whose enable is clear taken as zero (R43). -/
def maskBytes (be : BitVec 4) (data : Word) : Word := mergeBytes be 0 data

/-- Perform one scratchpad write of word `k` (R43, R442, R445): a plain write of some bytes of an uncorrectable word
leaves it uncorrectable, an alias write to one is not performed. -/
def spdPerform (s : State) (k : Nat) (kind : SpdKind) (data : Word) (be : BitVec 4) : State :=
  let old := spdGet s k
  let chk := spdCheck s k
  match kind with
  | .read => s
  | .write =>
    if be.toNat = 15 then spdPut s k data
    else if s.spd.err.contains (k % 2 ^ 20) then
      let s1 := spdPut s k (mergeBytes be old data)
      { s1 with spd := { s1.spd with err := s.spd.err } }
    else spdPut s k (mergeBytes be old data)
  | .set => if chk.1 then spdBad chk.2 k else spdPut chk.2 k (old ||| maskBytes be data)
  | .clear => if chk.1 then spdBad chk.2 k else spdPut chk.2 k (old &&& ~~~ (maskBytes be data))

/-- Read one scratchpad word through an engine port: an uncorrectable word is returned as it is and recorded (R445). -/
def spdRead (s : State) (k : Nat) : Word × Bool × State :=
  let chk := spdCheck s k
  (spdGet s k, chk.1, if chk.1 then spdBad chk.2 k else chk.2)

/-! ## Host memory -/

/-- The engine writes host memory, with or without Relaxed Ordering (R36, R49, R404, R461). -/
def hostMemPut (s : State) (relaxed : Bool) (a : Nat) (bs : List Byte) : State :=
  { s with host := { s.host with mem := tabSetRange (fun _ => 0) s.host.mem a bs, relaxed := relaxed } }

/-- A completion entry or an MSI-X write: Relaxed Ordering is never set (R36, R49). -/
def hostMemWr (s : State) (a : Nat) (bs : List Byte) : State := hostMemPut s false a bs

/-- A bulk data write: Relaxed Ordering as the host enables it (R36). -/
def hostMemBulk (s : State) (a : Nat) (bs : List Byte) : State := hostMemPut s s.pcie.relaxed a bs

/-! ## The fabric (R20) -/

/-- The fabric target arbiter: of the requests (requester, urgency) that wait for one target the most urgent is granted,
and of equals that of the first requester after the last one granted. -/
def fabricPick (last : Nat) (reqs : List (Nat × Nat)) : Option (Nat × Nat) :=
  let top := reqs.foldl (fun m r => max m r.2) 0
  let best := reqs.filter (fun r => r.2 == top)
  (List.range 64).findSome? (fun i => best.find? (fun r => r.1 == (last + 1 + i) % 64))

/-! ## The secure scratchpad -/

def secGet (s : State) (k : Nat) : Word := tabGet (fun _ => 0) s.sec.mem (k % 2 ^ 14)

def secPut (s : State) (k : Nat) (w : Word) : State :=
  { s with sec := { s.sec with mem := tabSet (fun _ => 0) s.sec.mem (k % 2 ^ 14) w } }

end Sys2Proof.Machine
end

