-- ==== Sys2Proof/Machine/Operands.lean ====
section
/-!
DEFINITION. The operands of jobs: status codes (R69, R70), the common header of a submission entry (R45, R46), handles
(R390), and the results of a job in its completion record.
-/
namespace Sys2Proof.Machine

/-! ## Status codes (R69, R70 and the owning chapters) -/

def stOk : Nat := 0x00
def stAborted : Nat := 0x01
def stAbortLate : Nat := 0x02
def stMisalign : Nat := 0x10
def stOverlap : Nat := 0x11
def stNotOwner : Nat := 0x20
def stDoubleFree : Nat := 0x21
def stPoolEmpty : Nat := 0x22
def stStaleHandle : Nat := 0x23
def stBusy : Nat := 0x30
def stConcealed : Nat := 0x40
def stRefMissing : Nat := 0x41
def stStreamError : Nat := 0x42
def stLevelExceeded : Nat := 0x43
def stLinkDown : Nat := 0x50
def stGuardMismatch : Nat := 0x51
def stLedgerIo : Nat := 0x60
def stInternal : Nat := 0xFF

/-! ## The job header (R45, R46) -/

def Job.w (j : Job) (i : Nat) : Word := wordAt j.words i
def Job.opcode (j : Job) : Nat := bitsOf 7 0 (j.w 0)
def Job.flags (j : Job) : Nat := bitsOf 15 8 (j.w 0)
def Job.tag (j : Job) : Nat := bitsOf 31 16 (j.w 0)
def Job.context (j : Job) : Nat := bitsOf 15 0 (j.w 1)
def Job.quiet (j : Job) : Bool := bitAt 8 (j.w 0)
def Job.afterPrev (j : Job) : Bool := bitAt 9 (j.w 0)

/-- The job opcodes (R54). -/
def opStreamOpen : Nat := 0x01
def opStreamClose : Nat := 0x02
def opDecodeUnit : Nat := 0x03
def opEncodePicture : Nat := 0x08
def opLayerUpdate : Nat := 0x10
def opTilemapUpdate : Nat := 0x11
def opLedgerOp : Nat := 0x18
def opDmaList : Nat := 0x20
def opBufferOp : Nat := 0x21
def opLinkSend : Nat := 0x28
def opMicrocodeLoad : Nat := 0x30
def opFence : Nat := 0x3E
def opAbort : Nat := 0x3F

/-- The entry of the tag table at `slot`. -/
def State.job (s : State) (slot : Nat) : Job := tabGet (fun _ => Job.empty) s.hq.jobs slot

/-- Replace a tag-table entry. -/
def State.setJob (s : State) (slot : Nat) (j : Job) : State :=
  { s with hq := { s.hq with jobs := tabSet (fun _ => Job.empty) s.hq.jobs slot j } }

/-- A job of the same submission ring, OPCODE and CONTEXT fetched before `j` is RUNNING and has not taken effect yet
(R53). A damaged one bars no other job (R66, assumption 109). -/
def State.barred (s : State) (j : Job) : Bool :=
  s.hq.jobs.any (fun e => e.2.sq == j.sq && decide (e.2.seq < j.seq) && e.2.opcode == j.opcode
    && e.2.context == j.context && decide (e.2.st = .running) && !e.2.begun && !e.2.stop && !e.2.record && !e.2.damaged)

/-- The job at `slot` is RUNNING with opcode `op`, not yet begun by its row, not stopped, and next to take effect of the
jobs R53 orders. -/
def State.startable (s : State) (slot op : Nat) : Bool :=
  let j := s.job slot
  decide (j.st = .running) && j.opcode == op && !j.begun && !j.stop && !j.record && !s.barred j

/-- How units name the job now at `slot`. -/
def State.jobRef (s : State) (slot : Nat) : JobRef := ⟨slot, (s.job slot).seq⟩

/-- The job a unit works on is still in the tag table, RUNNING, and its record is wanted. -/
def State.jobLive (s : State) (r : JobRef) : Bool :=
  let j := s.job r.slot
  decide (j.st = .running) && j.seq == r.seq && !j.stop && !j.record

/-- A unit presents a job's completion record: its status and result words 2 to 6 (R50). The record of a job that an
ABORT has reached, or a reset has taken from the tag table, is discarded (R61, R39). -/
def presentRef (r : JobRef) (status : Nat) (results : List Word) (s : State) : State :=
  if s.jobLive r && decide (1024 ≤ r.slot) then s.setJob r.slot Job.empty
  else if s.jobLive r then
    s.setJob r.slot { s.job r.slot with record := true, begun := true, status := status, results := results }
  else s

/-- The record of the job now at `slot`. -/
def present (slot status : Nat) (results : List Word) (s : State) : State :=
  presentRef (s.jobRef slot) status results s

/-- The row that carries out a job has taken it up. -/
def beginJob (slot : Nat) (s : State) : State := s.setJob slot { s.job slot with begun := true }

/-- A job completes with a status and no result words. -/
def fail (slot status : Nat) (s : State) : State := present slot status [] s

/-! ## Handles (R390) -/

def hPool (h : Word) : Nat := bitsOf 31 28 h
def hGen (h : Word) : Nat := bitsOf 27 20 h
def hIndex (h : Word) : Nat := bitsOf 19 0 h
def mkHandle (pool gen index : Nat) : Word := BitVec.ofNat 32 (pool * 2 ^ 28 + gen % 256 * 2 ^ 20 + index % 2 ^ 20)

end Sys2Proof.Machine
end

