-- ==== Sys2Proof/Machine/Pool.lean ====
section
/-!
DEFINITION. The buffer pool manager's operations on its pools and the Buffer State Table (R383 to R398), as any requester
reaches them.
-/
namespace Sys2Proof.Machine

/-- Buffer size of a pool (R383). -/
def poolSize (p : Nat) : Nat :=
  match p with
  | 0 => 256 | 1 => 4096 | 2 => 65536 | 3 => 1048576 | 4 => 4194304 | 5 => 16777216 | 6 => 67108864 | 7 => 268435456
  | _ => 0

def poolEn (s : State) (p : Nat) : Bool := decide (p < 8) && bitAt 31 (s.raw (BPM_POOL_CFG p))
def poolReady (s : State) (p : Nat) : Bool := poolEn s p && bitAt 21 (s.raw (BPM_POOL_STATUS p))
def poolCount (s : State) (p : Nat) : Nat := bitsOf 20 0 (s.raw (BPM_POOL_CFG p))
def poolFirst (s : State) (p : Nat) : Nat := bitsOf 19 0 (s.raw (BPM_POOL_BST p))
def poolBase (s : State) (p : Nat) : Nat :=
  bitsOf 31 12 (s.raw (BPM_POOL_BASE_LO p)) * 4096 + (s.raw (BPM_POOL_BASE_HI p)).toNat * 2 ^ 32
def poolRing (s : State) (p : Nat) : Nat :=
  bitsOf 31 12 (s.raw (BPM_POOL_RING_LO p)) * 4096 + (s.raw (BPM_POOL_RING_HI p)).toNat * 2 ^ 32

def poolCache (s : State) (p : Nat) : List Nat := tabGet (fun _ => []) s.bpm.cache p
def poolRingLen (s : State) (p : Nat) : Nat := tabGet (fun _ => 0) s.bpm.ringLen p
def poolRingHead (s : State) (p : Nat) : Nat := tabGet (fun _ => 0) s.bpm.ringHead p

/-- The free count of R387. -/
def poolFree (s : State) (p : Nat) : Nat := (poolCache s p).length + poolRingLen s p

def setCache (s : State) (p : Nat) (c : List Nat) : State :=
  { s with bpm := { s.bpm with cache := tabSet (fun _ => []) s.bpm.cache p c } }

def setRing (s : State) (p head len : Nat) : State :=
  { s with bpm := { s.bpm with ringHead := tabSet (fun _ => 0) s.bpm.ringHead p head,
                               ringLen := tabSet (fun _ => 0) s.bpm.ringLen p len } }

/-- LOW sets while FREE is below LOW_TIDE (R389). -/
def poolLow (s : State) (p : Nat) : State :=
  if poolFree s p < bitsOf 20 0 (s.raw (BPM_POOL_TIDE p)) then s.setBit (BPM_POOL_IRQ_STATUS p) 0 else s

/-- After FREE changed: MIN_FREE and LOW (R389, R414). -/
def poolFreeChanged (s : State) (p : Nat) : State :=
  let m := s.rd (BPM_POOL_MIN_FREE p) BPM_POOL_MIN_FREE.MIN_FREE
  poolLow (s.wr (BPM_POOL_MIN_FREE p) BPM_POOL_MIN_FREE.MIN_FREE (min m (poolFree s p))) p

/-! ## The Buffer State Table (R391) -/

def bstGet (s : State) (e : Nat) : Word := tabGet (fun _ => 0) s.bpm.bst e

def bstPut (s : State) (e : Nat) (w : Word) : State :=
  { s with bpm := { s.bpm with bst := tabSet (fun _ => 0) s.bpm.bst e w } }

def bAlloc (w : Word) : Bool := bitAt 0 w
def bShare (w : Word) : Bool := bitAt 1 w
def bOwner (w : Word) : Nat := bitsOf 7 2 w
def bRefs (w : Word) : Nat := bitsOf 17 8 w
def bGen (w : Word) : Nat := bitsOf 25 18 w

/-- A table entry from its fields. -/
def mkEntry (alloc share : Bool) (owner refs gen pool : Nat) : Word :=
  BitVec.ofNat 32 (alloc.toNat + share.toNat * 2 + owner % 64 * 4 + refs % 1024 * 2 ^ 8 + gen % 256 * 2 ^ 18
    + pool % 8 * 2 ^ 26)

/-- How a handle compares with its entry (R393). -/
inductive HClass where
  | current | freed | stale
  deriving DecidableEq, Repr

/-- The table entry a handle names, when its POOL and INDEX are in range and it is not withdrawn (R385, R393, R414). -/
def handleEntry (s : State) (h : Word) : Option Nat :=
  let p := hPool h
  let e := poolFirst s p + hIndex h
  if poolReady s p && decide (hIndex h < poolCount s p) && !s.bpm.withdrawn.contains e then some e else none

/-- Classify a handle (R393). -/
def classify (s : State) (h : Word) : HClass :=
  match handleEntry s h with
  | none => .stale
  | some e =>
    let w := bstGet s e
    if bGen w = hGen h then (if bAlloc w then .current else .freed) else .stale

/-- A handle is current. -/
def isCurrent (s : State) (h : Word) : Bool := classify s h == .current

/-- The engine address of a buffer (R384). -/
def bufAddr (s : State) (h : Word) : Nat := poolBase s (hPool h) + hIndex h * poolSize (hPool h)

/-- A requester may RETAIN or RELEASE a current handle: SHARE = 1, or it is the owner (R394). -/
def mayHold (s : State) (req : Nat) (h : Word) : Bool :=
  match handleEntry s h with
  | none => false
  | some e => bShare (bstGet s e) || bOwner (bstGet s e) == req

/-- Record a misuse (R398); `op` is 1 RETAIN, 2 RELEASE, 3 FREE. -/
def misuse (s : State) (req op code : Nat) (h : Word) : State :=
  let recPool := let p := hPool (s.raw BPM_MISUSE_HANDLE); if p < 8 then p else 0
  let ovr := bitAt 2 (s.raw (BPM_POOL_IRQ_STATUS recPool))
  let s1 := (s.inc BPM_MISUSE_COUNT BPM_MISUSE_COUNT.EVENTS).setReg BPM_MISUSE_HANDLE h
  let s2 := ((s1.wr BPM_MISUSE_INFO BPM_MISUSE_INFO.REQUESTER req).wr BPM_MISUSE_INFO BPM_MISUSE_INFO.OP op).wr
    BPM_MISUSE_INFO BPM_MISUSE_INFO.CODE code
  let s3 := if ovr then s2.wr BPM_MISUSE_INFO BPM_MISUSE_INFO.OVERRUN 1 else s2
  s3.setBit (BPM_POOL_IRQ_STATUS (if hPool h < 8 then hPool h else 0)) 2

/-- Withdraw a table entry after an uncorrectable error (R414): it leaves ALLOCATED if it was allocated, and the cache if
it was free; a free one in the ring is dropped as it is refilled. -/
def withdraw (s : State) (p e : Nat) : State :=
  let s1 := (s.setFault BPM_FAULT_STATUS 1).wr BPM_FAULT_POOL BPM_FAULT_POOL.POOL p
  let s2 := if bAlloc (bstGet s1 e)
    then s1.wr (BPM_POOL_ALLOCATED p) BPM_POOL_ALLOCATED.ALLOCATED
      (s1.rd (BPM_POOL_ALLOCATED p) BPM_POOL_ALLOCATED.ALLOCATED - 1) else s1
  let s3 := { s2 with bpm := { s2.bpm with withdrawn := e :: s2.bpm.withdrawn } }
  poolFreeChanged (setCache s3 p ((poolCache s3 p).filter (fun i => poolFirst s3 p + i != e))) p

/-- The check of a table entry an operation reads (R541): true where it is uncorrectable and the entry withdrawn. -/
def entryCheck (s : State) (p e : Nat) : Bool × State :=
  match s.sramCheck BPM_FAULT_STATUS 1 with
  | (false, s1) => (false, s1)
  | (true, s1) => (true, withdraw s1 p e)

/-! ## The free store (R387) -/

/-- The check of a cache entry as a grant takes it (R541, R414): true where it is uncorrectable and its handle
withdrawn. -/
def cacheCheck (s : State) (p e : Nat) : Bool × State :=
  match s.sramCheck BPM_FAULT_STATUS 1 [0, 1] with
  | (false, s1) => (false, s1)
  | (true, s1) => (true, withdraw s1 p e)

/-- The check of a ring word as it arrives (R414, R541): true where its handle is lost. A word that DRAM corrected sets
CORRECTED here too; one damaged on the fabric sets FABRIC. -/
def ringCheck (s : State) (p : Nat) (single bad : Bool) : Bool × State :=
  let s0 := if single then s.setFault BPM_FAULT_STATUS 0 else s
  if bad then (true, (s0.setFault BPM_FAULT_STATUS 1).wr BPM_FAULT_POOL BPM_FAULT_POOL.POOL p)
  else s0.fabricCheck BPM_FAULT_STATUS 1

/-- A handle lost in the ring leaves the free store: its entry is withdrawn (R414). -/
def withdrawLost (s : State) (e : Nat) : State := { s with bpm := { s.bpm with withdrawn := e :: s.bpm.withdrawn } }

/-- Read the `n` handles at the ring's head; a word that cannot be read is withdrawn with its handle, and a handle whose
entry is withdrawn is dropped (R414). -/
def ringRead (p : Nat) : Nat → State → List Nat × State
  | 0, s => ([], s)
  | n + 1, s =>
    if poolRingLen s p = 0 then ([], s)
    else
      let h := poolRingHead s p
      let single := dramSingle s (poolRing s p + 4 * h)
      let (ws, bad, s1) := dramRdWords bpmPort s (poolRing s p + 4 * h) 1
      let s2 := setRing s1 p ((h + 1) % max 1 (poolCount s p)) (poolRingLen s p - 1)
      let (lost, s3) := ringCheck s2 p single bad
      let i := bitsOf 19 0 (wordAt ws 0)
      let e := poolFirst s3 p + i
      let (xs, s4) := ringRead p n (if lost then withdrawLost s3 e else s3)
      (if s3.bpm.withdrawn.contains e || lost then xs else i :: xs, s4)

/-- Append handles at the ring's tail. -/
def ringAppend (p : Nat) : List Nat → State → State
  | [], s => s
  | x :: xs, s =>
    let t := (poolRingHead s p + poolRingLen s p) % max 1 (poolCount s p)
    ringAppend p xs (setRing (dramWrWords bpmPort s (poolRing s p + 4 * t) [BitVec.ofNat 32 x]) p (poolRingHead s p)
      (poolRingLen s p + 1))

/-- A refill: the 16 handles at the ring's head join the cache as its newest (R387). -/
def refill (s : State) (p : Nat) : State :=
  let (xs, s1) := ringRead p 16 s
  let s2 := setCache s1 p (poolCache s1 p ++ xs)
  if poolFree s2 p = poolFree s p then s2 else poolFreeChanged s2 p

/-- A write-back: the 16 newest handles of the cache, oldest first, go to the ring's tail (R387). -/
def writeBack (s : State) (p : Nat) : State :=
  let c := poolCache s p
  ringAppend p (c.drop (c.length - 16)) (setCache s p (c.take (c.length - 16)))

/-- Refill while the cache is empty and the ring is not, at most `n` times. -/
def refillMore (p : Nat) : Nat → State → State
  | 0, s => s
  | n + 1, s =>
    if (poolCache s p).isEmpty && decide (0 < poolRingLen s p) then refillMore p n (refill s p) else s

/-- A request to an empty cache waits for the refill (R388); handles dropped on the way make it wait for the next. -/
def ensureCache (s : State) (p : Nat) : State := refillMore p (poolRingLen s p / 16 + 1) s

/-! ## Operations (R394) -/

/-- A request of the compositor's hold queue waits at pool `p`'s arbiter, and is granted first (R20, R229). In HOLD none is
granted, and none bars another requester (R233, assumption 128). -/
def holdWaiting (s : State) (p : Nat) : Bool :=
  !s.flag CMP_STATUS CMP_STATUS.IN_HOLD && s.cmp.hold.any (fun r => r.pool == p)

/-- Note a round-robin grant (R20). -/
def noteGrant (s : State) (p req : Nat) : State :=
  { s with bpm := { s.bpm with rrLast := tabSet (fun _ => 0) s.bpm.rrLast p req } }

/-- Take a free handle of pool `p`: status and handle, or none when the pool has none (R394, R392). -/
def takeHandle (s : State) (p req : Nat) (share : Bool) : Option (Nat × Word) × State :=
  if !poolReady s p || poolFree s p = 0 then (none, s)
  else
    let s1 := ensureCache s p
    match poolCache s1 p with
    -- every handle of the refill it waited for was lost or had been withdrawn
    | [] => (if s.bpm.withdrawn.length < s1.bpm.withdrawn.length then some (stInternal, 0) else none, s1)
    | i :: rest =>
      let e := poolFirst s1 p + i
      let (lost, s2) := cacheCheck (setCache s1 p rest) p e
      let (bad, s3) := if lost then (true, s2) else entryCheck s2 p e
      if bad then (some (stInternal, 0), poolFreeChanged s3 p)
      else
        let g := if bGen (bstGet s3 e) = 255 then 1 else bGen (bstGet s3 e) + 1
        let s4 := bstPut s3 e (mkEntry true share req 1 g p)
        let s5 := s4.inc (BPM_POOL_ALLOCATED p) BPM_POOL_ALLOCATED.ALLOCATED
        (some (stOk, mkHandle p g i), poolFreeChanged s5 p)

/-- The smallest enabled pool whose buffers hold `size` bytes (R395). -/
def poolForSize (s : State) (size : Nat) : Option Nat :=
  (List.range 8).find? (fun p => poolEn s p && decide (size ≤ poolSize p))

/-- ALLOC at a target pool, climbing one pool where asked (R395, R399). -/
def allocAt (s : State) (req p : Nat) (spill share rr : Bool) : Nat × Word × State :=
  let s0 := if rr then noteGrant s p req else s
  match takeHandle s0 p req share with
  | (some (st, h), s1) => (st, h, s1)
  | (none, s1) =>
    -- R414: EMPTY counts every ALLOC that found its target empty; R395: the interrupt is for POOL_EMPTY
    let s2 := s1.inc (BPM_POOL_EMPTY p) BPM_POOL_EMPTY.COUNT
    let refuse := fun (t : State) => (stPoolEmpty, (0 : Word), t.setBit (BPM_POOL_IRQ_STATUS p) 1)
    match spill, (List.range 8).find? (fun q => decide (p < q) && poolEn s2 q) with
    | true, some q =>
      match takeHandle s2 q req share with
      | (some (st, h), s3) => (st, h, s3.inc (BPM_POOL_SPILLS p) BPM_POOL_SPILLS.COUNT)
      | (none, s3) => refuse s3
    | _, _ => refuse s2

/-- ALLOC by size (R395). -/
def allocSize (s : State) (req size : Nat) (spill share rr : Bool) : Nat × Word × State :=
  if size = 0 ∨ 268435456 < size then (stInternal, 0, s)
  else match poolForSize s size with
    | none => (stPoolEmpty, 0, s)
    | some p => allocAt s req p spill share rr

/-- A handle of pool `p` returns to the free store as the cache's newest; a full cache of 32 is written back first
(R387). -/
def giveBack (s : State) (p i : Nat) : State :=
  let s0 := if 32 ≤ (poolCache s p).length then writeBack s p else s
  let s1 := setCache s0 p (poolCache s0 p ++ [i])
  let s2 := s1.wr (BPM_POOL_ALLOCATED p) BPM_POOL_ALLOCATED.ALLOCATED
    (s1.rd (BPM_POOL_ALLOCATED p) BPM_POOL_ALLOCATED.ALLOCATED - 1)
  poolFreeChanged s2 p

/-- RETAIN (R394, R398); a full count is refused before the owner is looked at (R403). -/
def bpmRetain (s : State) (req : Nat) (h : Word) : Nat × State :=
  match handleEntry s h with
  | none => (stStaleHandle, misuse s req 1 stStaleHandle h)
  | some e =>
    let (bad, s1) := entryCheck s (hPool h) e
    let w := bstGet s1 e
    if bad then (stInternal, s1)
    else match classify s1 h with
    | .current =>
      if bRefs w = 1023 then (stInternal, s1)
      else if !(bShare w || bOwner w == req) then (stNotOwner, misuse s1 req 1 stNotOwner h)
      else (stOk, bstPut s1 e (mkEntry true (bShare w) (bOwner w) (bRefs w + 1) (bGen w) (hPool h)))
    | _ => (stStaleHandle, misuse s1 req 1 stStaleHandle h)

/-- RELEASE (R394, R398). -/
def bpmRelease (s : State) (req : Nat) (h : Word) : Nat × State :=
  match handleEntry s h with
  | none => (stStaleHandle, misuse s req 2 stStaleHandle h)
  | some e =>
    let (bad, s1) := entryCheck s (hPool h) e
    let w := bstGet s1 e
    if bad then (stInternal, s1)
    else match classify s1 h with
    | .current =>
      if !(bShare w || bOwner w == req) then (stNotOwner, misuse s1 req 2 stNotOwner h)
      else if 1 < bRefs w then
        (stOk, bstPut s1 e (mkEntry true (bShare w) (bOwner w) (bRefs w - 1) (bGen w) (hPool h)))
      else
        (stOk, giveBack (bstPut s1 e (mkEntry false (bShare w) (bOwner w) 0 (bGen w) (hPool h))) (hPool h) (hIndex h))
    | .freed => (stDoubleFree, misuse s1 req 2 stDoubleFree h)
    | .stale => (stStaleHandle, misuse s1 req 2 stStaleHandle h)

/-- FREE (R394, R396, R398). -/
def bpmFree (s : State) (req : Nat) (h : Word) : Nat × State :=
  match handleEntry s h with
  | none => (stStaleHandle, misuse s req 3 stStaleHandle h)
  | some e =>
    let (bad, s1) := entryCheck s (hPool h) e
    let w := bstGet s1 e
    if bad then (stInternal, s1)
    else match classify s1 h with
    | .current =>
      if bOwner w != req then (stNotOwner, misuse s1 req 3 stNotOwner h)
      else
        (stOk, giveBack (bstPut s1 e (mkEntry false (bShare w) (bOwner w) 0 (bGen w) (hPool h))) (hPool h) (hIndex h))
    | .freed => (stDoubleFree, misuse s1 req 3 stDoubleFree h)
    | .stale => (stStaleHandle, misuse s1 req 3 stStaleHandle h)

/-- RETAIN by an engine unit, its result unread. -/
def retainS (req : Nat) (h : Word) (s : State) : State := (bpmRetain s req h).2

/-- RELEASE by an engine unit, its result unread: granted at once, or behind the compositor's queued requests of the pool
(R20). -/
def releaseS (req : Nat) (h : Word) (s : State) : State :=
  if holdWaiting s (hPool h) && req != 19 then { s with bpm := { s.bpm with waits := s.bpm.waits ++ [(req, h)] } }
  else (bpmRelease s req h).2

/-- The releases that no longer wait behind a request of the hold queue are granted, in the order they came (R20). -/
def grantWaits (s : State) : State :=
  let go := s.bpm.waits.filter (fun r => !holdWaiting s (hPool r.2))
  foldS (fun r t => (bpmRelease t r.1 r.2).2) go
    { s with bpm := { s.bpm with waits := s.bpm.waits.filter (fun r => holdWaiting s (hPool r.2)) } }

/-- RELEASE unless the handle is 0, which means none (R392). -/
def releaseNZ (req : Nat) (h : Word) (s : State) : State := if h = 0 then s else releaseS req h s

end Sys2Proof.Machine
end

