-- ==== Sys2Proof/Machine/Icu.lean ====
section
/-!
DEFINITION. The interrupt controller, its mirror and the FAULT_N pin (R457 to R478): messages, notifications, claims,
completions, configuration writes, the pending mirror, the wake set's latch, fault injection and pin events.
-/
namespace Sys2Proof.Machine

/-! ## Source state (R457, R458) -/

/-- Source numbers that have no state or are never pending (R457, R458). -/
def deadSource (src : Nat) : Bool := src == 0 || decide (992 ≤ src)

def srcPending (s : State) (src : Nat) : Bool := bitAt 24 (s.raw (ICU_SRC_CFG src))
def srcActive (s : State) (src : Nat) : Bool := bitAt 25 (s.raw (ICU_SRC_CFG src))

/-- The source word as R478 has it treated after an uncorrectable error: PRIORITY 15, PENDING 1. -/
def brokenSource : Word := 0x0100000F

/-- Queue a mirror write for a change of a PENDING bit (R467). -/
def mirrorChange (src : Nat) (v : Bool) (s : State) : State :=
  if s.flag ICU_GLOBAL ICU_GLOBAL.MIRROR_EN
  then { s with icu := { s.icu with mirror := s.icu.mirror ++ [(src, v)] } } else s

/-- Set or clear PENDING of a source, with its mirror write. -/
def setPending (src : Nat) (v : Bool) (s : State) : State :=
  if srcPending s src = v then s
  else mirrorChange src v (s.wr (ICU_SRC_CFG src) ICU_SRC_CFG.PENDING v.toNat)

/-- The check of a source word read for a grant (R541, R478): true where it was uncorrectable and has been replaced. -/
def sourceCheck (src : Nat) (s : State) : Bool × State :=
  match s.sramFault ICU_FAULT_STATUS 1 with
  | (false, s1) => (false, s1)
  | (true, s1) =>
    (true, (setPending src true (s1.setReg ICU_FAULT_SRC (BitVec.ofNat 32 src))).setReg (ICU_SRC_CFG src) brokenSource)

/-- The ICU ignores a message (R458). -/
def badDoorbell (src : Nat) (s : State) : State :=
  (s.setBit ICU_IRQ_STATUS 2).wr ICU_ERR ICU_ERR.SOURCE src

/-- Source numbers that no block and no completion ring raises: the owning chapters say that they never become pending (R67,
R118, R209, R211, R249, R273, R303, R381, R456, R468, R513). -/
def unusedSource (src : Nat) : Bool := !blockSource src && !decide (256 ≤ src ∧ src < 512)

/-- Apply one message (R458, R464). DESIGN CHOICE (assumption 143): one that names a source that never becomes pending is
ignored like those R458 lists. -/
def applyMessage (src : Nat) (retract : Bool) (s : State) : State :=
  if deadSource src || absentSource s.fuse.variant src || unusedSource src then badDoorbell src s
  else
    let (bad, s1) := sourceCheck src s
    if bad then s1 else setPending src (!retract) s1

/-- Remove the first in-flight message that names `src`, with its retract bit. -/
def takeMessage (src : Nat) : List (Nat × Bool) → Option (Bool × List (Nat × Bool))
  | [] => none
  | m :: ms =>
    if m.1 = src then some (m.2, ms)
    else match takeMessage src ms with
      | none => none
      | some (r, rest) => some (r, m :: rest)

/-- The sender of a block source's messages: the block, or the unit of it, that owns the source (R35, R466; assumption 14). -/
def senderOf (src : Nat) : Nat :=
  if src < 16 then 0 else if src < 20 then 1 else if src < 32 then 2 else if src < 64 then 3
  else if src < 96 then 16 + (src - 64) / 2
  else if src < 512 then 4
  else if src < 528 then 32 + (src - 512) / 4
  else if src < 600 then 40 + (src - 528) / 8
  else if src < 616 then 50 + (src - 600) / 8
  else if src < 696 then 5 else if src < 708 then 6 else if src < 720 then 7
  else if src < 848 then 64 + (src - 720) / 2
  else if src < 880 then 52 + (src - 848) / 16
  else if src < 944 then 128 + (src - 880) / 2
  else if src < 948 then 8 else if src < 960 then 9 else 10

/-- The message of `src` that reaches the ICU next: one sender's messages keep their order (R466, R19). -/
def nextMessage (src : Nat) (ms : List (Nat × Bool)) : Option (Bool × List (Nat × Bool)) :=
  match ms.find? (fun m => senderOf m.1 == senderOf src) with
  | none => none
  | some m => if m.1 = src then takeMessage src ms else none

/-! ## The wake set (R469, R470) -/

/-- Sleep entry is abandoned (R470, R503). -/
def abandonSleep (s : State) : State :=
  let t := { s with pwr := { s.pwr with sleepReq := false } }
  (t.wr PWR_SLEEP_CTL PWR_SLEEP_CTL.RESULT 2).setBit PWR_IRQ_STATUS 2

/-- Breakwater reads its wake set for source `src`: the entries that name it. The words are checked, and an entry whose word
is uncorrectable counts as EN = 0 (R469, R479, R541). -/
def wakeEntries (src : Nat) (s : State) : List Nat × State :=
  let w := s.raw BW_FAULT_INJECT
  let (inj, t) := s.takeInjections BW_FAULT_STATUS [0, 1, 3] 64
  let hit := fun (j : Nat) => bitAt 31 (s.raw (BW_WAKE_SRC j)) && bitsOf 9 0 (s.raw (BW_WAKE_SRC j)) == src
  match inj with
  | none => ((List.range 64).filter hit, t)
  | some false => ((List.range 64).filter hit, t.setFault BW_FAULT_STATUS 0)
  | some true => ((List.range 64).filter (fun j => hit j && decide (bitsOf 7 0 w ≤ j)), t.setFault BW_FAULT_STATUS 1)

/-- In sleep, a set message the entries `js` name is latched and wakes the engine (R469). -/
def latchWake (source : Nat) (js : List Nat) (s : State) : State :=
  let t1 := { s with pwr := { s.pwr with wakeReq := true } }
  let t2 := foldS (fun j u => u.setBit (if j < 32 then BW_WAKE_LATCH_LO else BW_WAKE_LATCH_HI) (j % 32)) js t1
  if t2.pwr.causeSet then t2
  else { t2.setReg BW_WAKE_CAUSE (BitVec.ofNat 32 (source + 2 ^ 16)) with pwr := { t2.pwr with causeSet := true } }

/-- A message reaches Breakwater and the ICU (R458, R469, R470): in sleep a set message of the wake set is latched and wakes
the engine, and any other message is discarded; between SLEEP_GO and the commit one of the wake set abandons the entry and
is applied as usual. -/
def deliverMessage (source : Nat) (retract : Bool) (s : State) : State :=
  if s.pwr.mode = .asleep ∧ retract = true then s
  else if (s.pwr.mode = .asleep ∨ s.pwr.sleepReq = true) ∧ retract = false then
    let (js, t) := wakeEntries source s
    if t.pwr.mode = .asleep then (if js.isEmpty then t else latchWake source js t)
    else
      let u := if js.isEmpty then t else abandonSleep t
      if u.domOn 1 then applyMessage source false u else u
  else if s.domOn 1 then applyMessage source retract s else s

/-- MESSAGE: a block's message is granted: the oldest in flight of its sender (R466). Its word is checked as it arrives (R473,
R541). -/
def execMessage (source : Nat) (s : State) : Out :=
  done s (match nextMessage source s.icu.msgs with
    | none => s
    | some (retract, rest) =>
      let t := { s with icu := { s.icu with msgs := rest } }
      deliverMessage source retract (if t.domOn 1 then (t.fabricCheck ICU_FAULT_STATUS 1).2 else t))

/-- ICU_DOORBELL: the host's message is applied; one with a reserved bit set is ignored (R458, R40). -/
def execIcuDoorbell (data : Word) (s : State) : Out :=
  done s (State.when (s.domOn 1) (fun t =>
    let src := bitsOf 9 0 data
    if bitsOf 30 10 data = 0 then deliverMessage src (bitAt 31 data) t else badDoorbell src t) s)

/-! ## Delivery (R460 to R466) -/

/-- Source `src` is eligible for context `k` (R460). -/
def eligible (s : State) (k src : Nat) : Bool :=
  let w := s.raw (ICU_SRC_CFG src)
  bitAt 24 w && !bitAt 25 w && !bitAt 16 w && bitsOf 9 4 w == k
    && decide (s.rd (ICU_CTX_CFG k) ICU_CTX_CFG.THRESHOLD < bitsOf 3 0 w)

/-- The sources eligible for context `k`, ascending. -/
def eligibleSources (s : State) (k : Nat) : List Nat :=
  (List.range 992).filter (fun x => x != 0 && eligible s k x)

/-- The eligible source of highest PRIORITY, the lowest number on a tie (R462). -/
def bestSource (s : State) (k : Nat) : Option Nat :=
  (eligibleSources s k).foldl (fun acc x => match acc with
    | none => some x
    | some b =>
      if bitsOf 3 0 (s.raw (ICU_SRC_CFG b)) < bitsOf 3 0 (s.raw (ICU_SRC_CFG x)) then some x else some b) none

/-- The MSI-X write of vector `v`, or its pending bit where the vector is masked (R461, R68; assumption 13). -/
def msixSend (v : Nat) (s : State) : State :=
  if bitAt 0 (s.reg (HQ_MSIX_TABLE (4 * v + 3))) then s.setBit (HQ_MSIX_PBA (v / 32)) (v % 32)
  else
    let a := s.reg64 (HQ_MSIX_TABLE (4 * v)) (HQ_MSIX_TABLE (4 * v + 1))
    let s1 := hostMemWr s a (wordBytes (s.reg (HQ_MSIX_TABLE (4 * v + 2))))
    let n := tabGet (fun _ => 0) s1.host.msix v + 1
    { s1 with host := { s1.host with msix := tabSet (fun _ => 0) s1.host.msix v n } }

/-- The check of a context word read for a grant: an uncorrectable one takes THRESHOLD 0 and VECTOR its own number
(R478). -/
def contextCheck (k : Nat) (s : State) : State :=
  match s.sramFault ICU_FAULT_STATUS 1 with
  | (false, s1) => s1
  | (true, s1) =>
    let s2 := s1.setReg ICU_FAULT_SRC (BitVec.ofNat 32 (k + 2 ^ 15))
    (s2.wr (ICU_CTX_CFG k) ICU_CTX_CFG.THRESHOLD 0).wr (ICU_CTX_CFG k) ICU_CTX_CFG.VECTOR k

/-- Context `k` is notifiable (R461, R465). -/
def notifiable (s : State) (k : Nat) : Bool :=
  s.flag ICU_GLOBAL ICU_GLOBAL.DELIVER_EN && !s.flag (ICU_CTX_CFG k) ICU_CTX_CFG.NOTIFIED
    && !(eligibleSources s k).isEmpty

/-- A decision for context `k` reads its word and the word of the source it would take (R478, R541). -/
def grantCheck (k : Nat) (s : State) : State :=
  let t := contextCheck k s
  match bestSource t k with
  | none => t
  | some x => (sourceCheck x t).2

/-- NOTIFICATION: one MSI-X write for the context's vector, and N sets (R461). -/
def execNotification (context : Nat) (s : State) : Out :=
  done s (State.when (decide (context < 64) && s.domOn 1 && s.linkUp) (fun t =>
    let t1 := grantCheck context t
    State.when (notifiable t1 context) (fun u =>
      (msixSend (u.rd (ICU_CTX_CFG context) ICU_CTX_CFG.VECTOR) u).wr
        (ICU_CTX_CFG context) ICU_CTX_CFG.NOTIFIED 1) t1) s)

def setLastRead (w : Word) (s : State) : State := { s with host := { s.host with lastRead := w } }

/-- CLAIM: the highest eligible source, else 1023 where N was set, else 0; N clears (R462). -/
def execClaim (context : Nat) (s : State) : Out :=
  done s (State.when (decide (context < 64) && s.domOn 1) (fun t =>
    let t1 := grantCheck context t
    let n := t1.flag (ICU_CTX_CFG context) ICU_CTX_CFG.NOTIFIED
    let t2 := t1.wr (ICU_CTX_CFG context) ICU_CTX_CFG.NOTIFIED 0
    match bestSource t2 context with
    | some x =>
      let t3 := (setPending x false t2).wr (ICU_SRC_CFG x) ICU_SRC_CFG.ACTIVE 1
      setLastRead (BitVec.ofNat 32 x)
        ((t3.wr (ICU_SRC_CFG x) ICU_SRC_CFG.ACT_CTX context).inc (ICU_CTX_COUNT context) ICU_CTX_COUNT.CLAIMS)
    | none =>
      if n then setLastRead 1023 (t2.inc (ICU_CTX_COUNT context) ICU_CTX_COUNT.SPURIOUS)
      else setLastRead 0 t2) s)

/-- COMPLETE: ACTIVE clears, and the block samples the source again; any other completion is stray (R463). DESIGN CHOICE
(assumption 39): ACT_CTX, which means something while the source is active only (R457), keeps its value. -/
def execComplete (context : Nat) (data : Word) (s : State) : Out :=
  done s (State.when (decide (context < 64) && s.domOn 1) (fun t0 =>
    let x := bitsOf 9 0 data
    let t := if deadSource x then t0 else (sourceCheck x t0).2
    let w := t.raw (ICU_SRC_CFG x)
    if bitAt 25 w && bitsOf 31 26 w == context then (t.wr (ICU_SRC_CFG x) ICU_SRC_CFG.ACTIVE 0).resampleOne x
    else
      ((t.inc ICU_STRAY_COMPLETE ICU_STRAY_COMPLETE.COUNT).setReg ICU_STRAY_LAST
        (BitVec.ofNat 32 (x + context * 2 ^ 16))).setBit ICU_IRQ_STATUS 1) s)

/-- The offset is that of a source word with state, or of a context word (R479). -/
def icuConfigReg (a : Nat) : Bool :=
  (decide (0x201000 < a ∧ a < 0x201F80) && a % 4 == 0) || (decide (0x200100 ≤ a ∧ a < 0x200500) && a % 16 == 0)

/-- ICU_CONFIG_WRITE: PRIORITY, CONTEXT and MASK of a source, or THRESHOLD and VECTOR of a context (R466, R479). -/
def execIcuConfigWrite (addr : Nat) (data : Word) (s : State) : Out :=
  done s (State.when (icuConfigReg addr) (fun t => t.hostWrite addr data) s)

/-- DELIVER_EN: ICU_GLOBAL is written; notifications follow under R465. -/
def execDeliverEn (data : Word) (s : State) : Out := done s (s.hostWrite ICU_GLOBAL data)

/-- MSIX_UNMASK: the vector is unmasked, and a notification held in the pending-bit array is sent (R461). -/
def execMsixUnmask (vector : Nat) (s : State) : Out :=
  done s (State.when (decide (vector < 64) && s.domOn 1) (fun t =>
    let t1 := t.clrBit (HQ_MSIX_TABLE (4 * vector + 3)) 0
    if bitAt (vector % 32) (t1.raw (HQ_MSIX_PBA (vector / 32)))
    then msixSend vector (t1.clrBit (HQ_MSIX_PBA (vector / 32)) (vector % 32)) else t1) s)

/-! ## The pending mirror (R467) -/

/-- MIRROR_WRITE: the oldest mirror write is issued through scratchpad port 3; after eight collisions in a row it is
dropped and counted. -/
def execMirrorWrite (collided : Bool) (s : State) : Out :=
  done s (State.when (s.domOn 1) (fun t =>
    match t.icu.mirror with
    | [] => t
    | (src, v) :: rest =>
      let pop := fun (u : State) => { u with icu := { u.icu with mirror := rest, collide := 0 } }
      if !t.flag ICU_GLOBAL ICU_GLOBAL.MIRROR_EN then pop t
      else if collided then
        if t.icu.collide + 1 < 8 then { t with icu := { t.icu with collide := t.icu.collide + 1 } }
        else pop ((t.inc ICU_ERR ICU_ERR.MIRROR_LOST).setBit ICU_IRQ_STATUS 3)
      else
        pop (spdPerform t (t.rd ICU_MIRROR ICU_MIRROR.ADDR * 32 + src / 32) (if v then .set else .clear)
          (BitVec.ofNat 32 (2 ^ (src % 32))) 15)) s)

/-! ## Fault injection and FAULT_N (R473 to R475) -/

/-- The FAULT_INJECT registers. -/
def isFaultInject (a : Nat) : Bool :=
  [PWR_FAULT_INJECT, ICU_FAULT_INJECT, BW_FAULT_INJECT, BPM_FAULT_INJECT, HQ_FAULT_INJECT, CMP_FAULT_INJECT,
   LMP_FAULT_INJECT, LDG_FAULT_INJECT, SPD_FAULT_INJECT, SEC_FAULT_INJECT, SDI_FAULT_INJECT].contains a
  || (List.range 16).any (fun i => a == DMA_CH_FAULT_INJECT i) || (List.range 4).any (fun i => a == HSQ_FAULT_INJECT i)
  || (List.range 9).any (fun i => a == DS_FAULT_INJECT i) || (List.range 2).any (fun i => a == EN_FAULT_INJECT i)
  || (List.range 64).any (fun i => a == PLK_LANE_FAULT_INJECT i)
  || (List.range 2).any (fun i => a == IGR_PORT_FAULT_INJECT i)
  || (List.range 32).any (fun i => a == DRC_CH_FAULT_INJECT i)

/-- FAULT_INJECT: arms or disarms injection in one block (R473). -/
def execFaultInject (addr : Nat) (data : Word) (s : State) : Out :=
  done s (State.when (isFaultInject addr) (fun t => t.hostWrite addr data) s)

/-- PIN_EVENT: a pin event reaches TOP_FAULT_PIN: the pulse restarts, EVENTS counts, EVENT sets, and ASSERT sets under
LATCH_EN (R474). -/
def execPinEvent (s : State) : Out :=
  done s (State.when (decide (0 < s.pinEvts)) (fun t =>
    let t1 := { t with pinEvts := t.pinEvts - 1 }
    let t2 := ((t1.wr TOP_FAULT_PIN TOP_FAULT_PIN.PULSING 1).inc TOP_FAULT_PIN TOP_FAULT_PIN.EVENTS).wr
      TOP_FAULT_PIN TOP_FAULT_PIN.EVENT 1
    if t2.flag TOP_FAULT_PIN TOP_FAULT_PIN.LATCH_EN then t2.wr TOP_FAULT_PIN TOP_FAULT_PIN.ASSERT 1 else t2) s)

/-- PULSE_END: PULSE_US have passed since the latest event (R474). -/
def execPulseEnd (s : State) : Out :=
  done s (State.when (s.flag TOP_FAULT_PIN TOP_FAULT_PIN.PULSING) (fun t =>
    t.wr TOP_FAULT_PIN TOP_FAULT_PIN.PULSING 0) s)

/-- A write of TOP_FAULT_PIN (R475). A write of ASSERT and RELEASE together leaves ASSERT free: the spec states no
result for it (assumption 9). -/
def faultPinWrite (data : Word) (s : State) : State :=
  let t := s.hostWrite TOP_FAULT_PIN data
  match bitAt 0 data, bitAt 1 data with
  | true, true =>
    let (w, u) := t.fresh
    u.wr TOP_FAULT_PIN TOP_FAULT_PIN.ASSERT (bitsOf 0 0 w)
  | _, true => t.wr TOP_FAULT_PIN TOP_FAULT_PIN.ASSERT 0
  | _, false => t

/-- ASSERT: a write of 1 to TOP_FAULT_PIN.ASSERT holds FAULT_N low (R474). -/
def execAssert (data : Word) (s : State) : Out :=
  done s (State.when (bitAt 0 data) (faultPinWrite data) s)

/-- FAULT_PIN_RELEASE: a write of 1 to TOP_FAULT_PIN.RELEASE clears ASSERT (R474). -/
def execFaultPinRelease (data : Word) (s : State) : Out :=
  done s (State.when (bitAt 1 data) (faultPinWrite data) s)

/-! ## The wake latch (R469, R470) -/

/-- WAKE_LATCH: in sleep, a set message for a wake-set source is latched and wakes the engine; before the commit of
sleep entry it abandons the entry (R469, R470). -/
def execWakeLatch (source : Nat) (s : State) : Out :=
  done s (match nextMessage source s.icu.msgs with
    | some (false, rest) =>
      State.when (decide (s.pwr.mode = .asleep) || s.pwr.sleepReq) (fun s0 =>
        let (js, t) := wakeEntries source s0
        if js.isEmpty then t
        else if t.pwr.mode = .asleep then latchWake source js { t with icu := { t.icu with msgs := rest } }
        else abandonSleep t) s
    | _ => s)

end Sys2Proof.Machine
end

