-- ==== Sys2Proof/Machine/Hq.lean ====
section
/-!
DEFINITION. The host queue manager (R38 to R68): doorbells, ring configuration, fetching and admission, dispatch,
FENCE and ABORT, the commit and the writing of completions, and the Function Level Reset; with the host's windows onto
the shared scratchpad (R43, R440 to R443).
-/
namespace Sys2Proof.Machine

/-! ## The PCI Express function (R36, R37, R539) -/

/-- Vendor and Device ID, and Revision ID with the Class Code: the identity words of the configuration space (R539). -/
def pcieId (s : State) : Word := BitVec.ofNat 32 (0x1EB2 + s.rd TOP_ID TOP_ID.PART * 2 ^ 16)
def pcieClass (s : State) : Word := BitVec.ofNat 32 (s.rd TOP_ID TOP_ID.STEPPING + 0x048000 * 2 ^ 8)

/-- The configuration word that holds Subsystem Vendor ID and Subsystem ID (R539). -/
def pcieSubsystem : Word := 0x00001EB2

/-- Bytes of a memory BAR (R37). -/
def barSize (bar : Nat) : Nat :=
  match bar with
  | 0 => 64 * 2 ^ 20
  | 2 => 16 * 2 ^ 20
  | 4 => 2 * 2 ^ 20
  | _ => 0

/-- The BAR that claims a host address, with the offset in it (R37). -/
def barOf (s : State) (a : Nat) : Option (Nat × Nat) :=
  [(0, s.pcie.bar0), (2, s.pcie.bar2), (4, s.pcie.bar4)].findSome? (fun b =>
    if b.2 ≤ a ∧ a < b.2 + barSize b.1 then some (b.1, a - b.2) else none)

/-- The longest read the function issues, in bytes (R36). -/
def maxReadBytes (s : State) : Nat := min 512 s.pcie.maxRead

/-! ## Doorbells and refused accesses -/

/-- BAD_ACCESS: the access is recorded, and has no other effect (R38). -/
def execBadAccess (bar offset : Nat) (s : State) : Out :=
  done s (State.when ((bar == 0 || bar == 4) && s.domOn 1) (fun t =>
    (t.setBit HQ_ERR_STATUS 4).setReg HQ_BAD_ACCESS
      (BitVec.ofNat 32 (offset % 2 ^ 26 + (if bar = 4 then 2 else 0) * 2 ^ 26))) s)

/-- Record a ring error (R41, R42, R64, R65): the HQ_ERR_STATUS bit and HQ_ERR_INFO. -/
def hqError (bit ring : Nat) (isCq : Bool) (value : Nat) (s : State) : State :=
  (s.setBit HQ_ERR_STATUS bit).setReg HQ_ERR_INFO
    (BitVec.ofNat 32 (ring % 512 + isCq.toNat * 2 ^ 9 + value % 65536 * 2 ^ 16))

def sqSize (s : State) (n : Nat) : Nat := 2 ^ s.rd (HQ_SQ_CFG n) HQ_SQ_CFG.SIZE_LOG2
def cqSize (s : State) (k : Nat) : Nat := 2 ^ s.rd (HQ_CQ_CFG k) HQ_CQ_CFG.SIZE_LOG2
def sqEn (s : State) (n : Nat) : Bool := bitAt 0 (s.reg (HQ_SQ_CFG n))
def cqEn (s : State) (k : Nat) : Bool := bitAt 0 (s.reg (HQ_CQ_CFG k))

def storedTail (s : State) (n : Nat) : Nat := tabGet (fun _ => 0) s.hq.sqTail n
def storedHead (s : State) (k : Nat) : Nat := tabGet (fun _ => 0) s.hq.cqHead k

def setStoredTail (n v : Nat) (s : State) : State :=
  { s with hq := { s.hq with sqTail := tabSet (fun _ => 0) s.hq.sqTail n v } }
def setStoredHead (k v : Nat) (s : State) : State :=
  { s with hq := { s.hq with cqHead := tabSet (fun _ => 0) s.hq.cqHead k v } }

/-- SQ_TAIL: the doorbell register file takes the index, unless it is out of range (R41). -/
def execSqTail (k : Nat) (value : Word) (s : State) : Out :=
  done s (State.when (decide (k < 512) && s.domOn 1) (fun t =>
    let v := bitsOf 15 0 value
    if v < sqSize t k then setStoredTail k v t else hqError 0 k false v t) s)

/-- CQ_HEAD: the slots before the index are free again, unless it is out of range (R42). -/
def execCqHead (k : Nat) (value : Word) (s : State) : Out :=
  done s (State.when (decide (k < 256) && s.domOn 1) (fun t =>
    let v := bitsOf 15 0 value
    if v < cqSize t k then setStoredHead k v t else hqError 1 k true v t) s)

/-! ## The scratchpad window (R43, R440 to R443) -/

/-- A host write reaches one scratchpad word. -/
def spdHostWrite (kind : SpdKind) (addr : Nat) (data : Word) (be : BitVec 4) (s : State) : State :=
  State.when (decide (addr < 0x400000) && addr % 4 == 0 && s.domOn 1) (fun t => spdPerform t (addr / 4) kind data be) s

/-- SCRATCHPAD_PLAIN_WRITE: the enabled bytes replace the stored bytes. -/
def execScratchpadPlainWrite (addr : Nat) (data : Word) (be : BitVec 4) (s : State) : Out :=
  done s (spdHostWrite .write addr data be s)

/-- BIT_SET_ALIAS_WRITE: word = word OR data, atomic at the bank. -/
def execBitSetAliasWrite (addr : Nat) (data : Word) (be : BitVec 4) (s : State) : Out :=
  done s (spdHostWrite .set addr data be s)

/-- BIT_CLEAR_ALIAS_WRITE: word = word AND NOT data, atomic at the bank. -/
def execBitClearAliasWrite (addr : Nat) (data : Word) (be : BitVec 4) (s : State) : Out :=
  done s (spdHostWrite .clear addr data be s)

/-- A host read of the word at BAR2 offset `o` (R37, R43, R445): the stored value in each of the three views and zero
above them, with no side effect of its own; the flag says that the answer is poisoned because the word is
uncorrectable. -/
def State.bar2Read (s : State) (o : Nat) : Word × Bool × State :=
  if decide (o < 0xC00000) && s.domOn 1 then spdRead s (o % 0x400000 / 4) else (0, false, s)

/-- The request is a write. -/
def spdIsWrite : SpdKind → Bool
  | .read => false
  | _ => true

/-- The request the bank's round robin grants: that of the first port after the last granted one (R441). -/
def spdPick (last : Nat) (reqs : List SpdReq) : Option SpdReq :=
  (List.range 4).findSome? (fun i => reqs.find? (fun r => r.port == (last + 1 + i) % 4))

/-- Record a collision (R443). -/
def spdCollision (k winner : Nat) (losers : List Nat) (s : State) : State :=
  if losers.isEmpty then s
  else
    let ovr := bitAt 0 (s.raw SPD_IRQ_STATUS)
    let s1 := (s.addTo SPD_COLL_COUNT SPD_COLL_COUNT.LOST losers.length).setReg SPD_COLL_ADDR (BitVec.ofNat 32 (4 * k))
    let s2 := (s1.wr SPD_COLL_INFO SPD_COLL_INFO.WINNER winner).wr SPD_COLL_INFO SPD_COLL_INFO.LOSERS
      ((losers.map (fun p => 2 ^ p)).sum)
    let s3 := if ovr then s2.wr SPD_COLL_INFO SPD_COLL_INFO.OVERRUN 1 else s2
    s3.setBit SPD_IRQ_STATUS 0

/-- The requests of one grant: one bank, one request a port. -/
def spdReqsOk (reqs : List SpdReq) : Bool :=
  reqs.all (fun r => decide (r.port < 4) && decide (r.addr < 0x400000) && r.addr % 4 == 0
    && r.addr / 4 % 16 == ((reqs.map (fun q => q.addr / 4 % 16)).headD 0))
  && decide ((reqs.map SpdReq.port).Nodup)

/-- The responses of a grant to its requests for word `k`: a read returns the word as it was before the grant's write, and a
losing write's port receives WRITE_COLLISION (R441, R445). -/
def spdAnswers (s : State) (k : Nat) (losers : List Nat) (reqs : List SpdReq) : List SpdAnswer :=
  reqs.map (fun q =>
    if spdIsWrite q.kind then ⟨q.port, 0, false, losers.contains q.port⟩
    else ⟨q.port, (spdRead s k).1, (spdRead s k).2.1, false⟩)

/-- SCRATCHPAD_BANK_GRANT: the bank grants one word; of the writes of it that arrived in the cycle the lowest port's
takes effect, and the others collide (R441 to R443). -/
def execScratchpadBankGrant (reqs : List SpdReq) (s : State) : Out :=
  done s (State.when (spdReqsOk reqs && s.domOn 1) (fun t =>
    let bank := (reqs.map (fun q => q.addr / 4 % 16)).headD 0
    match spdPick (tabGet (fun _ => 3) t.spd.rr bank) reqs with
    | none => t
    | some r =>
      let k := r.addr / 4
      let same := reqs.filter (fun q => q.addr == r.addr)
      let writes := (List.range 4).filter (fun p => same.any (fun q => q.port == p && spdIsWrite q.kind))
      let t0 := { t with spd := { t.spd with rr := tabSet (fun _ => 3) t.spd.rr bank r.port
                                             answers := spdAnswers t k writes.tail same } }
      let t1 := if same.any (fun q => !spdIsWrite q.kind) then (spdRead t0 k).2.2 else t0
      match writes with
      | [] => t1
      | w :: losers =>
        match same.find? (fun q => q.port == w) with
        | none => t1
        | some q => spdCollision k w losers (spdPerform t1 k q.kind q.data q.be)) s)

/-- SPD_COLL_CLR: SPD_COLL_INFO.CLR clears OVERRUN (R454). -/
def execSpdCollClr (data : Word) (s : State) : Out :=
  done s (State.when (bitAt 31 data && s.domOn 1) (fun t => t.wr SPD_COLL_INFO SPD_COLL_INFO.OVERRUN 0) s)

/-! ## Reset (R39) -/

/-- A job its unit has accepted and not yet begun: it runs to its end inside the unit after a Function Level Reset (R39).
An ABORT is HQ's own work and ends with it. -/
def unbegun (j : Job) : Bool :=
  decide (j.st = .running) && !j.begun && !j.stop && !j.record && j.opcode != opAbort

/-- Where a dispatched job stands after a Function Level Reset took the tag table from it: above the table, under its
number of admission. -/
def orphanSlot (j : Job) : Nat := 1024 + j.seq

/-- The jobs that outlive a Function Level Reset. -/
def orphanJobs (s : State) : Tab Job :=
  (s.hq.jobs.filter (fun e => unbegun e.2)).foldl (fun t e =>
    tabSet (fun _ => Job.empty) t (if e.1 < 1024 then orphanSlot e.2 else e.1) e.2) []

/-- The ENCODE_PICTURE jobs dispatched and not yet taken keep their order. -/
def orphanOrder (s : State) : List JobRef :=
  (s.enc.order.filter (fun r => unbegun (s.job r.slot) && (s.job r.slot).seq == r.seq)).map (fun r =>
    if r.slot < 1024 then ⟨1024 + r.seq, r.seq⟩ else r)

/-- The reach of a Function Level Reset: HQ, its rings, tag table and doorbells, the MSI-X table, and the ICU below
offset 0x8000, where PENDING is kept and every block samples its sources again. Jobs in flight run to their end, and
their records are discarded. -/
def flrReach (s : State) : State :=
  let keep := fun (e : Nat × Word) =>
    if 0x500000 ≤ e.1 ∧ e.1 < 0x600000 then none
    else if 0x201000 ≤ e.1 ∧ e.1 < 0x202000 then (if bitAt 24 e.2 then some (e.1, (0x01000000 : Word)) else none)
    else if 0x200000 ≤ e.1 ∧ e.1 < 0x208000 then none
    else some e
  let t := { s with
    regs := s.regs.filterMap keep
    hq := { s.hq with jobs := orphanJobs s, sqTail := [], cqHead := [], fetches := [], coal := [], rr := 513 }
    enc := { s.enc with order := orphanOrder s }
    icu := { s.icu with mirror := [], collide := 0 } }
  t.resample

/-! ## Ring configuration (R64) -/

/-- HQ_SQn_STATUS.INFLIGHT. -/
def sqInflight (s : State) (n : Nat) : Nat := s.jobList.countP (fun e => e.2.sq == n)
/-- HQ_CQk_RESV.RESERVED (R51). -/
def cqReserved (s : State) (k : Nat) : Nat := s.jobList.countP (fun e => e.2.cq == k)
/-- HQ_CQk_RESV.BOUND_SQS. -/
def cqBound (s : State) (k : Nat) : Nat :=
  (List.range 512).countP (fun n => sqEn s n && s.rd (HQ_SQ_CFG n) HQ_SQ_CFG.CQ_ID == k)

/-- The fields of a ring configuration word other than EN. -/
def cfgRest (w : Word) : Nat := w.toNat / 2

/-- The register value a host write of its table fields leaves. -/
def hostValue (s : State) (a : Nat) (data : Word) : Word :=
  match regFind a with
  | none => s.reg a
  | some (r, _, _) => accWrite s.locked data r.flds (s.reg a)

/-- HQ_SQ_CFG_WRITE: BASE_LO, BASE_HI or CFG of submission ring `n`, accepted or refused as a whole (R64). DESIGN CHOICE
(assumption 111): the entries of a read issued before the ring was disabled and enabled again are still admitted, and do
not advance the new head. -/
def execHqSqCfgWrite (n reg : Nat) (data : Word) (s : State) : Out :=
  done s (State.when (decide (n < 512) && decide (reg < 3) && s.domOn 1) (fun t =>
    let a := HQ_SQ_BASE_LO n + 4 * reg
    let quiet := !sqEn t n && sqInflight t n == 0
    let new := hostValue t a data
    let refused := if reg < 2 then !quiet else
      (cfgRest new != cfgRest (t.reg a) && !quiet) || decide (fget HQ_SQ_CFG.SIZE_LOG2 new < 4)
        || (bitAt 0 new && !cqEn t (fget HQ_SQ_CFG.CQ_ID new))
    if refused then hqError 3 n false 0 t
    else
      let t1 := t.setReg a new
      if decide (reg = 2) && bitAt 0 new && !sqEn t n then
        let t2 := (setStoredTail n 0 t1).setReg (HQ_SQ_STATUS n) 0
        let fs := t2.hq.fetches.map (fun f => if f.sq = n then { f with live := false } else f)
        { t2 with hq := { t2.hq with fetches := fs } }
      else t1) s)

/-- HQ_CQ_CFG_WRITE: BASE_LO, BASE_HI or CFG of completion ring `k`, accepted or refused as a whole (R64). DESIGN CHOICE
(assumption 111): enabling the ring again keeps its notification count and timer. -/
def execHqCqCfgWrite (k reg : Nat) (data : Word) (s : State) : Out :=
  done s (State.when (decide (k < 256) && decide (reg < 3) && s.domOn 1) (fun t =>
    let a := HQ_CQ_BASE_LO k + 4 * reg
    let quiet := cqReserved t k == 0 && cqBound t k == 0
    let new := hostValue t a data
    if !quiet || (decide (reg = 2) && decide (fget HQ_CQ_CFG.SIZE_LOG2 new < 4)) then hqError 3 k true 0 t
    else
      let t1 := t.setReg a new
      if decide (reg = 2) && bitAt 0 new && !cqEn t k then
        (setStoredHead k 0 t1).setReg (HQ_CQ_STATUS k) 0x10000
      else t1) s)

/-- PEAK_CLR: HQ_TAG_STATUS.PEAK takes the current INFLIGHT (R68). -/
def execPeakClr (data : Word) (s : State) : Out :=
  done s (State.when (bitAt 31 data && s.domOn 1) (fun t =>
    t.wr HQ_TAG_STATUS HQ_TAG_STATUS.PEAK t.jobList.length) s)

/-! ## Fetching (R50 to R52, R57, R62, R65) -/

def cqTail (s : State) (k : Nat) : Nat := s.rd (HQ_CQ_STATUS k) HQ_CQ_STATUS.TAIL
def sqHead (s : State) (n : Nat) : Nat := s.rd (HQ_SQ_STATUS n) HQ_SQ_STATUS.HEAD

/-- The admission count of R51. -/
def freeSlots (s : State) (k : Nat) : Nat :=
  let sz := cqSize s k
  sz - 1 - (cqTail s k + sz - storedHead s k) % sz - cqReserved s k

/-- A FENCE of ring `n` is QUEUED (R57). -/
def fenced (s : State) (n : Nat) : Bool :=
  s.jobList.any (fun e => e.2.sq == n && decide (e.2.st = .queued) && e.2.opcode == opFence)

/-- The free slots a ring may reserve: the 1,016 general ones, and for a control ring the last 8 where no general one
is free (R51, R62). -/
def freeTags (s : State) (ctrl : Bool) : List Nat :=
  let used := tabKeys s.hq.jobs
  let gen := (List.range 1016).filter (fun x => !used.contains x)
  if ctrl then gen ++ (List.range' 1016 8).filter (fun x => !used.contains x) else gen

/-- How many entries a visit to ring `n` fetches (R52): limited by the burst, the stored tail, the end of the ring, the
completion slots and the longest read of R36. -/
def fetchCount (s : State) (n : Nat) : Nat :=
  let sz := sqSize s n
  let hd := sqHead s n
  let k := s.rd (HQ_SQ_CFG n) HQ_SQ_CFG.CQ_ID
  min (maxReadBytes s / 64)
    (min (min (s.rd (HQ_SQ_CFG n) HQ_SQ_CFG.BURST + 1) ((storedTail s n + sz - hd) % sz)) (min (sz - hd) (freeSlots s k)))

/-- The fetch engine may visit ring `n` (R29, R52, R57, R65). -/
def fetchable (s : State) (n : Nat) : Bool :=
  sqEn s n && !bitAt 30 (s.raw (HQ_SQ_STATUS n)) && !s.hq.fetches.any (fun f => f.sq == n) && !fenced s n
    && decide (0 < fetchCount s n) && !(freeTags s (bitAt 1 (s.reg (HQ_SQ_CFG n)))).isEmpty

/-- The ring the round robin visits next (R52). -/
def nextRing (s : State) : Option Nat :=
  ((List.range 514).map (fun i => (s.hq.rr + 1 + i) % 514)).find? (fun n => decide (n < 512) && fetchable s n)

/-- SUBMISSION_FETCH: HQ visits ring `n`, reserves tags and completion slots, and issues a burst read (R29, R52). -/
def execSubmissionFetch (n : Nat) (s : State) : Out :=
  done s (State.when (s.domOn 1 && s.linkUp && bitAt 0 (s.reg HQ_CTL) && nextRing s == some n) (fun t =>
    let slots := (freeTags t (bitAt 1 (t.reg (HQ_SQ_CFG n)))).take (fetchCount t n)
    let k := t.rd (HQ_SQ_CFG n) HQ_SQ_CFG.CQ_ID
    let t1 := foldS (fun x u =>
      let v := u.setJob x { Job.empty with st := .fetching, sq := n, cq := k, seq := u.hq.seq }
      { v with hq := { v.hq with seq := v.hq.seq + 1 } }) slots t
    let f : Fetch := ⟨n, sqHead t1 n, slots, true⟩
    let t2 := { t1 with hq := { t1.hq with fetches := t1.hq.fetches ++ [f], rr := n } }
    t2.wr HQ_TAG_STATUS HQ_TAG_STATUS.PEAK (max (t2.rd HQ_TAG_STATUS HQ_TAG_STATUS.PEAK) t2.jobList.length)) s)

/-- The oldest outstanding read of ring `n`, and the others. -/
def takeFetch (n : Nat) : List Fetch → Option (Fetch × List Fetch)
  | [] => none
  | f :: fs =>
    if f.sq = n then some (f, fs)
    else match takeFetch n fs with
      | none => none
      | some (g, rest) => some (g, f :: rest)

/-- A tag-table entry returns to FREE. -/
def freeSlot (x : Nat) (s : State) : State := s.setJob x Job.empty

/-- The snapshot of a FENCE entering QUEUED (R56): the jobs of its scope then QUEUED or RUNNING. -/
def fenceSnapshot (s : State) (sq : Nat) (wide : Bool) : List (Nat × Nat) :=
  (s.jobList.filter (fun e => (wide || e.2.sq == sq)
    && (decide (e.2.st = .queued) || decide (e.2.st = .running)))).map (fun e => (e.1, e.2.seq))

/-- FENCE words a rule reserves are clear (R45, R46, R55, R56). -/
def fenceOk (j : Job) : Bool := decide (j.flags < 4) && (j.w 1).toNat == 0 && decide ((j.w 2).toNat < 4)

/-- Admit fetched entries in order; entries behind a FENCE are released and read again later (R50, R57). A FENCE with
LOCK_GATE and an empty snapshot waits for a lock gate at once (R56). Answers how many entries the head passes. -/
def admitJobs : List (Nat × List Word) → Nat → State → Nat × State
  | [], k, s => (k, s)
  | (x, ws) :: rest, k, s =>
    let j := { s.job x with st := .queued, words := ws, seq := s.hq.seq }
    let s1 := { s with hq := { s.hq with seq := s.hq.seq + 1 } }
    if j.opcode = opFence then
      let snap := fenceSnapshot s j.sq (bitAt 0 (j.w 2))
      (k + 1, foldS (fun e t => freeSlot e.1 t) rest (s1.setJob x
        { j with snap := snap, waited := snap.length, gate := bitAt 1 (j.w 2) && snap.isEmpty && fenceOk j }))
    else admitJobs rest (k + 1) (s1.setJob x j)

/-- The read `f` of ring `n` fails: its slots are free again (R65). -/
def fetchFails (n : Nat) (f : Fetch) (rest : List Fetch) (s : State) : State :=
  hqError 2 n false f.first ((foldS freeSlot f.slots { s with hq := { s.hq with fetches := rest } }).setBit (HQ_SQ_STATUS n) 30)

/-- SUBMISSION_ENTRY_ARRIVAL: the oldest read of ring `n` returns its entries (R45, R50, R57). -/
def execSubmissionEntryArrival (n : Nat) (entries : List (List Word)) (s : State) : Out :=
  done s (match takeFetch n s.hq.fetches with
    | none => s
    | some (f, rest) =>
      State.when (entries.length == f.slots.length && entries.all (fun e => e.length == 16)) (fun t =>
        match t.fabricCheck HQ_FAULT_STATUS (16 * entries.length) with
        | (true, u) => fetchFails n f rest u
        | (false, u) =>
          let t0 := { u with hq := { u.hq with fetches := rest } }
          let (k, t1) := admitJobs (f.slots.zip entries) 0 t0
          if f.live then t1.wr (HQ_SQ_STATUS n) HQ_SQ_STATUS.HEAD ((f.first + k) % sqSize t1 n) else t1) s)

/-- FETCH_ERROR: the oldest read of ring `n` fails (R65). -/
def execFetchError (n : Nat) (s : State) : Out :=
  done s (match takeFetch n s.hq.fetches with
    | none => s
    | some (f, rest) => fetchFails n f rest s)

/-! ## Completion (R47 to R50, R56, R61, R63) -/

/-- A job is committed with its status and results; the fetch head of its ring is noted (R47, R50). -/
def commitWith (x status : Nat) (results : List Word) (s : State) : State :=
  let j := s.job x
  s.setJob x { j with st := .committed, status := status, results := results, record := false, stop := false,
                      head := if j.sq < 512 then sqHead s j.sq else 0 }

/-- The job of a snapshot entry has completed (R50, R56). A damaged one is waited for no longer (R66, assumption 109). -/
def jobCompleted (s : State) (e : Nat × Nat) : Bool :=
  let j := s.job e.1
  j.seq != e.2 || decide (j.st = .committed) || decide (j.st = .free) || j.damaged

/-- Every job fetched earlier from the same ring has completed (R46). A damaged one is waited for no longer (R66,
assumption 109). -/
def prevDone (s : State) (j : Job) : Bool :=
  s.jobList.all (fun e => e.2.sq != j.sq || decide (j.seq ≤ e.2.seq) || decide (e.2.st = .committed) || e.2.damaged)

/-- The wait for jobs of a QUEUED FENCE has ended (R56); one that R55 refuses waits for no job of its snapshot. -/
def fenceWaitDone (s : State) (j : Job) : Bool :=
  decide (j.st = .queued) && j.opcode == opFence && (!fenceOk j || j.snap.all (jobCompleted s))
    && (!j.afterPrev || prevDone s j)

/-- Insert an entry in order of admission. -/
def insertSeq (x : Nat × Job) : Tab Job → Tab Job
  | [] => [x]
  | y :: ys => if x.2.seq ≤ y.2.seq then x :: y :: ys else y :: insertSeq x ys

/-- Tag-table entries in order of admission. -/
def bySeq : Tab Job → Tab Job
  | [] => []
  | x :: xs => insertSeq x (bySeq xs)

/-- One pass over the FENCEs in order of admission: one whose wait has ended completes, or begins to wait for a lock
gate (R56). Waits only point to jobs admitted earlier, so one pass in order settles all. -/
def settleFences (s : State) : State :=
  let order := bySeq (s.jobList.filter (fun e => decide (e.2.st = .queued) && e.2.opcode == opFence))
  foldS (fun e t =>
    let j := t.job e.1
    if !fenceWaitDone t j then t
    else if !fenceOk j then commitWith e.1 stInternal [] t
    else if bitAt 1 (j.w 2) then t.setJob e.1 { j with gate := true }
    else commitWith e.1 stOk [BitVec.ofNat 32 (j.waited % 2048), 0] t) order s

/-- A lock gate completes the FENCEs that wait for one (R56); `frame` is its 24-bit frame number. -/
def fencesAtGate (frame : Nat) (s : State) : State :=
  settleFences (foldS (fun e t =>
    let j := t.job e.1
    if decide (j.st = .queued) && j.opcode == opFence && j.gate
    then commitWith e.1 stOk [BitVec.ofNat 32 (j.waited % 2048), BitVec.ofNat 32 (frame % 2 ^ 24)] t else t)
    s.jobList s)

/-- A job completes without a unit's record: commit, then the FENCEs that waited for it. -/
def completeNow (x status : Nat) (results : List Word) (s : State) : State :=
  settleFences (commitWith x status results s)

/-- An earlier job of the same ring, OPCODE and CONTEXT has not yet completed (R53). -/
def earlierSame (s : State) (j : Job) (p : Job → Bool) : Bool :=
  s.jobList.any (fun e => e.2.sq == j.sq && decide (e.2.seq < j.seq) && e.2.opcode == j.opcode
    && e.2.context == j.context && p e.2)

/-- No earlier job of those R53 orders stands before a job's completion. -/
def commitsNow (s : State) (j : Job) : Bool :=
  !earlierSame s j (fun e => (decide (e.st = .running) || decide (e.st = .queued)) && !e.damaged)

/-- COMPLETION_COMMIT: the tag arbiter grants the record of a RUNNING job, its unit's or that of one an ABORT has stopped
(R50, R53, R61), in fetch order among the jobs R53 orders. A job an ABORT reaches in QUEUED completes at once whatever stands
before it (R50). -/
def execCompletionCommit (slot : Nat) (s : State) : Out :=
  done s (State.when (let j := s.job slot
      decide (j.st = .running) && j.record && !j.damaged && commitsNow s j) (fun t =>
    completeNow slot (t.job slot).status (t.job slot).results t) s)

/-- Completion ring `k` raises its source: one set message (R63). -/
def raiseCq (k : Nat) (s : State) : State :=
  { s with icu := { s.icu with msgs := s.icu.msgs ++ [(256 + k, false)] } }

def coalOf (s : State) (k : Nat) : Coal := tabGet (fun _ => ⟨0, false⟩) s.hq.coal k
def setCoal (k : Nat) (c : Coal) (s : State) : State :=
  { s with hq := { s.hq with coal := tabSet (fun _ => ⟨0, false⟩) s.hq.coal k c } }

/-- The source of ring `k` is raised and both counts restart (R63). -/
def notifyCq (k : Nat) (s : State) : State := raiseCq k (setCoal k ⟨0, false⟩ s)

/-- Write one 32-byte entry at TAIL with the phase of the pass, and advance the tail (R47 to R49). -/
def writeEntry (k : Nat) (ws : List Word) (s : State) : State :=
  let tail := cqTail s k
  let ph := s.rd (HQ_CQ_STATUS k) HQ_CQ_STATUS.PHASE
  let full := (List.range 7).map (wordAt ws) ++ [BitVec.ofNat 32 ph]
  let base := s.reg64 (HQ_CQ_BASE_LO k) (HQ_CQ_BASE_HI k)
  let s1 := hostMemWr s (base + 32 * tail) (wordsBytes full)
  if tail + 1 < cqSize s k then s1.wr (HQ_CQ_STATUS k) HQ_CQ_STATUS.TAIL (tail + 1)
  else (s1.wr (HQ_CQ_STATUS k) HQ_CQ_STATUS.TAIL 0).wr (HQ_CQ_STATUS k) HQ_CQ_STATUS.PHASE (1 - ph)

/-- Count an entry written without QUIET towards the ring's notification; its timer runs from the first such entry
(R63). -/
def countEntry (k : Nat) (s : State) : State :=
  let c := (coalOf s k).count + 1
  if max 1 (s.rd (HQ_CQ_CFG k) HQ_CQ_CFG.COAL_COUNT) ≤ c then notifyCq k s
  else setCoal k ⟨c, true⟩ s

/-- COMPLETION_WRITE: the entry is written, the tail advances, and the tag-table entry is FREE (R47 to R50, R63). -/
def execCompletionWrite (slot : Nat) (s : State) : Out :=
  done s (State.when (decide ((s.job slot).st = .committed) && !(s.job slot).damaged && s.linkUp) (fun t =>
    let j := t.job slot
    let w0 := BitVec.ofNat 32 (j.tag + j.status % 256 * 2 ^ 16 + j.opcode * 2 ^ 24)
    let w1 := BitVec.ofNat 32 (j.sq + j.head * 2 ^ 16)
    let t1 := freeSlot slot (writeEntry j.cq (w0 :: w1 :: j.results) t)
    if j.quiet then t1 else countEntry j.cq t1) s)

/-- COAL_TIME: COAL_TIME, which is not 0, have passed since the first unnotified entry (R63). -/
def execCoalTime (k : Nat) (s : State) : Out :=
  done s (State.when (decide (k < 256) && (coalOf s k).running && s.rd (HQ_CQ_COAL k) HQ_CQ_COAL.COAL_TIME != 0)
    (notifyCq k) s)

/-- An uncorrectable error in a tag-table entry (R66). -/
def tagUncorrectable (slot : Nat) (s : State) : State :=
  let t := (s.setFault HQ_FAULT_STATUS 1).wr HQ_CTL HQ_CTL.FETCH_EN 0
  t.setJob slot { t.job slot with damaged := true }

/-- UNCORRECTABLE_TAG_ENTRY: fetching stops, and the damaged job's completion is never written (R66). -/
def execUncorrectableTagEntry (slot : Nat) (s : State) : Out :=
  done s (State.when (decide (slot < 1024) && decide ((s.job slot).st ≠ .free)) (tagUncorrectable slot) s)

/-- The check of the tag-table entry read to dispatch its job to its unit (R66, R541): false where the entry is lost. -/
def tagCheck (slot : Nat) (s : State) : Bool × State :=
  match s.sramCheck HQ_FAULT_STATUS 1 with
  | (false, s1) => (true, s1)
  | (true, s1) => (false, tagUncorrectable slot s1)

/-! ## FENCE and ABORT (R56 to R61) -/

/-- FENCE: a queued FENCE whose snapshot has completed completes, or waits on for its lock gate (R56). -/
def execFence (slot : Nat) (s : State) : Out :=
  done s (State.when (let j := s.job slot; decide (j.st = .queued) && j.opcode == opFence && !j.damaged)
    settleFences s)

/-- ABORT words a rule reserves are clear, and its mode is `mode` (R45, R46, R55, R59). -/
def abortOk (j : Job) : Bool :=
  decide (j.flags < 4) && (j.w 1).toNat == 0 && decide (bitsOf 31 27 (j.w 2) = 0) && decide (bitsOf 31 24 (j.w 3) = 0)
    && decide (bitsOf 26 25 (j.w 2) ≠ 3)

/-- The jobs an ABORT matches (R59). DESIGN CHOICE (assumption 109): a job whose tag-table entry is damaged is matched and
counted like any other. -/
def abortMatches (a j : Job) : Bool :=
  j.opcode != opAbort && (decide (j.st = .queued) || decide (j.st = .running) || decide (j.st = .committed)) &&
  match bitsOf 26 25 (a.w 2) with
  | 0 => j.sq == bitsOf 24 16 (a.w 2) && j.tag == bitsOf 15 0 (a.w 2)
  | 1 => j.sq == bitsOf 24 16 (a.w 2)
  | 2 => j.opcode == bitsOf 23 16 (a.w 3) && j.context == bitsOf 15 0 (a.w 3)
  | _ => false

/-- The tag arbiter grants an ABORT against one matched job (R50, R59, R61). -/
def abortOne (x : Nat) (s : State) : State :=
  let j := s.job x
  match j.st with
  | .queued => commitWith x stAborted [] s
  | .running => s.setJob x { j with stop := true, record := false }
  | _ => s

/-- An ABORT acts on every job it matches, and presents its own record (R59, R60). -/
def runAbort (slot : Nat) (s : State) : State :=
  let a := s.job slot
  let hit := s.jobList.filter (fun e => abortMatches a e.2)
  let late := hit.filter (fun e => decide (e.2.st = .committed))
  let now := hit.filter (fun e => decide (e.2.st ≠ .committed) && !e.2.stop)
  let t := settleFences (foldS (fun e u => abortOne e.1 u) now s)
  present slot (if now.isEmpty then stAbortLate else stOk)
    [BitVec.ofNat 32 (now.length % 2048), BitVec.ofNat 32 (late.length % 2048)] t

end Sys2Proof.Machine
end

