-- ==== Sys2Proof/Machine/Buffers.lean ====
section
/-!
DEFINITION. The buffer pool manager's commands (R384 to R403, R414): grants of ALLOC, RETAIN, RELEASE and FREE to any
requester, the host's BUFFER_OP jobs, pool enabling, and the cache's refills and write-backs.
-/
namespace Sys2Proof.Machine

/-- The response of a grant reaches its requester. -/
def answer (r : Nat × Word) (s : State) : State := { s with bpm := { s.bpm with answer := r } }

/-- ALLOC by pool or by size for a requester (R394, R395); a pool number above 7 names no enabled pool. -/
def allocFor (req : Nat) (byPool : Bool) (arg : Nat) (spill share : Bool) (s : State) : Nat × Word × State :=
  if byPool then allocAt s req (arg % 8) spill share true else allocSize s req arg spill share true

/-- The pool whose arbiter an ALLOC goes to, if any (R395). -/
def allocPool (byPool : Bool) (arg : Nat) (s : State) : Option Nat :=
  if byPool then some (arg % 8) else if arg = 0 ∨ 268435456 < arg then none else poolForSize s arg

/-- A request on a pool's arbiter is not held behind the compositor's hold queue (R20). -/
def poolFreeToGrant (p : Option Nat) (s : State) : Bool :=
  match p with
  | none => true
  | some q => !holdWaiting s q

/-- The requester IDs a unit acts under (R397): 6, 7 and 25 to 63 are never used. -/
def usedRequester (r : Nat) : Bool := decide (r < 25) && r != 6 && r != 7

/-- ALLOC (R394). One made by an engine unit sets SHARE = 1 whatever it asks (R397). -/
def execAlloc (requester : Nat) (byPool : Bool) (arg : Nat) (spillUp share : Bool) (s : State) : Out :=
  done s (State.when (usedRequester requester && s.domOn 1 && poolFreeToGrant (allocPool byPool arg s) s) (fun t =>
    let (st, h, t1) := allocFor requester byPool arg spillUp (share || requester != 0) t
    answer (st, h) t1) s)

/-- RETAIN (R394). -/
def execRetain (requester : Nat) (handle : Word) (s : State) : Out :=
  done s (State.when (usedRequester requester && s.domOn 1 && poolFreeToGrant (some (hPool handle)) s) (fun t =>
    let (st, t1) := bpmRetain (noteGrant t (hPool handle) requester) requester handle
    answer (st, handle) t1) s)

/-- RELEASE (R394). -/
def execRelease (requester : Nat) (handle : Word) (s : State) : Out :=
  done s (State.when (usedRequester requester && s.domOn 1 && poolFreeToGrant (some (hPool handle)) s) (fun t =>
    let (st, t1) := bpmRelease (noteGrant t (hPool handle) requester) requester handle
    answer (st, handle) t1) s)

/-- FREE (R394, R396). -/
def execFree (requester : Nat) (handle : Word) (s : State) : Out :=
  done s (State.when (usedRequester requester && s.domOn 1 && poolFreeToGrant (some (hPool handle)) s) (fun t =>
    let (st, t1) := bpmFree (noteGrant t (hPool handle) requester) requester handle
    answer (st, handle) t1) s)

/-! ## BUFFER_OP (R401 to R403) -/

/-- The ring of a job is a control ring (R62). -/
def onControlRing (s : State) (j : Job) : Bool := decide (j.sq < 512) && bitAt 1 (s.reg (HQ_SQ_CFG j.sq))

/-- A job R55 refuses whatever its opcode: a reserved FLAGS bit or a bit of word 1 [31:16], or a control ring that
carries it. -/
def headerBad (s : State) (j : Job) : Bool :=
  decide (4 ≤ j.flags) || decide (bitsOf 31 16 (j.w 1) ≠ 0)
    || (onControlRing s j && j.opcode != opFence && j.opcode != opAbort)

/-- A QUEUED job may leave QUEUED (R46, R53). -/
def mayStart (s : State) (j : Job) : Bool :=
  decide (j.st = .queued) && !j.damaged && (!j.afterPrev || prevDone s j)
    && !earlierSame s j (fun e => decide (e.st = .queued) && !e.damaged)

/-- Result words of a BUFFER_OP refused with INTERNAL (R401): the handle given, none for an ALLOC. -/
def bufferEcho (j : Job) : List Word := if decide (1 ≤ j.context) && decide (j.context ≤ 3) then [j.w 2] else []

/-- The BUFFER_OP at `slot` is granted with its completion record (R402). -/
def bufferOp (slot op : Nat) (body : Job → State → Nat × Word × State) (s : State) : State :=
  let j := s.job slot
  State.when (j.opcode == opBufferOp && j.context == op && mayStart s j && s.domOn 1) (fun t =>
    match tagCheck slot t with
    | (false, t1) => t1
    | (true, t1) =>
      if headerBad t1 j || decide (bitsOf 31 6 (j.w 3) ≠ 0) then completeNow slot stInternal (bufferEcho j) t1
      else
        let (st, h, t2) := body j t1
        completeNow slot st [h] t2) s

/-- BUFFER_OP_ALLOC: by size or by pool; with BY_POOL the size word is reserved (R401). -/
def execBufferOpAlloc (slot : Nat) (s : State) : Out :=
  let j := s.job slot
  let byPool := bitAt 3 (j.w 3)
  let arg := if byPool then bitsOf 2 0 (j.w 3) else (j.w 2).toNat
  done s (State.when (poolFreeToGrant (allocPool byPool arg s) s) (bufferOp slot 0 (fun j t =>
    if byPool && j.w 2 != 0 then (stInternal, 0, t)
    else allocFor 0 byPool arg (bitAt 4 (j.w 3)) (bitAt 5 (j.w 3)) t)) s)

/-- BUFFER_OP_RETAIN. -/
def execBufferOpRetain (slot : Nat) (s : State) : Out :=
  done s (State.when (poolFreeToGrant (some (hPool ((s.job slot).w 2))) s) (bufferOp slot 1 (fun j t =>
    let (st, t1) := bpmRetain (noteGrant t (hPool (j.w 2)) 0) 0 (j.w 2)
    (st, j.w 2, t1))) s)

/-- BUFFER_OP_RELEASE. -/
def execBufferOpRelease (slot : Nat) (s : State) : Out :=
  done s (State.when (poolFreeToGrant (some (hPool ((s.job slot).w 2))) s) (bufferOp slot 2 (fun j t =>
    let (st, t1) := bpmRelease (noteGrant t (hPool (j.w 2)) 0) 0 (j.w 2)
    (st, j.w 2, t1))) s)

/-- BUFFER_OP_FREE. -/
def execBufferOpFree (slot : Nat) (s : State) : Out :=
  done s (State.when (poolFreeToGrant (some (hPool ((s.job slot).w 2))) s) (bufferOp slot 3 (fun j t =>
    let (st, t1) := bpmFree (noteGrant t (hPool (j.w 2)) 0) 0 (j.w 2)
    (st, j.w 2, t1))) s)

/-! ## Pools (R386, R387, R414) -/

/-- A pool configuration write is refused (R386). -/
def poolRefuse (p : Nat) (s : State) : State := (s.setBit BPM_ERR 0).wr BPM_ERR BPM_ERR.POOL p

/-- Pool `p`'s table range overlaps that of another enabled pool (R385). -/
def poolOverlap (s : State) (p first count : Nat) : Bool :=
  (List.range 8).any (fun q => q != p && poolEn s q && decide (first < poolFirst s q + poolCount s q)
    && decide (poolFirst s q < first + count))

/-- POOL_EN: a write of BPM_POOLp_CFG enables or disables the pool, sets its COUNT while disabled, or is refused
(R386). -/
def execPoolEn (pool : Nat) (data : Word) (s : State) : Out :=
  done s (State.when (decide (pool < 8) && s.domOn 1) (fun t =>
    let count := bitsOf 20 0 data
    let first := poolFirst t pool
    match poolEn t pool, bitAt 31 data with
    | false, false => t.setReg (BPM_POOL_CFG pool) (BitVec.ofNat 32 count)
    | false, true =>
      if count = 0 ∨ 1048576 < first + count ∨ poolOverlap t pool first count = true
          ∨ bitAt 0 (t.raw (BPM_POOL_RING_LO pool)) = false ∨ bitAt 0 (t.raw (BPM_POOL_BASE_LO pool)) = false
      then poolRefuse pool t
      else
        let t1 := setRing (setCache (t.setReg (BPM_POOL_CFG pool) (BitVec.ofNat 32 (count + 2 ^ 31))) pool []) pool 0 0
        poolFreeChanged { t1 with bpm := { t1.bpm with
            withdrawn := t1.bpm.withdrawn.filter (fun e => decide (e < first) || decide (first + count ≤ e))
            initing := pool :: t1.bpm.initing } } pool
    | true, true => t
    | true, false =>
      if (t.raw (BPM_POOL_ALLOCATED pool)).toNat ≠ 0 then poolRefuse pool t
      else
        let t1 := setRing (setCache (t.wr (BPM_POOL_CFG pool) BPM_POOL_CFG.EN 0) pool []) pool 0 0
        poolFreeChanged { t1.clrBit (BPM_POOL_STATUS pool) 21 with
          bpm := { t1.bpm with initing := t1.bpm.initing.filter (fun q => q != pool) } } pool) s)

/-- POOL_READY: the pool's table entries are zero with its number, the ring holds its indices in ascending order, and
READY sets (R386). -/
def execPoolReady (pool : Nat) (s : State) : Out :=
  done s (State.when (s.bpm.initing.contains pool) (fun t =>
    let n := poolCount t pool
    let blank := mkEntry false false 0 0 0 pool
    let t1 := { t with bpm := { t.bpm with
      bst := tabSetRange (fun _ => 0) t.bpm.bst (poolFirst t pool) (List.replicate n blank)
      initing := t.bpm.initing.filter (fun q => q != pool) } }
    let t2 := dramWrWords bpmPort t1 (poolRing t1 pool) ((List.range n).map (fun i => BitVec.ofNat 32 i))
    poolLow ((setRing t2 pool 0 n).setBit (BPM_POOL_STATUS pool) 21) pool) s)

/-- CACHE_REFILL: a cache below 8 handles reads 16 from its ring (R387). -/
def execCacheRefill (pool : Nat) (s : State) : Out :=
  done s (State.when (poolReady s pool && decide ((poolCache s pool).length < 8) && decide (0 < poolRingLen s pool))
    (fun t => refill t pool) s)

/-- CACHE_WRITE_BACK: a cache above 24 handles writes its 16 newest to the ring (R387). -/
def execCacheWriteBack (pool : Nat) (s : State) : Out :=
  done s (State.when (poolReady s pool && decide (24 < (poolCache s pool).length)) (fun t => writeBack t pool) s)

/-- MIN_FREE_CLR: MIN_FREE takes the current FREE (R414). -/
def execMinFreeClr (pool : Nat) (data : Word) (s : State) : Out :=
  done s (State.when (decide (pool < 8) && bitAt 31 data && s.domOn 1) (fun t =>
    t.wr (BPM_POOL_MIN_FREE pool) BPM_POOL_MIN_FREE.MIN_FREE (poolFree t pool)) s)

/-- MISUSE_CLR: BPM_MISUSE_INFO.CLR clears OVERRUN (R414). -/
def execMisuseClr (data : Word) (s : State) : Out :=
  done s (State.when (bitAt 31 data && s.domOn 1) (fun t => t.wr BPM_MISUSE_INFO BPM_MISUSE_INFO.OVERRUN 0) s)

end Sys2Proof.Machine
end

