-- ==== Sys2Proof/Machine/Cipher.lean ====
section
/-!
DEFINITION. AES-128 and the two protection schemes of ISO/IEC 23001-7 that ingress decrypts (R370): the cipher of FIPS 197
over bytes as numbers, cenc in counter mode and cbcs in chained blocks under the pattern 1 : 9.
-/
namespace Sys2Proof.Machine

/-! ## The field of FIPS 197 -/

def xtime (x : Nat) : Nat := if x < 128 then 2 * x else Nat.xor (2 * x - 256) 0x1B

/-- Product in GF(2^8), over the `n` low bits of `y`. -/
def gmulBits : Nat → Nat → Nat → Nat
  | 0, _, _ => 0
  | n + 1, x, y => Nat.xor (if y % 2 = 1 then x else 0) (gmulBits n (xtime x) (y / 2))
def gmul (x y : Nat) : Nat := gmulBits 8 x y

/-- The inverse in GF(2^8), 0 for 0: the power 254. -/
def ginv (x : Nat) : Nat :=
  let x2 := gmul x x
  let x3 := gmul x2 x
  let x6 := gmul x3 x3
  let x12 := gmul x6 x6
  let x15 := gmul x12 x3
  let x30 := gmul x15 x15
  let x60 := gmul x30 x30
  let x120 := gmul x60 x60
  let x126 := gmul x120 x6
  let x127 := gmul x126 x
  gmul x127 x127

def rotByte (n x : Nat) : Nat := (x * 2 ^ n + x / 2 ^ (8 - n)) % 256

def sbox (x : Nat) : Nat :=
  let b := ginv x
  Nat.xor (Nat.xor (Nat.xor (Nat.xor (Nat.xor b (rotByte 1 b)) (rotByte 2 b)) (rotByte 3 b)) (rotByte 4 b)) 0x63

def invSbox (y : Nat) : Nat := ginv (Nat.xor (Nat.xor (Nat.xor (rotByte 1 y) (rotByte 3 y)) (rotByte 6 y)) 0x05)

/-! ## AES-128 -/

def xorBytes (a b : List Nat) : List Nat := (a.zip b).map (fun p => Nat.xor p.1 p.2)

/-- The next four bytes of the key schedule: the last round key and the round constant give the next round key. -/
def nextKey (rcon : Nat) (k : List Nat) : List Nat :=
  let g := fun (i : Nat) => k.getD i 0
  let t := [Nat.xor (sbox (g 13)) rcon, sbox (g 14), sbox (g 15), sbox (g 12)]
  let w0 := xorBytes (k.take 4) t
  let w1 := xorBytes ((k.drop 4).take 4) w0
  let w2 := xorBytes ((k.drop 8).take 4) w1
  let w3 := xorBytes (k.drop 12) w2
  w0 ++ w1 ++ w2 ++ w3

/-- The round keys after the first, `n` of them. -/
def roundKeys : Nat → Nat → List Nat → List (List Nat)
  | 0, _, _ => []
  | n + 1, rcon, k => let k' := nextKey rcon k; k' :: roundKeys n (xtime rcon) k'

/-- Row r of the state moves left by r columns; right for the inverse. -/
def shiftRows (inv : Bool) (s : List Nat) : List Nat :=
  (List.range 16).map (fun i => s.getD ((i % 4) + 4 * ((i / 4 + (if inv then 4 - i % 4 else i % 4)) % 4)) 0)

/-- Each column times the circulant of the four coefficients. -/
def mixColumns (c : List Nat) (s : List Nat) : List Nat :=
  (List.range 16).map (fun i => ((List.range 4).map (fun j =>
    gmul (c.getD ((j + 4 - i % 4) % 4) 0) (s.getD (i / 4 * 4 + j) 0))).foldl Nat.xor 0)

/-- Rounds of the cipher; the last has no column mixing. -/
def encRounds : List (List Nat) → List Nat → List Nat
  | [], s => s
  | [k], s => xorBytes (shiftRows false (s.map sbox)) k
  | k :: ks, s => encRounds ks (xorBytes (mixColumns [2, 3, 1, 1] (shiftRows false (s.map sbox))) k)

/-- AES-128 of one block. -/
def aesEnc (key block : List Nat) : List Nat := encRounds (roundKeys 10 1 key) (xorBytes block key)

/-- Inverse rounds, the keys in reverse order. -/
def decRounds : List (List Nat) → List Nat → List Nat
  | [], s => s
  | [k], s => xorBytes ((shiftRows true s).map invSbox) k
  | k :: ks, s => decRounds ks (mixColumns [14, 11, 13, 9] (xorBytes ((shiftRows true s).map invSbox) k))

/-- The inverse cipher of one block. -/
def aesDec (key block : List Nat) : List Nat :=
  match (key :: roundKeys 10 1 key).reverse with
  | [] => block
  | k :: ks => decRounds ks (xorBytes block k)

/-! ## The schemes (R370) -/

def bytesNum (bs : List Byte) : List Nat := bs.map (fun b => b.toNat)
def numBytes (ns : List Nat) : List Byte := ns.map (fun n => BitVec.ofNat 8 n)
/-- A number as `n` bytes, the highest first. -/
def bigEndian (n x : Nat) : List Nat := (bytesNum (natBytes n x)).reverse

/-- cenc: `n` whole blocks in counter mode from block counter `ctr`; the tail is clear. -/
def cencBlocks (key iv : List Nat) : Nat → Nat → List Byte → List Byte
  | 0, _, bs => bs
  | n + 1, ctr, bs =>
    numBytes (xorBytes (bytesNum (bs.take 16)) (aesEnc key (iv ++ bigEndian 8 ctr)))
      ++ cencBlocks key iv n (ctr + 1) (bs.drop 16)

/-- cbcs: block `i` of a region and on, `n` whole blocks: one in ten is encrypted, chained to the last encrypted one. -/
def cbcsBlocks (key : List Nat) : Nat → Nat → List Nat → List Byte → List Byte
  | 0, _, _, bs => bs
  | n + 1, i, prev, bs =>
    if i % 10 = 0 then
      let c := bytesNum (bs.take 16)
      numBytes (xorBytes (aesDec key c) prev) ++ cbcsBlocks key n (i + 1) c (bs.drop 16)
    else bs.take 16 ++ cbcsBlocks key n (i + 1) prev (bs.drop 16)

end Sys2Proof.Machine
end

