-- ==== Sys2Proof/Machine/Clock.lean ====
section
/-!
DEFINITION. The frame clock (R17, R332): the period of each RATE code, the rate in force, and the count of overdraw and
lamps it allows (R21, R224).
-/
namespace Sys2Proof.Machine

/-- PERIOD_INT of a RATE code (R332). -/
def rateInt (c : Nat) : Nat :=
  match c with
  | 0 => 50050000 | 1 => 50000000 | 2 => 48000000 | 3 => 40040000 | 4 => 40000000 | 5 => 25000000 | 6 => 24000000
  | 7 => 20020000 | 8 => 20000000 | 9 => 12000000 | 10 => 10010000 | 11 => 10000000 | 12 => 8333333 | 13 => 5000000
  | _ => 0

/-- PERIOD_FRAC of a RATE code (R332). -/
def rateFrac (c : Nat) : Nat := if c = 12 then 0x55555555 else 0

/-- The nominal period of a code in units of 2^-32 CLK_PIX cycles (R332). -/
def ratePeriod (c : Nat) : Nat := rateInt c * 2 ^ 32 + rateFrac c

/-- The rate in force. -/
def rateNow (s : State) : Nat := s.rd PLK_FRAME_STATUS PLK_FRAME_STATUS.RATE

/-- The nominal period in force, in units of 2^-32 cycles. -/
def periodNow (s : State) : Nat := ratePeriod (rateNow s)

/-- Frames per second of a code times 2^-32, as a fraction: numerator and denominator. -/
def rateHz (c : Nat) : Nat × Nat := (1200000000 * 2 ^ 32, ratePeriod c)

/-- The overdraw allowance A of a code (R224). -/
def allowance (c : Nat) : Nat := ratePeriod c * 268435456 / (10000000 * 2 ^ 32)

/-- `lamps` lamps are within R21 and the variant's figures of R8 at a rate code: the count, and lamps times frames per
second. -/
def lampsFit (v : Variant) (lamps c : Nat) : Bool :=
  decide (lamps ≤ maxLamps v) && decide (lamps * (1200000000 * 2 ^ 32) ≤ maxLampRate v * ratePeriod c)

end Sys2Proof.Machine
end

