-- ==== Sys2Proof/Machine/Framing.lean ====
section
/-!
DEFINITION. The parse units of a DECODE_UNIT by the context's FRAMING (R75, R119): where each NAL unit or OBU lies in the
job's bytes. The formats are the standards' own (assumption 115).
-/
namespace Sys2Proof.Machine

/-- NAL units between start codes: `i` counts bytes, `z` the zero bytes just read, `cur` is where the unit begun starts.
Zero bytes before a start code or at the end belong to no unit. -/
def startCodeSpans : Nat → Nat → Option Nat → List Byte → List (Nat × Nat)
  | i, z, cur, [] =>
    match cur with
    | none => []
    | some a => if a + z < i then [(a, i - z - a)] else []
  | i, z, cur, b :: bs =>
    if b.toNat = 0 then startCodeSpans (i + 1) (z + 1) cur bs
    else if b.toNat = 1 ∧ 2 ≤ z then
      (match cur with
        | none => []
        | some a => if a + z < i then [(a, i - z - a)] else []) ++ startCodeSpans (i + 1) 0 (some (i + 1)) bs
    else startCodeSpans (i + 1) 0 cur bs

/-- NAL units behind 4-byte big-endian length prefixes; a prefix of zero holds none, and one beyond the end of the bytes
ends with them. -/
def prefixSpans : Nat → Nat → List Byte → List (Nat × Nat)
  | 0, _, _ => []
  | fuel + 1, i, bs =>
    if bs.length < 4 then []
    else
      let n := bytesNat (bs.take 4).reverse
      let k := min n (bs.length - 4)
      (if k = 0 then [] else [(i + 4, k)]) ++ prefixSpans fuel (i + 4 + n) (bs.drop (4 + n))

/-- A leb128() number at the head of the bytes, at most `fuel` bytes of it: its value and length. -/
def lebRead : Nat → List Byte → Nat × Nat
  | 0, _ => (0, 0)
  | _ + 1, [] => (0, 0)
  | fuel + 1, b :: bs =>
    if b.toNat < 128 then (b.toNat, 1)
    else
      let (v, n) := lebRead fuel bs
      (b.toNat % 128 + 128 * v, n + 1)

/-- Bytes of the OBU at the head of the bytes in the low-overhead format: its header, its obu_size field and that many
bytes; one without a size field runs to the end. -/
def obuBytes (bs : List Byte) : Nat :=
  let b0 := (bs.getD 0 0).toNat
  let hdr := 1 + b0 / 4 % 2
  if b0 / 2 % 2 = 0 then bs.length
  else
    let (v, n) := lebRead 8 (bs.drop hdr)
    min bs.length (hdr + n + v)

/-- OBUs in the low-overhead format. -/
def obuSpans : Nat → Nat → List Byte → List (Nat × Nat)
  | 0, _, _ => []
  | fuel + 1, i, bs =>
    if bs.isEmpty then []
    else (i, obuBytes bs) :: obuSpans fuel (i + obuBytes bs) (bs.drop (obuBytes bs))

/-- OBUs in the length-delimited format: temporal units of `t` bytes still to come hold frame units of `f` bytes still to
come, which hold OBUs, each behind its length. -/
def annexBSpans : Nat → Nat → Nat → Nat → List Byte → List (Nat × Nat)
  | 0, _, _, _, _ => []
  | fuel + 1, i, t, f, bs =>
    if bs.isEmpty then []
    else
      let (v, n) := lebRead 8 bs
      let rest := bs.drop n
      if f = 0 ∧ t = 0 then annexBSpans fuel (i + n) v 0 rest
      else if f = 0 then annexBSpans fuel (i + n) (t - n - v) v rest
      else
        let k := min v rest.length
        (if k = 0 then [] else [(i + n, k)]) ++ annexBSpans fuel (i + n + v) t (f - n - v) (rest.drop v)

/-- The parse units of a job's bytes: start and length of each (R75, R119). -/
def unitSpans (codec framing : Nat) (bs : List Byte) : List (Nat × Nat) :=
  if codec = 1 then
    (if framing = 2 then annexBSpans (2 * bs.length + 2) 0 0 0 bs else obuSpans bs.length 0 bs)
  else if framing = 1 then prefixSpans bs.length 0 bs
  else startCodeSpans 0 0 none bs

/-- Remove emulation-prevention bytes: a 3 after two zero bytes (R128). -/
def stripEpb : Nat → List Byte → List Byte
  | _, [] => []
  | z, b :: bs =>
    if 2 ≤ z ∧ b.toNat = 3 then stripEpb 0 bs
    else b :: stripEpb (if b.toNat = 0 then z + 1 else 0) bs

/-- Insert emulation-prevention bytes (R128). -/
def addEpb : Nat → List Byte → List Byte
  | _, [] => []
  | z, b :: bs =>
    if 2 ≤ z ∧ b.toNat < 4 then 3 :: b :: addEpb (if b.toNat = 0 then 1 else 0) bs
    else b :: addEpb (if b.toNat = 0 then z + 1 else 0) bs

end Sys2Proof.Machine
end

