-- ==== Sys2Proof/Machine/Streams.lean ====
section
/-!
DEFINITION. Stream contexts, the picture progress table and frame-buffer slots (R74 to R106, R152 to R175): opening and
closing a stream, DECODE_UNIT jobs as the stream context scheduler sees them, publication, and what a lock gate releases.
-/
namespace Sys2Proof.Machine

def stContextState : Nat := 0x44
def stPptFull : Nat := 0x45
def stGangTiles : Nat := 0x46

/-! ## The picture progress table (R95 to R99) -/

def ppt (s : State) (e j : Nat) : Word := s.raw (DS_PPT e j)

/-- Write all eight words of an entry (R98). -/
def pptPut (e : Nat) (ws : List Word) (s : State) : State :=
  foldS (fun j t => t.setReg (DS_PPT e j) (wordAt ws j)) (List.range 8) s

/-- A watermark update writes word 1 only (R98). -/
def pptRows (e rows : Nat) (s : State) : State := s.wr (DS_PPT e 1) ⟨0, 16⟩ rows

/-- States of an entry (R96). -/
def peEmpty : Nat := 0
def peDecoding : Nat := 1
def peComplete : Nat := 2
def peAbandoned : Nat := 3

def pptState (s : State) (e : Nat) : Nat := bitsOf 2 0 (ppt s e 2)
def pptSetState (e st : Nat) (s : State) : State := s.wr (DS_PPT e 2) ⟨0, 3⟩ st
def pptDamaged (e : Nat) (s : State) : State := s.wr (DS_PPT e 2) ⟨3, 1⟩ 1
def pptSeq (s : State) (e : Nat) : Nat := bitsOf 15 0 (ppt s e 3)
def pptRowsDone (s : State) (e : Nat) : Nat := bitsOf 15 0 (ppt s e 1)
def pptRowCount (s : State) (e : Nat) : Nat := bitsOf 31 16 (ppt s e 1)

/-- An entry is in the free set. -/
def entryFree (s : State) (e : Nat) : Bool := tabGet (fun _ => 0) s.dec.owner e == 0

/-- The lowest free aligned run of `n` entries (R76, R203). -/
def freeRun (s : State) (n : Nat) : Option Nat :=
  ((List.range (512 / n)).map (fun i => i * n)).find? (fun b => (List.range n).all (fun i => entryFree s (b + i)))

/-- Entries `base` to `base + n - 1` belong to owner `who`. -/
def takeRun (base n who : Nat) (s : State) : State :=
  { s with dec := { s.dec with owner := tabSetRange (fun _ => 0) s.dec.owner base (List.replicate n (who + 1)) } }

/-- A run of entries returns to the free set as EMPTY (R77, R203). -/
def returnRun (base n : Nat) (s : State) : State :=
  foldS (fun i t => pptPut (base + i) [] t) (List.range n)
    { s with dec := { s.dec with owner := tabSetRange (fun _ => 0) s.dec.owner base (List.replicate n 0) } }

/-! ## Pictures in memory (R103 to R105) -/

/-- Bytes of a line of `w` samples (R104). -/
def lineBytes (w : Nat) (bits10 : Bool) : Nat := if bits10 then (w + 3) / 4 * 5 else w

/-- STRIDE (R104). -/
def strideOf (w : Nat) (bits10 : Bool) : Nat := (lineBytes w bits10 + 63) / 64 * 64

/-- Bytes of a frame buffer's planes (R103). -/
def pictureBytes (w h chroma : Nat) (bits10 : Bool) : Nat :=
  strideOf w bits10 * (match chroma with | 0 => h | 1 => h + h / 2 | 2 => 2 * h | _ => 3 * h)

/-- The lines of picture row `r` of 2^`ctu` luma lines, in memory order: byte offsets from the buffer start (R103). -/
def rowLines (w h chroma : Nat) (bits10 : Bool) (ctu r : Nat) : List Nat :=
  let st := strideOf w bits10
  let n := 2 ^ ctu
  let ys := (List.range n).map (fun i => r * n + i)
  let luma := (ys.filter (fun y => decide (y < h))).map (fun y => y * st)
  let plane := fun (k : Nat) => (ys.filter (fun y => decide (y < h))).map (fun y => k * st * h + y * st)
  match chroma with
  | 0 => luma
  | 1 => luma ++ (((List.range (n / 2)).map (fun i => r * (n / 2) + i)).filter (fun y => decide (y < h / 2))).map
      (fun y => st * h + y * st)
  | 2 => luma ++ plane 1
  | _ => luma ++ plane 1 ++ plane 2

/-! ## Contexts -/

def ctxOf (s : State) (c : Nat) : Option Ctx := tabGet (fun _ => none) s.dec.ctxs c
def setCtx (c : Nat) (x : Option Ctx) (s : State) : State :=
  { s with dec := { s.dec with ctxs := tabSet (fun _ => none) s.dec.ctxs c x } }
def modCtx (c : Nat) (f : Ctx → Ctx) (s : State) : State :=
  match ctxOf s c with
  | none => s
  | some x => setCtx c (some (f x)) s

def picOf (s : State) (c : Nat) : Option DecPic := tabGet (fun _ => none) s.dec.pics c
def setPic (c : Nat) (x : Option DecPic) (s : State) : State :=
  { s with dec := { s.dec with pics := tabSet (fun _ => none) s.dec.pics c x } }

/-- The fields of STREAM_OPEN (R75). -/
def Ctx.codec (x : Ctx) : Nat := bitsOf 3 0 (wordAt x.words 2)
def Ctx.maxW (x : Ctx) : Nat := bitsOf 15 0 (wordAt x.words 3)
def Ctx.maxH (x : Ctx) : Nat := bitsOf 31 16 (wordAt x.words 3)
def Ctx.conceal (x : Ctx) : Nat := bitsOf 1 0 (wordAt x.words 4)
def Ctx.width (x : Ctx) : Nat := 2 ^ bitsOf 3 2 (wordAt x.words 4)
def Ctx.prio (x : Ctx) : Nat := bitsOf 5 4 (wordAt x.words 4)
def Ctx.entries (x : Ctx) : Nat := 2 ^ bitsOf 7 6 (wordAt x.words 4)
def Ctx.pool (x : Ctx) : Nat := bitsOf 3 0 (wordAt x.words 5)
def Ctx.spill (x : Ctx) : Bool := bitAt 4 (wordAt x.words 5)
def Ctx.fbMax (x : Ctx) : Nat := bitsOf 9 5 (wordAt x.words 5)
def Ctx.framing (x : Ctx) : Nat := bitsOf 1 0 (wordAt x.words 6)
def Ctx.mask (x : Ctx) : Nat := bitsOf 3 0 (wordAt x.words 7)

/-- A DECODE_UNIT the scheduler has seen still waits (its job may have been aborted or discarded). -/
def unitLive (s : State) (u : UnitJob) : Bool :=
  let j := s.job u.ref.slot
  decide (j.st = .queued) && j.seq == u.ref.seq

def waitingOf (s : State) (x : Ctx) : List UnitJob := x.waiting.filter (unitLive s)

/-- The scheduler accepts a job it has seen: it is RUNNING (R50). -/
def acceptRef (r : JobRef) (s : State) : State :=
  let j := s.job r.slot
  if decide (j.st = .queued) && j.seq == r.seq then s.setJob r.slot { j with st := .running, begun := true } else s

/-- A queued job is accepted and completes at once. -/
def refuseRef (r : JobRef) (status : Nat) (s : State) : State := presentRef r status [] (acceptRef r s)

/-! ## The damage map (R171, R172) -/

/-- Bytes of a map row of `c` codes. -/
def mapRowBytes (c : Nat) : Nat := (c + 255) / 256 * 64

/-- Row `r` of a damage map. -/
def mapRow (damage : Tab Nat) (c r : Nat) : List Byte :=
  (List.range (mapRowBytes c)).map (fun i =>
    BitVec.ofNat 8 ((List.range 4).foldl (fun acc k =>
      if 4 * i + k < c then acc + tabGet (fun _ => 0) damage (r * c + 4 * i + k) * 4 ^ k else acc) 0))

/-- Write rows `r0` to `r1 - 1` of the map of entry `e`. -/
def writeMap (port e : Nat) (damage : Tab Nat) (c r0 r1 : Nat) (s : State) : State :=
  if bitAt 0 (s.raw DS_DMG_BASE_LO) then
    let base := bitsOf 31 20 (s.raw DS_DMG_BASE_LO) * 2 ^ 20 + (s.raw DS_DMG_BASE_HI).toNat * 2 ^ 32
    foldS (fun i t => dramWr port t (base + e * 0x40000 + (r0 + i) * mapRowBytes c) (mapRow damage c (r0 + i)))
      (List.range (r1 - r0)) s
  else s

/-! ## Slots and publication (R99, R100, R152 to R160) -/

/-- Slots that reach NONREF with OUTPUT_PENDING clear: a published one goes to GATE, another is released (R153). DESIGN
CHOICE (assumption 112): the RELEASE of a context's own hold always carries requester ID 8 (DS0); R397 does not say under
which slice's ID a context acts. -/
def settleSlots (c : Nat) (s : State) : State :=
  match ctxOf s c with
  | none => s
  | some x =>
    let out := fun (f : FbSlot) => decide (f.st = .held) && decide (f.mark = .nonref) && !f.output
    let kept := (x.slots.filter (fun f => !out f || f.published)).map (fun f => if out f then { f with st := .gate } else f)
    foldS (fun f t => releaseS 8 f.handle t) (x.slots.filter (fun f => out f && !f.published))
      (setCtx c (some { x with slots := kept }) s)

/-- Replace the slots of a context by a function of each. -/
def mapSlots (c : Nat) (f : FbSlot → FbSlot) (s : State) : State :=
  modCtx c (fun x => { x with slots := x.slots.map f }) s

/-- A slot's picture damaged anywhere. -/
def FbSlot.damaged (f : FbSlot) : Bool := !f.damage.isEmpty

/-- Entry words for a slot's picture in a given state. -/
def slotWords (f : FbSlot) (st seq : Nat) : List Word :=
  let rows := bitsOf 31 16 (wordAt f.words 1)
  let done := if st = peComplete then rows else 0
  [wordAt f.words 0, BitVec.ofNat 32 (done + rows * 2 ^ 16),
    fput ⟨3, 1⟩ (fput ⟨0, 3⟩ (wordAt f.words 2) st) f.damaged.toNat, BitVec.ofNat 32 seq, wordAt f.words 4,
    wordAt f.words 5, wordAt f.words 6, wordAt f.words 7]

/-- Map row codes of a slot's picture. -/
def slotCols (f : FbSlot) : Nat :=
  let n := 2 ^ bitsOf 8 6 (wordAt f.words 2)
  (bitsOf 15 0 (wordAt f.words 4) + n - 1) / n

/-- Publish the picture of the context's slot `h` with entry state `st` (R95, R98, R99): the picture the entry named
before is named no longer. Answers the entry and PIC_SEQ. -/
def publish (c : Nat) (h : Word) (st : Nat) (s : State) : Option (Nat × Nat) × State :=
  match ctxOf s c with
  | none => (none, s)
  | some x =>
    match x.slots.find? (fun f => f.handle == h) with
    | none => (none, s)
    | some f =>
      let e := x.pptBase + x.picSeq % x.entries
      let upd := fun (g : FbSlot) =>
        if g.handle == h then { g with published := true, entry := some e }
        else if g.entry = some e then { g with entry := none, output := false } else g
      let s1 := setCtx c (some { x with slots := x.slots.map upd, picSeq := (x.picSeq + 1) % 65536 }) s
      let s2 := pptPut e (slotWords f st x.picSeq) s1
      let s3 := if st = peComplete then
          writeMap (x.gang.headD 0) e f.damage (slotCols f) 0 (bitsOf 31 16 (wordAt f.words 1))
            (if f.damaged then s2.inc DS_CONCEAL_PICS DS_CONCEAL_PICS.PICTURES else s2)
        else s2
      (some (e, x.picSeq), settleSlots c s3)

/-- The first pending picture in output order (R81). -/
def nextPending (x : Ctx) : Option FbSlot :=
  (x.slots.filter (fun f => f.output && !f.published && decide (f.st = .held))).foldl (fun (acc : Option FbSlot) f =>
    match acc with
    | none => some f
    | some g => if f.outOrder < g.outOrder then some f else acc) none

/-- Publish the next pending picture, if any, COMPLETE: its slot, entry and PIC_SEQ. -/
def publishNext (c : Nat) (s : State) : Option (FbSlot × Nat × Nat) × State :=
  match (ctxOf s c).bind nextPending with
  | none => (none, s)
  | some f =>
    match publish c f.handle peComplete s with
    | (some (e, q), s1) => (some (f, e, q), s1)
    | (none, s1) => (none, s1)

/-- Publish every pending picture in output order (R77). -/
def publishAll : Nat → Nat → State → State
  | 0, _, s => s
  | n + 1, c, s =>
    match publishNext c s with
    | (none, s1) => s1
    | (some _, s1) => publishAll n c s1

/-- Result words 2 to 6 of a DECODE_UNIT (R79). -/
def unitResults (out : Option (Word × Nat × Nat × Nat)) (damaged : Nat) : List Word :=
  match out with
  | none => [0, 0, 0, 0, BitVec.ofNat 32 (damaged % 2 ^ 20)]
  | some (h, e, q, ts) =>
    [h, BitVec.ofNat 32 (e + 2 ^ 15 + q * 2 ^ 16), BitVec.ofNat 32 ts, BitVec.ofNat 32 (ts / 2 ^ 32),
      BitVec.ofNat 32 (damaged % 2 ^ 20)]

/-! ## Lock gates (R157) -/

/-- A lock gate passes: every GATE slot waits only for that gate's RETAINs now. -/
def gateSlots (s : State) : State :=
  let mark := fun (e : Nat × Option Ctx) => (e.1, e.2.map (fun x => { x with slots := x.slots.map (fun f =>
    if f.st = .gate then { f with passed := true } else f) }))
  { s with dec := { s.dec with ctxs := s.dec.ctxs.map mark,
                               gates := s.dec.gates.map (fun g => { g with passed := true }) } }

/-- GATE_SLOT_RELEASE: the slots and holds whose gate has passed are released (R153, R157). -/
def releasePassed (s : State) : State :=
  let hs := (s.dec.ctxs.map (fun e => match e.2 with
    | none => []
    | some x => (x.slots.filter (fun f => f.passed)).map (fun f => f.handle))).flatten
  let drop := fun (e : Nat × Option Ctx) => (e.1, e.2.map (fun x => { x with slots := x.slots.filter (fun f => !f.passed) }))
  let gs := s.dec.gates.filter (fun g => g.passed)
  let s1 := { s with dec := { s.dec with ctxs := s.dec.ctxs.map drop, gates := s.dec.gates.filter (fun g => !g.passed) } }
  foldS (fun g t => releaseS g.req g.handle t) gs (foldS (fun h t => releaseS 8 h t) hs s1)

/-! ## STREAM_OPEN (R74 to R76) -/

/-- Limits of one slice (R71) or of a gang (R91) on PROFILE, LEVEL and size. -/
def openLimits (codec profile level w h gang : Nat) : Bool :=
  let prof := match codec with | 0 => decide (profile < 4) | _ => decide (profile < 2)
  prof && if gang = 0 then
      decide (w ≤ 8192) && decide (h ≤ 8704) && match codec with
        | 0 => decide (level ≤ 183) && decide (w * h ≤ 35651584)
        | 1 => decide (level ≤ 17) && decide (w * h ≤ 35651584)
        | _ => decide (level ≤ 61) && decide ((w + 15) / 16 * ((h + 15) / 16) ≤ 139264)
    else decide (w ≤ 16384) && decide (h ≤ 8704) && decide (w * h ≤ 141557760)

/-- Slices a gang may have on the variant (R8). -/
def gangLimit (v : Variant) : Nat := match v with | .lzw4480 => 8 | .lzw4460 => 4 | .lzw4430 => 2

/-- The job words of STREAM_OPEN are as R75 allows, and contexts have a base (R74). -/
def openWordsOk (s : State) (j : Job) : Bool :=
  let codec := bitsOf 3 0 (j.w 2)
  let framing := bitsOf 1 0 (j.w 6)
  decide (bitsOf 31 17 (j.w 2) = 0) && decide (bitsOf 31 8 (j.w 4) = 0) && decide (bitsOf 31 10 (j.w 5) = 0)
    && decide (bitsOf 31 2 (j.w 6) = 0) && decide (bitsOf 31 4 (j.w 7) = 0) && j.w 8 == 0 && j.w 9 == 0
    && decide (codec ≤ 2) && !(codec == 2 && bitAt 16 (j.w 2)) && decide (bitsOf 1 0 (j.w 4) ≠ 3)
    && decide (bitsOf 7 6 (j.w 4) ≠ 3) && decide (bitsOf 3 0 (j.w 5) ≤ 7)
    && decide (1 ≤ bitsOf 9 5 (j.w 5)) && decide (bitsOf 9 5 (j.w 5) ≤ 16)
    && (framing == 0 || (framing == 1 && codec != 1) || (framing == 2 && codec == 1))
    && bitAt 0 (s.raw DS_CTX_BASE_LO)

/-- STREAM_OPEN: the checks of R76 in order, then the context is open. -/
def execStreamOpen (slot : Nat) (s : State) : Out :=
  done s (State.when (s.startable slot opStreamOpen) (fun t =>
    let j := t.job slot
    let c := j.context
    let gang := bitsOf 3 2 (j.w 4)
    let codec := bitsOf 3 0 (j.w 2)
    let n := 2 ^ bitsOf 7 6 (j.w 4)
    if !openWordsOk t j then fail slot stInternal t
    else if (ctxOf t c).isSome then fail slot stContextState t
    else if !openLimits codec (bitsOf 7 4 (j.w 2)) (bitsOf 15 8 (j.w 2)) (bitsOf 15 0 (j.w 3)) (bitsOf 31 16 (j.w 3)) gang
      then fail slot stLevelExceeded t
    else if decide (0 < gang) && (codec == 2 || decide (gangLimit t.fuse.variant < 2 ^ gang))
      then fail slot stLevelExceeded t
    else match freeRun t n with
      | none => fail slot stPptFull t
      | some b =>
        let x : Ctx := ⟨j.words, b, 0, [], [], none, []⟩
        present slot stOk [BitVec.ofNat 32 b] (setCtx c (some x) (takeRun b n c t))) s)

/-! ## STREAM_CLOSE (R77, R78, R159) -/

/-- The context closes: marks and OUTPUT_PENDING clear, slots never published are released, published ones wait for
the next lock gate, and the entries are EMPTY. -/
def closeCtx (c : Nat) (s : State) : State :=
  match ctxOf s c with
  | none => s
  | some x =>
    let s1 := returnRun x.pptBase x.entries (setCtx c none s)
    let s2 := { s1 with dec := { s1.dec with gates := s1.dec.gates ++
      (x.slots.filter (fun f => f.published)).map (fun f => ⟨f.handle, 8, f.passed⟩) } }
    foldS (fun f t => releaseS 8 f.handle t) (x.slots.filter (fun f => !f.published)) s2

/-- A context that waits to close does so once it has no unit and no picture left: it publishes every pending picture
first (R77). -/
def tryClose (c : Nat) (s : State) : State :=
  match ctxOf s c with
  | none => s
  | some x =>
    match x.closing with
    | none => s
    | some r =>
      if (waitingOf s x).isEmpty && (picOf s c).isNone
      then presentRef r stOk [0] (closeCtx c (publishAll 16 c s)) else s

/-- The job words of STREAM_CLOSE are as R77 allows. -/
def closeWordsOk (j : Job) : Bool := decide (bitsOf 31 1 (j.w 2) = 0)

/-- STREAM_CLOSE_DRAIN: units already seen are decoded, pending pictures published, and the context closes (R77). -/
def execStreamCloseDrain (slot : Nat) (s : State) : Out :=
  done s (State.when (s.startable slot opStreamClose && !bitAt 0 ((s.job slot).w 2)) (fun t =>
    let j := t.job slot
    if !closeWordsOk j then fail slot stInternal t
    else match ctxOf t j.context with
      | none => fail slot stContextState t
      | some x =>
        if x.closing.isSome then fail slot stContextState t
        else tryClose j.context (setCtx j.context (some { x with closing := some (t.jobRef slot) }) (beginJob slot t))) s)

/-- A slice with nothing in progress. -/
def SliceSt.idle : SliceSt := ⟨none, none, [], none, [], 0, 0, 0, 0, false, false, false⟩

def sliceOf (s : State) (n : Nat) : SliceSt := tabGet (fun _ => SliceSt.idle) s.dec.slices n
def setSlice (n : Nat) (x : SliceSt) (s : State) : State :=
  { s with dec := { s.dec with slices := tabSet (fun _ => SliceSt.idle) s.dec.slices n x } }

/-- Slice `n` lets go of context `c`: its picture, its grant, its rerun and its descriptors. -/
def dropFromSlice (c n : Nat) (s : State) : State :=
  let x := sliceOf s n
  let drop := fun (o : Option Nat) => if o = some c then none else o
  let s1 := if x.cur = some c then (s.wr (DS_STATUS n) DS_STATUS.BUSY 0).wr (DS_STATUS n) DS_STATUS.IN_GANG 0 else s
  setSlice n { x with cur := drop x.cur, next := drop x.next, rerun := x.rerun.filter (fun d => d != c),
                      queue := x.queue.filter (fun d => d.ctx != c) } s1

def hsqIdle : HsqSt :=
  { store := [], parity := [], images := [], load := none, switch := none, unit := none, regs := [], snap := [],
    phase := 0, flags := [], flags0 := [], pos0 := 0, pos := 0, stack := [], cur := [], curLen := 0, closed := [],
    log := [], out := [], cuts := [], copyOf := none, copy := [], checked := [], ending := none, header := none, served := 0,
    queue := [], redo := [] }

def hsqOf (s : State) (q : Nat) : HsqSt := tabGet (fun _ => hsqIdle) s.hsq q
def setHsq (q : Nat) (x : HsqSt) (s : State) : State := { s with hsq := tabSet (fun _ => hsqIdle) s.hsq q x }
def hsqState (s : State) (q : Nat) : Nat := s.rd (HSQ_STATUS q) HSQ_STATUS.STATE

/-- Clear what one unit holds (R122, R123). -/
def HsqSt.clear (h : HsqSt) : HsqSt :=
  { h with unit := none, regs := [], snap := [], phase := 0, flags := [], flags0 := [], pos0 := 0, pos := 0, stack := [],
           cur := [], curLen := 0, closed := [], log := [], out := [], cuts := [], ending := none }

/-- Sequencer `q` stops parsing for context `c`. A unit of it that runs, or waits at END, is discarded as by ABANDON and
without a status, and the sequencer is at a unit boundary; one that recovers from a machine check ends its recovery first
(R120, R123, R137). DESIGN CHOICE (assumption 113): the spec does not say what becomes of a parse unit whose picture an
ABORT or a STREAM_CLOSE ends. -/
def hsqForgetOne (c q : Nat) (s : State) : State :=
  let h := hsqOf s q
  let h1 := { h with queue := h.queue.filter (fun d => d != c), redo := h.redo.filter (fun u => u.header || u.ctx != c) }
  match h1.unit with
  | none => setHsq q h1 s
  | some u =>
    if u.header || u.ctx != c then setHsq q h1 s
    else
      let s1 := setHsq q h1.clear s
      if hsqState s1 q = 1 then s1.wr (HSQ_STATUS q) HSQ_STATUS.STATE 0 else s1

/-- Sequencers stop parsing for context `c`. -/
def hsqForget (c : Nat) (s : State) : State := foldS (hsqForgetOne c) (List.range 4) s

/-- The picture of context `c` leaves the slices and the sequencers, and the bitstreams of its completed units are released
(R79, assumption 135). -/
def dropPic (c : Nat) (s : State) : State :=
  match picOf s c with
  | none => s
  | some p =>
    foldS (releaseS (8 + p.members.headD 0)) p.held (hsqForget c (foldS (dropFromSlice c) p.members (setPic c none s)))

/-- STREAM_ERR on the slices of a picture that ended with the statuses `sts` (R118, R175). -/
def streamErrBits (sts members : List Nat) (s : State) : State :=
  if sts.any (fun st => st == stStreamError || st == stLevelExceeded || st == stGangTiles) then
    foldS (fun n t => t.setBit (DS_IRQ_STATUS n) 6) members s
  else s

/-- DISCONTINUITY: before the first unit of its job, every HELD slot becomes NONREF (R79, R80, R153). -/
def discontinuity (c : Nat) (s : State) : State :=
  settleSlots c (mapSlots c (fun f => if f.st = .held then { f with mark := .nonref } else f) s)

/-- The picture in progress becomes ABANDONED (R99, R102, R153): its rows stand, and it is no reference. DESIGN CHOICE
(assumption 137): one that had DAMAGED set does not count in DS_CONCEAL_PICS, which counts as a picture ends COMPLETE. -/
def abandonPic (c : Nat) (s : State) : State :=
  match picOf s c with
  | none => s
  | some p =>
    let end1 := fun (f : FbSlot) =>
      if f.st = .decoding then { f with st := .held, mark := .nonref, good := false, output := f.output && f.entry.isSome }
      else f
    let s1 := match p.entry with
      | some (e, q) => if pptSeq s e = q ∧ pptState s e = peDecoding then pptSetState e peAbandoned s else s
      | none => s
    settleSlots c (mapSlots c end1 (dropPic c s1))

/-- STREAM_CLOSE_DISCARD: waiting units and the picture in progress end ABORTED, pending pictures are dropped, and the
context closes (R77); the jobs of the picture report its damage count so far (R173). DESIGN CHOICE (assumption 114): a
second STREAM_CLOSE while one waits completes with CONTEXT_STATE, whatever its DISCARD. DESIGN CHOICE (assumption 137): the
picture still being decoded counts among the pictures dropped, where its OUTPUT_PENDING is set and it is not published. -/
def execStreamCloseDiscard (slot : Nat) (s : State) : Out :=
  done s (State.when (s.startable slot opStreamClose && bitAt 0 ((s.job slot).w 2)) (fun t =>
    let j := t.job slot
    let c := j.context
    if !closeWordsOk j then fail slot stInternal t
    else match ctxOf t c with
      | none => fail slot stContextState t
      | some x =>
        if x.closing.isSome then fail slot stContextState t
        else
          let mine := match picOf t c with | none => [] | some p => p.jobs.map (fun k => k.ref)
          let count := match picOf t c with | none => 0 | some p => p.damage.length
          let dropped := x.slots.countP (fun f => f.output && !f.published)
          let t0 := match picOf t c with | none => t | some p => streamErrBits p.errs p.members t
          let t1 := foldS (fun u v => refuseRef u.ref stAborted v) (waitingOf t x) (abandonPic c t0)
          let t2 := foldS (fun r v => presentRef r stAborted (unitResults none count) v) mine t1
          present slot stOk [BitVec.ofNat 32 (dropped % 32)] (closeCtx c t2)) s)

/-! ## DECODE_UNIT (R79 to R81, R85) -/

/-- The words of a DECODE_UNIT. -/
def duHandle (ws : List Word) : Word := wordAt ws 2
def duOffset (ws : List Word) : Nat := (wordAt ws 3).toNat
def duLength (ws : List Word) : Nat := (wordAt ws 4).toNat
def duStamp (ws : List Word) : Nat := (wordAt ws 5).toNat + (wordAt ws 6).toNat * 2 ^ 32
def duEnd (ws : List Word) : Bool := bitAt 0 (wordAt ws 7)
def duDisc (ws : List Word) : Bool := bitAt 1 (wordAt ws 7)
def duNoOutput (ws : List Word) : Bool := bitAt 2 (wordAt ws 7)
def duRelease (ws : List Word) : Bool := bitAt 3 (wordAt ws 7)
def duFlush (ws : List Word) : Bool := bitAt 4 (wordAt ws 7)

/-- The scheduler may see a QUEUED DECODE_UNIT: in fetch order within its ring and context (R46, R53). -/
def maySee (s : State) (j : Job) : Bool :=
  decide (j.st = .queued) && j.opcode == opDecodeUnit && !j.begun && !j.damaged && (!j.afterPrev || prevDone s j)
    && !earlierSame s j (fun e => decide (e.st = .queued) && !e.begun && !e.damaged)

/-- What a DECODE_UNIT is refused with as it is seen, if it is (R55, R78, R80, R82). A FLUSH of length 0 that names no
buffer (handle 0, R392) has none to check. -/
def unitRefusal (s : State) (j : Job) : Option Nat :=
  let h := duHandle j.words
  let none_ := duFlush j.words && duLength j.words == 0 && h == 0
  if headerBad s j || decide (511 < j.context) || decide (bitsOf 31 5 (j.w 7) ≠ 0)
      || (duLength j.words == 0 && !duFlush j.words)
      || (!none_ && decide (hPool h < 8) && decide (poolSize (hPool h) < duOffset j.words + duLength j.words))
  then some stInternal
  else match ctxOf s j.context with
    | none => some stContextState
    | some x =>
      if x.closing.isSome then some stContextState
      else if !none_ && !isCurrent s h then some stStaleHandle
      else none

/-- DECODE_UNIT: the stream context scheduler sees the job. A unit waits, QUEUED, for its context's turn; a FLUSH of
length 0 publishes the next pending picture once everything before it is decoded, its DISCONTINUITY acting first and its
bitstream released after (R78, R79, R81, R85). -/
def execDecodeUnit (slot : Nat) (s : State) : Out :=
  done s (State.when (maySee s (s.job slot) && s.domOn 1) (fun u =>
    match tagCheck slot u with
    | (false, t) => t
    | (true, t) =>
    let j := t.job slot
    let c := j.context
    let r := t.jobRef slot
    match unitRefusal t j, ctxOf t c with
    | some st, _ => refuseRef r st t
    | none, none => t
    | none, some x =>
      if duLength j.words = 0 then
        if (waitingOf t x).isEmpty && (picOf t c).isNone then
          let t0 := acceptRef r t
          let (o, t1) := publishNext c (if duDisc j.words then discontinuity c t0 else t0)
          presentRef r stOk (unitResults (o.map (fun p => (wordAt p.1.words 0, p.2.1, p.2.2, p.1.stamp))) 0)
            (if duRelease j.words && duHandle j.words != 0 then releaseS 8 (duHandle j.words) t1 else t1)
        else t
      else
        setCtx c (some { x with waiting := waitingOf t x ++ [⟨r, j.words⟩] }) (t.setJob slot { j with begun := true })) s)

end Sys2Proof.Machine
end

