-- ==== Sys2Proof/Machine/Slices.lean ====
section
/-!
DEFINITION. Decoding a picture (R85 to R106, R132 to R135, R160 to R173): the grants of the stream context scheduler, the
descriptors a slice takes, references and concealment, the rows of a picture and its end.
-/
namespace Sys2Proof.Machine

/-! ## Roles and readiness -/

/-- Role codes of R107. -/
def roActive : Nat := 0
def roSlipway : Nat := 1
def roDraining : Nat := 2
def roBist : Nat := 3
def roOffline : Nat := 4
def roRetired : Nat := 5
def roResetting : Nat := 6

def roleOf (s : State) (n : Nat) : Nat := s.rd (DS_STATUS n) DS_STATUS.ROLE

/-- State codes of a bank (R140). -/
def bankState (s : State) (q b : Nat) : Nat :=
  if b = 0 then s.rd (HSQ_STATUS q) HSQ_STATUS.BANK_A else s.rd (HSQ_STATUS q) HSQ_STATUS.BANK_B
def setBank (q b st : Nat) (s : State) : State :=
  if b = 0 then s.wr (HSQ_STATUS q) HSQ_STATUS.BANK_A st else s.wr (HSQ_STATUS q) HSQ_STATUS.BANK_B st
def activeBank (s : State) (q : Nat) : Nat := s.rd (HSQ_STATUS q) HSQ_STATUS.ACTIVE_BANK

/-- A sequencer is eligible (R120). -/
def hsqEligible (s : State) (q : Nat) : Bool :=
  s.domOn (13 + q / 2) && s.flag (HSQ_CTL q) HSQ_CTL.EN && hsqState s q != 3 && bankState s q (activeBank s q) == 2

/-- HSQ_MASK allows a sequencer; 0 means all four (R75). -/
def hsqAllowed (mask q : Nat) : Bool := decide (q < 4) && (mask == 0 || mask.testBit q)

/-- The sequencer of a granted picture: eligible, allowed, the fewest units since its last grant (R120). -/
def pickSeq (s : State) (mask : Nat) : Option Nat :=
  ((List.range 4).filter (fun q => hsqAllowed mask q && hsqEligible s q)).foldl (fun (acc : Option Nat) q =>
    match acc with
    | none => some q
    | some p => if (hsqOf s q).served < (hsqOf s p).served then some q else acc) none

/-- A context is ready (R85). -/
def ctxWaits (s : State) (c : Nat) : Bool :=
  match ctxOf s c with
  | none => false
  | some x => !(waitingOf s x).isEmpty && (picOf s c).isNone

/-- A ready context that can be granted: some allowed sequencer is eligible (R121). -/
def ctxReady (s : State) (c : Nat) : Bool :=
  match ctxOf s c with
  | none => false
  | some x => ctxWaits s c && (pickSeq s x.mask).isSome

/-- The first ready context of a class after the one last granted in it (R86). -/
def readyInClass (s : State) (k : Nat) : Option Nat :=
  let g := tabGet (fun _ => 511) s.dec.granted k
  ((List.range 512).map (fun i => (g + 1 + i) % 512)).find? (fun c =>
    match ctxOf s c with
    | none => false
    | some x => x.prio == k && ctxReady s c)

/-- The context R86 selects: the highest class that holds a ready one. -/
def pickCtx (s : State) : Option Nat := [3, 2, 1, 0].findSome? (readyInClass s)

def ctxWidth (s : State) (c : Nat) : Nat := match ctxOf s c with | none => 1 | some x => x.width

/-- Luma rows of a picture. -/
def PicInfo.rowCount (i : PicInfo) : Nat := (i.height + 2 ^ i.ctuLog2 - 1) / 2 ^ i.ctuLog2
/-- CTUs of a row. -/
def PicInfo.cols (i : PicInfo) : Nat := (i.width + 2 ^ i.ctuLog2 - 1) / 2 ^ i.ctuLog2
def PicInfo.total (i : PicInfo) : Nat := i.rowCount * i.cols

/-- The band a coordinate falls in: its number, its start and its length. -/
def band : List Nat → Nat → Nat → Nat → Nat × Nat × Nat
  | [], k, start, _ => (k, start, 0)
  | n :: ns, k, start, v => if v < start + n then (k, start, n) else band ns (k + 1) (start + n) v

/-- Tile `t`'s column and row band, and its height in CTU rows. -/
def tileBand (i : PicInfo) (t : Nat) : Nat × Nat × Nat :=
  let nc := max 1 i.facts.tileCols.length
  (t % nc, t / nc, i.facts.tileRows.getD (t / nc) 0)

/-- The tiles of gang member `m` (R93). -/
def memberTiles (i : PicInfo) (w m : Nat) : List Nat :=
  let tiles := i.facts.tileCols.length * i.facts.tileRows.length
  let a := m * tiles / w
  let b := (m + 1) * tiles / w
  (List.range (b - a)).map (fun k => a + k)

/-- The picture rows complete from the top, from the rows each member has done (R94). -/
def gangRows (i : PicInfo) (w : Nat) (parts : Nat → Nat) : Nat :=
  let tiles := i.facts.tileCols.length * i.facts.tileRows.length
  let owner := fun (t : Nat) => ((List.range w).find? (fun m => (memberTiles i w m).contains t)).getD 0
  let rowDone := fun (y : Nat) =>
    let (tr, y0, _) := band i.facts.tileRows 0 0 y
    (List.range tiles).all (fun t => (tileBand i t).2.1 != tr || decide (y - y0 < parts (owner t)))
  ((List.range i.rowCount).takeWhile rowDone).length

/-- CTU rows slice `n` has behind it of picture `p`, as its next grant counts them: its own, or in a gang the rows every
member has done (R86, R94). DESIGN CHOICE (assumption 116): a gang member starts its last row when all but one row of the
whole picture are complete, whatever its own tiles hold. -/
def rowsBehind (s : State) (n : Nat) (p : DecPic) (i : PicInfo) : Nat :=
  if p.members.length = 1 then (sliceOf s n).parts
  else gangRows i p.members.length (fun j => (sliceOf s (p.members.getD j 0)).parts)

/-- A slice asks for a grant: it is ACTIVE with nothing granted, and idle or in the last row of its picture, counted from the
start of a rerun (R86, R112). One that drains although it is ACTIVE (assumption 117) asks for none. -/
def canTake (s : State) (n : Nat) : Bool :=
  let x := sliceOf s n
  decide (n < numSlices s.fuse.variant) && s.domOn (15 + n) && roleOf s n == roActive
    && !s.flag (DS_CTL n) DS_CTL.DRAIN && x.next.isNone && x.rerun.isEmpty
    && match x.cur with
      | none => true
      | some c => match picOf s c with
        | none => true
        | some p => match p.info with
          | none => false
          | some i => decide (i.rowCount ≤ rowsBehind s n p i + 1)

/-- Slice `m` takes the grant slice `n` has not begun: the picture, its descriptors and its place among the members
(R86, R107, R111). -/
def handGrant (n m : Nat) (s : State) : State :=
  match (sliceOf s n).next with
  | none => s
  | some c =>
    let swap := fun (xs : List Nat) => xs.map (fun k => if k = n then m else k)
    let s1 := match picOf s c with
      | none => s
      | some p => setPic c (some { p with members := swap p.members }) s
    let s2 := modCtx c (fun x => { x with gang := swap x.gang }) s1
    let x := sliceOf s2 n
    let y := sliceOf s2 m
    setSlice m { y with next := some c, queue := y.queue ++ x.queue.filter (fun d => d.ctx == c) }
      (setSlice n { x with next := none, queue := x.queue.filter (fun d => d.ctx != c) } s2)

/-- A slice reserved for the gang being gathered gets nothing else (R87). -/
def reserved (s : State) (m : Nat) : Bool :=
  match s.dec.gather with
  | none => false
  | some g => g.2.contains m

/-- Slice `m` has no grant, is not reserved, and is no member of the picture granted to slice `n`. -/
def freeForGrant (s : State) (n m : Nat) : Bool :=
  let x := sliceOf s m
  m != n && x.next.isNone && !reserved s m &&
    match (sliceOf s n).next.bind (picOf s) with
    | none => true
    | some p => !p.members.contains m

/-- A slice that does not begin the picture granted to it: it drains or has left its role (R107). -/
def givesUp (s : State) (n : Nat) : Bool :=
  let r := roleOf s n
  (sliceOf s n).next.isSome &&
    (s.flag (DS_CTL n) DS_CTL.DRAIN || !(r == roActive || (r == roResetting && !(sliceOf s n).handed)))

/-- The grant that waits for a slice to take it, as slice `m` could (R107, assumption 117). -/
def grantLeft (s : State) (m : Nat) : Option Nat :=
  (List.range (numSlices s.fuse.variant)).find? (fun n => givesUp s n && freeForGrant s n m)

/-- A context's picture begins on a sequencer and its slices: the unit that begins it is accepted (R85, R86, R120). -/
def grantPicture (c : Nat) (members : List Nat) (s : State) : State :=
  match ctxOf s c with
  | none => s
  | some x =>
    match waitingOf s x, pickSeq s x.mask with
    | u :: us, some q =>
      let p : DecPic := ⟨q, members, [⟨u.ref, u.words, 0, false, []⟩], none, none, false, false, 0, 0, none, 0, 0, 0, 0,
        [], [], false, false, false, 0, [], [], [], []⟩
      let s1 := acceptRef u.ref (setCtx c (some { x with waiting := us, gang := if 1 < members.length then members else x.gang })
        (setPic c (some p) s))
      let h := hsqOf s1 q
      let s2 := setHsq q { h with served := 0, queue := h.queue ++ [c] } s1
      let s3 := { s2 with dec := { s2.dec with granted := tabSet (fun _ => 511) s2.dec.granted x.prio c } }
      foldS (fun n t => setSlice n { sliceOf t n with next := some c } t) members s3
    | _, _ => s

/-- CONTEXT_GRANT: slice `slice` asks, and the scheduler gives it a grant another slice left, else the context R86 selects
(R86, R107, R120). -/
def execContextGrant (slice : Nat) (s : State) : Out :=
  done s (State.when (canTake s slice) (fun t =>
    match grantLeft t slice with
    | some n => handGrant n slice t
    | none =>
      if t.dec.gather.isSome then t
      else match pickCtx t with
        | none => t
        | some c => if ctxWidth t c = 1 then grantPicture c [slice] t else t) s)

/-- Members of a gang from the slices reserved: a slice of the context's last gang keeps its index (R110). -/
def gangMembers (last reserved : List Nat) (w : Nat) : List Nat :=
  let fresh := reserved.filter (fun n => !(last.take w).contains n)
  ((List.range w).foldl (fun (acc : List Nat × List Nat) m =>
    match last[m]? with
    | some n => if reserved.contains n then (acc.1 ++ [n], acc.2) else (acc.1 ++ [acc.2.headD 0], acc.2.drop 1)
    | none => (acc.1 ++ [acc.2.headD 0], acc.2.drop 1)) ([], fresh)).1

/-- GANG_GATHER: a slice that asks is reserved for the gang R86 selected, until W are (R87). -/
def execGangGather (slice : Nat) (s : State) : Out :=
  done s (State.when (canTake s slice && (grantLeft s slice).isNone) (fun t =>
    let join := fun (c : Nat) (have0 : List Nat) =>
      let got := have0 ++ [slice]
      let w := ctxWidth t c
      if w ≤ got.length then
        grantPicture c (gangMembers (match ctxOf t c with | none => [] | some x => x.gang) got w)
          { t with dec := { t.dec with gather := none } }
      else { t with dec := { t.dec with gather := some (c, got) } }
    match t.dec.gather with
    | some (c, got) =>
      if !ctxReady t c then { t with dec := { t.dec with gather := none } }
      else if got.contains slice then t else join c got
    | none => match pickCtx t with
      | none => t
      | some c => if 1 < ctxWidth t c then join c [] else t) s)

/-! ## Tiles and CTU positions (R93, R168) -/

/-- Position in decoding order of the CTU at raster address `a`. -/
def scanPos (i : PicInfo) (a : Nat) : Nat :=
  let c := max 1 i.cols
  let (_, y0, h) := band i.facts.tileRows 0 0 (a / c)
  let (_, x0, w) := band i.facts.tileCols 0 0 (a % c)
  y0 * c + x0 * h + (a / c - y0) * w + (a % c - x0)

/-- Raster address of the CTU at position `p` in decoding order. -/
def rasterOf (i : PicInfo) (p : Nat) : Nat :=
  let c := max 1 i.cols
  let (_, y0, h) := band i.facts.tileRows 0 0 (p / c)
  let q := p - y0 * c
  let (_, x0, w) := band i.facts.tileCols 0 0 (q / max 1 h)
  let r := q - x0 * h
  (y0 + r / max 1 w) * c + x0 + r % max 1 w

/-! ## PICTURE descriptors (R134, R153, R161 to R164) -/

/-- A word as a signed number. -/
def wordInt (w : Word) : Int := w.toInt

/-- Sixteen 4-bit entry indices in two words (R134). -/
def listEntries (w0 w1 : Word) : List Nat :=
  [w0, w1].flatMap (fun w => (List.range 8).map (fun k => bitsOf (4 * k + 3) (4 * k) w))

/-- The fields of a PICTURE descriptor and its syntax record (R134). -/
def pictureInfo (ws : List Word) (f : PicFacts) : PicInfo where
  width := bitsOf 15 0 (wordAt ws 1)
  height := bitsOf 31 16 (wordAt ws 1)
  ctuLog2 := bitsOf 2 0 (wordAt ws 2)
  chroma := bitsOf 4 3 (wordAt ws 2)
  bits10 := bitAt 5 (wordAt ws 2)
  grain := bitAt 6 (wordAt ws 2)
  noOutput := bitAt 7 (wordAt ws 2)
  random := bitAt 8 (wordAt ws 2)
  order := wordInt (wordAt ws 3)
  refHandle := (List.range (min 16 (bitsOf 4 0 (wordAt ws 4)))).map (fun k => wordAt ws (8 + k))
  refOrder := (List.range (min 16 (bitsOf 4 0 (wordAt ws 4)))).map (fun k => wordInt (wordAt ws (24 + k)))
  missing := bitsOf 31 16 (wordAt ws 5)
  list0 := listEntries (wordAt ws 40) (wordAt ws 41)
  list1 := listEntries (wordAt ws 42) (wordAt ws 43)
  record := ws.drop 48
  facts := f

/-- The bits of word 2 of an entry a slot's picture carries besides its state (R96). -/
def entryFlags (i : PicInfo) (gang : Bool) (c : Nat) : Word :=
  BitVec.ofNat 32 (i.grain.toNat * 2 ^ 4 + gang.toNat * 2 ^ 5 + i.ctuLog2 % 8 * 2 ^ 6 + c % 512 * 2 ^ 9)

def sizeWord (i : PicInfo) : Word := BitVec.ofNat 32 (i.width + i.height * 2 ^ 16)
def formatWord (i : PicInfo) : Word :=
  BitVec.ofNat 32 (strideOf i.width i.bits10 % 65536 + i.chroma % 4 * 2 ^ 16 + i.bits10.toNat * 2 ^ 18)

/-- A slot's picture matches the current one in size and format (R162). -/
def sameFormat (i : PicInfo) (f : FbSlot) : Bool := wordAt f.words 4 == sizeWord i && wordAt f.words 5 == formatWord i

/-- The nearer of two slots to an order, the lower order on a tie (R162). -/
def nearer (o : Int) (acc : Option FbSlot) (f : FbSlot) : Option FbSlot :=
  match acc with
  | none => some f
  | some g =>
    let df := (f.order - o).natAbs
    let dg := (g.order - o).natAbs
    if df < dg ∨ (df = dg ∧ f.order < g.order) then some f else some g

/-- The NEAREST substitute for an entry of order `o` (R162). -/
def substitute (x : Ctx) (i : PicInfo) (o : Int) : Option FbSlot :=
  (x.slots.filter (fun f => decide (f.st = .held) && decide (f.mark ≠ .nonref) && f.good && sameFormat i f)).foldl
    (nearer o) none

/-- The reference handles after the context's policy has replaced the missing entries (R161). -/
def withSubstitutes (x : Ctx) (i : PicInfo) : PicInfo :=
  { i with refHandle := (i.refHandle.zip i.refOrder).zipIdx.map (fun e =>
      if i.missing.testBit e.2 then
        (if x.conceal = 0 then (match substitute x i e.1.2 with | some f => f.handle | none => 0) else 0)
      else e.1.1) }

/-- A picture is lost with a status (R166). -/
def setLost (c st : Nat) (s : State) : State :=
  match picOf s c with
  | none => s
  | some p =>
    if p.lost.isSome then s
    else setPic c (some { p with lost := some st }) (s.inc DS_LOST_PICS DS_LOST_PICS.PICTURES)

/-- Widths of a picture's tile columns in luma samples, the last one cut at the picture's edge (R91). -/
def tileWidths (i : PicInfo) : List Nat :=
  i.facts.tileCols.zipIdx.map (fun e =>
    let a := (i.facts.tileCols.take e.2).sum * 2 ^ i.ctuLog2
    min i.width (a + e.1 * 2 ^ i.ctuLog2) - a)

/-- The tile grid the coded data spells is that of the descriptor's TILE_COLS and TILE_ROWS and covers the picture
(R134). -/
def factsFit (ws : List Word) (i : PicInfo) : Bool :=
  i.facts.tileCols.length == max 1 (bitsOf 15 8 (wordAt ws 4)) && i.facts.tileRows.length == max 1 (bitsOf 23 16 (wordAt ws 4))
    && i.facts.tileCols.sum == i.cols && i.facts.tileRows.sum == i.rowCount

/-- What makes a picture lost as its descriptor arrives, if anything (R72, R91, R92, R161). -/
def descriptorLoss (s : State) (x : Ctx) (i : PicInfo) (tiles : Nat) : Option Nat :=
  let w := x.width
  let big := decide (35651584 < i.width * i.height) || decide (8192 < i.width)
  if i.facts.overLevel || decide (x.maxW < i.width) || decide (x.maxH < i.height)
      || (decide (1 < w) && (decide (16384 < i.width) || decide (8704 < i.height)
        || decide (141557760 < i.width * i.height) || (tileWidths i).any (fun v => decide (8192 < v))))
      || (decide (1 < w) && big && s.fuse.variant != .lzw4480)
  then some stLevelExceeded
  else if i.facts.badStream then some stStreamError
  else if decide (1 < w) && (decide (tiles < w) || (big && (decide (tiles < 8) || w != 8))) then some stGangTiles
  else if i.missing != 0 && x.conceal == 2 then some stRefMissing
  else none

/-- The HELD slots a reference set names take SHORT or LONG, every other HELD slot NONREF (R153). -/
def applyMarks (c : Nat) (handles : List Word) (longMask : Nat) (s : State) : State :=
  let m := fun (f : FbSlot) =>
    if f.st ≠ .held then f
    else if f.display then { f with mark := .nonref }
    else match (handles.zipIdx).find? (fun e => e.1 == f.handle) with
      | none => { f with mark := .nonref }
      | some _ =>
        let long := (handles.zipIdx).any (fun e => e.1 == f.handle && longMask.testBit e.2)
        { f with mark := if long then .long else .short }
  settleSlots c (mapSlots c m s)

/-- The descriptor a slice takes next: the oldest of its current picture, else of the one granted to it (R111, R132). -/
def descDue (s : State) (n : Nat) : Option Desc :=
  let x := sliceOf s n
  match x.queue.find? (fun d => x.cur == some d.ctx) with
  | some d => some d
  | none => x.queue.find? (fun d => x.next == some d.ctx)

/-- The oldest descriptor of a context leaves a slice's queue. -/
def popDesc (n c : Nat) (s : State) : State :=
  let x := sliceOf s n
  setSlice n { x with queue := x.queue.eraseP (fun d => d.ctx == c) } s

/-- PICTURE_DESCRIPTOR: the picture's format and reference set are known: substitutes are chosen, the slots re-marked,
and the picture may be lost (R134, R153, R161 to R164). -/
def execPictureDescriptor (slice : Nat) (pic : PicFacts) (s : State) : Out :=
  done s (match descDue s slice with
    | none => s
    | some d =>
      match ctxOf s d.ctx, picOf s d.ctx with
      | some x, some p =>
        State.when (d.cls == 0 && factsFit d.words (pictureInfo d.words pic)) (fun t =>
          let t0 := popDesc slice d.ctx t
          if p.info.isSome || p.lost.isSome then t0
          else
            let i := withSubstitutes x (pictureInfo d.words pic)
            let tiles := bitsOf 15 8 (wordAt d.words 4) * bitsOf 23 16 (wordAt d.words 4)
            let t1 := setPic d.ctx (some { p with info := some i }) t0
            let t2 := if i.missing != 0 then t1.inc DS_REFMISS_PICS DS_REFMISS_PICS.PICTURES else t1
            let t3 := applyMarks d.ctx i.refHandle (bitsOf 15 0 (wordAt d.words 5)) t2
            match descriptorLoss t3 x i tiles with
            | some st => setLost d.ctx st t3
            | none => t3) s
      | _, _ => popDesc slice d.ctx s)

/-! ## Starting a picture (R84, R99 to R101, R105, R106, R153, R160) -/

/-- The words and slots of a new picture. -/
def newSlot (c : Nat) (p : DecPic) (i : PicInfo) (h pict : Word) (output display : Bool) : FbSlot where
  handle := h
  st := .decoding
  mark := .nonref
  output := output
  published := false
  entry := none
  good := true
  display := display
  order := i.order
  outOrder := i.facts.outOrder
  doneSeq := 0
  stamp := match p.jobs with | [] => 0 | k :: _ => duStamp k.words
  words := [pict, BitVec.ofNat 32 (i.rowCount * 2 ^ 16), entryFlags i (decide (1 < p.members.length)) c, 0, sizeWord i,
    formatWord i, i.facts.crop, match p.jobs with | [] => 0 | k :: _ => wordAt k.words 5]
  damage := []
  passed := false

/-- NO_OUTPUT, by a job of the picture or by its descriptor, or an AV1 frame not shown (R100). DESIGN CHOICE (assumption
136): where the units of one picture differ in NO_OUTPUT, one accepted before PICTURE_START suppresses the publication, and
one accepted later does not. -/
def neverPublished (p : DecPic) (i : PicInfo) : Bool :=
  i.noOutput || i.facts.hidden || p.jobs.any (fun k => duNoOutput k.words)

/-- Every earlier picture in output order of the context has been published (R99). -/
def orderDue (x : Ctx) (i : PicInfo) : Bool :=
  i.facts.due && !x.slots.any (fun f => f.output && !f.published && decide (f.outOrder < i.facts.outOrder))

/-- Allocate one or two frame buffers as the slice (R101, R105, R106): a status, and the buffers. -/
def allocFrames (n : Nat) (x : Ctx) (two : Bool) (s : State) : Nat × Word × Word × State :=
  let (st, h, s1) := allocAt s (8 + n) x.pool x.spill true true
  if st ≠ stOk then (st, 0, 0, s1)
  else if two then
    let (st2, g, s2) := allocAt s1 (8 + n) x.pool x.spill true true
    if st2 ≠ stOk then (st2, 0, 0, releaseS (8 + n) h s2) else (stOk, h, g, s2)
  else (stOk, h, 0, s1)

/-- A slice outside the picture of context `c` holds that context no longer, as another slice takes it up (R88). -/
def forgetContext (c : Nat) (s : State) : State :=
  let ms := match picOf s c with | none => [] | some p => p.members
  foldS (fun n t => setSlice n { sliceOf t n with loaded := none } t)
    ((List.range 9).filter (fun n => (sliceOf s n).loaded == some c && !ms.contains n)) s

/-- A slice takes up a picture: its status registers, and the load of its context unless it holds it already (R88,
R116). -/
def sliceStarts (c width : Nat) (m n : Nat) (s : State) : State :=
  let s0 := forgetContext c s
  let x := sliceOf s0 n
  let s1 := ((((s0.wr (DS_STATUS n) DS_STATUS.BUSY 1).wr (DS_STATUS n) DS_STATUS.CONTEXT c).wr
    (DS_STATUS n) DS_STATUS.MEMBER m).wr (DS_STATUS n) DS_STATUS.IN_GANG (if 1 < width then 1 else 0))
  let s2 := if x.loaded = some c then s1 else s1.inc (DS_SWITCH_COUNT n) DS_SWITCH_COUNT.SWITCHES
  let drop := fun (o : Option Nat) => if o = some c then none else o
  setSlice n { x with cur := some c, next := drop x.next, rerun := x.rerun.filter (fun d => d != c), loaded := some c, segs := 0, parts := 0 } s2

/-- A slice may take up the picture it is granted: it decodes nothing, has no rerun before it, and its role takes pictures:
one that drains finishes its current picture only (R86, R107, R113). -/
def mayBegin (s : State) (c n : Nat) : Bool :=
  let x := sliceOf s n
  x.cur.isNone && x.next == some c && x.rerun.isEmpty && roleOf s n == roActive && !s.flag (DS_CTL n) DS_CTL.DRAIN

/-- PICTURE_START: frame buffers are taken, the slot is DECODING, and the picture is published if its output order is
due; or it waits for a lock gate, or is lost (R84, R99 to R101, R105, R153, R160). -/
def execPictureStart (slice : Nat) (s : State) : Out :=
  done s (match (sliceOf s slice).next with
    | none => s
    | some c =>
      match ctxOf s c, picOf s c with
      | some x, some p =>
        match p.info with
        | none => s
        | some i =>
          State.when (p.lost.isNone && !p.started && !holdWaiting s x.pool
              && p.members.all (mayBegin s c)) (fun t =>
            let need := if i.grain then 2 else 1
            if x.fbMax < x.slots.length + need then
              if x.slots.any (fun f => decide (f.st = .gate)) then
                if p.counted then t
                else setPic c (some { p with counted := true }) (t.inc DS_GATE_WAITS DS_GATE_WAITS.WAITS)
              else setLost c stLevelExceeded t
            else if poolSize x.pool < pictureBytes i.width i.height i.chroma i.bits10 then setLost c stLevelExceeded t
            else
              let (st, h, g, t1) := allocFrames slice x i.grain t
              if st ≠ stOk then setLost c st t1
              else
                let out := !neverPublished p i
                let slots := if i.grain
                  then [newSlot c p i h h false false, newSlot c p i g g out true]
                  else [newSlot c p i h h out false]
                let shown := if i.grain then g else h
                let t2 := setCtx c (some { x with slots := x.slots ++ slots }) t1
                let (e, t3) := if out && orderDue x i then publish c shown peDecoding t2 else (none, t2)
                let t4 := setPic c (some { p with started := true, fb := h, disp := g, entry := e }) t3
                foldS (fun mn u => sliceStarts c p.members.length mn.2 mn.1 u) p.members.zipIdx t4) s
      | _, _ => s)

/-! ## Damage and concealment (R167 to R170) -/

/-- The copy source of a damaged CTU (R169): none is the GREY picture. -/
def copySource (x : Ctx) (i : PicInfo) : Option Word :=
  let refs := i.refHandle.zip i.refOrder
  let held := refs.filterMap (fun r => if r.1 = 0 then none else
    (x.slots.find? (fun f => f.handle == r.1 && sameFormat i f)).map (fun f => { f with order := r.2 }))
  match held.foldl (nearer i.order) none with
  | some f => some f.handle
  | none =>
      ((x.slots.filter (fun f => decide (f.st ≠ .decoding) && f.good && decide (0 < f.doneSeq) && sameFormat i f)).foldl
        (fun (acc : Option FbSlot) f => match acc with
          | none => some f
          | some g => if g.doneSeq < f.doneSeq then some f else acc) none).map (fun f => f.handle)

/-- A CTU of a row ROWS_DONE has passed: its samples and its code are final (R97, R112, R172). -/
def finalCtu (i : PicInfo) (p : DecPic) (a : Nat) : Bool := decide (a < p.rows * i.cols)

/-- Conceal the CTUs at some raster addresses that are not final: their code and their copy source are chosen now (R168,
R169, R171). -/
def concealAt (x : Ctx) (i : PicInfo) (addrs : List Nat) (p : DecPic) : DecPic :=
  let src := copySource x i
  let code := if src.isSome then 1 else 2
  let at_ := addrs.filter (fun a => !finalCtu i p a)
  { p with damage := at_.foldl (fun d a => tabSet (fun _ => 0) d a code) p.damage
           srcs := at_.foldl (fun d a => tabSet (fun _ => 0) d a (src.getD 0)) p.srcs }

/-- Conceal the CTUs at positions `a` to `b - 1` in decoding order. -/
def concealRun (x : Ctx) (i : PicInfo) (a b : Nat) (p : DecPic) : DecPic :=
  concealAt x i ((List.range (b - a)).map (fun k => rasterOf i (a + k))) p

/-- Add a condition to the job of a picture that `r` names (R173). -/
def addCond (r : JobRef) (st : Nat) (p : DecPic) : DecPic :=
  { p with jobs := p.jobs.map (fun k => if k.ref = r then { k with conds := k.conds ++ [st] } else k) }

/-- The statuses of R82, highest first. -/
def precedence : List Nat :=
  [stInternal, stContextState, stStaleHandle, stLevelExceeded, stStreamError, stGangTiles, stPoolEmpty, stRefMissing,
    stConcealed]

/-- The status that conditions combine to (R82). -/
def worst (conds : List Nat) : Nat := (precedence.find? (fun st => conds.contains st)).getD stOk

/-- The conditions of a job of a picture (R173). -/
def jobConds (p : DecPic) (k : PicJob) : List Nat :=
  k.conds ++ (match p.info with | some i => if i.missing != 0 then [stRefMissing] else [] | none => [])
    ++ (match p.lost with | some st => [st] | none => [])

/-- A job of a picture completes with its own conditions (R79, R173). -/
def completeUnit (p : DecPic) (k : PicJob) (extra : List Nat) (out : Option (Word × Nat × Nat × Nat)) (s : State) : State :=
  presentRef k.ref (worst (jobConds p k ++ extra)) (unitResults out p.damage.length) s

/-- A job of a picture completes, and its bitstream is released where asked (R79). -/
def finishJob (n : Nat) (p : DecPic) (k : PicJob) (extra : List Nat) (out : Option (Word × Nat × Nat × Nat)) (s : State) :
    State :=
  completeUnit p k extra out (if duRelease k.words then releaseS (8 + n) (duHandle k.words) s else s)

/-- Jobs ahead of the one `r` names have had every unit decoded and a later unit has arrived: they complete. DESIGN CHOICE
(assumption 135): the bitstream of one with RELEASE_BITSTREAM is released only as the picture ends, because a rerun decodes
it again (R112): until then the unit is not consumed. -/
def finishBefore (c : Nat) (r : JobRef) (s : State) : State :=
  match picOf s c with
  | none => s
  | some p =>
    let early := p.jobs.takeWhile (fun k => k.ref ≠ r)
    if early.length = p.jobs.length then s
    else foldS (fun k t => completeUnit p k [] none t) early
      (setPic c (some { p with jobs := p.jobs.drop early.length
                               held := p.held ++ (early.filter (fun k => duRelease k.words)).map (fun k => duHandle k.words)
                               errs := p.errs ++ early.map (fun k => worst (jobConds p k)) }) s)

/-- The coded data a SEGMENT descriptor names, as slice `n` reads it, without emulation-prevention bytes (R135): none where it cannot be had. -/
def segmentData (n : Nat) (d : Desc) (s : State) : Option (List Byte) × State :=
  let h := wordAt d.words 2
  if isCurrent s h then
    let (bs, bad, t) := dramRdFor (DS_FAULT_STATUS n) n s (bufAddr s h + (wordAt d.words 3).toNat) (wordAt d.words 4).toNat
    (if bad then none else some (if bitAt 21 (wordAt d.words 1) then stripEpb 0 bs else bs), t)
  else (none, s)

/-- CTUs of the tiles a segment spans, AV1 (R135). -/
def tileSpan (i : PicInfo) (a b : Nat) : Nat :=
  let nc := max 1 i.facts.tileCols.length
  ((List.range (b + 1 - a)).map (fun k =>
    i.facts.tileCols.getD ((a + k) % nc) 0 * i.facts.tileRows.getD ((a + k) / nc) 0)).sum

/-- What a segment's coded data gives the slice: an AV1 segment spans the tiles its descriptor names, and one with no data
fails at its first CTU (R135, R167). -/
def segmentFacts (codec : Nat) (i : PicInfo) (d : Desc) (data : Option (List Byte)) (f : SegFacts) : SegFacts :=
  let g := if codec = 1 then
      { f with count := tileSpan i (bitsOf 7 0 (wordAt d.words 5)) (bitsOf 15 8 (wordAt d.words 5)) } else f
  match data with
  | some (_ :: _) => g
  | _ => { g with failAt := some 0 }

/-- The coded data of a segment is decoded (R135, R167, R168, R171); what it held is kept for a rerun (R112). -/
def decodeSegment (x : Ctx) (p : DecPic) (i : PicInfo) (d : Desc) (f : SegFacts) : DecPic :=
  let first := min i.total (scanPos i (bitsOf 19 0 (wordAt d.words 1)))
  let last := bitAt 20 (wordAt d.words 1)
  let p0 := { p with segs := p.segs + 1, walks := if p.segs < p.walks.length then p.walks else p.walks ++ [f] }
  if first < p.covered then addCond d.ref stConcealed p0
  else
    let gap := !p.failing && decide (p.covered < first)
    let p1 := { concealRun x i p.covered first p0 with gap := p.gap || gap, failing := f.failAt.isSome && !last }
    let good := match f.failAt with | none => f.count | some k => min k f.count
    let stop := min i.total (first + good)
    let sub := if i.missing = 0 then []
      else f.subst.filter (fun k => decide (k < good) && decide (first + k < i.total) && !finalCtu i p (rasterOf i (first + k)))
    let p2 := { p1 with damage := sub.foldl (fun t k => tabSet (fun _ => 0) t (rasterOf i (first + k)) 3) p1.damage
                        covered := stop }
    match f.failAt with
    | none => p2
    | some _ =>
      -- the run goes on to the next segment, which conceals it as it begins, or to the end of the picture
      let p3 := addCond d.ref stConcealed p2
      if last then { concealRun x i stop i.total p3 with covered := i.total } else p3

/-- SEGMENT_DESCRIPTOR: the slice decodes a segment; the jobs before its own are complete (R135, R167 to R169). A segment of
a lost picture is dropped, and one that no PICTURE descriptor came before makes its picture lost (R166). -/
def execSegmentDescriptor (slice : Nat) (seg : SegFacts) (s : State) : Out :=
  done s (match descDue s slice with
    | none => s
    | some d =>
      match ctxOf s d.ctx, picOf s d.ctx with
      | some x, some p =>
        let here := (sliceOf s slice).cur == some d.ctx
        match p.lost, p.info with
        | some _, _ => State.when (d.cls == 1) (popDesc slice d.ctx) s
        | none, none => State.when (d.cls == 1) (fun t => setLost d.ctx stStreamError (popDesc slice d.ctx t)) s
        | none, some i =>
          State.when (d.cls == 1 && p.started && here) (fun t =>
            let t0 := popDesc slice d.ctx t
            let k := (sliceOf t0 slice).segs
            let t1 := setSlice slice { sliceOf t0 slice with segs := k + 1 } t0
            if k = p.segs then
              let (data, t2) := segmentData slice d t1
              finishBefore d.ctx d.ref
                (setPic d.ctx (some (decodeSegment x p i d (p.walks.getD k (segmentFacts x.codec i d data seg)))) t2)
            else t1) s
      | _, _ => popDesc slice d.ctx s)

/-! ## Rows (R94, R97, R103, R104, R112, R170 to R172) -/

/-- Positions of relative row `r` of tile `t`. -/
def tileRowEnd (i : PicInfo) (t r : Nat) : Nat :=
  let (tc, tr, h) := tileBand i t
  let x0 := (i.facts.tileCols.take tc).sum
  let y0 := (i.facts.tileRows.take tr).sum
  y0 * i.cols + x0 * h + (r + 1) * i.facts.tileCols.getD tc 0

/-- Row `r` of the picture is covered: each of its CTUs is decoded or concealed. -/
def rowCovered (i : PicInfo) (covered r : Nat) : Bool :=
  (List.range i.cols).all (fun x => decide (scanPos i (r * i.cols + x) < covered))

/-- Grey bytes of a line (R163). -/
def greyBytes (bits10 : Bool) (n : Nat) : List Byte :=
  if bits10 then (List.replicate (n / 5 + 1) (natBytes 5 (512 * (1 + 2 ^ 10 + 2 ^ 20 + 2 ^ 30)))).flatten.take n
  else List.replicate n 128

/-- The DRAM port a picture's rows go through: its slice's, in a gang that of the first member (R429, assumption 104). -/
def picPort (p : DecPic) : Nat := p.members.headD 0

/-- One line of a picture row with its concealed CTUs replaced by their copy sources' samples (R169). -/
def concealLine (i : PicInfo) (p : DecPic) (r off : Nat) (line : List Byte) (s : State) :
    List Byte × State :=
  let n := lineBytes i.width i.bits10
  let at0 := fun (x : Nat) => min n (lineBytes (x * 2 ^ i.ctuLog2) i.bits10)
  (List.range i.cols).foldl (fun (acc : List Byte × State) x =>
    let code := tabGet (fun _ => 0) p.damage (r * i.cols + x)
    if code = 1 ∨ code = 2 then
      let a := at0 x
      let b := at0 (x + 1)
      let src := tabGet (fun _ => 0) p.srcs (r * i.cols + x)
      let (bs, t) :=
        if code = 1 then let (rd, _, u) := dramRd (picPort p) acc.2 (bufAddr acc.2 src + off + a) (b - a); (rd, u)
        else (greyBytes i.bits10 (b - a), acc.2)
      (acc.1.take a ++ bs ++ acc.1.drop b, t)
    else acc) (line, s)

/-- The lines an operand gives are those of rows `r0` to `r1 - 1`, each of a line's bytes, the display copy's after the
others of its row (R101, R103). -/
def linesFit (i : PicInfo) (r0 r1 : Nat) (lines : List (List Byte)) : Bool :=
  let per := ((List.range (r1 - r0)).map (fun k =>
    (rowLines i.width i.height i.chroma i.bits10 i.ctuLog2 (r0 + k)).length)).sum
  lines.length == per * (if i.grain then 2 else 1) && lines.all (fun l => l.length == lineBytes i.width i.bits10)

/-- A picture row reaches memory: the decoded samples of its lines, those of the display copy after them (R101, R103),
concealed CTUs copied (R169). DESIGN CHOICE (assumption 138): the bytes from a line's end to its STRIDE, which R104 leaves
undefined, stay as they were. -/
def writeRow (p : DecPic) (i : PicInfo) (r : Nat) (lines : List (List Byte)) (s : State) : State :=
  let offs := rowLines i.width i.height i.chroma i.bits10 i.ctuLog2 r
  let n := lineBytes i.width i.bits10
  let s1 := foldS (fun (e : Nat × List Byte) t =>
    let (bs, u) := concealLine i p r e.1 (e.2.take n) t
    dramWr (picPort p) u (bufAddr u p.fb + e.1) bs) (offs.zip lines) s
  if i.grain then
    foldS (fun (e : Nat × List Byte) t => dramWr (picPort p) t (bufAddr t p.disp + e.1) (e.2.take n))
      (offs.zip (lines.drop offs.length)) s1
  else s1

/-- Some code of rows `r0` to `r1 - 1` is not 0b00. -/
def rowsDamaged (i : PicInfo) (p : DecPic) (r0 r1 : Nat) : Bool :=
  p.damage.any (fun e => decide (r0 * i.cols ≤ e.1) && decide (e.1 < r1 * i.cols))

/-- Rows `r0` to `r1 - 1` complete: they reach memory, ROWS_DONE rises past the value the entry holds, and the damage
map and DAMAGED follow (R97, R112, R171, R172). -/
def finishRows (c r0 r1 : Nat) (lines : List (List Byte)) (s : State) : State :=
  match picOf s c with
  | some p =>
    match p.info with
    | none => s
    | some i =>
      let per := fun (r : Nat) =>
        (rowLines i.width i.height i.chroma i.bits10 i.ctuLog2 r).length * (if i.grain then 2 else 1)
      let (_, s1) := (List.range (r1 - r0)).foldl (fun (acc : List (List Byte) × State) k =>
        let r := r0 + k
        (acc.1.drop (per r), writeRow p i r (acc.1.take (per r)) acc.2)) (lines, s)
      let s2 := setPic c (some { p with rows := max p.rows r1 }) s1
      match p.entry with
      | none => s2
      | some (e, q) =>
        if pptSeq s2 e = q ∧ pptState s2 e = peDecoding then
          let s3 := if pptRowsDone s2 e < r1 then pptRows e r1 s2 else s2
          writeMap (picPort p) e p.damage i.cols r0 r1 (if rowsDamaged i p r0 r1 then pptDamaged e s3 else s3)
        else s2
  | none => s

/-- An uncorrectable SRAM error: the picture is concealed from row `r` (R116). -/
def concealFrom (x : Ctx) (p : DecPic) (i : PicInfo) (r : Nat) : DecPic :=
  let a := r * i.cols
  let js := match p.jobs.reverse with
    | [] => []
    | k :: ks => ({ k with conds := k.conds ++ [stConcealed] } :: ks).reverse
  { concealAt x i ((List.range (i.total - a)).map (fun k => a + k)) p with covered := i.total, jobs := js }

/-- Words a list of lines takes in a store, at least one (assumption 24). -/
def lineWords (lines : List (List Byte)) : Nat := max 1 (((lines.map List.length).sum + 3) / 4)

/-- The check of a slice's row store as the words of a row are read from it (R541). -/
def rowCheck (n : Nat) (lines : List (List Byte)) (s : State) : Bool × State :=
  s.sramFault (DS_FAULT_STATUS n) (lineWords lines)

/-- The picture row in which a gang member's tiles have their next row (R93). -/
def memberRow (i : PicInfo) (mine : List Nat) (k : Nat) : Nat :=
  (mine.filterMap (fun t =>
    let b := tileBand i t
    if k < b.2.2 then some ((i.facts.tileRows.take b.2.1).sum + k) else none)).foldl min i.rowCount

/-- An uncorrectable SRAM error of a gang member: the picture is concealed from the row it came to; what the other members
have still to decode above that row goes on (R116). -/
def concealGang (x : Ctx) (p : DecPic) (i : PicInfo) (r : Nat) : DecPic := { concealFrom x p i r with covered := p.covered }

/-- ROW_COMPLETE: a row is complete through all filters; in a gang, a row of each of the member's tiles, and the picture's
rows as far as every member has them (R93, R94, R97). A row ROWS_DONE has passed already is decoded by a rerun with the
values it holds (R112). The operand gives the lines of the rows that complete: with any other it is no such event. -/
def execRowComplete (slice : Nat) (bytes : List (List Byte)) (s : State) : Out :=
  done s (match (sliceOf s slice).cur with
    | none => s
    | some c =>
      match ctxOf s c, picOf s c with
      | some x, some p =>
        match p.info with
        | none => s
        | some i =>
          let w := p.members.length
          if w = 1 then
            let r := (sliceOf s slice).parts
            State.when (p.started && decide (r < i.rowCount) && (decide (r < p.rows) || linesFit i r (r + 1) bytes)) (fun t =>
              let (bad, t1) := rowCheck slice bytes t
              let p1 := if bad then concealFrom x p i r else p
              if rowCovered i p1.covered r then
                let t2 := setSlice slice { sliceOf t1 slice with parts := r + 1 } (setPic c (some p1) t1)
                if r < p.rows then t2 else finishRows c r (r + 1) bytes t2
              else t) s
          else
            let m := p.members.findIdx (fun n => n == slice)
            let k := (sliceOf s slice).parts
            let mine := memberTiles i w m
            let rows := gangRows i w (fun j => if j = m then k + 1 else (sliceOf s (p.members.getD j 0)).parts)
            State.when (p.started && mine.any (fun t => decide (k < (tileBand i t).2.2))
                && (decide (rows ≤ p.rows) || linesFit i p.rows rows bytes)
                && mine.all (fun t => decide ((tileBand i t).2.2 ≤ k) || decide (tileRowEnd i t k ≤ p.covered))) (fun t =>
              let (bad, t1) := rowCheck slice bytes t
              let t2 := setSlice slice { sliceOf t1 slice with parts := k + 1 }
                (setPic c (some (if bad then concealGang x p i (memberRow i mine k) else p)) t1)
              if p.rows < rows then finishRows c p.rows rows bytes t2 else t2) s
      | _, _ => s)

/-! ## The end of a picture (R81, R89, R99, R153, R173) -/

/-- No descriptor of the context waits in a member's queue. -/
def consumed (s : State) (c : Nat) (p : DecPic) : Bool :=
  p.members.all (fun n => !(sliceOf s n).queue.any (fun d => d.ctx == c))

/-- The rest of the picture is concealed and its rows complete (R89, R168). -/
def concealRest (c : Nat) (lines : List (List Byte)) (s : State) : State :=
  match ctxOf s c, picOf s c with
  | some x, some p =>
    match p.info with
    | none => s
    | some i =>
      let p1 := { concealRun x i p.covered i.total p with
        covered := i.total, gap := p.gap || (!p.failing && decide (p.covered < i.total)) }
      finishRows c p1.rows i.rowCount lines (setPic c (some p1) s)
  | _, _ => s

/-- Every job of the picture completes; the last one reports the publication and the picture's gaps (R79, R173). -/
def finishJobs (n : Nat) (p : DecPic) (extra : List Nat) (out : Option (Word × Nat × Nat × Nat)) (s : State) : State :=
  match p.jobs.reverse with
  | [] => s
  | k :: ks =>
    let s1 := foldS (fun j t => finishJob n p j [] none t) ks.reverse s
    finishJob n p k ((if p.gap then [stConcealed] else []) ++ extra) out s1

/-- STREAM_ERR on the slices of a picture one of whose jobs ended so (R118, R175). -/
def streamErr (p : DecPic) (extra : List Nat) (s : State) : State :=
  streamErrBits (p.errs ++ p.jobs.map (fun k => worst (jobConds p k)) ++ extra) p.members s

/-- The picture leaves its slices; the context may close. -/
def leaveSlices (c : Nat) (p : DecPic) (s : State) : State :=
  tryClose c (foldS (fun n t => t.inc (DS_PIC_COUNT n) DS_PIC_COUNT.PICTURES) (if p.started then p.members else [])
    (dropPic c s))

/-- A lost picture, or a unit that carried none, ends: nothing is published (R100, R166, R173). -/
def endLost (n c : Nat) (p : DecPic) (extra : List Nat) (s : State) : State :=
  leaveSlices c p (finishJobs n p extra none (streamErr p extra s))

/-- The last row of a picture is complete: the entry is COMPLETE, the slot HELD with SHORT, and output order releases a
pending picture (R81, R99, R153, R154, R172). -/
def endPicture (n c : Nat) (p : DecPic) (i : PicInfo) (extra : List Nat) (s : State) : State :=
  let dmg := !p.damage.isEmpty
  let held := fun (k : Nat) (f : FbSlot) =>
    if f.st = .decoding then { f with st := .held, mark := if f.display then .nonref else .short, doneSeq := k, damage := p.damage }
    else f
  let k := s.dec.doneSeq + 1
  let s1 := mapSlots c (held k) { s with dec := { s.dec with doneSeq := k } }
  let shown := if i.grain then p.disp else p.fb
  let stamp := match (ctxOf s1 c).bind (fun x => x.slots.find? (fun f => f.handle == shown)) with
    | none => 0
    | some f => f.stamp
  match p.entry with
  | some (e, q) =>
    let s2 := if pptSeq s1 e = q ∧ pptState s1 e = peDecoding then
        let a := pptSetState e peComplete (pptRows e i.rowCount s1)
        if dmg then pptDamaged e a else a
      else s1
    let s3 := if dmg then s2.inc DS_CONCEAL_PICS DS_CONCEAL_PICS.PICTURES else s2
    leaveSlices c p (finishJobs n p extra (some (shown, e, q, stamp)) (streamErr p extra (settleSlots c s3)))
  | none =>
    let (o, s2) := if i.facts.release || p.jobs.any (fun k => duFlush k.words) then publishNext c s1 else (none, s1)
    leaveSlices c p (finishJobs n p extra (o.map (fun r => (wordAt r.1.words 0, r.2.1, r.2.2, r.1.stamp)))
      (streamErr p extra (settleSlots c s2)))

/-- A picture whose units have all been parsed and taken ends now, its gaps concealed first; one lost, or with no
descriptor, ends as such (R99, R166, R168). -/
def tryEnd (n c : Nat) (lines : List (List Byte)) (extra : List Nat) (s : State) : State :=
  match picOf s c with
  | none => s
  | some p =>
    match p.lost, p.info with
    | some _, _ => endLost n c p extra s
    | none, none =>
      let trapped := p.jobs.any (fun k => k.conds.contains stStreamError)
      if trapped then
        let s1 := setLost c stStreamError s
        match picOf s1 c with
        | none => s1
        | some p1 => endLost n c p1 extra s1
      else endLost n c p extra s
    | none, some i =>
      if !p.started then s
      else
        let s1 := if p.covered < i.total ∧ linesFit i p.rows i.rowCount lines then concealRest c lines s else s
        match picOf s1 c with
        | none => s1
        | some p1 => if p1.rows < i.rowCount then s else endPicture n c p1 i extra s1

/-- The context whose picture slice `n` works on. -/
def sliceCtx (s : State) (n : Nat) : Option Nat :=
  match (sliceOf s n).cur with
  | some c => some c
  | none => (sliceOf s n).next

/-- PICTURE_COMPLETE. -/
def execPictureComplete (slice : Nat) (bytes : List (List Byte)) (s : State) : Out :=
  done s (match sliceCtx s slice with
    | none => s
    | some c => match picOf s c with
      | none => s
      | some p => State.when (p.ended && (p.lost.isSome || consumed s c p)) (tryEnd slice c bytes []) s)

/-- UNIT_WAIT: the wait for the next unit runs out; the rest is concealed and the last job ends CONCEALED (R89). DESIGN
CHOICE (assumption 136): where no PICTURE descriptor has come the units carried no picture, so nothing is concealed and the
last job ends with its own conditions, though UNIT_WAIT is set. -/
def execUnitWait (slice : Nat) (bytes : List (List Byte)) (s : State) : Out :=
  done s (match sliceCtx s slice with
    | none => s
    | some c => match ctxOf s c, picOf s c with
      | some x, some p =>
        State.when (!p.ended && p.jobs.all (fun k => k.parsed) && (waitingOf s x).isEmpty && consumed s c p
            && (p.started || p.info.isNone || p.lost.isSome)) (fun t =>
          let t1 := tryEnd slice c bytes (if p.started then [stConcealed] else []) t
          if (picOf t1 c).isNone then foldS (fun n u => u.setBit (DS_IRQ_STATUS n) 5) p.members t1 else t) s
      | _, _ => s)

end Sys2Proof.Machine
end

