-- ==== Sys2Proof/Machine/Roles.lean ====
section
/-!
DEFINITION. Slice roles (R107 to R115): the slipway's rotation, draining, self-test, and the watchdog with its rerun.
-/
namespace Sys2Proof.Machine

/-- A slice that is no longer ACTIVE is no longer reserved for the gang being gathered (R87, R107). -/
def leaveGather (n : Nat) (s : State) : State :=
  { s with dec := { s.dec with gather := s.dec.gather.map (fun g => (g.1, g.2.filter (fun m => m != n))) } }

/-- A slice takes a role; a change sets ROLE_CHANGE, and SLIPWAY names the slipway or none (R107, R117). -/
def setRole (n r : Nat) (s : State) : State :=
  if roleOf s n = r then s
  else
    let s0 := if r = roActive then s else leaveGather n s
    let s1 := (s0.wr (DS_STATUS n) DS_STATUS.ROLE r).setBit (DS_IRQ_STATUS n) 3
    if r = roSlipway then s1.wr DS_ROT_STATUS DS_ROT_STATUS.SLIPWAY n
    else if s1.rd DS_ROT_STATUS DS_ROT_STATUS.SLIPWAY = n then s1.wr DS_ROT_STATUS DS_ROT_STATUS.SLIPWAY 0xF
    else s1

/-- Slices of the variant in a role. -/
def inRole (s : State) (r : Nat) : List Nat := (List.range (numSlices s.fuse.variant)).filter (fun n => roleOf s n == r)

/-- The variant's active count (R8). -/
def activeCount (v : Variant) : Nat := numSlices v - 1

/-- The role a slice with DRAIN = 0 takes as it leaves OFFLINE: ACTIVE, SLIPWAY, or none (R108, R491). -/
def joinRole (n : Nat) (s : State) : State :=
  if (inRole s roActive).length < activeCount s.fuse.variant then setRole n roActive s
  else if (inRole s roSlipway).isEmpty then setRole n roSlipway s
  else s

/-- Record a role's beginning of a BIST (R107). -/
def beginBist (n : Nat) (rot : Bool) (s : State) : State :=
  setRole n roBist (setSlice n { sliceOf s n with origin := roleOf s n, rot := rot } s)

/-- Bit `n` of a set of domains. -/
def inSet (doms n : Nat) : Bool := doms.testBit n

/-- Every PD_DRC group of the variant is in the set. -/
def allDrc (v : Variant) (doms : Nat) : Bool := (List.range' 4 8).all (fun g => !domPresent v g || inSet doms g)

/-- The parents of domain `n` are in the set (R486, R487). -/
def parentsIn (v : Variant) (doms n : Nat) : Bool :=
  if n = 0 then true
  else if n ≤ 3 then inSet doms (n - 1)
  else if n ≤ 12 then inSet doms 2
  else if n ≤ 14 then allDrc v doms
  else if n ≤ 25 then allDrc v doms && (inSet doms 13 || inSet doms 14)
  else if n = 26 then allDrc v doms
  else if n ≤ 32 then inSet doms 26
  else if n ≤ 36 then inSet doms 32
  else allDrc v doms

/-- The domain of slice `n` on or off. -/
def sliceDomain (n : Nat) (up : Bool) (s : State) : State :=
  { s with pwr := { s.pwr with doms := if up then Nat.lor s.pwr.doms (2 ^ (15 + n))
      else s.pwr.doms - Nat.land s.pwr.doms (2 ^ (15 + n)) } }

/-- A slice that begins to drain keeps no grant ahead of its current picture: the slice that takes its place decodes that
picture, else another ACTIVE one without a grant (R107, R110). DESIGN CHOICE (assumption 117): where there is none, the
granted picture waits for the next slice that asks for a grant. -/
def passGrant (n : Nat) (heir : Option Nat) (s : State) : State :=
  let others := (List.range (numSlices s.fuse.variant)).filter (fun m => roleOf s m == roActive)
  match (heir.toList ++ others).find? (freeForGrant s n) with
  | some m => handGrant n m s
  | none => s

/-! ## Rotation (R110) -/

/-- The slice a rotation drains: the first ACTIVE one after LAST_DRAINED, wrapping. -/
def drainTarget (s : State) : Option Nat :=
  let k := numSlices s.fuse.variant
  let l := s.rd DS_ROT_STATUS DS_ROT_STATUS.LAST_DRAINED
  ((List.range k).map (fun i => (l + 1 + i) % k)).find? (fun n => roleOf s n == roActive)

/-- The swap is committed: one ACTIVE slice drains and the slipway takes its place, in its gangs too. -/
def commitRotation (s : State) : State :=
  match drainTarget s, inRole s roSlipway with
  | some n, sl :: _ =>
    let s1 := setRole n roDraining (setSlice n { sliceOf s n with rot := true } s)
    let s2 := setRole sl roActive s1
    let s3 := (s2.wr DS_ROT_STATUS DS_ROT_STATUS.LAST_DRAINED n).wr DS_ROT_STATUS DS_ROT_STATUS.ELAPSED_MIN 0
    let swap := fun (e : Nat × Option Ctx) => (e.1, e.2.map (fun x =>
      { x with gang := x.gang.map (fun m => if m = n then sl else m) }))
    passGrant n (some sl) { s3 with dec := { s3.dec with rotate := false, rotated := s3.cyc, ctxs := s3.dec.ctxs.map swap } }
  | _, _ => s

/-- A rotation can be committed: a slice is SLIPWAY and one is ACTIVE. -/
def canRotate (s : State) : Bool := (drainTarget s).isSome && !(inRole s roSlipway).isEmpty

/-- ROTATION: a requested rotation is committed. -/
def execRotation (s : State) : Out := done s (State.when (s.dec.rotate && canRotate s) commitRotation s)

/-- ROTATION_PERIOD: PERIOD_H hours have passed; 0 disables the timer. -/
def execRotationPeriod (s : State) : Out :=
  done s (State.when (s.domOn 1 && s.rd DS_ROT_CFG DS_ROT_CFG.PERIOD_H != 0) (fun t =>
    { t with dec := { t.dec with rotate := true } }) s)

/-- NOW: rotate at once; with no slice to rotate with, the request waits (R110). -/
def execNow (data : Word) (s : State) : Out :=
  done s (State.when (bitAt 0 data && s.domOn 1) (fun t =>
    let t1 := { t with dec := { t.dec with rotate := true } }
    if canRotate t1 then commitRotation t1 else t1) s)

/-! ## Draining (R107, R108) -/

/-- DRAIN of slice `n` takes a value, and the slice's role follows (R108). -/
def writeDrain (n : Nat) (v : Bool) (s : State) : State :=
  let was := s.flag (DS_CTL n) DS_CTL.DRAIN
  let s1 := s.wr (DS_CTL n) DS_CTL.DRAIN v.toNat
  let r := roleOf s1 n
  if v && !was then
    if r = roActive then
      let s2 := setRole n roDraining (setSlice n { sliceOf s1 n with rot := false } s1)
      match inRole s2 roSlipway with
      | sl :: _ => passGrant n (some sl) (setRole sl roActive s2)
      | [] => passGrant n none s2
    else if r = roSlipway ∨ (r = roBist ∧ (sliceOf s1 n).origin = roSlipway) then setRole n roOffline s1
    else s1
  else if !v && was then
    if r = roOffline ∧ s1.domOn (15 + n) = true then joinRole n s1 else s1
  else s1

/-- DRAIN: a write of DSn_CTL without BIST_START. -/
def execDrain (slice : Nat) (data : Word) (s : State) : Out :=
  done s (State.when (decide (slice < numSlices s.fuse.variant) && s.domOn 1 && !bitAt 1 data)
    (writeDrain slice (bitAt 0 data)) s)

/-- Nothing is left for a slice that drains to decode; a picture granted ahead is not for it (R107). -/
def sliceDone (s : State) (n : Nat) : Bool :=
  let x := sliceOf s n
  x.cur.isNone && x.rerun.isEmpty

/-- DRAINED_PICTURE_DONE: a DRAINING slice has finished its picture: BIST by rotation, OFFLINE by DRAIN (R107), ACTIVE again
where a watchdog's rerun waits for it (R114). A slice that came back from RESETTING with DRAIN = 1 leaves here too, by
DRAINING to OFFLINE (assumption 117). -/
def execDrainedPictureDone (slice : Nat) (s : State) : Out :=
  done s (State.when (decide (slice < numSlices s.fuse.variant)) (fun t =>
    let x := sliceOf t slice
    if roleOf t slice = roDraining then
      if x.cur.isNone && !x.rerun.isEmpty then setRole slice roActive (setSlice slice { x with rot := false } t)
      else if !sliceDone t slice then t
      else if t.flag (DS_CTL slice) DS_CTL.DRAIN then setRole slice roOffline t
      else if x.rot then beginBist slice true t
      else joinRole slice (setRole slice roOffline t)
    else if roleOf t slice = roActive ∧ t.flag (DS_CTL slice) DS_CTL.DRAIN ∧ sliceDone t slice then
      setRole slice roOffline (setRole slice roDraining t)
    else t) s)

/-! ## Self-test (R107, R109, R110) -/

/-- A run on a slice whose domain is off switches the domain on (R5, R491). -/
def poweredBist (n : Nat) (s : State) : State :=
  beginBist n false (sliceDomain n true (setSlice n { sliceOf s n with powered := true } s))

/-- BIST_START: accepted in SLIPWAY, OFFLINE and RETIRED, refused as BUSY elsewhere; a domain that is off goes on for the run
(R107, R109, R491), and where its parents are off, so that it may not be on (R486), the run is refused as BUSY too (DESIGN
CHOICE, assumption 101). DESIGN CHOICE (assumption 118): where one write of DSn_CTL changes DRAIN and sets BIST_START, DRAIN
takes effect first. -/
def execBistStart (slice : Nat) (data : Word) (s : State) : Out :=
  done s (State.when (decide (slice < numSlices s.fuse.variant) && s.domOn 1 && bitAt 1 data) (fun t =>
    let t1 := writeDrain slice (bitAt 0 data) t
    let r := roleOf t1 slice
    if r = roRetired ∨ (r = roOffline ∧ t1.domOn (15 + slice) = false) then
      if parentsIn t1.fuse.variant t1.pwr.doms (15 + slice) then poweredBist slice t1
      else t1.wr (DS_BIST slice) DS_BIST.RESULT 3
    else if r = roSlipway ∨ r = roOffline then beginBist slice false t1
    else t1.wr (DS_BIST slice) DS_BIST.RESULT 3) s)

/-- A run ends that switched the domain of an OFFLINE or RETIRED slice on: the domain goes off again, and a slice that passes
is OFFLINE (R5, R108, R491; assumption 101). -/
def endPowered (n : Nat) (s : State) : State :=
  let off := (sliceOf s n).powered
  let t := setSlice n { sliceOf s n with powered := false } s
  if off then sliceDomain n false t else t

/-- BIST_DONE: a run ends; the slice becomes SLIPWAY, or OFFLINE with DRAIN set or its domain off, on a pass, and RETIRED
with its domain off on a failure (R107, R110, R116). -/
def execBistDone (slice : Nat) (pass : Bool) (failGroup : Nat) (s : State) : Out :=
  done s (State.when (roleOf s slice == roBist && decide (slice < numSlices s.fuse.variant)) (fun t =>
    let t0 := endPowered slice (t.inc (DS_BIST slice) DS_BIST.RUNS)
    if pass then
      let t1 := ((t0.wr (DS_BIST slice) DS_BIST.RESULT 1).wr (DS_BIST slice) DS_BIST.FAIL_GROUP 0).setBit (DS_IRQ_STATUS slice) 1
      if t1.flag (DS_CTL slice) DS_CTL.DRAIN || !t1.domOn (15 + slice) || !(inRole t1 roSlipway).isEmpty
      then setRole slice roOffline t1 else setRole slice roSlipway t1
    else
      let t1 := ((t0.wr (DS_BIST slice) DS_BIST.RESULT 2).wr (DS_BIST slice) DS_BIST.FAIL_GROUP failGroup).setBit
        (DS_IRQ_STATUS slice) 2
      sliceDomain slice false (setRole slice roRetired t1)) s)

/-! ## Watchdog and rerun (R111 to R114) -/

/-- The slice that takes the rerun of a picture of slice `n`: the slipway, its own BIST abandoned if one runs, else the
slice a rotation drains, where no rerun waits for it yet (R111, R114). DESIGN CHOICE (assumption 119): the slice a rotation
has drained takes the rerun as long as its BIST runs, however long after the commit the watchdog fires. -/
def rerunSlice (s : State) (n : Nat) : Option Nat :=
  let others := (List.range (numSlices s.fuse.variant)).filter (fun m => m != n)
  match others.find? (fun m => roleOf s m == roSlipway || (roleOf s m == roBist && (sliceOf s m).origin == roSlipway)) with
  | some m => some m
  | none => others.find? (fun m =>
      (roleOf s m == roBist || roleOf s m == roDraining) && (sliceOf s m).rot && (sliceOf s m).rerun.isEmpty)

/-- The descriptors of a picture an allowed sequencer issues again for a rerun (R111). -/
def reissue (p : DecPic) : List Desc :=
  if p.info.isSome then p.descs.filter (fun d => d.cls == 1) else p.descs

/-- Slice `n` restarts the picture of context `c` itself, ahead of any other rerun that waits for it (R113). -/
def rerunHere (c n : Nat) (p : DecPic) (s : State) : State :=
  let x := sliceOf s n
  setSlice n { x with cur := none, loaded := none, rot := false, segs := 0, parts := 0, rerun := c :: x.rerun,
                      queue := reissue p ++ x.queue.filter (fun d => d.ctx != c) } s

/-- Slice `m` is assigned the picture of context `c` that slice `n` was decoding, and the reruns that waited for slice `n`:
ACTIVE at once, or where it still drains, with its current picture finished (R111, R114). -/
def assignRerun (c n m : Nat) (p : DecPic) (s : State) : State :=
  let x := sliceOf s n
  let moved := c :: x.rerun
  let s1 := setSlice n { x with cur := none, loaded := none, rerun := [], handed := true, segs := 0, parts := 0,
                                queue := x.queue.filter (fun d => !moved.contains d.ctx) } s
  let s2 := foldS (fun k t => match picOf t k with
    | none => t
    | some q => setPic k (some { q with members := q.members.map (fun j => if j = n then m else j) }) t) moved s1
  let y := sliceOf s2 m
  let late := roleOf s2 m == roDraining && y.cur.isSome
  let s3 := setSlice m { y with rerun := y.rerun ++ moved, rot := late && y.rot,
                                queue := y.queue ++ reissue p ++ x.queue.filter (fun d => x.rerun.contains d.ctx) } s2
  if late then s3 else setRole m roActive s3

/-- WDOG: the slice resets, and its picture goes to the slipway, or to itself where there is none (R111, R113, R114); a
picture granted to it ahead goes the same way. A rotation requested and not committed is cancelled where it could have been
committed; one that waits for a slipway waits on (R110). DESIGN CHOICE (assumption 119): R107 lists RESETTING as entered
from ACTIVE, and R111 speaks of any slice with a picture; a DRAINING slice resets too. DESIGN CHOICE (assumption 119): BUSY
of the slice reads 0 from the watchdog until its own rerun starts. -/
def execWdog (slice : Nat) (s : State) : Out :=
  done s (State.when (decide (slice < numSlices s.fuse.variant) && s.flag (DS_WDOG slice) DS_WDOG.EN
      && (roleOf s slice == roActive || roleOf s slice == roDraining)) (fun t =>
    match (sliceOf t slice).cur with
    | none => t
    | some c => match picOf t c with
      | none => t
      | some p =>
        let t0 := if canRotate t then { t with dec := { t.dec with rotate := false } } else t
        let t1 := ((setRole slice roResetting t0).setBit (DS_IRQ_STATUS slice) 0).incSat (DS_WDOG slice) DS_WDOG.FIRED_COUNT
        let t2 := (t1.setFault (DS_FAULT_STATUS slice) 3).wr (DS_STATUS slice) DS_STATUS.BUSY 0
        match rerunSlice t2 slice with
        | some m => passGrant slice (some m) (assignRerun c slice m p t2)
        | none => rerunHere c slice p t2) s)

/-- A picture decodes again from its first unit: its final rows keep their samples and codes, the rest is undamaged again
(R111, R112, R172). -/
def restarted (p : DecPic) : DecPic :=
  let keep := fun (a : Nat) => match p.info with | none => false | some i => finalCtu i p a
  let damage := p.damage.filter (fun e => keep e.1)
  { p with covered := 0, segs := 0, gap := false, failing := false, damage := damage
           srcs := p.srcs.filter (fun e => keep e.1)
           jobs := if damage.isEmpty then p.jobs.map (fun k => { k with conds := k.conds.filter (fun st => st != stConcealed) })
             else p.jobs }

/-- RERUN_START: the context is loaded, and the rerun starts from the picture's first unit: in a gang only the member's
tiles (R111, R112). -/
def execRerunStart (slice : Nat) (s : State) : Out :=
  done s (State.when ((sliceOf s slice).cur.isNone && roleOf s slice == roActive) (fun t =>
    match (sliceOf t slice).rerun with
    | [] => t
    | c :: _ => match picOf t c with
      | none => t
      | some p =>
        let q := if p.members.length = 1 then restarted p else p
        let m := p.members.findIdx (fun k => k == slice)
        sliceStarts c p.members.length m slice (setPic c (some q) t)) s)

/-- SLICE_RESET_DONE: the faulting slice goes to BIST, or back to its picture where no slipway took it (R111, R113). DESIGN
CHOICE (assumption 117): it becomes ACTIVE again although its DRAIN is set, takes no further grant, and leaves for OFFLINE
after its picture. -/
def execSliceResetDone (slice : Nat) (s : State) : Out :=
  done s (State.when (roleOf s slice == roResetting && decide (slice < numSlices s.fuse.variant)) (fun t =>
    if (sliceOf t slice).handed
    then beginBist slice false (setSlice slice { sliceOf t slice with handed := false } t)
    else setRole slice roActive t) s)

end Sys2Proof.Machine
end

