-- ==== Sys2Proof/Machine/Hsq.lean ====
section
/-!
DEFINITION. The header sequencers (R119 to R137): parse units and header requests, the microword and its fields, how a
unit ends, and the way of its descriptors.
-/
namespace Sys2Proof.Machine

/-! ## Encoders as the sequencers see them -/

def encJobOf (s : State) (n : Nat) : Option EncJob := tabGet (fun _ => none) s.enc.jobs n
def setEncJob (n : Nat) (j : Option EncJob) (s : State) : State :=
  { s with enc := { s.enc with jobs := tabSet (fun _ => none) s.enc.jobs n j } }

/-- PROFILE of a session record, and the codec code of its headers (R122, R180). -/
def recProfile (ws : List Word) : Nat := bitsOf 2 1 (wordAt ws 0)
def recCodec (ws : List Word) : Nat := if recProfile ws < 2 then 0 else 1

/-- The sequencer that serves encoder `n`: the bound one, or the next eligible one where it has failed (R147, R150). -/
def headerServer (s : State) (n : Nat) : Nat :=
  let b := if n = 0 then s.rd HSQ_EN_BIND HSQ_EN_BIND.EN0 else s.rd HSQ_EN_BIND HSQ_EN_BIND.EN1
  if hsqState s b ≠ 3 then b
  else ((List.range 3).map (fun i => (b + 1 + i) % 4)).find? (hsqEligible s) |>.getD b

/-- A sequencer can run a unit: its domain is on, it has not failed, and its active bank is VALID. Its EN governs grants
alone (R120). -/
def hsqRunnable (s : State) (q : Nat) : Bool :=
  s.domOn (13 + q / 2) && hsqState s q != 3 && bankState s q (activeBank s q) == 2

/-- A header request waits for sequencer `q` (R121). -/
def headerWaits (s : State) (q : Nat) : Bool :=
  (List.range (numEncoders s.fuse.variant)).any (fun n => match encJobOf s n with
    | none => false
    | some j => decide (j.phase = .needHeader) && headerServer s n == q)

/-! ## The control store -/

def storeKey (bank addr : Nat) : Nat := bank * 16384 + addr % 16384
def storeWord (s : State) (q bank addr : Nat) : Nat := tabGet (fun _ => 0) (hsqOf s q).store (storeKey bank addr)
/-- The parity bits of a word that differ from even parity. -/
def storeParity (s : State) (q bank addr : Nat) : Nat := tabGet (fun _ => 0) (hsqOf s q).parity (storeKey bank addr)

def hsqPc (s : State) (q : Nat) : Nat := s.rd (HSQ_STATUS q) HSQ_STATUS.PC
def setPc (q a : Nat) (s : State) : State := s.wr (HSQ_STATUS q) HSQ_STATUS.PC a

/-- Bits `lo` to `lo + n - 1` of a microword. -/
def mw (w lo n : Nat) : Nat := w / 2 ^ lo % 2 ^ n

/-- The microword the sequencer executes. -/
def curWord (s : State) (q : Nat) : Nat := storeWord s q (activeBank s q) (hsqPc s q)

/-- An injected fetch is due (R149, R541). -/
def fetchInjected (s : State) (q : Nat) : Bool :=
  let w := s.raw (HSQ_FAULT_INJECT q)
  bitsOf 10 9 w == 3 && bitsOf 7 0 w != 0

/-- The fetch of the next microword fails its parity check (R146). -/
def fetchBad (s : State) (q : Nat) : Bool :=
  fetchInjected s q || storeParity s q (activeBank s q) (hsqPc s q) != 0

/-! ## Units -/

/-- The sequencer is at a unit boundary: nothing runs, and nothing it produced is on its way. -/
def atBoundary (s : State) (q : Nat) : Bool :=
  let h := hsqOf s q
  hsqState s q == 0 && h.unit.isNone && h.header.isNone

/-- Entry vector of a bank (R122, R138). -/
def entryVector (s : State) (q : Nat) (header : Bool) : Nat :=
  let im := tabGet (fun _ => []) (hsqOf s q).images (activeBank s q)
  if header then im.getD 2 0 else im.getD 1 0

/-- The stream context of a decode unit, the session of a header request (R132, R150). -/
def unitContext (u : HsqUnit) : Nat := if u.header then bitsOf 26 18 (wordAt u.req 0) else u.ctx

/-- Set the registers and the stream port for a unit and enter it at its vector (R122). -/
def enterUnit (q : Nat) (u : HsqUnit) (s : State) : State :=
  let h := (hsqOf s q).clear
  let g := tabSetRange (fun _ => (0 : Word)) [] 0 u.start
  let s1 := setHsq q { h with unit := some u, regs := g, snap := g } s
  let s2 := (s1.wr (HSQ_STATUS q) HSQ_STATUS.STATE 1).wr (HSQ_STATUS q) HSQ_STATUS.CONTEXT (unitContext u)
  setPc q (entryVector s2 q u.header) s2

/-- Address of a context's parse area (R124). -/
def parseArea (s : State) (c : Nat) : Nat :=
  bitsOf 31 16 (s.raw DS_CTX_BASE_LO) * 65536 + (s.raw DS_CTX_BASE_HI).toNat * 2 ^ 32 + c * 16384

/-- The copy of the parse area is that of context `c`, unless it cannot be read (R124). -/
def loadCopy (q c : Nat) (s : State) : State :=
  if (hsqOf s q).copyOf = some c then s
  else
    let (ws, bad, s1) := dramRdWordsFor (HSQ_FAULT_STATUS q) hsqPort s (parseArea s c) 2048
    let h := hsqOf s1 q
    if bad then setHsq q { h with copyOf := none } s1
    else setHsq q { h with copyOf := some c, copy := tabSetRange (fun _ => (0 : Word)) [] 0 ws } s1

/-- The unit is of a layer or view the engine does not decode: it is discarded and counted (R72). -/
def droppedUnit (codec : Nat) (bytes : List Byte) : Bool :=
  let b0 := (bytes.getD 0 0).toNat
  let b1 := (bytes.getD 1 0).toNat
  match codec with
  | 0 => decide (b0 % 2 * 32 + b1 / 8 ≠ 0)
  | 2 => [14, 15, 20, 21].contains (b0 % 32)
  | _ => false

/-- G0 to G3 of a decode unit (R122). -/
def unitStart (c codec : Nat) (p : DecPic) (k : PicJob) (len : Nat) (last : Bool) : List Word :=
  [BitVec.ofNat 32 ((p.units == 0).toNat + last.toNat * 2 + (duDisc k.words).toNat * 8 + (duNoOutput k.words).toNat * 16),
    BitVec.ofNat 32 len, BitVec.ofNat 32 (c % 512 + codec % 8 * 512), BitVec.ofNat 32 p.emitted]

/-- The current job of a picture: the one whose units are not all parsed. -/
def openJob (p : DecPic) : Option PicJob := p.jobs.find? (fun k => !k.parsed)

/-- The scheduler brings the next DECODE_UNIT of a picture under way: it is accepted as the picture's next job (R85). -/
def nextJob (c : Nat) (s : State) : State :=
  match ctxOf s c, picOf s c with
  | some x, some p =>
    if (openJob p).isSome || p.ended then s
    else match waitingOf s x with
      | [] => s
      | u :: us => acceptRef u.ref (setCtx c (some { x with waiting := us })
          (setPic c (some { p with jobs := p.jobs ++ [⟨u.ref, u.words, 0, false, []⟩] }) s))
  | _, _ => s

/-- A sequencer may hand context `c` a unit. -/
def unitAvailable (s : State) (q c : Nat) : Bool :=
  match ctxOf s c, picOf s c with
  | some x, some p => p.seq == q && !p.ended && ((openJob p).isSome || !(waitingOf s x).isEmpty)
  | _, _ => false

/-- A job of a picture has had all its units parsed: END_OF_PICTURE ends the picture (R89). -/
def jobParsed (c : Nat) (r : JobRef) (s : State) : State :=
  match picOf s c with
  | none => s
  | some p =>
    let fin := p.jobs.any (fun k => decide (k.ref = r) && duEnd k.words)
    setPic c (some { p with jobs := p.jobs.map (fun k => if k.ref = r then { k with parsed := true } else k),
                            ended := p.ended || fin }) s

/-- The first context in order of grant that has a unit for the sequencer. -/
def nextContext (s : State) (q : Nat) : Option Nat := (hsqOf s q).queue.find? (unitAvailable s q)

/-- A unit of a job has been taken. -/
def unitTaken (c : Nat) (r : JobRef) (s : State) : State :=
  match picOf s c with
  | none => s
  | some p => setPic c (some { p with jobs := p.jobs.map (fun k => if k.ref = r then { k with taken := k.taken + 1 } else k) }) s

/-- The sequencer comes to a unit boundary. -/
def unitOver (q : Nat) (s : State) : State := s.wr (HSQ_STATUS q) HSQ_STATUS.STATE 0

/-- The unit status joins the conditions of its job, and a unit that is its job's last ends its parsing (R79, R131). -/
def unitStatus (u : HsqUnit) (st : Nat) (s : State) : State :=
  let s1 := match picOf s u.ctx with
    | none => s
    | some p => if st = 0 then s else setPic u.ctx (some (addCond u.ref st p)) s
  if u.last then jobParsed u.ctx u.ref s1 else s1

/-- ABANDON: everything staged is discarded (R123). -/
def abandonUnit (q st : Nat) (s : State) : State :=
  let h := hsqOf s q
  match h.unit with
  | none => s
  | some u =>
    let s1 := s.inc (HSQ_UNITS q) HSQ_UNITS.UNITS
    if u.header then setHsq q { h.clear with header := some ⟨u.ctx, u.ref, false, st, []⟩ } s1
    else unitOver q (unitStatus u st (setHsq q h.clear s1))

/-- The sequencer takes up a decode unit of context `c`: its parse area's copy is at hand (R122, R124). DESIGN CHOICE
(assumption 78): a unit whose bytes (`lost`) or copy cannot be read ends as ABANDON with INTERNAL, as R150 says of a word of
the sequencer's own stores. -/
def enterDecode (q c : Nat) (u : HsqUnit) (lost : Bool) (s : State) : State :=
  let t := enterUnit q u (loadCopy q c (setHsq q { hsqOf s q with served := (hsqOf s q).served + 1, checked := [] } s))
  if lost || (hsqOf t q).copyOf != some c then abandonUnit q stInternal t else t

/-- The next unit of job `k` of context `c`'s picture, from the bytes `raw` of the job: it is parsed, or discarded and
counted (R72, R119). A job without a further unit has been parsed. -/
def handUnitOf (q c : Nat) (x : Ctx) (k : PicJob) (raw : List Byte) (lost : Bool) (s : State) : State :=
  let spans := unitSpans x.codec x.framing raw
  match spans[k.taken]?, picOf s c with
  | some (a, n), some p =>
    let bytes := (raw.drop a).take n
    let last := decide (spans.length ≤ k.taken + 1)
    let s1 := unitTaken c k.ref s
    if droppedUnit x.codec bytes then
      let s2 := s1.inc (DS_LAYER_DROP (p.members.headD 0)) DS_LAYER_DROP.DROPPED
      if last then jobParsed c k.ref s2 else s2
    else
      let u : HsqUnit := { header := false, ctx := c, codec := x.codec, ref := k.ref,
                           start := unitStart c x.codec p k n last, last := last, req := [],
                           bytes := if x.codec = 1 then bytes else stripEpb 0 bytes, cap := 0, place := a }
      let s2 := match picOf s1 c with
        | none => s1
        | some p1 => setPic c (some { p1 with units := p1.units + 1 }) s1
      enterDecode q c u lost s2
  | _, _ => jobParsed c k.ref s

/-- The next unit of a context's picture begins on its sequencer (R119, R122, R124). DISCONTINUITY acts before the first
unit of its job, whatever becomes of that unit (R79, R153). -/
def startDecode (q c : Nat) (s : State) : State :=
  match ctxOf s c, (picOf (nextJob c s) c).bind openJob with
  | some x, some k =>
    let s1 := nextJob c s
    let (raw, lost, s2) := dramRdFor (HSQ_FAULT_STATUS q) hsqPort s1 (bufAddr s1 (duHandle k.words) + duOffset k.words) (duLength k.words)
    let s3 := if duDisc k.words && k.taken == 0 then discontinuity c s2 else s2
    handUnitOf q c x k raw lost s3
  | _, _ => s

/-- The unit sequencer `q` takes next: where it begins in its job's bytes, its length, and whether its job ends with it. A
unit another sequencer failed on comes before the others; a job without a further unit gives an empty last one. -/
def unitDue (q : Nat) (s : State) : Nat × Nat × Bool :=
  match (hsqOf s q).redo with
  | u :: _ => (u.place, (wordAt u.start 1).toNat, u.last)
  | [] => match nextContext s q with
    | none => (0, 0, true)
    | some c => match ctxOf s c, (picOf (nextJob c s) c).bind openJob with
      | some x, some k =>
        let t := nextJob c s
        let raw := (dramRd hsqPort t (bufAddr t (duHandle k.words) + duOffset k.words) (duLength k.words)).1
        let spans := unitSpans x.codec x.framing raw
        match spans[k.taken]? with
        | some (a, n) => (a, n, decide (spans.length ≤ k.taken + 1))
        | none => (0, 0, true)
      | _, _ => (0, 0, true)

/-- PARSE_UNIT_START: at a unit boundary the scheduler hands the sequencer its next decode unit, the NAL unit or OBU of
`length` bytes at `offset` of the job by the context's framing, `last` where the job ends with it (R75, R119, R121, R122). A
header request that waits goes first. -/
def execParseUnitStart (seq offset length : Nat) (last : Bool) (s : State) : Out :=
  done s (State.when (decide (seq < 4) && unitDue seq s == (offset, length, last) && hsqRunnable s seq && atBoundary s seq
      && !headerWaits s seq && !s.flag (HSQ_STATUS seq) HSQ_STATUS.SWITCH_PENDING) (fun t =>
    match (hsqOf t seq).redo with
    | u :: us => enterDecode seq u.ctx u false (setHsq seq { hsqOf t seq with redo := us } t)
    | [] => match nextContext t seq with
      | none => t
      | some c => startDecode seq c t) s)

/-- The words of a HEADER_REQ (R132, R136): PARAMS where the job asks for parameter sets or starts the session (R183); the
header goes to byte 0 of the output buffer (R177). -/
def headerRequest (j : EncJob) (cap : Nat) (record : List Word) : List Word :=
  let params := bitAt 4 (wordAt j.words 8) || bitAt 3 (wordAt j.words 8)
  [BitVec.ofNat 32 (3 + recCodec j.sess.words * 16 + (8 + record.length) % 4096 * 2 ^ 6 + j.session % 512 * 2 ^ 18),
    BitVec.ofNat 32 params.toNat, wordAt j.words 9, 0, BitVec.ofNat 32 cap, 0, 0, 0] ++ record

/-- The word an element of a session's record takes, none where it is not present (R133, R180, R196). -/
def elemWord (ws : List Word) : HeaderElem → Option Word
  | .value w => some w
  | .level => some (BitVec.ofNat 32 (bitsOf 10 3 (wordAt ws 0)))
  | .hrd => some (BitVec.ofNat 32 (bitAt 20 (wordAt ws 0)).toNat)
  | .hrdValue w => if bitAt 20 (wordAt ws 0) then some w else none
  | .deltaQ => some (if bitsOf 19 18 (wordAt ws 0) = 0 then 0 else 1)

/-- The record holds what R180 and R196 put into the headers: with parameter sets the session's LEVEL and HRD, and for AV1
the enabling of delta_q. -/
def recordHolds (j : EncJob) (record : List HeaderElem) : Bool :=
  let params := bitAt 4 (wordAt j.words 8) || bitAt 3 (wordAt j.words 8)
  (!params || (record.contains .level && record.contains .hrd))
    && (recCodec j.sess.words == 0 || record.contains .deltaQ)

/-- HEADER_REQ: an encoder's request is handed to its sequencer at a unit boundary, ahead of decode units (R121, R136).
DESIGN CHOICE (assumption 139): G1 holds the bytes of the request's record, for which R122 gives no unit length. -/
def execHeaderReq (enc : Nat) (elems : List HeaderElem) (s : State) : Out :=
  done s (match encJobOf s enc with
    | none => s
    | some j =>
      let q := headerServer s enc
      let record := elems.filterMap (elemWord j.sess.words)
      State.when (decide (j.phase = .needHeader) && recordHolds j elems && decide (enc < numEncoders s.fuse.variant) && decide (record.length ≤ 1016)
          && hsqRunnable s q && atBoundary s q && !s.flag (HSQ_STATUS q) HSQ_STATUS.SWITCH_PENDING) (fun t =>
        let cap := min 4096 (poolSize (hPool (wordAt j.words 9)))
        let codec := recCodec j.sess.words
        let u : HsqUnit := { header := true, ctx := enc, codec := codec, ref := j.ref,
                             start := [4, BitVec.ofNat 32 (4 * record.length), BitVec.ofNat 32 (j.session + codec * 512), 0],
                             last := true, req := headerRequest j cap record, bytes := [], cap := cap, place := 0 }
        let t1 := setHsq q { hsqOf t q with served := (hsqOf t q).served + 1, checked := [] } t
        enterUnit q u (setEncJob enc (some { j with phase := .header }) t1)) s)

/-! ## The end of a unit (R123, R131, R137) -/

/-- The slices a context's descriptors go to. -/
def picMembers (s : State) (c : Nat) : List Nat := match picOf s c with | none => [] | some p => p.members

/-- Descriptor word 0 (R132). -/
def descWord0 (u : HsqUnit) (cls len : Nat) (context : Nat) : Word :=
  BitVec.ofNat 32 (cls % 16 + u.codec % 4 * 16 + len % 4096 * 2 ^ 6 + context % 512 * 2 ^ 18)

/-- Header bits as bytes, the last one filled with zeros. -/
def bytesOfBits (bits : List Bool) : List Byte :=
  (List.range ((bits.length + 7) / 8)).map (fun i =>
    BitVec.ofNat 8 ((List.range 8).foldl (fun acc k => 2 * acc + (bits.getD (8 * i + k) false).toNat) 0))

/-- The byte stream of header bits: in HEVC each NAL unit behind a 4-byte start code, with its emulation-prevention bytes
(R136, R177). DESIGN CHOICE (assumption 120): the engine writes the start codes, and a NAL unit ends where the microcode
writes trailing bits. -/
def headerStream (codec : Nat) (bits : List Bool) (cuts : List Nat) : List Byte :=
  if codec = 1 then bytesOfBits bits
  else
    let starts := if bits.isEmpty then [] else 0 :: cuts.filter (fun c => decide (c < bits.length))
    (starts.zip (starts.drop 1 ++ [bits.length])).flatMap (fun e =>
      [0, 0, 0, 1] ++ addEpb 0 (bytesOfBits ((bits.drop e.1).take (e.2 - e.1))))

/-- A trap ends the unit as ABANDON with STREAM_ERROR (R131). -/
def trapUnit (q : Nat) (s : State) : State :=
  let s1 := (s.wr (HSQ_TRAP q) HSQ_TRAP.ADDR (hsqPc s q)).wr (HSQ_TRAP q) HSQ_TRAP.TRACE_ID (mw (curWord s q) 160 8)
  abandonUnit q stStreamError ((s1.incSat (HSQ_TRAP q) HSQ_TRAP.COUNT).setBit (HSQ_IRQ_STATUS q) 1)

/-- The check of the staging buffers as their words leave them (R150, R541): false where a word is uncorrectable. -/
def stagingCheck (q : Nat) (s : State) : Bool × State :=
  let h := hsqOf s q
  if h.closed.isEmpty && h.log.isEmpty && h.out.isEmpty then (true, s)
  else
    let words := (h.closed.map (fun d => d.2.length)).sum + h.log.length + (h.out.length + 31) / 32
    match s.sramCheck (HSQ_FAULT_STATUS q) words [0, 1] with
    | (false, t) => (true, t)
    | (true, t) => (false, t.setFault (HSQ_FAULT_STATUS q) 1)

/-- The descriptors a unit has closed (R132). -/
def stagedDescs (u : HsqUnit) (h : HsqSt) : List Desc :=
  (h.closed.filter (fun d => decide (d.1 < 2))).map (fun d =>
    ⟨d.1, u.ctx, u.ref, (descWord0 u d.1 d.2.length u.ctx) :: d.2.drop 1⟩)

/-- A decode unit leaves END: the log goes to the copy and to DRAM, the unit is counted, its status noted, and the sequencer
is at a unit boundary (R123, R124). -/
def releaseUnit (q st : Nat) (u : HsqUnit) (s : State) : State :=
  let h := hsqOf s q
  let copy := h.log.foldl (fun t e => tabSet (fun _ => 0) t e.1 e.2) h.copy
  let s1 := foldS (fun e t => dramWrWords hsqPort t (parseArea s u.ctx + 4 * e.1) [e.2]) h.log (s.inc (HSQ_UNITS q) HSQ_UNITS.UNITS)
  unitOver q (unitStatus u st (setHsq q { h.clear with copy := copy } s1))

/-- END: staging, log and header bytes are released at once (R123). A unit with descriptors stands at END until they have
room (R137). An uncorrectable word among them ends the unit as ABANDON with INTERNAL (R150). -/
def endUnit (q st : Nat) (s : State) : State :=
  match stagingCheck q s with
  | (false, t) => abandonUnit q stInternal t
  | (true, t) =>
    let h := hsqOf t q
    match h.unit with
    | none => t
    | some u =>
      if u.header then
        setHsq q { h.clear with header := some ⟨u.ctx, u.ref, true, st, headerStream u.codec h.out h.cuts⟩ }
          (t.inc (HSQ_UNITS q) HSQ_UNITS.UNITS)
      else if (stagedDescs u h).isEmpty then releaseUnit q st u t
      else setHsq q { h with ending := some st } t

/-- Words in a slice's descriptor queue. -/
def queueWords (x : SliceSt) : Nat := (x.queue.map (fun d => d.words.length)).sum

/-- Descriptors of a unit enter the queue of every slice of its picture, and the picture keeps them for a rerun
(R111, R132). -/
def queueDescs (c : Nat) (ds : List Desc) (s : State) : State :=
  let s1 := foldS (fun m u => setSlice m { sliceOf u m with queue := (sliceOf u m).queue ++ ds } u) (picMembers s c) s
  match picOf s1 c with
  | none => s1
  | some p => setPic c (some { p with descs := p.descs ++ ds, emitted := p.emitted + ds.countP (fun d => d.cls == 1) }) s1

/-- DESCRIPTOR_RELEASE: the unit that stands at END is released, its descriptors with its log, once every slice of its
picture has room for them (R123, R132, R137). -/
def execDescriptorRelease (seq : Nat) (s : State) : Out :=
  done s (
    let h := hsqOf s seq
    match h.unit, h.ending with
    | some u, some st =>
      let ds := stagedDescs u h
      let n := (ds.map (fun e => e.words.length)).sum
      State.when (decide (seq < 4) && hsqState s seq == 1
          && (picMembers s u.ctx).all (fun m => decide (queueWords (sliceOf s m) + n ≤ 4096))) (fun t =>
        releaseUnit seq st u (queueDescs u.ctx ds t)) s
    | _, _ => s)

end Sys2Proof.Machine
end

