-- ==== Sys2Proof/Machine/HsqWord.lean ====
section
/-!
DEFINITION. The microword (R125 to R131): the operations of its ALU, stream-port, output and sequencing fields. The four
fields of a word act in the order ALU, stream port, output, sequencing, and each reads what stood before the word (R126).
-/
namespace Sys2Proof.Machine

/-! ## Flags and registers of the word -/

/-- Numbers of the condition flags: Z, N, C, EOU, SYNTAX, OUT_FULL. -/
def fZ : Nat := 0
def fN : Nat := 1
def fC : Nat := 2
def fEou : Nat := 3
def fSyntax : Nat := 4
def fOutFull : Nat := 5

/-- One flag; a list shorter than the six is clear beyond its end. -/
def flagOf (fs : List Bool) (i : Nat) : Bool := fs.getD i false
/-- Set one flag. -/
def flagPut (fs : List Bool) (i : Nat) (v : Bool) : List Bool :=
  (List.range 6).map (fun k => if k = i then v else flagOf fs k)

def HsqSt.setFlag (h : HsqSt) (i : Nat) (v : Bool) : HsqSt := { h with flags := flagPut h.flags i v }

/-- A general register as it stood before the word (R126). -/
def HsqSt.g (h : HsqSt) (r : Nat) : Word := tabGet (fun _ => 0) h.snap (r % 64)
/-- Write a general register; the later write of a word stands (R126). -/
def HsqSt.setG (h : HsqSt) (r : Nat) (v : Word) : HsqSt := { h with regs := tabSet (fun _ => 0) h.regs (r % 64) v }

/-- The sequencer executes the field of phase `phase` of a good microword (R146). -/
def mayAct (s : State) (q phase : Nat) : Bool :=
  decide (q < 4) && s.domOn (13 + q / 2) && hsqState s q == 1 && (hsqOf s q).unit.isSome && (hsqOf s q).ending.isNone && (hsqOf s q).phase == phase
    && (decide (phase ≠ 0) || !fetchBad s q)

/-- Do one field of the word: `f` answers the sequencer's new state, none for a trap. -/
def wordStep (q phase : Nat) (ok : Nat → Bool) (f : Nat → HsqSt → Option HsqSt) (s : State) : State :=
  State.when (mayAct s q phase && ok (curWord s q)) (fun t =>
    match f (curWord t q) (hsqOf t q) with
    | none => trapUnit q t
    | some h => setHsq q { h with phase := phase + 1 } t) s

/-! ## ALU (R126, R127) -/

def aluOp (w : Nat) : Nat := mw w 0 5
/-- Operand A. -/
def aluA (w : Nat) (h : HsqSt) : Word := h.g (mw w 12 6)
/-- Operand B: IMM or a register. -/
def aluB (w : Nat) (h : HsqSt) : Word := if mw w 5 1 = 1 then BitVec.ofNat 32 (mw w 128 32) else h.g (mw w 18 6)
def aluShift (w : Nat) : Nat := mw w 24 5

/-- Z and N of a result. -/
def zn (v : Word) (h : HsqSt) : HsqSt := (h.setFlag fZ (v == 0)).setFlag fN v.msb

/-- An ALU operation that writes a result `r`, with its carry where the table gives one (R127). Where it gives none, C is
a free value. -/
def aluResult (q op : Nat) (r : Word → Word → Nat → Word) (carry : Option (Word → Word → Bool)) (s : State) : State :=
  let (v, s1) := s.fresh
  State.when (mayAct s q 0 && aluOp (curWord s q) == op) (fun t =>
    let w := curWord t q
    wordStep q 0 (fun _ => true) (fun _ h =>
      let a := aluA w h
      let b := aluB w h
      let x := r a b (aluShift w)
      let h1 := zn x (h.setG (mw w 6 6) x)
      match carry with
      | some c => some (h1.setFlag fC (c a b))
      | none => some (h1.setFlag fC (v.getLsbD 0)))
      (match carry with | some _ => t | none => s1)) s

/-- ALU NOP. -/
def execAluNop (seq : Nat) (s : State) : Out := done s (wordStep seq 0 (fun w => aluOp w == 0) (fun _ h => some h) s)

/-- ADD: A + B; C is the carry. -/
def execAluAdd (seq : Nat) (s : State) : Out :=
  done s (aluResult seq 1 (fun a b _ => a + b) (some (fun a b => decide (2 ^ 32 ≤ a.toNat + b.toNat))) s)

/-- SUB: A − B; C is the borrow. -/
def execAluSub (seq : Nat) (s : State) : Out :=
  done s (aluResult seq 2 (fun a b _ => a - b) (some (fun a b => decide (a.toNat < b.toNat))) s)

def execAluAnd (seq : Nat) (s : State) : Out := done s (aluResult seq 3 (fun a b _ => a &&& b) none s)
def execAluOr (seq : Nat) (s : State) : Out := done s (aluResult seq 4 (fun a b _ => a ||| b) none s)
def execAluXor (seq : Nat) (s : State) : Out := done s (aluResult seq 5 (fun a b _ => a ^^^ b) none s)
def execAluShl (seq : Nat) (s : State) : Out := done s (aluResult seq 6 (fun a _ n => a <<< n) none s)
def execAluShr (seq : Nat) (s : State) : Out := done s (aluResult seq 7 (fun a _ n => a >>> n) none s)
def execAluAsr (seq : Nat) (s : State) : Out := done s (aluResult seq 8 (fun a _ n => a.sshiftRight n) none s)

/-- EXT: (A >> ALU_SHIFT) AND ((1 << B[5:0]) − 1), exact (R13): 32 bits or more give every bit. -/
def execAluExt (seq : Nat) (s : State) : Out :=
  done s (aluResult seq 9 (fun a b k => BitVec.ofNat 32 ((a >>> k).toNat % 2 ^ (b.toNat % 64))) none s)

def execAluMin (seq : Nat) (s : State) : Out :=
  done s (aluResult seq 10 (fun a b _ => if a.toNat ≤ b.toNat then a else b) none s)
def execAluMax (seq : Nat) (s : State) : Out :=
  done s (aluResult seq 11 (fun a b _ => if a.toNat ≤ b.toNat then b else a) none s)

/-- Leading zeros of a word, 0 to 32. -/
def clz (a : Word) : Nat := (List.range 32).countP (fun i => decide (a.toNat / 2 ^ (31 - i) = 0))

def execAluClz (seq : Nat) (s : State) : Out :=
  done s (aluResult seq 12 (fun a _ _ => BitVec.ofNat 32 (clz a)) none s)
def execAluMul (seq : Nat) (s : State) : Out := done s (aluResult seq 13 (fun a b _ => a * b) none s)

/-- CMP: A − B, flags only. -/
def execAluCmp (seq : Nat) (s : State) : Out :=
  done s (wordStep seq 0 (fun w => aluOp w == 14) (fun w h =>
    let a := aluA w h
    let b := aluB w h
    some ((zn (a - b) h).setFlag fC (decide (a.toNat < b.toNat)))) s)

/-- MOV: B; it touches no flag. -/
def execAluMov (seq : Nat) (s : State) : Out :=
  done s (wordStep seq 0 (fun w => aluOp w == 15) (fun w h => some (h.setG (mw w 6 6) (aluB w h))) s)

/-- ALU codes 16 to 31 trap. -/
def execAluTrap (seq : Nat) (s : State) : Out :=
  done s (wordStep seq 0 (fun w => decide (16 ≤ aluOp w)) (fun _ _ => none) s)

/-! ## The stream port (R126, R128) -/

def spOp (w : Nat) : Nat := mw w 32 5
def spReg (w : Nat) : Nat := mw w 37 6

/-- The bit count n of a word, if it is 1 to 32 (R128). DESIGN CHOICE (assumption 121): a count of 33 to 63 given by the word
itself traps as one taken from a register does; the rule names only the latter. -/
def spCount (w : Nat) (h : HsqSt) : Option Nat :=
  let n := if mw w 43 6 = 0 then (h.g (mw w 49 6)).toNat % 64 else mw w 43 6
  if 1 ≤ n ∧ n ≤ 32 then some n else none

/-- The unit is a header request. -/
def HsqSt.isHeader (h : HsqSt) : Bool := match h.unit with | none => false | some u => u.header

/-- Bits of the decode unit. -/
def HsqSt.unitBits (h : HsqSt) : Nat := match h.unit with | none => 0 | some u => 8 * u.bytes.length

/-- The bit of the unit at position `p`; zero beyond its end (R128). -/
def HsqSt.bit (h : HsqSt) (p : Nat) : Bool :=
  match h.unit with
  | none => false
  | some u => (u.bytes.getD (p / 8) 0).getLsbD (7 - p % 8)

/-- The unsigned number in `n` bits from position `p`, the first bit the highest. -/
def HsqSt.bitsAt (h : HsqSt) (p n : Nat) : Nat := (List.range n).foldl (fun acc i => 2 * acc + (h.bit (p + i)).toNat) 0

/-- The port after a read that ends at position `e`: EOU tells whether it passed the unit's end (R129). -/
def HsqSt.readTo (h : HsqSt) (e : Nat) : HsqSt := { h.setFlag fEou (decide (h.unitBits < e)) with pos := e }

/-- A read operation; in a header request it traps (R128). -/
def spRead (q op : Nat) (f : Nat → HsqSt → Option HsqSt) (s : State) : State :=
  wordStep q 1 (fun w => spOp w == op) (fun w h => if h.isHeader then none else f w h) s

def execSpNop (seq : Nat) (s : State) : Out := done s (wordStep seq 1 (fun w => spOp w == 0) (fun _ h => some h) s)

/-- U: n bits, unsigned. -/
def execSpU (seq : Nat) (s : State) : Out :=
  done s (spRead seq 1 (fun w h => (spCount w h).map (fun n =>
    (h.setG (spReg w) (BitVec.ofNat 32 (h.bitsAt h.pos0 n))).readTo (h.pos0 + n))) s)

/-- PEEK: as U, without advancing. -/
def execSpPeek (seq : Nat) (s : State) : Out :=
  done s (spRead seq 2 (fun w h => (spCount w h).map (fun n =>
    let r := (h.setG (spReg w) (BitVec.ofNat 32 (h.bitsAt h.pos0 n))).readTo (h.pos0 + n)
    { r with pos := h.pos0 })) s)

/-- SKIP: advance n bits. -/
def execSpSkip (seq : Nat) (s : State) : Out :=
  done s (spRead seq 3 (fun w h => (spCount w h).map (fun n => h.readTo (h.pos0 + n))) s)

/-- Leading zero bits from position `p`, at most 32 of them counted. -/
def HsqSt.zeros (h : HsqSt) (p : Nat) : Nat :=
  (List.range 32).foldl (fun acc i => if acc = i ∧ !(h.bit (p + i)) then i + 1 else acc) 0

/-- Read ue(v) at the port: its value and the port, or none where more than 31 zeros lead (R128). -/
def HsqSt.ue (h : HsqSt) : Option (Nat × HsqSt) :=
  let z := h.zeros h.pos0
  if 31 < z then none
  else some (2 ^ z - 1 + h.bitsAt (h.pos0 + z + 1) z, h.readTo (h.pos0 + 2 * z + 1))

/-- The port after a failed Exp-Golomb check: SYNTAX sets and the result is all ones; where the port stands is a free
value. -/
def ueFail (w : Nat) (free : Word) (h : HsqSt) : HsqSt :=
  let h1 := (h.setG (spReg w) 0xFFFFFFFF).setFlag fSyntax true
  { h1.setFlag fEou (decide (h.unitBits < h.pos0 + 32)) with pos := h.pos0 + free.toNat }

/-- ue(v) or se(v), by `f` from the code number. -/
def spGolomb (q op : Nat) (f : Nat → Word) (s : State) : State :=
  let (v, s1) := s.fresh
  let bad := (hsqOf s q).ue.isNone && mayAct s q 1 && spOp (curWord s q) == op
  spRead q op (fun w h => match h.ue with
    | some (k, h1) => some (h1.setG (spReg w) (f k))
    | none => some (ueFail w v h)) (if bad then s1 else s)

/-- UE: ue(v). -/
def execSpUe (seq : Nat) (s : State) : Out := done s (spGolomb seq 4 (fun k => BitVec.ofNat 32 k) s)

/-- The signed value of an Exp-Golomb code number. -/
def seValue (k : Nat) : Int := if k % 2 = 1 then (k / 2 + 1 : Nat) else -((k / 2 : Nat) : Int)

/-- SE: se(v). -/
def execSpSe (seq : Nat) (s : State) : Out := done s (spGolomb seq 5 (fun k => BitVec.ofInt 32 (seValue k)) s)

/-- SU: su(n) of AV1. -/
def execSpSu (seq : Nat) (s : State) : Out :=
  done s (spRead seq 6 (fun w h => (spCount w h).map (fun n =>
    let v := h.bitsAt h.pos0 n
    let x : Int := if 2 ^ (n - 1) ≤ v then (v : Int) - 2 ^ n else v
    (h.setG (spReg w) (BitVec.ofInt 32 x)).readTo (h.pos0 + n))) s)

/-- Bits needed to write `n`. -/
def bitLen (n : Nat) : Nat := (List.range 33).countP (fun i => decide (2 ^ i ≤ n))

/-- NS: ns(n) of AV1, with n the whole of G[SP_CREG]; n = 0 traps. -/
def execSpNs (seq : Nat) (s : State) : Out :=
  done s (spRead seq 7 (fun w h =>
    let n := (h.g (mw w 49 6)).toNat
    if n = 0 then none
    else
      let k := bitLen n
      let m := 2 ^ k - n
      let v := h.bitsAt h.pos0 (k - 1)
      if v < m then some ((h.setG (spReg w) (BitVec.ofNat 32 v)).readTo (h.pos0 + (k - 1)))
      else some ((h.setG (spReg w) (BitVec.ofNat 32 (2 * v - m + (h.bit (h.pos0 + (k - 1))).toNat))).readTo (h.pos0 + k))) s)

/-- Bytes a leb128() at the port takes: up to and with the first whose top bit is clear, at most 8. -/
def HsqSt.lebLen (h : HsqSt) : Nat :=
  (List.range 8).foldl (fun acc i => if acc = i ∧ h.bit (h.pos0 + 8 * i) then i + 1 else acc) 0 + 1

/-- Value of a leb128() of `n` bytes at the port. -/
def HsqSt.lebVal (h : HsqSt) (n : Nat) : Nat :=
  (List.range n).foldl (fun acc i => acc + h.bitsAt (h.pos0 + 8 * i + 1) 7 * 2 ^ (7 * i)) 0

/-- LEB: leb128(). A value above 32 bits or more than 8 bytes sets SYNTAX; its value is then a free value. -/
def execSpLeb (seq : Nat) (s : State) : Out :=
  let (v, s1) := s.fresh
  let bad := fun (h : HsqSt) => decide (8 < h.lebLen) || decide (2 ^ 32 ≤ h.lebVal (min 8 h.lebLen))
  let s0 := if bad (hsqOf s seq) && mayAct s seq 1 && spOp (curWord s seq) == 8 then s1 else s
  done s (spRead seq 8 (fun w h =>
    let e := h.readTo (h.pos0 + 8 * min 8 h.lebLen)
    if bad h then some ((e.setG (spReg w) v).setFlag fSyntax true)
    else some (e.setG (spReg w) (BitVec.ofNat 32 (h.lebVal h.lebLen)))) s0)

/-- ALIGN: advance to the next byte boundary. -/
def execSpAlign (seq : Nat) (s : State) : Out :=
  done s (spRead seq 9 (fun _ h => some { h with pos := (h.pos0 + 7) / 8 * 8 }) s)

/-- POS: the bit position in the unit. DESIGN CHOICE (assumption 50): in a header request it answers the write position, as
neither a read nor a write of the stream. -/
def execSpPos (seq : Nat) (s : State) : Out :=
  done s (wordStep seq 1 (fun w => spOp w == 10) (fun w h => some (h.setG (spReg w) (BitVec.ofNat 32 h.pos0))) s)

/-- The low `n` bits of a number, the highest first. -/
def bitsOfNat (n v : Nat) : List Bool := (List.range n).map (fun i => v.testBit (n - 1 - i))

/-- Write bits at the port: past the capacity, OUT_FULL sets and nothing is written (R128). -/
def HsqSt.put (h : HsqSt) (bits : List Bool) : HsqSt :=
  match h.unit with
  | none => h
  | some u =>
    let all := h.out ++ bits
    if u.cap < (headerStream u.codec all h.cuts).length then h.setFlag fOutFull true else { h with out := all, pos := all.length }

/-- A write operation; in a decode unit it traps (R128). -/
def spWrite (q op : Nat) (f : Nat → HsqSt → Option (List Bool)) (s : State) : State :=
  wordStep q 1 (fun w => spOp w == op) (fun w h => if h.isHeader then (f w h).map h.put else none) s

/-- WU: the low n bits of G[SP_REG]. -/
def execSpWu (seq : Nat) (s : State) : Out :=
  done s (spWrite seq 16 (fun w h => (spCount w h).map (fun n => bitsOfNat n (h.g (spReg w)).toNat)) s)

/-- The bits of ue(v). -/
def ueBits (v : Nat) : List Bool :=
  let k := bitLen (v + 1)
  List.replicate (k - 1) false ++ bitsOfNat k (v + 1)

/-- WUE: ue(v) of G[SP_REG]. -/
def execSpWue (seq : Nat) (s : State) : Out :=
  done s (spWrite seq 17 (fun w h => some (ueBits (h.g (spReg w)).toNat)) s)

/-- The code number of a signed value. -/
def seCode (x : Int) : Nat := if 0 < x then 2 * x.toNat - 1 else 2 * x.natAbs

/-- WSE: se(v) of G[SP_REG]. -/
def execSpWse (seq : Nat) (s : State) : Out :=
  done s (spWrite seq 18 (fun w h => some (ueBits (seCode (h.g (spReg w)).toInt))) s)

/-- The bits of leb128() with at most `n` bytes. -/
def lebBits : Nat → Nat → List Bool
  | 0, _ => []
  | n + 1, v => if v < 128 then bitsOfNat 8 v else bitsOfNat 8 (v % 128 + 128) ++ lebBits n (v / 128)

/-- WLEB: leb128() of G[SP_REG]. -/
def execSpWleb (seq : Nat) (s : State) : Out :=
  done s (spWrite seq 19 (fun w h => some (lebBits 5 (h.g (spReg w)).toNat)) s)

/-- The NAL unit at the port's end is over: where the bits to end it have been written, the next one begins (R177). -/
def HsqSt.cut (h0 h : HsqSt) : HsqSt :=
  if h0.out.length < h.out.length then { h with cuts := h.cuts ++ [h.out.length] } else h

/-- WTRAIL: a one, then zeros to the byte boundary. -/
def execSpWtrail (seq : Nat) (s : State) : Out :=
  done s (wordStep seq 1 (fun w => spOp w == 20) (fun _ h =>
    if h.isHeader then some (h.cut (h.put (true :: List.replicate ((7 - h.out.length % 8) % 8) false))) else none) s)

/-- Stream-port codes 11 to 15 and 21 to 31 trap. -/
def execSpTrap (seq : Nat) (s : State) : Out :=
  done s (wordStep seq 1 (fun w => decide (11 ≤ spOp w ∧ spOp w ≤ 15) || decide (21 ≤ spOp w)) (fun _ _ => none) s)

/-! ## Output (R123, R130) -/

def outOp (w : Nat) : Nat := mw w 96 4
def outIndex (w : Nat) : Nat := mw w 106 12

/-- Words in the staging buffer. -/
def HsqSt.staged (h : HsqSt) : Nat := (h.closed.map (fun d => d.2.length)).sum + h.curLen

/-- Write a word of the staged descriptor; beyond the 1,024 words of staging OUT_FULL sets (R123, R129). -/
def HsqSt.stage (h : HsqSt) (i : Nat) (v : Word) : HsqSt :=
  let len := max h.curLen (i + 1)
  if 1024 < (h.closed.map (fun d => d.2.length)).sum + len then h.setFlag fOutFull true
  else { h with cur := tabSet (fun _ => 0) h.cur i v, curLen := len }

def execOutNop (seq : Nat) (s : State) : Out := done s (wordStep seq 2 (fun w => outOp w == 0) (fun _ h => some h) s)

/-- DW: staged descriptor word OUT_INDEX = G[OUT_REG]. -/
def execOutDw (seq : Nat) (s : State) : Out :=
  done s (wordStep seq 2 (fun w => outOp w == 1) (fun w h => some (h.stage (outIndex w) (h.g (mw w 100 6)))) s)

/-- DWI: staged descriptor word OUT_INDEX = IMM. -/
def execOutDwi (seq : Nat) (s : State) : Out :=
  done s (wordStep seq 2 (fun w => outOp w == 2) (fun w h =>
    some (h.stage (outIndex w) (BitVec.ofNat 32 (mw w 128 32)))) s)

/-- SEND: the staged descriptor is closed as class OUT_CLASS. -/
def execOutSend (seq : Nat) (s : State) : Out :=
  done s (wordStep seq 2 (fun w => outOp w == 3) (fun w h =>
    some { h with closed := h.closed ++ [(mw w 118 3, tabGetRange (fun _ => 0) h.cur 0 h.curLen)], cur := [], curLen := 0 }) s)

/-- Parse-area word of a context operation (R130). -/
def areaWord (w : Nat) (h : HsqSt) : Nat := ((h.g (mw w 121 6)).toNat + outIndex w) % 2048

/-- CWR: a parse-area word through the write log; a log of 256 entries is full (R123). -/
def execOutCwr (seq : Nat) (s : State) : Out :=
  done s (wordStep seq 2 (fun w => outOp w == 4) (fun w h =>
    if h.isHeader then some h
    else if 256 ≤ h.log.length then some (h.setFlag fOutFull true)
    else some { h with log := h.log ++ [(areaWord w h, h.g (mw w 100 6))] }) s)

/-- The parse-area word as the context port reads it: the log first, the copy second (R124). -/
def HsqSt.area (h : HsqSt) (k : Nat) : Word :=
  match (h.log.filter (fun e => e.1 == k)).getLast? with
  | some e => e.2
  | none => tabGet (fun _ => 0) h.copy k

/-- Word `k` of the request a header unit serves, `v` past its end (R136). -/
def HsqSt.reqWord (h : HsqSt) (v : Word) (k : Nat) : Word :=
  match h.unit with
  | none => v
  | some u => u.req.getD k v

/-- CRD: G[OUT_REG] = a parse-area word. DESIGN CHOICE (assumption 139): in a header request, which has no context, the port
reads the words of the request's descriptor, its record among them (R136), and past them a free value. An
uncorrectable error of the copy ends the unit as ABANDON with INTERNAL (R150, R541). -/
def execOutCrd (seq : Nat) (s : State) : Out :=
  done s (State.when (mayAct s seq 2 && outOp (curWord s seq) == 5) (fun t =>
    match t.sramCheck (HSQ_FAULT_STATUS seq) 1 [0, 1] with
    | (true, t1) => abandonUnit seq stInternal (t1.setFault (HSQ_FAULT_STATUS seq) 1)
    | (false, t2) =>
      let (v, t3) := t2.fresh
      let hdr := (hsqOf t2 seq).isHeader
      wordStep seq 2 (fun _ => true) (fun w h =>
        some (h.setG (mw w 100 6) (if hdr then h.reqWord v (areaWord w h) else h.area (areaWord w h))))
        (if hdr then t3 else t2)) s)

/-- Output codes 6 to 15 trap. -/
def execOutTrap (seq : Nat) (s : State) : Out :=
  done s (wordStep seq 2 (fun w => decide (6 ≤ outOp w)) (fun _ _ => none) s)

/-! ## Sequencing (R129) -/

def seqOp (w : Nat) : Nat := mw w 64 4
def seqTarget (w : Nat) : Nat := mw w 74 14

/-- more_rbsp_data(): a bit set lies beyond the position's next bit, the last set bit being the trailing one. -/
def HsqSt.moreRbsp (h : HsqSt) : Bool :=
  match ((List.range h.unitBits).reverse).find? (fun p => h.bit p) with
  | none => false
  | some p => decide (h.pos0 < p)

/-- A condition of R129, as it stood before the word. -/
def seqCond (h : HsqSt) (c : Nat) : Bool :=
  if 16 ≤ c then (h.g 0).getLsbD (c - 16)
  else match c with
    | 0 => true
    | 1 => flagOf h.flags0 fZ
    | 2 => flagOf h.flags0 fN
    | 3 => flagOf h.flags0 fC
    | 4 => flagOf h.flags0 fEou
    | 5 => flagOf h.flags0 fSyntax
    | 6 => h.pos0 % 8 == 0
    | 7 => h.moreRbsp
    | 8 => flagOf h.flags0 fOutFull
    | _ => false

/-- The condition of a word, inverted where SEQ_NEG is set. -/
def seqHolds (w : Nat) (h : HsqSt) : Bool := seqCond h (mw w 68 5) != decide (mw w 73 1 = 1)

/-- The word is over: its results are what the next word reads, and the next address is fetched. -/
def nextWord (q pc : Nat) (stack : List Nat) (s : State) : State :=
  let h := hsqOf s q
  setPc q (pc % 16384)
    (setHsq q { h with phase := 0, snap := h.regs, flags0 := h.flags, pos0 := h.pos, stack := stack } s)

/-- A sequencing operation that goes on to another word: the next address and the stack, none for a trap. -/
def seqStep (q op : Nat) (f : Nat → HsqSt → Nat → Option (Nat × List Nat)) (s : State) : State :=
  State.when (mayAct s q 3 && seqOp (curWord s q) == op) (fun t =>
    match f (curWord t q) (hsqOf t q) (hsqPc t q) with
    | none => trapUnit q t
    | some (pc, stack) => nextWord q pc stack t) s

/-- SEQ_OP 0 and 8 to 15 trap. -/
def execSeqTrap (seq : Nat) (s : State) : Out :=
  done s (State.when (mayAct s seq 3 && (seqOp (curWord s seq) == 0 || decide (8 ≤ seqOp (curWord s seq)))) (trapUnit seq) s)

/-- NEXT: the next address. -/
def execSeqNext (seq : Nat) (s : State) : Out :=
  done s (seqStep seq 1 (fun _ h pc => some (pc + 1, h.stack)) s)

/-- JUMP: to SEQ_TARGET if the condition holds, else next. -/
def execSeqJump (seq : Nat) (s : State) : Out :=
  done s (seqStep seq 2 (fun w h pc => some (if seqHolds w h then seqTarget w else pc + 1, h.stack)) s)

/-- CALL: as JUMP, pushing the next address; a ninth nested call traps. -/
def execSeqCall (seq : Nat) (s : State) : Out :=
  done s (seqStep seq 3 (fun w h pc =>
    if !seqHolds w h then some (pc + 1, h.stack)
    else if 8 ≤ h.stack.length then none
    else some (seqTarget w, (pc + 1) % 16384 :: h.stack)) s)

/-- RET: pop; an empty stack traps. -/
def execSeqRet (seq : Nat) (s : State) : Out :=
  done s (seqStep seq 4 (fun _ h _ => match h.stack with
    | [] => none
    | a :: rest => some (a, rest)) s)

/-- SWITCH: to SEQ_TARGET + (G[SEQ_IDX] AND IMM[7:0]). -/
def execSeqSwitch (seq : Nat) (s : State) : Out :=
  done s (seqStep seq 5 (fun w h _ =>
    some (seqTarget w + Nat.land (h.g (mw w 88 6)).toNat (mw w 128 8), h.stack)) s)

/-- END: the unit ends with status IMM[7:0], and its staging is released. -/
def execSeqEnd (seq : Nat) (s : State) : Out :=
  done s (State.when (mayAct s seq 3 && seqOp (curWord s seq) == 6) (fun t => endUnit seq (mw (curWord t seq) 128 8) t) s)

/-- ABANDON: the unit ends with status IMM[7:0], and its staging is discarded. -/
def execSeqAbandon (seq : Nat) (s : State) : Out :=
  done s (State.when (mayAct s seq 3 && seqOp (curWord s seq) == 7) (fun t => abandonUnit seq (mw (curWord t seq) 128 8) t) s)

end Sys2Proof.Machine
end

