-- ==== Sys2Proof/Machine/HsqStore.lean ====
section
/-!
DEFINITION. The control stores (R138 to R151): loading a bank, switching banks, the machine check on a parity error and its
recovery.
-/
namespace Sys2Proof.Machine

/-! ## Golden images (R138, R144) -/

/-- Where an image lies, with its length in bytes, is inside one protected window (R142). -/
def inProtected (s : State) (a n : Nat) : Bool :=
  match winFor s a with
  | none => false
  | some w => winProt s w && decide (a + n ≤ winBase s w + winSize s w)

/-- The 192-bit number of 24 bytes, group 0 first (R138). -/
def microwordOf (bs : List Byte) : Nat := bytesNat (bs.take 24)

/-- Write one word with fresh parity. -/
def putWord (q bank addr w : Nat) (s : State) : State :=
  let h := hsqOf s q
  setHsq q { h with store := tabSet (fun _ => 0) h.store (storeKey bank addr) w,
                    parity := tabSet (fun _ => 0) h.parity (storeKey bank addr) 0 } s

/-- The bytes of words `first` to `first + n - 1` as read back from a bank. -/
def readBack (s : State) (q bank first n : Nat) : List Byte :=
  ((List.range n).map (fun i => natBytes 24 (storeWord s q bank (first + i)))).flatten

/-- WORD_COUNT of a bank's golden image. -/
def goldenCount (s : State) (q bank : Nat) : Nat := (tabGet (fun _ => []) (hsqOf s q).images bank).getD 0 0
/-- DATA_CRC of a bank's golden image. -/
def goldenCrc (s : State) (q bank : Nat) : Nat := (tabGet (fun _ => []) (hsqOf s q).images bank).getD 3 0

/-! ## The machine check (R146 to R149) -/

/-- The unit of a failed sequencer goes to another, or its job to INTERNAL; an encoder asks again (R147). -/
def handOver (q : Nat) (u : HsqUnit) (s : State) : State :=
  if u.header then
    match encJobOf s u.ctx with
    | none => s
    | some j => if j.ref = u.ref ∧ j.phase = .header then setEncJob u.ctx (some { j with phase := .needHeader }) s else s
  else
    match ctxOf s u.ctx, picOf s u.ctx with
    | some x, some p =>
      match pickSeq s x.mask with
      | some r =>
        let h := hsqOf s q
        let k := hsqOf s r
        setPic u.ctx (some { p with seq := r }) (setHsq r { k with queue := k.queue ++ [u.ctx], redo := k.redo ++ [u] }
          (setHsq q { h with queue := h.queue.filter (fun c => c != u.ctx) } s))
      | none =>
        let p1 := addCond u.ref stInternal p
        let ks := p1.jobs.map (fun k => if k.ref = u.ref then { k with parsed := true } else k)
        setPic u.ctx (some { p1 with ended := true, jobs := ks }) s
    | _, _ => s

/-- The hard case: the bank is STUCK, the sequencer FAILED, and its unit goes elsewhere (R147). -/
def hardCase (q : Nat) (s : State) : State :=
  let s1 := (setBank q (activeBank s q) 3 s).wr (HSQ_MC q) HSQ_MC.HARD 1
  let s2 := (s1.wr (HSQ_STATUS q) HSQ_STATUS.STATE 3).setFault (HSQ_FAULT_STATUS q) 4
  let h := hsqOf s2 q
  match h.unit with
  | none => s2
  | some u => handOver q u (setHsq q { h.clear with checked := [] } s2)

/-- Discard what the unit has produced, keeping the unit (R123, R146). -/
def HsqSt.halt (h : HsqSt) : HsqSt := { h.clear with unit := h.unit }

/-- MACHINE_CHECK: the fetched word fails parity; it is not executed, and what the unit produced is discarded. The same
address failing again in the unit is the hard case (R146, R147, R149). -/
def execMachineCheck (seq : Nat) (s : State) : Out :=
  done s (State.when (decide (seq < 4) && s.domOn (13 + seq / 2) && hsqState s seq == 1 && (hsqOf s seq).unit.isSome
      && (hsqOf s seq).ending.isNone && (hsqOf s seq).phase == 0 && fetchBad s seq) (fun t =>
    let pc := hsqPc t seq
    let b := activeBank t seq
    let bad := storeParity t seq b pc
    let groups := if fetchInjected t seq then 63 - bad % 64 else bad
    let t1 := if fetchInjected t seq
      then (t.takeInjection (HSQ_FAULT_STATUS seq) [3]).2 else t
    let t2 := ((t1.wr (HSQ_MC seq) HSQ_MC.ADDR pc).wr (HSQ_MC seq) HSQ_MC.BANK b).wr (HSQ_MC seq) HSQ_MC.GROUPS groups
    let t3 := ((t2.incSat (HSQ_MC seq) HSQ_MC.COUNT).setBit (HSQ_IRQ_STATUS seq) 0).setFault (HSQ_FAULT_STATUS seq) 3
    let again := (hsqOf t3 seq).checked.contains pc
    let t4 := setHsq seq { (hsqOf t3 seq).halt with checked := (hsqOf t3 seq).checked ++ [pc] } t3
    if again then hardCase seq t4 else t4.wr (HSQ_STATUS seq) HSQ_STATUS.STATE 2) s)

/-- MC_RELOAD_DONE: the word is reloaded from the golden image with fresh parity, and the unit starts again, if it still is
to run; where the word fails its read-back, the hard case (R146 to R148). -/
def execMcReloadDone (seq : Nat) (readBackOk : Bool) (s : State) : Out :=
  done s (State.when (decide (seq < 4) && s.domOn (13 + seq / 2) && hsqState s seq == 2) (fun t =>
    let a := t.rd (HSQ_MC seq) HSQ_MC.ADDR
    let b := activeBank t seq
    let src := bufAddr t (t.raw (HSQ_BANK_HANDLE seq b)) + (t.raw (HSQ_BANK_OFFSET seq b)).toNat + 64 + 24 * a
    let (bs, bad, t1) := if a < goldenCount t seq b then dramRdFor (HSQ_FAULT_STATUS seq) hsqPort t src 24 else ([], false, t)
    let t2 := putWord seq b a (microwordOf bs) t1
    if bad || !readBackOk then hardCase seq t2
    else match (hsqOf t2 seq).unit with
      | none => unitOver seq t2
      | some u => enterUnit seq u t2) s)

/-! ## Loading (R141 to R145) -/

/-- The job words of MICROCODE_LOAD are as R141 allows. -/
def loadWordsOk (j : Job) : Bool :=
  decide (j.context < 4) && decide (bitsOf 31 2 (j.w 2) = 0) && decide (bitsOf 5 0 (j.w 4) = 0) && decide (bitsOf 31 14 (j.w 5) = 0)
    && decide (bitsOf 31 15 (j.w 6) = 0) && (decide (bitsOf 14 0 (j.w 6) ≠ 0) || bitAt 1 (j.w 2))

/-- Make bank `b` the active one: a FAILED sequencer returns to IDLE, and the job that asked completes (R145). -/
def switchBank (q b : Nat) (r : JobRef) (results : List Word) (s : State) : State :=
  let s1 := (s.wr (HSQ_STATUS q) HSQ_STATUS.ACTIVE_BANK b).wr (HSQ_STATUS q) HSQ_STATUS.SWITCH_PENDING 0
  let s2 := if hsqState s1 q = 3 then s1.wr (HSQ_STATUS q) HSQ_STATUS.STATE 0 else s1
  presentRef r stOk results ((setHsq q { hsqOf s2 q with switch := none } s2).setBit (HSQ_IRQ_STATUS q) 2)

/-- A load has passed, or there was none: with SWITCH the switch takes effect at once between units, else it is pending
(R145). -/
def afterLoad (q b : Nat) (switch : Bool) (r : JobRef) (results : List Word) (s : State) : State :=
  if !switch then presentRef r stOk results s
  else if atBoundary s q || hsqState s q == 3 then switchBank q b r results s
  else (setHsq q { hsqOf s q with switch := some (r, b, results) } s).wr (HSQ_STATUS q) HSQ_STATUS.SWITCH_PENDING 1

/-- The image checks of R142 that answer INTERNAL, on the header words `hd`. -/
def imageBad (s : State) (j : Job) (q b : Nat) (hd : List Word) : Bool :=
  let img := j.w 3
  let off := (j.w 4).toNat
  let cnt := bitsOf 14 0 (wordAt hd 2)
  let first := bitsOf 13 0 (j.w 5)
  let n := bitsOf 14 0 (j.w 6)
  let full := decide (first = 0 ∧ n = cnt)
  let golden := img != 0 && s.raw (HSQ_BANK_HANDLE q b) == img && s.raw (HSQ_BANK_OFFSET q b) == j.w 4
  wordAt hd 0 != 0x4D435148 || bitsOf 15 0 (wordAt hd 1) != 1 || decide (cnt = 0) || decide (16384 < cnt)
    || decide (poolSize (hPool img) < off + 64 + 24 * cnt) || !inProtected s (bufAddr s img + off) (64 + 24 * cnt)
    || decide (cnt < first + n) || (!full && !golden) || (!full && bankState s q b == 3)

/-- MICROCODE_LOAD: the checks of R142 in order, for a switch without words too; an image its sequencer may not hold gives
NOT_OWNER in the place of STALE_HANDLE (R397). An accepted load makes the bank LOADING (R141 to R143). -/
def execMicrocodeLoad (slot : Nat) (s : State) : Out :=
  done s (State.when (s.startable slot opMicrocodeLoad) (fun t =>
    let j := t.job slot
    let q := j.context
    let b := bitsOf 0 0 (j.w 2)
    let h := hsqOf t q
    let off := (j.w 4).toNat
    let only := decide (bitsOf 14 0 (j.w 6) = 0)
    let busy := (b == activeBank t q && bankState t q b != 0) || t.flag (HSQ_STATUS q) HSQ_STATUS.SWITCH_PENDING
      || h.load.isSome
    if !loadWordsOk j then fail slot stInternal t
    else if !isCurrent t (j.w 3) then fail slot stStaleHandle t
    else if !mayHold t (2 + q) (j.w 3) then fail slot stNotOwner (misuse t (2 + q) 1 stNotOwner (j.w 3))
    else if busy then fail slot stBusy t
    else if poolSize (hPool (j.w 3)) < off + 64 then fail slot stInternal t
    else
      let (hd, bad, t1) := dramRdWordsFor (HSQ_FAULT_STATUS q) hsqPort t (bufAddr t (j.w 3) + off) 16
      if bad || imageBad t1 j q b hd then fail slot stInternal t1
      else if only then afterLoad q b true (t1.jobRef slot) [0] (beginJob slot t1)
      else
        let cnt := bitsOf 14 0 (wordAt hd 2)
        let n := bitsOf 14 0 (j.w 6)
        let first := bitsOf 13 0 (j.w 5)
        let ld : HsqLoad := ⟨t1.jobRef slot, b, j.w 3, off, first, n, bitAt 1 (j.w 2), decide (first = 0 ∧ n = cnt)⟩
        setHsq q { hsqOf t1 q with load := some ld } (setBank q b 1 (beginJob slot t1))) s)

/-- Write the loaded words into the bank, and for a full load zeros beyond them (R139, R143). -/
def writeBank (q : Nat) (ld : HsqLoad) (bs : List Byte) (s : State) : State :=
  let s1 := if ld.full then
      let h := hsqOf s q
      let other := fun (k : Nat) => k / 16384 == ld.bank
      setHsq q { h with store := tabDrop other h.store, parity := tabDrop other h.parity } s
    else s
  foldS (fun i t => putWord q ld.bank (ld.first + i) (microwordOf (bs.drop (24 * i))) t) (List.range ld.count) s1

/-- A passed full load makes the image golden, once it has been retained: the image before it is released (R144). -/
def makeGolden (q : Nat) (ld : HsqLoad) (hd : List Word) (s : State) : State :=
  let b := ld.bank
  let old := s.raw (HSQ_BANK_HANDLE q b)
  let s1 := releaseNZ (2 + q) old s
  let s2 := ((s1.setReg (HSQ_BANK_HANDLE q b) ld.image).setReg (HSQ_BANK_OFFSET q b) (BitVec.ofNat 32 ld.offset)).setReg
    (HSQ_BANK_ID q b) (wordAt hd 4)
  let h := hsqOf s2 q
  let im := [bitsOf 14 0 (wordAt hd 2), bitsOf 13 0 (wordAt hd 3), bitsOf 29 16 (wordAt hd 3), (wordAt hd 5).toNat]
  let s3 := setHsq q { h with images := tabSet (fun _ => []) h.images b im } s2
  if s3.rd (HSQ_MC q) HSQ_MC.BANK = b then s3.wr (HSQ_MC q) HSQ_MC.HARD 0 else s3

/-- The load that ends: its sequencer and the load. It is that of the job at `slot`, or of one a Function Level Reset took
from there (R39). -/
def loadOf (s : State) (slot : Nat) : Option (Nat × HsqLoad) :=
  let named := fun (ok : HsqLoad → Bool) => (List.range 4).findSome? (fun q => match (hsqOf s q).load with
    | none => none
    | some ld => if ok ld then some (q, ld) else none)
  match named (fun ld => ld.ref == s.jobRef slot) with
  | some x => some x
  | none => named (fun ld => ld.ref.slot == slot)

/-- A load ends with its image's check passed: the bank is VALID, and a switch asked for follows (R143 to R145). The image
of a full load is retained first; where that is refused, the bank is INVALID and the job reports the refusal. -/
def loadPassed (q : Nat) (ld : HsqLoad) (hd : List Word) (crc : Word) (s : State) : State :=
  let (st, s1) := if ld.full then bpmRetain s (2 + q) ld.image else (stOk, s)
  if st ≠ stOk then presentRef ld.ref st [] (setBank q ld.bank 0 s1)
  else
    let s2 := if ld.full then makeGolden q ld hd s1 else s1
    afterLoad q ld.bank ld.switch ld.ref [crc] ((setBank q ld.bank 2 s2).setReg (HSQ_BANK_CRC q ld.bank) crc)

/-- MICROCODE_LOAD_DONE: the words are written and read back; a CRC or parity failure leaves the bank INVALID, otherwise it
is VALID and a switch asked for follows (R143 to R145). -/
def execMicrocodeLoadDone (slot : Nat) (parityOk : Bool) (s : State) : Out :=
  done s (match loadOf s slot with
    | none => s
    | some (q, ld) =>
      State.when (s.domOn (13 + q / 2)) (fun t =>
        let base := bufAddr t ld.image + ld.offset
        let (hd, bad0, t1) := dramRdWordsFor (HSQ_FAULT_STATUS q) hsqPort t base 16
        let (bs, bad, t2) := dramRdFor (HSQ_FAULT_STATUS q) hsqPort t1 (base + 64 + 24 * ld.first) (24 * ld.count)
        let t3 := setHsq q { hsqOf t2 q with load := none } t2
        let t4 := (writeBank q ld bs t3).setBit (HSQ_IRQ_STATUS q) 2
        let crc := crc32c (readBack t4 q ld.bank ld.first ld.count)
        let okCrc := if ld.full then crc == wordAt hd 5
          else crc32c (readBack t4 q ld.bank 0 (goldenCount t4 q ld.bank)) == BitVec.ofNat 32 (goldenCrc t4 q ld.bank)
        if bad0 || bad || !parityOk || !okCrc then presentRef ld.ref stInternal [] (setBank q ld.bank 0 t4)
        else loadPassed q ld hd crc t4) s)

/-- BANK_SWITCH: a pending switch takes effect at the unit boundary (R145). -/
def execBankSwitch (seq : Nat) (s : State) : Out :=
  done s (match (hsqOf s seq).switch with
    | none => s
    | some (r, b, results) =>
      State.when (decide (seq < 4) && s.domOn (13 + seq / 2) && (atBoundary s seq || hsqState s seq == 3))
        (switchBank seq b r results) s)

/-- HSQ_CS_SEL: the selection of a control-store word to read (R150). -/
def execHsqCsSel (data : Word) (s : State) : Out := done s (s.hostWrite HSQ_CS_SEL data)

/-- The selected bank is its sequencer's active one, so that its words read as zero (R150). DESIGN CHOICE (assumption 142):
REFUSED is formed at each read, so that after reset, with bank A of HSQ0 selected and active, it reads 1 where R150's table
gives reset 0. -/
def csRefused (s : State) : Bool :=
  s.rd HSQ_CS_SEL HSQ_CS_SEL.BANK == activeBank s (s.rd HSQ_CS_SEL HSQ_CS_SEL.SEQ)

/-- Group `j` of the selected word, zero where the read is refused. -/
def csData (s : State) (j : Nat) : Nat :=
  if csRefused s then 0
  else mw (storeWord s (s.rd HSQ_CS_SEL HSQ_CS_SEL.SEQ) (s.rd HSQ_CS_SEL HSQ_CS_SEL.BANK) (s.rd HSQ_CS_SEL HSQ_CS_SEL.ADDR))
    (32 * j) 32

/-- The stored parity bits of the selected word. -/
def csParity (s : State) : Nat :=
  if csRefused s then 0
  else
    let q := s.rd HSQ_CS_SEL HSQ_CS_SEL.SEQ
    let b := s.rd HSQ_CS_SEL HSQ_CS_SEL.BANK
    let a := s.rd HSQ_CS_SEL HSQ_CS_SEL.ADDR
    (List.range 6).foldl (fun acc g => acc + 2 ^ g * ((parity 32 (csData s g) + storeParity s q b a / 2 ^ g) % 2)) 0

end Sys2Proof.Machine
end

