-- ==== Sys2Proof/Machine/EncPath.lean ====
section
/-!
DEFINITION. What an encoder takes in and sends out: the input stage (R192), the reference lists of a picture (R187), filler
(R194), and the packets of the RTP egress (R199, R200).
-/
namespace Sys2Proof.Machine

/-! ## The input stage (R192) -/

/-- A plane of samples, line by line. -/
abbrev Plane : Type := List (List Nat)

def planeAt (p : Plane) (x y : Nat) : Nat := (p.getD y []).getD x 0
def plane (w h : Nat) (f : Nat → Nat → Nat) : Plane := (List.range h).map (fun y => (List.range w).map (fun x => f x y))
def flipPlane (p : Plane) : Plane := p.map List.reverse
def turnPlane (w h : Nat) (p : Plane) : Plane := plane h w (fun x y => planeAt p y x)

/-- Sample `i` of a stored line as 10 bits (R104, step 2). -/
def sample10 (bits10 : Bool) (line : List Byte) (i : Nat) : Nat :=
  if bits10 then bytesNat ((line.drop (i / 4 * 5)).take 5) / 2 ^ (10 * (i % 4)) % 1024
  else bytesNat ((line.drop i).take 1) * 4

/-- Encoder `e` reads lines of a buffer: `n` of them from `a`, `step` bytes apart, `len` bytes each. -/
def readLines (e len step : Nat) : Nat → Nat → State → List (List Byte) × Bool × State
  | 0, _, s => ([], false, s)
  | n + 1, a, s =>
    let (l, bad, s1) := dramRdFor (EN_FAULT_STATUS e) (encPort e) s a len
    let (ls, bad2, s2) := readLines e len step n (a + step) s1
    (l :: ls, bad || bad2, s2)

/-- A source's lines as stored: luma, and one or two chroma planes (R103); whether a read failed. -/
def readSource (e : Nat) (f : EncSource) (s : State) : List (List Byte) × List (List Byte) × List (List Byte) × Bool × State :=
  let len := lineBytes f.width f.bits10
  let base := bufAddr s f.handle
  let size := f.stride * f.height
  let lines := if f.chroma = 1 then f.height / 2 else f.height
  let (y, b0, s0) := readLines e len f.stride f.height base s
  let (c, b1, s1) := readLines e len f.stride lines (base + size) s0
  let (d, b2, s2) := if f.chroma = 3 then readLines e len f.stride f.height (base + 2 * size) s1 else ([], false, s1)
  (y, c, d, b0 || b1 || b2, s2)

/-- Steps 1 and 2: the crop of a source at 4:4:4 and 10 bits, each chroma sample repeated over the luma positions it
covers. -/
def cropPlanes (f : EncSource) (x0 y0 w h : Nat) (ls cs ds : List (List Byte)) : EncPicture :=
  let at10 := fun (l : List (List Byte)) (x y : Nat) => sample10 f.bits10 (l.getD y []) x
  let cy := fun (y : Nat) => if f.chroma = 1 then y / 2 else y
  let luma := plane w h (fun x y => at10 ls (x0 + x) (y0 + y))
  if f.chroma = 3 then ⟨luma, plane w h (fun x y => at10 cs (x0 + x) (y0 + y)), plane w h (fun x y => at10 ds (x0 + x) (y0 + y))⟩
  else ⟨luma, plane w h (fun x y => at10 cs ((x0 + x) / 2 * 2) (cy (y0 + y))),
    plane w h (fun x y => at10 cs ((x0 + x) / 2 * 2 + 1) (cy (y0 + y)))⟩

/-- Step 3 on a plane of `w` × `h` samples: MIRROR, then ROT clockwise. -/
def orientPlane (mirror : Bool) (rot w h : Nat) (p : Plane) : Plane :=
  let q := if mirror then flipPlane p else p
  match rot with
  | 1 => flipPlane (turnPlane w h q)
  | 2 => (flipPlane q).reverse
  | 3 => (turnPlane w h q).reverse
  | _ => q

/-- Blocks of `p` samples averaged, as (sum + p / 2) / p; the edge sample completes a short block (assumption 122). -/
def blockMean (p : Nat) (l : List Nat) : List Nat :=
  (List.range ((l.length + p - 1) / p)).map (fun i =>
    (((List.range p).map (fun k => l.getD (min (p * i + k) (l.length - 1)) 0)).sum + p / 2) / p)

/-- The p of step 4: the smallest of 1, 2, 4 and 8 that leaves a reduction of 2:1 or less. -/
def blockSize (from_ to_ : Nat) : Nat := ([1, 2, 4].find? (fun p => decide (from_ ≤ 2 * to_ * p))).getD 8

/-- Step 4 on one axis: a line is brought to `n` samples. The filter's coefficients are not defined (R178), so what it
answers is a free value (assumption 122). DESIGN CHOICE (assumption 122): a line that has `n` samples already passes, as at a
factor of 1:1 the filter is taken as the identity. -/
def scaleAxis (vertical : Bool) (n : Nat) (l : List Nat) : List Nat :=
  let m := blockMean (blockSize l.length n) l
  if m.length = n then m else (List.range n).map (fun i => (Config.scaled vertical n i m).toNat)

/-- Step 4: horizontally, then vertically (assumption 122). -/
def scalePlane (w h : Nat) (p : Plane) : Plane :=
  let q := p.map (scaleAxis false w)
  turnPlane h w ((turnPlane w q.length q).map (scaleAxis true h))

/-- The 4:2:2 chroma of a line (step 5). -/
def chroma422 (cs : List Nat) : List Nat :=
  (List.range (cs.length / 2)).map (fun i =>
    (cs.getD (2 * i - 1) 0 + 2 * cs.getD (2 * i) 0 + cs.getD (min (2 * i + 1) (cs.length - 1)) 0 + 2) / 4)

/-- The 4:2:0 chroma of two lines (step 5). -/
def chroma420 (a b : List Nat) : List Nat := (a.zip b).map (fun p => (p.1 + p.2 + 1) / 2)

/-- Step 5 on a chroma plane. -/
def halvePlane (p : Plane) : Plane :=
  let q := p.map chroma422
  (List.range (q.length / 2)).map (fun j => chroma420 (q.getD (2 * j) []) (q.getD (2 * j + 1) []))

/-- Every second sample of every second line: chroma that passed unchanged, from its repetition. -/
def thinPlane (p : Plane) : Plane := plane ((p.getD 0 []).length / 2) (p.length / 2) (fun x y => planeAt p (2 * x) (2 * y))

/-- Step 6. -/
def narrowPlane (bits10 : Bool) (p : Plane) : Plane :=
  if bits10 then p else p.map (fun l => l.map (fun x => min 255 ((x + 2) / 4)))

/-- Steps 3 to 6 on a cropped picture, to the coded size `w` × `h`; `pass` where chroma passes steps 2 to 5 unchanged. -/
def inputPicture (mirror : Bool) (rot cw ch w h : Nat) (bits10 pass : Bool) (p : EncPicture) : EncPicture :=
  let go := fun (q : Plane) => scalePlane w h (orientPlane mirror rot cw ch q)
  let c := fun (q : Plane) => narrowPlane bits10 (if pass then thinPlane q else halvePlane (go q))
  ⟨narrowPlane bits10 (go p.y), c p.cb, c p.cr⟩

/-! ## References (R187) -/

/-- Signed 16-bit difference of two ORDERs (R187). -/
def orderDiff (a b : Nat) : Int := (BitVec.ofNat 16 a - BitVec.ofNat 16 b).toInt

/-- Insert a reference by its distance from `order`, nearest first. -/
def insertNear (order : Nat) (r : Nat × Word) : List (Nat × Word) → List (Nat × Word)
  | [] => [r]
  | x :: xs =>
    if (orderDiff order r.1).natAbs < (orderDiff order x.1).natAbs then r :: x :: xs else x :: insertNear order r xs

def nearestFirst (order : Nat) (refs : List (Nat × Word)) : List Word :=
  (refs.foldr (insertNear order) []).map (fun r => r.2)

/-- The pictures a picture of the coded type predicts from: earlier ones, and for a B later ones, nearest first. -/
def refLists (coded order : Nat) (refs : List (Nat × Word)) : List Word × List Word :=
  (if 2 ≤ coded then nearestFirst order (refs.filter (fun r => decide (0 < orderDiff order r.1))) else [],
    if coded = 3 then nearestFirst order (refs.filter (fun r => decide (orderDiff order r.1 < 0))) else [])

/-- The AV1 names a picture's lists fill: LAST, LAST2, LAST3 and GOLDEN, then BWDREF, ALTREF2 and ALTREF; 0 where a list is
too short. -/
def av1Refs (lists : List Word × List Word) : List Word :=
  (List.range 4).map (fun i => lists.1.getD i 0) ++ (List.range 3).map (fun i => lists.2.getD i 0)

/-! ## Filler (R194) -/

/-- `n` bytes of filler: a filler data NAL unit, or a padding OBU; a filler too short for one is free (assumption 123). -/
def fillerBytes (hevc : Bool) (n : Nat) (s : State) : List Byte × State :=
  if hevc && decide (7 ≤ n) then ([0, 0, 0, 1, 0x4C, 0x01] ++ List.replicate (n - 7) 0xFF ++ [0x80], s)
  else if !hevc && decide (10 ≤ n) then
    let m := n - 9
    let leb := (List.range 8).map (fun i => BitVec.ofNat 8 (m / 128 ^ i % 128 + if i < 7 then 128 else 0))
    (0x7A :: leb ++ List.replicate (m - 1) 0 ++ [0x80], s)
  else freshBytes n s

/-! ## RTP packets (R199, R200) -/

/-- A number as `n` big-endian bytes. -/
def beBytes (n x : Nat) : List Byte := (natBytes n x).reverse

/-- The one's complement sum of big-endian 16-bit words. -/
def sum16 : List Byte → Nat
  | a :: b :: rest => a.toNat * 256 + b.toNat + sum16 rest
  | [a] => a.toNat * 256
  | [] => 0

/-- The Internet checksum of bytes. -/
def inetSum (bs : List Byte) : Nat :=
  let x := sum16 bs
  let y := x % 65536 + x / 65536
  65535 - (y % 65536 + y / 65536)

/-- An OBU as an OBU element: its size field taken away (assumption 123). -/
def obuElement (bs : List Byte) : List Byte :=
  let b0 := (bs.getD 0 0).toNat
  let hdr := 1 + b0 / 4 % 2
  if b0 / 2 % 2 = 0 then bs
  else BitVec.ofNat 8 (b0 - 2) :: (bs.take hdr).drop 1 ++ bs.drop (hdr + (lebRead 8 (bs.drop hdr)).2)

/-- The NAL units of a coded picture, or its OBUs without temporal delimiters (R199). -/
def egressUnits (hevc : Bool) (bs : List Byte) : List (List Byte) :=
  if hevc then (startCodeSpans 0 0 none bs).map (fun p => (bs.drop p.1).take p.2)
  else (((obuSpans bs.length 0 bs).map (fun p => (bs.drop p.1).take p.2)).filter (fun u =>
    (u.getD 0 0).toNat / 8 % 16 != 2)).map obuElement

/-- Where a packet's piece of a unit lies: the unit, the bytes of it already sent, and how many the packet takes. -/
structure Piece where
  unit : List Byte
  sent : Nat
  take : Nat
  deriving DecidableEq, Repr

def Piece.ends (p : Piece) : Bool := decide (p.unit.length ≤ p.sent + p.take)

/-- The RTP payload of a piece of a NAL unit: the unit itself, or a fragmentation unit, which carries the bytes after the
unit's header. -/
def hevcPayload (p : Piece) : List Byte :=
  if p.sent = 0 ∧ p.ends then p.unit
  else
    let h0 := (p.unit.getD 0 0).toNat
    let first := decide (p.sent ≤ 2)
    [BitVec.ofNat 8 (h0 / 128 * 128 + 98 + h0 % 2), p.unit.getD 1 0,
      BitVec.ofNat 8 (first.toNat * 128 + p.ends.toNat * 64 + h0 / 2 % 64)]
      ++ (p.unit.drop (max 2 p.sent)).take (p.sent + p.take - max 2 p.sent)

/-- The RTP payload of a piece of an OBU: the aggregation header with Z, Y, W = 1 and N, and the piece. -/
def av1Payload (new : Bool) (p : Piece) : List Byte :=
  BitVec.ofNat 8 ((decide (0 < p.sent)).toNat * 128 + (!p.ends).toNat * 64 + 16 + new.toNat * 8)
    :: (p.unit.drop p.sent).take p.take

/-- The three words of a packet's RTP header (R200). -/
def rtpHeader (ws : List Word) (seq : Nat) (last : Bool) (ts : Word) : List Word :=
  [BitVec.ofNat 32 (2 ^ 31 + last.toNat * 2 ^ 23 + bitsOf 15 9 (wordAt ws 16) * 2 ^ 16 + seq % 65536), ts, wordAt ws 17]

/-- The UDP datagram of a payload; its checksum is 0 over IPv4. -/
def udpBytes (ws : List Word) (addrs payload : List Byte) : List Byte :=
  let n := 8 + payload.length
  let head := fun (c : Nat) => beBytes 2 (bitsOf 15 0 (wordAt ws 32)) ++ beBytes 2 (bitsOf 31 16 (wordAt ws 32)) ++ beBytes 2 n
    ++ beBytes 2 c
  if bitAt 2 (wordAt ws 16) then
    let c := inetSum (addrs ++ beBytes 4 n ++ [0, 0, 0, 17] ++ head 0 ++ payload)
    head (if c = 0 then 0xFFFF else c) ++ payload
  else head 0 ++ payload

/-- The IP packet of an RTP packet: IPv4 with TTL 64 and DF, or IPv6 with hop limit 64 (R199). -/
def ipBytes (ws : List Word) (rtp : List Byte) : List Byte :=
  let dscp := bitsOf 8 3 (wordAt ws 16)
  let addr := fun (k : Nat) => wordsBytes ((List.range 4).map (fun i => wordAt ws (k + i)))
  if bitAt 2 (wordAt ws 16) then
    let udp := udpBytes ws (addr 28 ++ addr 24) rtp
    beBytes 4 (6 * 2 ^ 28 + dscp * 4 * 2 ^ 20) ++ beBytes 2 udp.length ++ [17, 64] ++ addr 28 ++ addr 24 ++ udp
  else
    let udp := udpBytes ws [] rtp
    let head := fun (c : Nat) => [0x45, BitVec.ofNat 8 (dscp * 4)] ++ beBytes 2 (20 + udp.length) ++ [0, 0, 0x40, 0, 64, 17]
      ++ beBytes 2 c ++ (addr 28).take 4 ++ (addr 24).take 4
    head (inetSum (head 0)) ++ udp

/-- The Ethernet frame of an RTP packet, from the port's own address to DST_MAC, without its check sequence (R199). -/
def egressFrame (s : State) (port : Nat) (ws : List Word) (rtp : List Byte) : List Byte :=
  (wordsBytes [wordAt ws 20, wordAt ws 21]).take 6
    ++ beBytes 2 (s.rd (IGR_PORT_MAC_HI port) IGR_PORT_MAC_HI.MAC_0_1) ++ beBytes 4 (s.reg (IGR_PORT_MAC_LO port)).toNat
    ++ (if bitAt 2 (wordAt ws 16) then [0x86, 0xDD] else [0x08, 0x00]) ++ ipBytes ws rtp

end Sys2Proof.Machine
end

