-- ==== Sys2Proof/Machine/Encoders.lean ====
section
/-!
DEFINITION. The encoders (R176 to R201): sessions and their records, taking a source, references, the rate control of R194
to R197 as the spec's pseudocode gives it, the end of a picture and its RTP packets.
-/
namespace Sys2Proof.Machine

def stCapTooLow : Nat := 0x48
def stSessionState : Nat := 0x49
def stSourceFormat : Nat := 0x4A
def stHeaderFail : Nat := 0x4B
def stSourceLost : Nat := 0x4C

/-! ## Sessions (R179 to R181) -/

def EncSess.none : EncSess := ⟨false, [], 0, 0, 0, 0, 0, [], 0, 0, [], 0⟩
def sessOf (s : State) (k : Nat) : EncSess := tabGet (fun _ => EncSess.none) s.enc.sess k
def setSess (k : Nat) (x : EncSess) (s : State) : State :=
  { s with enc := { s.enc with sess := tabSet (fun _ => EncSess.none) s.enc.sess k x } }

/-- Address of session `k`'s record (R179). -/
def sessRecord (s : State) (k : Nat) : Nat :=
  s.rd EN_SESS_BASE_LO EN_SESS_BASE_LO.BASE_LO * 4096 + (s.raw EN_SESS_BASE_HI).toNat * 2 ^ 32 + k * 256

/-- Fields of a session record (R180). -/
def recMaxRefs (ws : List Word) : Nat := bitsOf 13 11 (wordAt ws 0)
def recMode (ws : List Word) : Nat := bitsOf 19 18 (wordAt ws 0)
def recWidth (ws : List Word) : Nat := bitsOf 15 0 (wordAt ws 1)
def recHeight (ws : List Word) : Nat := bitsOf 31 16 (wordAt ws 1)
def recFpsNum (ws : List Word) : Nat := bitsOf 15 0 (wordAt ws 2)
def recFpsDen (ws : List Word) : Nat := bitsOf 31 16 (wordAt ws 2)
/-- Codes 1 and 3 of PROFILE are the 10-bit profiles. -/
def recBits10 (ws : List Word) : Bool := bitAt 1 (wordAt ws 0)
def recQpMin (ws : List Word) : Nat := bitsOf 23 18 (wordAt ws 8)
def recQpMax (ws : List Word) : Nat := bitsOf 29 24 (wordAt ws 8)
def recVbv (ws : List Word) : Nat := (wordAt ws 5).toNat

/-- Reserved words of a session record. -/
def recReserved : List Nat := [12, 13, 14, 15, 22, 23] ++ List.range' 34 30

/-- The highest level code the headers may carry (R176). -/
def recLevelMax (ws : List Word) : Nat := if recCodec ws = 0 then 183 else 17

/-- A record that fails R181: a field outside its range, an absent encoder, CBR without HRD, or no rate or buffer. DESIGN
CHOICE (assumption 140): QP_I, QP_P and QP_B have the range 0 to 51 that R180 states for QP_MIN and QP_MAX. -/
def recordBad (s : State) (ws : List Word) : Bool :=
  let w := wordAt ws
  recReserved.any (fun i => w i != 0)
    || decide (bitsOf 31 21 (w 0) ≠ 0) || decide (recLevelMax ws < bitsOf 10 3 (w 0))
    || decide (recMaxRefs ws < 1) || decide (4 < recMaxRefs ws)
    || recWidth ws % 8 != 0 || recHeight ws % 8 != 0 || recWidth ws == 0 || recHeight ws == 0
    || decide (recVbv ws < (w 6).toNat)
    || decide (51 < bitsOf 5 0 (w 8)) || decide (51 < bitsOf 11 6 (w 8)) || decide (51 < bitsOf 17 12 (w 8))
    || decide (51 < recQpMin ws) || decide (51 < recQpMax ws) || decide (bitsOf 31 30 (w 8) ≠ 0)
    || decide (16384 < bitsOf 15 0 (w 10)) || decide (16384 < bitsOf 31 16 (w 10))
    || bitsOf 15 0 (w 11) % 64 != 0 || bitsOf 17 16 (w 11) == 0 || decide (bitsOf 31 19 (w 11) ≠ 0)
    || decide (bitsOf 31 16 (w 16) < 576) || decide (9000 < bitsOf 31 16 (w 16))
    || decide (bitsOf 31 16 (w 18) ≠ 0) || decide (bitsOf 31 16 (w 21) ≠ 0) || decide (bitsOf 31 20 (w 33) ≠ 0)
    || decide (numEncoders s.fuse.variant ≤ bitsOf 0 0 (w 0))
    || (recMode ws == 1 && !bitAt 20 (w 0))
    || (recMode ws != 0 && (w 3 == 0 || w 5 == 0))

/-- The session's size or rate exceeds R176. -/
def sessionExceeds (ws : List Word) : Bool :=
  let w := recWidth ws
  let h := recHeight ws
  decide (8192 < w) || decide (8192 < h) || decide (35389440 < w * h)
    || decide (8192 * 4320 * 60 * recFpsDen ws < w * h * recFpsNum ws)

/-- A session as START leaves it (R181, R194). -/
def freshSession (ws : List Word) (order : Nat) : EncSess where
  started := true
  words := ws
  carry := 0
  f := (wordAt ws 6).toNat
  qpI := bitsOf 5 0 (wordAt ws 8)
  qpP := bitsOf 11 6 (wordAt ws 8)
  qpB := bitsOf 17 12 (wordAt ws 8)
  refs := []
  startOrder := order
  rtpSeq := bitsOf 15 0 (wordAt ws 18)
  lastRtp := []
  paceAt := 0

/-! ## Job words (R183) -/

def ejKind (ws : List Word) : Nat := bitsOf 1 0 (wordAt ws 3)
def ejInput (ws : List Word) : Nat := bitsOf 4 2 (wordAt ws 3)
def ejLatest (ws : List Word) : Bool := bitAt 5 (wordAt ws 3)
def ejType (ws : List Word) : Nat := bitsOf 1 0 (wordAt ws 8)
def ejKeep (ws : List Word) : Bool := bitAt 2 (wordAt ws 8)
def ejStart (ws : List Word) : Bool := bitAt 3 (wordAt ws 8)
def ejEgress (ws : List Word) : Bool := bitAt 5 (wordAt ws 8)
def ejOrder (ws : List Word) : Nat := bitsOf 31 16 (wordAt ws 8)
def ejOutput (ws : List Word) : Word := wordAt ws 9

/-- Job words or a machine state R183, R179 and R55 answer INTERNAL for. -/
def encodeInternal (s : State) (j : Job) : Bool :=
  let w := j.words
  decide (15 < j.context) || !bitAt 0 (s.raw EN_SESS_BASE_LO) || decide (bitsOf 31 6 (wordAt w 3) ≠ 0)
    || decide (bitsOf 31 29 (wordAt w 5) ≠ 0) || decide (bitsOf 15 6 (wordAt w 8) ≠ 0) || ejKind w == 3
    || (ejKind w != 0 && wordAt w 2 != 0) || (ejStart w && ejType w != 0)
    || (ejKind w == 1 && (decide (numSdiIn s.fuse.variant ≤ ejInput w) || !s.domOn 39))

/-- The type a picture is coded as, and whether that is a fallback (R187). -/
def codedType (ty order : Nat) (refs : List (Nat × Word)) : Nat × Bool :=
  let earlier := refs.any (fun r => decide (0 < orderDiff order r.1))
  let later := refs.any (fun r => decide (orderDiff order r.1 < 0))
  match ty with
  | 2 => if earlier then (2, false) else (1, true)
  | 3 => if later then (3, false) else if earlier then (2, true) else (1, true)
  | t => (t, false)

/-! ## Rate control (R194 to R197) -/

/-- Cut `n` into pieces of `k`, the last one the rest. -/
def pieces (n k : Nat) : List Nat :=
  (List.range ((n + k - 1) / max 1 k)).map (fun i => min k (n - i * k))

/-- The smallest power-of-two division of `n` superblocks whose pieces satisfy `ok` (R177). -/
def uniform (n : Nat) (ok : Nat → Bool) : Nat :=
  (((List.range 8).map (fun k => (n + 2 ^ k - 1) / 2 ^ k)).find? ok).getD 1

/-- Tile columns and rows of an AV1 picture, in superblocks (R177). -/
def av1Grid (w h : Nat) : List Nat × List Nat :=
  let cols := (w + 63) / 64
  let rows := (h + 63) / 64
  let tw := uniform cols (fun k => decide (k * 64 ≤ 4096))
  let th := uniform rows (fun k => decide (tw * 64 * (k * 64) ≤ 9437184))
  (pieces cols tw, pieces rows th)

/-- CTUs of each row of the picture in coding order (R194). -/
def encRows (ws : List Word) : List Nat :=
  let w := recWidth ws
  let h := recHeight ws
  if recCodec ws = 0 then List.replicate ((h + 63) / 64) ((w + 63) / 64)
  else
    let (cs, rs) := av1Grid w h
    (rs.map (fun r => (cs.map (fun c => List.replicate r c)).flatten)).flatten

/-- The tail of R195. -/
def encTail (ws : List Word) : Nat :=
  if recCodec ws = 0 then 128
  else
    let (cs, rs) := av1Grid (recWidth ws) (recHeight ws)
    128 + 32 * (cs.length * rs.length - 1)

/-- b_min of R195 by the type the picture is coded as. -/
def bMin (coded : Nat) : Nat := if coded < 2 then 48 else 8

/-- reserve(j − 1) of R194: every row from `j` on. -/
def reserveFrom (ws : List Word) (coded j : Nat) : Nat :=
  (((encRows ws).drop j).map (fun n => max (wordAt ws 9).toNat (n * bMin coded))).sum + encTail ws

/-- c_min() of R195 with `h` header bits. -/
def cMin (ws : List Word) (coded h : Nat) : Nat := h + (encRows ws).sum * bMin coded + encTail ws

/-- A rate in bits per picture; a frame rate of zero leaves it a free value. -/
def perPicture (rate : Nat) (ws : List Word) (s : State) : Nat × State :=
  if recFpsNum ws = 0 then
    let (v, t) := s.fresh
    (v.toNat, t)
  else (rate * recFpsDen ws / recFpsNum ws, s)

/-- mode_target() and the HRD fill of a picture by RC_MODE (the table of R194). -/
def modeTarget (ws : List Word) (s : State) : Nat × State :=
  if recMode ws = 0 then (0, s) else perPicture (wordAt ws 3).toNat ws s
def hrdFill (ws : List Word) (s : State) : Nat × State :=
  match recMode ws with
  | 0 => (0, s)
  | 1 => perPicture (wordAt ws 3).toNat ws s
  | _ => perPicture (wordAt ws 4).toNat ws s

/-- The target and cap at acceptance: t, t_eff, carry and c (R194). -/
def acceptRate (jw : List Word) (x : EncSess) (s : State) : Nat × Nat × Nat × Nat × State :=
  let (m, s1) := modeTarget x.words s
  let t := if wordAt jw 6 != 0 then (wordAt jw 6).toNat else m
  let tEff := if t = 0 then 0 else max (t - min x.carry t) (t / 4)
  let carry := x.carry - (t - tEff)
  let c0 := 8 * poolSize (hPool (ejOutput jw))
  let c1 := if wordAt jw 7 != 0 then min c0 (wordAt jw 7).toNat else c0
  let c2 := if recMode x.words = 3 ∧ wordAt x.words 7 != 0 then min c1 (wordAt x.words 7).toNat else c1
  (t, tEff, carry, if recMode x.words = 0 then c2 else min c2 x.f, s1)

def clampInt (lo hi x : Int) : Int := max lo (min hi x)

/-- Base QP of a coded type. -/
def EncSess.qpBase (x : EncSess) (coded : Nat) : Nat := if coded < 2 then x.qpI else if coded = 2 then x.qpP else x.qpB
def EncSess.setQpBase (x : EncSess) (coded v : Nat) : EncSess :=
  if coded < 2 then { x with qpI := v } else if coded = 2 then { x with qpP := v } else { x with qpB := v }

/-- Fixed QP of a coded type in CQP. -/
def recQp (ws : List Word) (coded : Nat) : Nat :=
  if coded < 2 then bitsOf 5 0 (wordAt ws 8) else if coded = 2 then bitsOf 11 6 (wordAt ws 8) else bitsOf 17 12 (wordAt ws 8)

/-- qp_row of R194; a t_eff of zero leaves the quotient a free value. -/
def rowQp (j : EncJob) (s : State) : Nat × State :=
  let ws := j.sess.words
  if recMode ws = 0 then (recQp ws j.coded, s)
  else
    let dev : Int := (j.bits : Int) - ((j.tEff * j.row / (encRows ws).length : Nat) : Int)
    let (q, s1) : Int × State := if j.tEff = 0 then
        let (v, t) := s.fresh
        (v.toInt, t)
      else ((dev * 8).tdiv j.tEff, s)
    ((clampInt (recQpMin ws) (recQpMax ws) ((j.sess.qpBase j.coded : Int) + clampInt (-3) 6 q)).toNat, s1)

/-! ## Taking a job (R182, R186, R189 to R193) -/

/-- The picture a progress-table entry names, as a source. -/
def entrySource (s : State) (e : Nat) : EncSource :=
  let w4 := ppt s e 4
  let w5 := ppt s e 5
  ⟨ppt s e 0, bitsOf 15 0 w4, bitsOf 31 16 w4, bitsOf 15 0 w5, bitsOf 17 16 w5, bitAt 18 w5⟩

/-- The most recent COMPLETE picture of a run of 4 entries at `base` (R189). -/
def newestComplete (s : State) (base : Nat) : Option Nat :=
  ((List.range 4).map (fun i => base + i)).foldl (fun acc e =>
    if pptState s e ≠ peComplete then acc
    else match acc with
      | none => some e
      | some g => if 0 < orderDiff (pptSeq s e) (pptSeq s g) then some e else acc) none

/-- Crop width and height of a job on a source (R183). -/
def cropSize (jw : List Word) (f : EncSource) : Nat × Nat :=
  let x := bitsOf 15 0 (wordAt jw 4)
  let y := bitsOf 31 16 (wordAt jw 4)
  let w8 := bitsOf 12 0 (wordAt jw 5)
  let h8 := bitsOf 25 13 (wordAt jw 5)
  (if w8 = 0 then f.width - x else 8 * w8, if h8 = 0 then f.height - y else 8 * h8)

/-- SOURCE_FORMAT: crop, rotation, scale or format outside R192 and R193, or planes outside their buffer. -/
def sourceBad (jw ws : List Word) (f : EncSource) : Bool :=
  let x := bitsOf 15 0 (wordAt jw 4)
  let y := bitsOf 31 16 (wordAt jw 4)
  let (cw, ch) := cropSize jw f
  let turned := bitAt 26 (wordAt jw 5)
  let rw := if turned then ch else cw
  let rh := if turned then cw else ch
  let lines := match f.chroma with | 1 => f.height + f.height / 2 | 2 => 2 * f.height | _ => 3 * f.height
  x % 2 == 1 || y % 2 == 1 || cw == 0 || ch == 0 || decide (f.width < x + cw) || decide (f.height < y + ch)
    || decide (16384 < f.width) || decide (16384 < f.height)
    || decide (16 * recWidth ws < rw) || decide (2 * rw < recWidth ws)
    || decide (16 * recHeight ws < rh) || decide (2 * rh < recHeight ws)
    || f.chroma == 0 || decide (f.stride < lineBytes f.width f.bits10) || decide (poolSize (hPool f.handle) < f.stride * lines)

/-- What the job words alone show to be outside R192 and R193, whatever the source: an odd crop origin, or an explicit crop
out of scale. -/
def cropBad (jw ws : List Word) : Bool :=
  let w8 := bitsOf 12 0 (wordAt jw 5)
  let h8 := bitsOf 25 13 (wordAt jw 5)
  let turned := bitAt 26 (wordAt jw 5)
  let (forW, forH) := if turned then (recHeight ws, recWidth ws) else (recWidth ws, recHeight ws)
  bitAt 0 (wordAt jw 4) || bitAt 16 (wordAt jw 4)
    || (w8 != 0 && (decide (16 * forW < 8 * w8) || decide (2 * (8 * w8) < forW)))
    || (h8 != 0 && (decide (16 * forH < 8 * h8) || decide (2 * (8 * h8) < forH)))

/-- The encoder is free again. -/
def encFree (n : Nat) (s : State) : State :=
  setEncJob n none ((s.wr (EN_STATUS n) EN_STATUS.BUSY 0).wr (EN_STATUS n) EN_STATUS.WAITING 0)

/-- Interrupts of a completion (R208). -/
def encIrq (n st : Nat) (s : State) : State :=
  let s1 := if st = stOk then s else s.setBit (EN_IRQ_STATUS n) 0
  if st = stSourceLost then s1.setBit (EN_IRQ_STATUS n) 2 else s1

/-- The encoder's job ends without OK: its holds are released, the session is unchanged (R186, R188). -/
def encEnd (n st : Nat) (s : State) : State :=
  match encJobOf s n with
  | none => s
  | some j =>
    let s1 := releaseNZ (17 + n) j.recon (releaseNZ (17 + n) j.src s)
    presentRef j.ref st [] (encIrq n st (encFree n s1))

/-- The encoder takes a picture: format, RETAIN, and a buffer for the reconstruction (R188, R189, R193). A captured or
write-back picture's buffer is shared, and a DRAM source of another owner was refused before (R397). -/
def encTake (n : Nat) (f : EncSource) (s : State) : State :=
  match encJobOf s n with
  | none => s
  | some j =>
    let ws := j.sess.words
    if sourceBad j.words ws f then encEnd n stSourceFormat s
    else
      let (st, s1) := bpmRetain s (17 + n) f.handle
      if st = stStaleHandle then encEnd n stStaleHandle s1
      else if st ≠ stOk then encEnd n st s1
      else
        let s2 := setEncJob n (some { j with src := f.handle, source := f }) s1
        let (st2, h, s3) := allocAt s2 (17 + n) (bitsOf 16 14 (wordAt ws 0)) (bitAt 17 (wordAt ws 0)) true true
        if st2 ≠ stOk then encEnd n (if st2 = stPoolEmpty then stPoolEmpty else stInternal) s3
        else
          let j1 : EncJob := { j with src := f.handle, source := f, recon := h, phase := .needHeader }
          let s4 := setEncJob n (some j1) (s3.wr (EN_STATUS n) EN_STATUS.WAITING 0)
          if poolSize (hPool h) < pictureBytes (recWidth ws) (recHeight ws) 1 (recBits10 ws) then encEnd n stPoolEmpty s4
          else s4

/-- The write-back picture of entry `e` is not YCbCr, and an encoder cannot take it (R189). -/
def wbNotYcc (s : State) (e : Nat) : Bool :=
  decide (2 ≤ tabGet (fun _ => 0) s.cmp.wb.fmts (e - s.rd CMP_WB_STATUS CMP_WB_STATUS.PPT_BASE))

/-- Take the picture entry `e` names; from the write-back tap it must be YCbCr. -/
def encTakeEntry (n e : Nat) (s : State) : State :=
  match encJobOf s n with
  | none => s
  | some j => if ejKind j.words = 2 ∧ wbNotYcc s e = true then encEnd n stSourceFormat s else encTake n (entrySource s e) s

/-- The job waits for the next picture of its input (R190, R191). -/
def encWait (n : Nat) (s : State) : State :=
  match encJobOf s n with
  | none => s
  | some j => setEncJob n (some { j with phase := .waiting }) (s.wr (EN_STATUS n) EN_STATUS.WAITING 1)

/-- The base of the run a job reads, and whether its input can give no picture at acceptance (R190, R191). -/
def encRun (s : State) (jw : List Word) : Nat × Bool :=
  if ejKind jw = 1 then
    let n := ejInput jw
    (s.rd (SDI_IN_STATUS n) SDI_IN_STATUS.PPT_BASE,
      !s.flag (SDI_IN_CFG n) SDI_IN_CFG.EN || s.flag (SDI_IN_STATUS n) SDI_IN_STATUS.PPT_FAIL)
  else (s.rd CMP_WB_STATUS CMP_WB_STATUS.PPT_BASE,
    !s.flag CMP_WB_CFG CMP_WB_CFG.EN || s.flag CMP_WB_STATUS CMP_WB_STATUS.CFG_ERR
      || s.flag CMP_WB_STATUS CMP_WB_STATUS.PPT_FAIL)

/-- The input of a capture job is unlocked. -/
def encUnlocked (s : State) (jw : List Word) : Bool :=
  ejKind jw == 1 && !s.flag (SDI_IN_STATUS (ejInput jw)) SDI_IN_STATUS.LOCKED

/-- An accepted job goes for its source (R189 to R191). What its words show to be SOURCE_FORMAT comes before SOURCE_LOST
(R186). -/
def encSource (n : Nat) (s : State) : State :=
  match encJobOf s n with
  | none => s
  | some j =>
    let jw := j.words
    if ejKind jw = 0 then
      let ws := j.sess.words
      encTake n ⟨wordAt jw 2, bitsOf 15 0 (wordAt ws 10), bitsOf 31 16 (wordAt ws 10), bitsOf 15 0 (wordAt ws 11),
        bitsOf 17 16 (wordAt ws 11), bitAt 18 (wordAt ws 11)⟩ s
    else
      let (base, off) := encRun s jw
      if cropBad jw j.sess.words then encEnd n stSourceFormat s
      else if off then encEnd n stSourceLost s
      else if ejLatest jw then
        match newestComplete s base with
        | some e => encTakeEntry n e s
        | none => if encUnlocked s jw then encEnd n stSourceLost s else encWait n s
      else if encUnlocked s jw then encEnd n stSourceLost s
      else encWait n s

/-- The encoder a job will run on: of its record at START, else of its session. -/
def jobEncoder (s : State) (j : Job) : Nat :=
  if ejStart j.words then
    let (ws, _, _) := dramRdWords (encPort 0) s (sessRecord s (j.context % 16)) 1
    bitsOf 0 0 (wordAt ws 0)
  else bitsOf 0 0 (wordAt (sessOf s j.context).words 0)

/-- A dispatched ENCODE_PICTURE is still to be taken. -/
def encPending (s : State) (r : JobRef) : Bool :=
  let j := s.job r.slot
  decide (j.st = .running) && j.seq == r.seq && !j.begun && !j.stop && !j.record && j.opcode == opEncodePicture

/-- The job is the next of its encoder in order of dispatch, and the encoder is idle (R182). -/
def encTurn (s : State) (r : JobRef) : Bool :=
  let n := jobEncoder s (s.job r.slot)
  (encJobOf s n).isNone &&
    !((s.enc.order.takeWhile (fun x => x ≠ r)).any (fun x => encPending s x && jobEncoder s (s.job x.slot) == n))

/-- The job is taken from the order of dispatch. -/
def encTaken (r : JobRef) (s : State) : State :=
  { s with enc := { s.enc with order := s.enc.order.filter (fun x => x ≠ r) } }

/-- A job its encoder refuses before it takes it up (R186). An encoder that is off is absent, and the refusal has no other
effect (R490). -/
def encRefuse (slot st : Nat) (s : State) : State :=
  let n := jobEncoder s (s.job slot)
  fail slot st (if n < numEncoders s.fuse.variant && s.domOn (24 + n) then encIrq n st s else s)

/-- The session words a job runs under: its record at START, else its session's. -/
def jobRecord (s : State) (j : Job) : List Word :=
  if ejStart j.words then (dramRdWords (encPort (jobEncoder s j)) s (sessRecord s (j.context % 16)) 64).1 else (sessOf s j.context).words

/-- The buffer a job would take at acceptance; 0 for none. -/
def sourceHandle (s : State) (jw : List Word) : Word :=
  if ejKind jw = 0 then wordAt jw 2
  else if ejLatest jw then
    match newestComplete s (encRun s jw).1 with
    | some e => ppt s e 0
    | none => 0
  else 0

/-- The RETAIN of `h` or the ALLOC of a reconstruction buffer stands behind the compositor's hold queue (R20). -/
def encHeld (s : State) (ws : List Word) (h : Word) : Bool :=
  (h != 0 && holdWaiting s (hPool h)) || holdWaiting s (bitsOf 16 14 (wordAt ws 0))

/-- The job's encoder is on the die and switched off: that of its record at START, else of its session (R186, R490). -/
def encOff (s : State) (j : Job) : Bool :=
  let n := jobEncoder s j
  decide (n < numEncoders s.fuse.variant) && !s.domOn (24 + n) && (ejStart j.words || !(sessOf s j.context).words.isEmpty)

/-- ENCODE_PICTURE: the checks of R186 in order, then the source is taken or awaited (R179 to R193). A DRAM source of another
owner with SHARE = 0 is refused where a stale one is (R397, assumption 125). -/
def execEncodePicture (slot : Nat) (s : State) : Out :=
  done s (State.when (s.startable slot opEncodePicture && encTurn s (s.jobRef slot)
      && !encHeld s (jobRecord s (s.job slot)) (sourceHandle s (s.job slot).words)) (fun t =>
    let j := t.job slot
    let r := t.jobRef slot
    let jw := j.words
    let k := j.context
    let t0 := encTaken r t
    if encodeInternal t j || encOff t j then encRefuse slot stInternal t0
    else
      let (rec, bad, t1) := if ejStart jw then dramRdWordsFor (EN_FAULT_STATUS (jobEncoder t0 j)) (encPort (jobEncoder t0 j)) t0 (sessRecord t0 k) 64 else ((sessOf t0 k).words, false, t0)
      let n := bitsOf 0 0 (wordAt rec 0)
      if bad then encRefuse slot stInternal t1
      else if (ejKind jw == 0 && !isCurrent t1 (wordAt jw 2)) || !isCurrent t1 (ejOutput jw)
        then encRefuse slot stStaleHandle t1
      else if ejKind jw == 0 && !mayHold t1 (17 + n) (wordAt jw 2)
        then encRefuse slot stNotOwner (retainS (17 + n) (wordAt jw 2) t1)
      else if (if ejStart jw then recordBad t1 rec else !(sessOf t1 k).started) then encRefuse slot stSessionState t1
      else if sessionExceeds rec then encRefuse slot stLevelExceeded t1
      else
        let x := if ejStart jw then freshSession rec (ejOrder jw) else sessOf t1 k
        let leaving := if ejType jw = 0 then (sessOf t1 k).refs.map (fun e => e.2) else []
        let refs := if ejType jw = 0 then [] else x.refs
        let (coded, fb) := codedType (ejType jw) (ejOrder jw) refs
        let (tt, tEff, carry, c, t2) := acceptRate jw x t1
        let job : EncJob :=
          { ref := r, words := jw, session := k, sess := { x with carry := carry, refs := refs }, phase := .waiting, gates := 0,
            lost := false, src := 0, source := ⟨0, 0, 0, 0, 0, false⟩, input := ⟨[], [], []⟩, recon := 0,
            lists := refLists coded (ejOrder jw) refs, leaving := leaving, coded := coded, fallback := fb, t := tt, tEff := tEff,
            c := c, hdrBytes := 0, row := 0, bits := 0, qpSum := 0, quant := [], ebbRows := 0, forced := 0, ebb := false, units := [],
            sent := 0, begun := false, results := [] }
        let t3 := ((t2.wr (EN_STATUS n) EN_STATUS.BUSY 1).wr (EN_STATUS n) EN_STATUS.SESSION k)
        encSource n (setEncJob n (some job) (beginJob slot t3))) s)

/-- An ABORT has reached the job of an encoder: it stops at a row boundary (R198). -/
def encStopped (s : State) (j : EncJob) : Bool := (s.job j.ref.slot).seq == j.ref.seq && (s.job j.ref.slot).stop

/-- SOURCE_LOST: the waiting job's input has lost lock, or the tap has stopped (R190, R191). -/
def execSourceLost (enc : Nat) (s : State) : Out :=
  done s (match encJobOf s enc with
    | none => s
    | some j => State.when (decide (j.phase = .waiting) && j.lost && !encStopped s j) (encEnd enc stSourceLost) s)

/-! ## Headers and rows (R136, R177, R194 to R197) -/

/-- The input stage makes the job's picture of its source as its coding begins (R192, assumption 122); a source that cannot
be read fails the job (R208, R423). -/
def encInput (n : Nat) (s : State) : State :=
  match encJobOf s n with
  | none => s
  | some j =>
    let f := j.source
    let ws := j.sess.words
    let (cw, ch) := cropSize j.words f
    let rot := bitsOf 27 26 (wordAt j.words 5)
    let mirror := bitAt 28 (wordAt j.words 5)
    let pass := rot == 0 && !mirror && cw == recWidth ws && ch == recHeight ws && f.chroma == 1
    let (ls, cs, ds, bad, t) := readSource n f s
    if bad then encEnd n stInternal (t.setFault (EN_FAULT_STATUS n) 1)
    else
      let crop := cropPlanes f (bitsOf 15 0 (wordAt j.words 4)) (bitsOf 31 16 (wordAt j.words 4)) cw ch ls cs ds
      setEncJob n (some { j with input := inputPicture mirror rot cw ch (recWidth ws) (recHeight ws) (recBits10 ws) pass crop }) t

/-- HEADER_DONE: the header bytes are in the output buffer, and the cap is held against the picture's minimum (R136, R186,
R195); coding begins with the input stage (R192). -/
def execHeaderDone (seq : Nat) (s : State) : Out :=
  done s (match (hsqOf s seq).header with
    | none => s
    | some d => State.when (decide (seq < 4)) (fun t =>
      let t1 := unitOver seq (setHsq seq { hsqOf t seq with header := none } t)
      match encJobOf t1 d.enc with
      | none => t1
      | some j =>
        if j.ref ≠ d.ref ∨ j.phase ≠ .header then t1
        else
          let t2 := dramWr hsqPort t1 (bufAddr t1 (ejOutput j.words)) d.bytes
          if j.c < cMin j.sess.words j.coded (8 * d.bytes.length) then encEnd d.enc stCapTooLow t2
          else if !d.ok then encEnd d.enc stHeaderFail t2
          else encInput d.enc (setEncJob d.enc
            (some { j with phase := .coding, hdrBytes := d.bytes.length, bits := 8 * d.bytes.length }) t2)) s)

/-- The CTUs of a row in order, each committed as coded or by the last resort (R197): `left` CTUs follow the row's first in
the picture, `bits` are spent so far, and once one is forced every later one is. Answers the bits then spent and the number
forced. -/
def codeCtus (bmin tail c : Nat) : Bool → Nat → Nat → List (Nat × Nat) → Nat × Nat
  | _, _, bits, [] => (bits, 0)
  | forced, left, bits, (own, last) :: rest =>
    let force := forced || decide (c < bits + own + left * bmin + tail)
    let (b, n) := codeCtus bmin tail c force (left - 1) (bits + if force then last else own) rest
    (b, n + force.toNat)

/-- The row is coded in ebb mode: an earlier one was, or the reserve demands it (R194). -/
def rowEbb (j : EncJob) : Bool := j.ebb || decide (j.c ≤ j.bits + reserveFrom j.sess.words j.coded j.row)

/-- A row's facts fit the row: one figure a CTU, none above b_min by the last resort, and in ebb mode no intra coding in a P
or B picture (R195 to R197). -/
def rowAllowed (j : EncJob) (row : RowFacts) : Bool :=
  let n := (encRows j.sess.words).getD j.row 0
  row.bits.length == n && row.last.length == n && row.intra.length == n && row.last.all (fun b => decide (b ≤ bMin j.coded))
    && (!rowEbb j || decide (j.coded < 2) || row.intra.all (fun b => !b))

/-- The quantiser a QP is in the coded data: itself, in AV1 the qindex (R194, R196). -/
def quantOf (ws : List Word) (q : Nat) : Nat := if recCodec ws = 0 then q else min 255 (5 * q)

/-- The bits spent after a row and how many of its CTUs were forced (R197). -/
def rowResult (j : EncJob) (row : RowFacts) : Nat × Nat :=
  let left := ((encRows j.sess.words).drop j.row).sum - 1
  codeCtus (bMin j.coded) (encTail j.sess.words) j.c (decide (0 < j.forced)) left j.bits (row.bits.zip row.last)

/-- The check of an encoder's SRAM as a row of `k` CTUs is read from it, a word a CTU (R541; assumption 24). -/
def encCheck (n k : Nat) (s : State) : Bool × State := s.sramFault (EN_FAULT_STATUS n) (max 1 k)

/-- ENCODER_ROW: one row is coded at the QP of R194, in ebb mode where the reserve demands it, and by the last resort where
the cap does (R194 to R197). -/
def execEncoderRow (enc : Nat) (row : RowFacts) (s : State) : Out :=
  done s (match encJobOf s enc with
    | none => s
    | some j =>
      let rows := encRows j.sess.words
      State.when (decide (j.phase = .coding) && decide (j.row < rows.length) && !encStopped s j && rowAllowed j row) (fun t =>
        let (bad, t1) := encCheck enc row.bits.length t
        if bad then encEnd enc stInternal t1
        else
          let n := rows.getD j.row 0
          let ebb := rowEbb j
          let (q, t2) := if ebb then (51, t1) else rowQp j t1
          let (bits, forced) := rowResult j row
          let part := ebb || decide (0 < forced)
          let j1 : EncJob := { j with row := j.row + 1, bits := bits, ebb := part,
                                      qpSum := j.qpSum + (n - forced) * q + forced * 51,
                                      quant := j.quant ++ [quantOf j.sess.words q],
                                      ebbRows := j.ebbRows + part.toNat, forced := j.forced + forced }
          let t3 := if part && !j.ebb then t2.setBit (EN_IRQ_STATUS enc) 1 else t2
          setEncJob enc (some j1) t3) s)

/-! ## The end of a picture (R184, R187, R188, R194) -/

/-- The lowest ORDER of a kept set (R187). -/
def lowestOrder : List (Nat × Word) → Option (Nat × Word)
  | [] => none
  | r :: rs => match lowestOrder rs with
    | none => some r
    | some b => if 0 < orderDiff r.1 b.1 then some b else some r

/-- The kept set with a reconstruction, and what leaves it (R187). -/
def keepRef (maxRefs : Nat) (refs : List (Nat × Word)) (r : Nat × Word) : List (Nat × Word) × List Word :=
  let all := refs ++ [r]
  if all.length ≤ maxRefs then (all, [])
  else match lowestOrder all with
    | none => (all, [])
    | some b => (all.erase b, [b.2])

/-- The session after a picture of `bits` bits with the HRD fill: its carry, fullness and filler bits, and whether the cap
cut the filler (R194). -/
def afterPicture (j : EncJob) (bits fill : Nat) : EncSess × Nat × Bool :=
  let x := j.sess
  let carry := if 0 < j.t ∧ j.tEff < bits then min (x.carry + bits - j.tEff) 0xFFFFFFFF else x.carry
  if recMode x.words = 0 then ({ x with carry := carry }, 0, false)
  else
    let f := x.f + fill - bits
    let want := if recMode x.words = 1 then f - recVbv x.words else 0
    let filler := min want (j.c - bits)
    ({ x with carry := carry, f := min (f - filler) (recVbv x.words) }, filler, decide (filler < want))

/-- qp_base after a picture of `bits` bits, filler included (R194); a t_eff of zero leaves the ratio a free value. -/
def nextQpBase (j : EncJob) (mean bits : Nat) (s : State) : Nat × State :=
  let ws := j.sess.words
  let (r8, s1) : Nat × State := if j.tEff = 0 then
      let (v, t) := s.fresh
      (v.toNat, t)
    else (bits * 8 / j.tEff, s)
  let step : Int := if 12 ≤ r8 then 2 else if 9 ≤ r8 then 1 else if r8 ≤ 5 then -2 else if r8 ≤ 7 then -1 else 0
  ((clampInt (recQpMin ws) (recQpMax ws) ((mean : Int) + step)).toNat, s1)

/-- The job ends OK: the session takes its new state, references that leave are released, and the record is presented
(R187, R188). -/
def encCommit (n : Nat) (s : State) : State :=
  match encJobOf s n with
  | none => s
  | some j =>
    let (refs, out) := if ejKeep j.words then keepRef (recMaxRefs j.sess.words) j.sess.refs (ejOrder j.words, j.recon)
      else (j.sess.refs, [j.recon])
    let s1 := foldS (fun h t => releaseS (17 + n) h t) (j.leaving ++ out) s
    presentRef j.ref stOk j.results (encFree n (setSess j.session { j.sess with refs := refs } s1))

/-- Mean QP of the picture, rounded down. -/
def EncJob.qpMean (j : EncJob) : Nat := j.qpSum / max 1 (encRows j.sess.words).sum

/-- The picture's coded data fits what its rows spent and the cap (R195, R197). -/
def codedAllowed (j : EncJob) (bytes : List Byte) : Bool :=
  let total := 8 * (j.hdrBytes + bytes.length)
  decide (j.bits ≤ total) && decide (total ≤ j.bits + encTail j.sess.words) && decide (total ≤ j.c)

/-- The lines of the reconstruction, 4:2:0, in memory order: byte offsets from the buffer start (R103). -/
def reconLines (ws : List Word) : List Nat :=
  let st := strideOf (recWidth ws) (recBits10 ws)
  let h := recHeight ws
  (List.range h).map (fun y => y * st) ++ (List.range (h / 2)).map (fun y => st * h + y * st)

/-- ENCODE_DONE: the coded data and the reconstruction are in memory; carry, HRD fullness, filler and base QP follow R194;
the job ends, or its RTP packets begin (R184, R187, R188, R194, R199). -/
def execEncodeDone (enc : Nat) (bytes : List Byte) (recon : List (List Byte)) (s : State) : Out :=
  done s (match encJobOf s enc with
    | none => s
    | some j =>
      let ws := j.sess.words
      let offs := reconLines ws
      State.when (decide (j.phase = .coding) && decide (j.row = (encRows ws).length) && !encStopped s j && codedAllowed j bytes
          && decide (recon.length = offs.length) && recon.all (fun l => l.length == lineBytes (recWidth ws) (recBits10 ws))) (fun t =>
        let out := bufAddr t (ejOutput j.words)
        let bits := 8 * (j.hdrBytes + bytes.length)
        let (fill, t1) := hrdFill ws t
        let (x, filler, cut) := afterPicture j bits fill
        let (fb, t2) := fillerBytes (recCodec ws == 0) (filler / 8) t1
        let t3 := dramWr (encPort enc) t2 (out + j.hdrBytes) (bytes ++ fb)
        let base := bufAddr t3 j.recon
        let t4 := foldS (fun l u => dramWr (encPort enc) u (base + l.1) l.2) (offs.zip recon) t3
        let (qb, t5) := if recMode ws = 0 then (0, t4) else nextQpBase j j.qpMean (bits + filler) t4
        let x1 := if recMode ws = 0 then x else x.setQpBase j.coded qb
        let total := bits + filler
        let results : List Word := [BitVec.ofNat 32 total, BitVec.ofNat 32 (j.ebbRows % 65536 + j.forced % 65536 * 2 ^ 16),
          BitVec.ofNat 32 j.qpMean, BitVec.ofNat 32 (total / 8),
          BitVec.ofNat 32 (j.coded + j.fallback.toNat * 4 + ejOrder j.words * 2 ^ 16)]
        let t6 := t5.inc (EN_PIC_COUNT enc) EN_PIC_COUNT.PICTURES
        let t7 := if 0 < j.ebbRows then t6.inc (EN_EBB_COUNT enc) EN_EBB_COUNT.EBB_PICS else t6
        let t8 := if 0 < j.forced then t7.inc (EN_EBB_COUNT enc) EN_EBB_COUNT.FORCED_PICS else t7
        let t9 := if cut then t8.inc (EN_HRD_SHORT enc) EN_HRD_SHORT.PICTURES else t8
        let send := ejEgress j.words && bitAt 0 (wordAt ws 16)
        let (out, bad, t10) := if send then dramRdFor (EN_FAULT_STATUS enc) (encPort enc) t9 out (total / 8) else ([], false, t9)
        let j1 : EncJob := { j with sess := x1, src := 0, results := results, phase := .egress,
                                    units := egressUnits (recCodec ws == 0) out }
        let t11 := setEncJob enc (some j1) (releaseNZ (17 + enc) j.src t10)
        if bad then encEnd enc stInternal (t11.setFault (EN_FAULT_STATUS enc) 1)
        else if send && !j1.units.isEmpty then t11.wr (EN_STATUS enc) EN_STATUS.WAITING 1 else encCommit enc t11) s)

/-! ## RTP egress (R199 to R201) -/

/-- The RTP timestamp of a picture (R200); a frame rate of zero leaves it a free value. -/
def rtpStamp (j : EncJob) (s : State) : Word × State :=
  let ws := j.sess.words
  if recFpsNum ws = 0 then s.fresh
  else
    let d := orderDiff (ejOrder j.words) j.sess.startOrder
    (BitVec.ofInt 32 (((wordAt ws 19).toNat : Int) + (d * 90000 * recFpsDen ws).tdiv (recFpsNum ws)), s)

/-- Cycles of CLK_PIX that PACE_MBPS gives a frame of `n` bytes, its check sequence and padding counted; none at line rate
(R200, assumption 123). -/
def paceCycles (ws : List Word) (n : Nat) : Nat :=
  let p := bitsOf 19 0 (wordAt ws 33)
  if p = 0 then 0 else (max 64 (n + 4) * 9600 + p - 1) / p

/-- The piece of its coded picture an encoder sends next, of at most `take` bytes, and whether the picture ends with it. -/
def nextPiece (j : EncJob) (take : Nat) : Piece × Bool :=
  let u := j.units.headD []
  let p : Piece := ⟨u, j.sent, min take (u.length - j.sent)⟩
  (p, p.ends && decide (j.units.length ≤ 1))

/-- A packet's piece is one R199 allows: not empty, and the first of a fragmented NAL unit reaches past its header. -/
def pieceOk (hevc : Bool) (p : Piece) : Bool :=
  decide (0 < p.take) && (!hevc || p.ends || decide (2 < p.sent + p.take))

/-- RTP_PACKET: a packet with the next `length` bytes of the unit in turn, `last` where the picture ends with it, enters the
egress FIFO of its port; with the last one the job completes (R199, R200). -/
def execRtpPacket (enc length : Nat) (last : Bool) (s : State) : Out :=
  done s (match encJobOf s enc with
    | none => s
    | some j =>
      let ws := j.sess.words
      let hevc := recCodec ws == 0
      let port := bitsOf 1 1 (wordAt ws 16)
      let p := (nextPiece j length).1
      let (ts, s1) := rtpStamp j s
      let hd := rtpHeader ws j.sess.rtpSeq last ts
      let payload := if hevc then hevcPayload p else av1Payload (decide (j.coded = 0) && !j.begun) p
      let frame := egressFrame s port ws ((hd.map (fun w => beBytes 4 w.toNat)).flatten ++ payload)
      State.when (decide (j.phase = .egress) && !encStopped s j && last == (nextPiece j length).2 && pieceOk hevc p
          && decide (frame.length ≤ 14 + bitsOf 31 16 (wordAt ws 16)) && decide (j.sess.paceAt ≤ s.cyc)
          && decide (port < numPorts s.fuse.variant) && s.domOn (37 + port)) (fun _ =>
        let x : EncSess := { j.sess with rtpSeq := (j.sess.rtpSeq + 1) % 65536, lastRtp := hd,
                                         paceAt := s.cyc + paceCycles ws frame.length }
        let j1 : EncJob := { j with sess := x, begun := true, units := if p.ends then j.units.drop 1 else j.units,
                                    sent := if p.ends then 0 else j.sent + p.take }
        let t1 := s1.inc (IGR_PORT_TX_FRAMES port) IGR_PORT_TX_FRAMES.COUNT
        let t2 := { t1 with enc := { t1.enc with wire := tabSet (fun _ => []) t1.enc.wire port frame } }
        let t3 := setEncJob enc (some j1) t2
        if last then encCommit enc t3 else t3) s)

/-- The encoder stops for an ABORT (R198): its holds are released, the references, carry and fullness stand, the sequence
numbers its packets took are spent, and the output past the headers is undefined. -/
def encAbort (n : Nat) (s : State) : State :=
  match encJobOf s n with
  | none => s
  | some j =>
    let s1 := releaseNZ (17 + n) j.recon (releaseNZ (17 + n) j.src s)
    let old := sessOf s1 j.session
    let s2 := if j.phase = .egress ∧ ejStart j.words = false
      then setSess j.session { old with rtpSeq := j.sess.rtpSeq, lastRtp := j.sess.lastRtp } s1 else s1
    let coded := decide (j.phase = .coding) || decide (j.phase = .egress)
    let len := if coded then j.c / 8 - j.hdrBytes else 0
    let (fb, s3) := freshBytes len s2
    encFree n (if coded then dramWr (encPort n) s3 (bufAddr s3 (ejOutput j.words) + j.hdrBytes) fb else s3)

end Sys2Proof.Machine
end

