-- ==== Sys2Proof/Machine/Sdi.lean ====
section
/-!
DEFINITION. The SDI inputs and preview outputs (R202 to R211): capture into the picture progress table line by line, lock
and carrier, and the frames of the preview outputs.
-/
namespace Sys2Proof.Machine

def SdiIn.none : SdiIn := ⟨0, .none, [], false, false⟩
def sdiIn (s : State) (n : Nat) : SdiIn := tabGet (fun _ => SdiIn.none) s.sdi.ins n
def setSdiIn (n : Nat) (x : SdiIn) (s : State) : State :=
  { s with sdi := { s.sdi with ins := tabSet (fun _ => SdiIn.none) s.sdi.ins n x } }

/-- Width and height of a raster code (R210). -/
def rasterSize (c : Nat) : Nat × Nat :=
  match c with
  | 1 => (1280, 720) | 2 => (1920, 1080) | 3 => (3840, 2160) | 4 => (4096, 2160) | _ => (0, 0)

/-- A raster and rate of R202, by link: 1 HD, 2 and 3 3G, 4 6G, 5 12G. -/
def sdiSupported (r : SdiRaster) : Bool :=
  !r.odd && (!r.psf || (r.link == 1 && r.raster == 2)) && match r.link with
  | 5 => (r.raster == 3 || r.raster == 4) && decide (6 ≤ r.rate ∧ r.rate ≤ 10)
  | 4 => (r.raster == 3 || r.raster == 4) && decide (1 ≤ r.rate ∧ r.rate ≤ 5)
  | 2 | 3 => r.raster == 2 && decide (8 ≤ r.rate ∧ r.rate ≤ 10)
  | 1 => (r.raster == 2 && decide (1 ≤ r.rate ∧ r.rate ≤ 5)) || (r.raster == 1 && decide (8 ≤ r.rate ∧ r.rate ≤ 10))
  | _ => false

/-- The input is present and its block is on. -/
def sdiInLive (s : State) (n : Nat) : Bool := decide (n < numSdiIn s.fuse.variant) && s.domOn 39

def sdiFlag (s : State) (n : Nat) (f : Fld) : Bool := s.flag (SDI_IN_STATUS n) f
def sdiBase (s : State) (n : Nat) : Nat := s.rd (SDI_IN_STATUS n) SDI_IN_STATUS.PPT_BASE

/-- Holds of captured buffers wait for a lock gate, as GATE slots do (R157, R203). -/
def gateHold (req : Nat) (h : Word) (s : State) : State :=
  if h = 0 then s else { s with dec := { s.dec with gates := s.dec.gates ++ [⟨h, req, false⟩] } }

/-- An input lets go of every buffer its entries name. -/
def sdiForget (n : Nat) (s : State) : State :=
  let x := sdiIn s n
  setSdiIn n { x with cur := none, named := [] } (foldS (fun e t => gateHold 24 e.2 t) x.named s)

/-- SDI_EN: a write of SDI_INn_CFG. EN takes an aligned run of 4 entries, or PPT_FAIL sets; clearing it returns the run
(R203). -/
def execSdiEn (n : Nat) (data : Word) (s : State) : Out :=
  done s (State.when (sdiInLive s n) (fun t =>
    let was := t.flag (SDI_IN_CFG n) SDI_IN_CFG.EN
    let t1 := t.hostWrite (SDI_IN_CFG n) data
    if !was && bitAt 0 data then
      match freeRun t1 4 with
      | some b => (takeRun b 4 (512 + 1 + n) t1).wr (SDI_IN_STATUS n) SDI_IN_STATUS.PPT_BASE b
      | none => (t1.wr (SDI_IN_STATUS n) SDI_IN_STATUS.PPT_FAIL 1).setBit (SDI_IN_IRQ_STATUS n) 2
    else if was && !bitAt 0 data then
      let t2 := sdiForget n t1
      let t3 := if sdiFlag t2 n SDI_IN_STATUS.PPT_FAIL then t2 else returnRun (sdiBase t2 n) 4 t2
      (t3.wr (SDI_IN_STATUS n) SDI_IN_STATUS.PPT_FAIL 0).wr (SDI_IN_STATUS n) SDI_IN_STATUS.PPT_BASE 0
    else t1) s)

/-- A frame is not captured: POOL_DROPS counts it, and the entries keep their pictures (R204). -/
def sdiDrop (n : Nat) (s : State) : State :=
  (s.inc (SDI_IN_ERRORS n) SDI_IN_ERRORS.POOL_DROPS).setBit (SDI_IN_IRQ_STATUS n) 2

/-- Microseconds since PD_SDI was reset (R203). -/
def sdiMicros (s : State) : Nat := (s.cyc - s.sdi.base) / 1200

/-- The input captures: it is enabled with a run, locked to a raster of R202. -/
def sdiCapturing (s : State) (n : Nat) : Bool :=
  s.flag (SDI_IN_CFG n) SDI_IN_CFG.EN && !sdiFlag s n SDI_IN_STATUS.PPT_FAIL && sdiFlag s n SDI_IN_STATUS.LOCKED
    && sdiFlag s n SDI_IN_STATUS.SUPPORTED

/-- SDI_FRAME_START: a buffer is allocated and published DECODING; the picture its entry named is held to a lock gate
(R203, R204). Its ALLOC is granted behind the compositor's hold queue (R20). -/
def execSdiFrameStart (n : Nat) (s : State) : Out :=
  done s (State.when (sdiInLive s n && sdiCapturing s n && (sdiIn s n).cur.isNone
      && !holdWaiting s (s.rd (SDI_IN_CFG n) SDI_IN_CFG.POOL)) (fun t =>
    let (w, h) := rasterSize (t.rd (SDI_IN_STATUS n) SDI_IN_STATUS.RASTER)
    let c420 := t.flag (SDI_IN_CFG n) SDI_IN_CFG.CHROMA420
    let chroma := if c420 then 1 else 2
    let p := t.rd (SDI_IN_CFG n) SDI_IN_CFG.POOL
    let (st, hd, t1) := allocAt t 24 p (t.flag (SDI_IN_CFG n) SDI_IN_CFG.SPILL_UP) true true
    if st ≠ stOk then sdiDrop n t1
    else if poolSize (hPool hd) < pictureBytes w h chroma true then sdiDrop n (releaseS 24 hd t1)
    else
      let x := sdiIn t1 n
      let k := x.seq % 4
      let e := sdiBase t1 n + k
      let words : List Word := [hd, BitVec.ofNat 32 ((h + 15) / 16 * 2 ^ 16), BitVec.ofNat 32 (peDecoding + 4 * 2 ^ 6),
        BitVec.ofNat 32 x.seq, BitVec.ofNat 32 (w + h * 2 ^ 16),
        BitVec.ofNat 32 (strideOf w true + chroma * 2 ^ 16 + 2 ^ 18), 0, BitVec.ofNat 32 (sdiMicros t1)]
      let t2 := gateHold 24 (tabGet (fun _ => 0) x.named k) (pptPut e words t1)
      setSdiIn n { x with seq := (x.seq + 1) % 65536, cur := some ⟨hd, e, w, h, c420, 0, [], [], x.psf, []⟩,
                          named := tabSet (fun _ => 0) x.named k hd } t2) s)

/-! ## Lines (R202 to R204) -/

/-- The 10-bit samples of packed bytes (R104). -/
def unpack10 : List Byte → List Nat
  | b0 :: b1 :: b2 :: b3 :: b4 :: bs =>
    let v := bytesNat [b0, b1, b2, b3, b4]
    v % 1024 :: v / 2 ^ 10 % 1024 :: v / 2 ^ 20 % 1024 :: v / 2 ^ 30 % 1024 :: unpack10 bs
  | _ => []

/-- Pack 10-bit samples four to five bytes (R104); the places of a last group that hold no sample are zero. -/
def pack10 : List Nat → List Byte
  | a :: b :: c :: d :: rest =>
    natBytes 5 (a % 1024 + b % 1024 * 2 ^ 10 + c % 1024 * 2 ^ 20 + d % 1024 * 2 ^ 30) ++ pack10 rest
  | [] => []
  | xs => natBytes 5 (xs.getD 0 0 % 1024 + xs.getD 1 0 % 1024 * 2 ^ 10 + xs.getD 2 0 % 1024 * 2 ^ 20)

/-- The 4:2:0 chroma of two lines of 4:2:2 chroma: step 5 of R192. -/
def averageLines (a b : List Byte) : List Byte :=
  pack10 (chroma420 (unpack10 a) (unpack10 b))

/-- The picture line the next line of a frame is: of a PsF frame the even lines come before the odd ones (R202). -/
def SdiPic.next (p : SdiPic) : Nat :=
  if !p.psf then p.lines else if p.lines < p.height / 2 then 2 * p.lines else 2 * (p.lines - p.height / 2) + 1

/-- Picture lines captured without a gap from the top. -/
def SdiPic.top (p : SdiPic) : Nat := if p.psf then 2 * (p.lines - p.height / 2) else p.lines

/-- The line above the next one, luma and chroma: the last captured; of a PsF frame's second segment, the first segment's
line (R202, R204). -/
def SdiPic.above (p : SdiPic) : List Byte × List Byte :=
  if p.psf ∧ p.height / 2 ≤ p.lines then p.kept.getD (p.lines - p.height / 2) ([], []) else (p.luma, p.chroma)

/-- Write the next line of a captured frame, a PsF frame's woven (R202, R204). -/
def writeSdiLine (n : Nat) (p : SdiPic) (luma chroma : List Byte) (s : State) : State :=
  let st := strideOf p.width true
  let base := bufAddr s p.handle
  let y := p.next
  let s1 := dramWr capturePort s (base + y * st) luma
  let s2 := if !p.c420 then dramWr capturePort s1 (base + st * p.height + y * st) chroma
    else if y % 2 = 1 then dramWr capturePort s1 (base + st * p.height + y / 2 * st) (averageLines p.above.2 chroma)
    else s1
  let kept := if p.psf ∧ p.lines < p.height / 2 then p.kept ++ [(luma, chroma)] else p.kept
  setSdiIn n { sdiIn s2 n with cur := some { p with lines := p.lines + 1, luma := luma, chroma := chroma, kept := kept } } s2

/-- The check of a capture FIFO as the words of a line are read from it (R541). -/
def sdiCheck (luma chroma : List Byte) (s : State) : Bool × State := s.sramFault SDI_FAULT_STATUS (lineWords [luma, chroma])

/-- SDI_LINE: a captured line is written; one that failed its CRC is damage, and one the FIFO overflowed is a copy of the
line above (R204). The line above the first is black, as a missing line is (R205). DESIGN CHOICE (assumption 141): in the
first segment of a PsF frame the line above, not captured yet, is the segment's line before. -/
def execSdiLine (n : Nat) (crcOk overflow : Bool) (bytes chroma : List Byte) (s : State) : Out :=
  done s (State.when (sdiInLive s n) (fun t =>
    match (sdiIn t n).cur with
    | none => t
    | some p =>
      let len := lineBytes p.width true
      if p.lines < p.height ∧ bytes.length = len ∧ chroma.length = len then
        let (bad, t1) := sdiCheck bytes chroma t
        let above := fun (l : List Byte) (v : Nat) => if p.lines = 0 then pack10 (List.replicate p.width v) else l
        let luma := if overflow then above p.above.1 64 else bytes
        let chr := if overflow then above p.above.2 512 else chroma
        let t2 := if overflow then t1.inc (SDI_IN_ERRORS n) SDI_IN_ERRORS.FIFO_LINES
          else if !crcOk then t1.inc (SDI_IN_ERRORS n) SDI_IN_ERRORS.CRC_LINES else t1
        let t3 := if overflow || !crcOk || bad then pptDamaged p.entry (t2.setBit (SDI_IN_IRQ_STATUS n) 2) else t2
        writeSdiLine n p luma chr t3
      else t) s)

/-- SDI_ROWS: sixteen more lines have reached DRAM, and ROWS_DONE advances (R203). -/
def execSdiRows (n : Nat) (s : State) : Out :=
  done s (State.when (sdiInLive s n) (fun t =>
    match (sdiIn t n).cur with
    | none => t
    | some p => State.when (decide (16 * (pptRowsDone t p.entry + 1) ≤ p.top)) (pptRows p.entry (pptRowsDone t p.entry + 1)) t) s)

/-- Encoder `n` waits for the next picture of this input. -/
def encAwaits (kind input n : Nat) (s : State) : Bool :=
  match encJobOf s n with
  | none => false
  | some j => decide (j.phase = .waiting) && !j.lost && !encStopped s j && ejKind j.words == kind
      && (kind == 2 || ejInput j.words == input)

/-- An encoder that waits for this input would take buffer `h` ahead of the compositor's hold queue (R20): the publication
waits for the queue (assumption 126). -/
def encBehind (kind input : Nat) (h : Word) (s : State) : Bool :=
  [0, 1].any (fun n => encAwaits kind input n s && (match encJobOf s n with
    | none => false
    | some j => encHeld s j.sess.words h))

/-- Encoders that wait for the next picture of capture input `n` take the one entry `e` names (R189, R190). -/
def encCaptured (kind input e : Nat) (s : State) : State :=
  foldS (fun n t => if encAwaits kind input n t then encTakeEntry n e t else t) [0, 1] s

/-- The captured frame is published COMPLETE (R203). -/
def sdiComplete (n : Nat) (p : SdiPic) (s : State) : State :=
  let s1 := pptSetState p.entry peComplete (pptRows p.entry ((p.height + 15) / 16) s)
  let s2 := (setSdiIn n { sdiIn s1 n with cur := none } s1).inc (SDI_IN_FRAMES n) SDI_IN_FRAMES.FRAMES
  encCaptured 1 n p.entry s2

/-- SDI_FRAME_END: the last line has been captured, and STATE becomes COMPLETE (R189, R190, R203). -/
def execSdiFrameEnd (n : Nat) (s : State) : Out :=
  done s (State.when (sdiInLive s n) (fun t =>
    match (sdiIn t n).cur with
    | none => t
    | some p => State.when (decide (p.lines = p.height) && !encBehind 1 n p.handle t) (sdiComplete n p) t) s)

/-! ## Carrier and lock (R190, R205) -/

/-- CARRIER: the cable is plugged or unplugged (R205). -/
def execCarrier (n : Nat) (present : Bool) (s : State) : Out :=
  done s (State.when (sdiInLive s n && sdiFlag s n SDI_IN_STATUS.CARRIER != present) (fun t =>
    (t.wr (SDI_IN_STATUS n) SDI_IN_STATUS.CARRIER present.toNat).setBit (SDI_IN_IRQ_STATUS n) 0) s)

/-- Waiting capture jobs of an input whose lock is lost end SOURCE_LOST (R190). -/
def encInputLost (kind input : Nat) (s : State) : State :=
  foldS (fun n t => match encJobOf t n with
    | none => t
    | some j =>
      if j.phase = .waiting ∧ ejKind j.words = kind ∧ (kind = 2 ∨ ejInput j.words = input)
      then setEncJob n (some { j with lost := true }) t else t) [0, 1] s

/-- The lines a frame lacks are filled with black, and it is COMPLETE with DAMAGED (R205). -/
def sdiBlack (n : Nat) (s : State) : State :=
  match (sdiIn s n).cur with
  | none => s
  | some p =>
    let luma := pack10 (List.replicate p.width 64)
    let chroma := pack10 (List.replicate p.width 512)
    let s1 := foldS (fun _ t => match (sdiIn t n).cur with
      | none => t
      | some q => writeSdiLine n q luma chroma t) (List.range (p.height - p.lines)) s
    sdiComplete n p (pptDamaged p.entry s1)

/-- LOCK: an input gains or loses lock or changes raster; a frame in progress is filled black (R190, R202, R205). -/
def execLock (n : Nat) (raster : SdiRaster) (s : State) : Out :=
  done s (State.when (sdiInLive s n) (fun t =>
    let a := SDI_IN_STATUS n
    let was := sdiFlag t n SDI_IN_STATUS.LOCKED
    let same := was == raster.locked
      && (!was || ((sdiIn t n).odd == raster.odd && (sdiIn t n).psf == raster.psf && t.rd a SDI_IN_STATUS.RASTER == raster.raster && t.rd a SDI_IN_STATUS.RATE == raster.rate
        && t.rd a SDI_IN_STATUS.LINK == raster.link))
    if same then t
    else
      let t1 := if was && !raster.locked then encInputLost 1 n t else t
      let t2 := if was then sdiBlack n t1 else t1
      let r : SdiRaster := if raster.locked then raster else ⟨false, true, 0, 0, 0, false⟩
      let t3 := (t2.wr a SDI_IN_STATUS.LOCKED r.locked.toNat).wr a SDI_IN_STATUS.SUPPORTED (sdiSupported r).toNat
      let t4 := ((t3.wr a SDI_IN_STATUS.LINK r.link).wr a SDI_IN_STATUS.RASTER r.raster).wr a SDI_IN_STATUS.RATE r.rate
      (setSdiIn n { sdiIn t4 n with odd := r.odd, psf := r.psf } t4).setBit (SDI_IN_IRQ_STATUS n) 1) s)

/-! ## Preview outputs (R206, R207) -/

def sdiOutLive (s : State) (m : Nat) : Bool := decide (m < numSdiOut s.fuse.variant) && s.domOn 39

/-- Output frames per 1,001,000 ms of a rate code (R210). -/
def sdiRate (c : Nat) : Nat :=
  match c with
  | 1 => 24000 | 2 => 24024 | 3 => 25025 | 4 => 30000 | 5 => 30030 | 6 => 48000 | 7 => 48048 | 8 => 50050 | 9 => 60000
  | 10 => 60060 | _ => 0

/-- The raster and rate of an output are within R202 on some link it may use (R206). -/
def sdiOutOk (raster rate : Nat) : Bool :=
  [5, 4, 2, 1].any (fun l => sdiSupported ⟨true, false, l, raster, rate, false⟩)

/-- How an output's rate stands to the frame rate `num / den` (R207): it starts at every gate, at every second one, or, 0,
it runs free. -/
def previewRatio (s : State) (m num den : Nat) : Nat :=
  let r := sdiRate (s.rd (SDI_OUT_CFG m) SDI_OUT_CFG.RATE)
  if !s.flag (SDI_OUT_CFG m) SDI_OUT_CFG.LOCK_TO_GATE then 0
  else if r * den = num * 1001 then 1
  else if 2 * r * den = num * 1001 then 2
  else 0

def SdiOut.none : SdiOut := ⟨.none, 0, 0, 0, .none, []⟩
def sdiOut (s : State) (m : Nat) : SdiOut := tabGet (fun _ => SdiOut.none) s.sdi.outs m
def setSdiOut (m : Nat) (x : SdiOut) (s : State) : State :=
  { s with sdi := { s.sdi with outs := tabSet (fun _ => SdiOut.none) s.sdi.outs m x } }

/-- The handle an output holds; 0 for none. -/
def SdiOut.handle (x : SdiOut) : Word := match x.pic with | .none => 0 | .some p => p.handle

/-- An output's next frame may start (R207): a free one at any time, a locked one 4 µs after a lock gate, the next one or
the second after the one it last started by. -/
def previewDue (s : State) (m : Nat) : Bool :=
  let (num, den) := rateHz (rateNow s)
  let k := previewRatio s m num den
  let f := s.rd CMP_STATUS CMP_STATUS.FRAME
  k == 0 || (decide (s.plk.gateAt + 4800 ≤ s.cyc) && (match (sdiOut s m).gate with
    | .none => true
    | .some g => decide (k ≤ (f + 2 ^ 24 - g) % 2 ^ 24)))

/-- PREVIEW_FRAME_START: an output lets go of the picture of its last frame, and takes the most recent complete write-back
picture for this one; with none it sends black (R206, R207). Its RETAIN is granted behind the compositor's hold queue
(R20). -/
def execPreviewFrameStart (m : Nat) (s : State) : Out :=
  let on := s.flag (SDI_OUT_CFG m) SDI_OUT_CFG.EN
    && sdiOutOk (s.rd (SDI_OUT_CFG m) SDI_OUT_CFG.RASTER) (s.rd (SDI_OUT_CFG m) SDI_OUT_CFG.RATE)
  let base := s.rd CMP_WB_STATUS CMP_WB_STATUS.PPT_BASE
  let entry := if on && s.cmp.wb.run then newestComplete s base else none
  let held := match entry with | none => false | some e => holdWaiting s (hPool (ppt s e 0))
  done s (State.when (sdiOutLive s m && (!on || previewDue s m) && !held) (fun t =>
    let t1 := releaseNZ 24 (sdiOut t m).handle t
    let (pic, fmt, t2) := match entry with
      | none => ((none : Option EncSource), 0, t1)
      | some e =>
        let (st, u) := bpmRetain t1 24 (ppt t1 e 0)
        (if st = stOk then some (entrySource t1 e) else none, tabGet (fun _ => 0) t1.cmp.wb.fmts (e - base), u)
    let (num, den) := rateHz (rateNow t2)
    let free := on && previewRatio t2 m num den == 0
    let win := t2.reg (SDI_OUT_WIN m)
    let gate := if on && !free then some (t2.rd CMP_STATUS CMP_STATUS.FRAME) else none
    (setSdiOut m ⟨pic, fmt, bitsOf 15 0 win, bitsOf 31 16 win, gate, []⟩ t2).wr (SDI_OUT_STATUS m) SDI_OUT_STATUS.FREE
      free.toNat) s)

/-- One read line of the held picture as 10-bit samples; free where the read fails (R423). -/
def previewRead (p : EncSource) (off : Nat) (s : State) : List Nat × State :=
  let (l, bad, t) := dramRdFor SDI_FAULT_STATUS previewPort s (bufAddr s p.handle + off) (lineBytes p.width p.bits10)
  let n := if p.bits10 then (p.width + 3) / 4 * 4 else p.width
  if bad then
    let (fb, u) := freshBytes (2 * n) t
    ((List.range n).map (fun i => bytesNat ((fb.drop (2 * i)).take 2) % 1024), u)
  else ((List.range n).map (sample10 p.bits10 l), t)

/-- Line `y` of an output's frame as it leaves: luma, and Cb and Cr interleaved (R206). Samples outside the picture are
black; 4:2:0 chroma serves two lines, 4:4:4 chroma is filtered 1-2-1. The samples of a picture that is not YCbCr are not
stated, and free (assumption 124). -/
def previewLine (m y w : Nat) (s : State) : List Nat × List Nat × State :=
  let x := sdiOut s m
  match x.pic with
  | .none => (List.replicate w 64, List.replicate w 512, s)
  | .some p =>
    let r := x.srcY + y
    let size := p.stride * p.height
    if p.height ≤ r then (List.replicate w 64, List.replicate w 512, s)
    else if 2 ≤ x.fmt then
      let (fb, t) := freshBytes (4 * w) s
      let v := (List.range (2 * w)).map (fun i => bytesNat ((fb.drop (2 * i)).take 2) % 1024)
      (v.take w, v.drop w, t)
    else
      let (ys, t1) := previewRead p (r * p.stride) s
      let (cs, t2) := previewRead p (size + (if p.chroma = 1 then r / 2 else r) * p.stride) t1
      let (ds, t3) := if p.chroma = 3 then previewRead p (2 * size + r * p.stride) t2 else ([], t2)
      let tap := fun (l : List Nat) (c : Nat) =>
        (l.getD (c - 1) 0 + 2 * l.getD c 0 + l.getD (min (c + 1) (p.width - 1)) 0 + 2) / 4
      let chr := fun (k : Nat) (second : Bool) =>
        let c := x.srcX + 2 * k
        if p.width ≤ c then 512
        else if p.chroma = 3 then tap (if second then ds else cs) c
        else cs.getD (c / 2 * 2 + second.toNat) 0
      ((List.range w).map (fun k => if p.width ≤ x.srcX + k then 64 else ys.getD (x.srcX + k) 0),
        ((List.range (w / 2)).map (fun k => [chr k false, chr k true])).flatten, t3)

/-- The line of the picture that leaves in the place of line `y`: the last one before it that the FIFO did not underrun
(R207). -/
def previewPlace (repeated : List Nat) : Nat → Nat
  | 0 => 0
  | y + 1 => if repeated.contains (y + 1) then previewPlace repeated y else y + 1

/-- What output `m` sends on line `y` of its frame (R206, R207). -/
def previewSent (m y : Nat) (s : State) : List Nat × List Nat × State :=
  previewLine m (previewPlace (sdiOut s m).repeated y) (rasterSize (s.rd (SDI_OUT_CFG m) SDI_OUT_CFG.RASTER)).1 s

/-- PREVIEW_UNDERRUN: a line of an output's frame found the preview FIFO empty: the line before it is repeated, and
counted (R18, R207). -/
def execPreviewUnderrun (line : OutLine) (s : State) : Out :=
  let m := line.out
  done s (State.when (sdiOutLive s m) (fun t =>
    let x := sdiOut t m
    let t1 := setSdiOut m { x with repeated := line.line :: x.repeated } t
    (t1.inc (SDI_OUT_STATUS m) SDI_OUT_STATUS.UNDERRUN_LINES).setBit (SDI_OUT_IRQ_STATUS m) 0) s)

end Sys2Proof.Machine
end

