-- ==== Sys2Proof/Machine/Layers.lean ====
section
/-!
DEFINITION. Layers (R212 to R242, R542): LAYER_UPDATE and its checks, layer geometry and coverage, the copies of a lock
gate, picture selection, the hold queue, and the guarded regions with the jobs that wait for their checks.
-/
namespace Sys2Proof.Machine

/-! ## Configuration in force (R248) -/

/-- The value of a CMP or LMP register whose writes take effect at a lock gate: the one in force. -/
def cmpIn (s : State) (a : Nat) : Word := tabGet (regReset s.fuse.variant) s.cmp.inForce a

/-- A lock gate takes the values of the registers whose writes wait for one. -/
def takeForce (s : State) : State :=
  { s with cmp := { s.cmp with inForce := s.regs.filter (fun e =>
      (decide (0x1400000 ≤ e.1) && decide (e.1 < 0x1410000)) || e.1 == LMP_CTL || e.1 == LMP_HEADROOM_RG
        || e.1 == LMP_HEADROOM_B || e.1 == LMP_LEVEL) } }

def zeroTo (d n : Nat) : Nat := if n = 0 then d else n

/-- Canvas width and height in force; 0 means 65,536. -/
def canvasW (s : State) : Nat := zeroTo 65536 (bitsOf 15 0 (cmpIn s CMP_CANVAS_SIZE))
def canvasH (s : State) : Nat := zeroTo 65536 (bitsOf 31 16 (cmpIn s CMP_CANVAS_SIZE))

def inHold (s : State) : Bool := s.flag CMP_STATUS CMP_STATUS.IN_HOLD
def frameNo (s : State) : Nat := s.rd CMP_STATUS CMP_STATUS.FRAME

/-! ## The words of a layer (R214) -/

def actWords (s : State) (i : Nat) : List Word := (List.range 13).map (fun k => s.raw (CMP_L_ACT i k))
def shdWords (s : State) (i : Nat) : List Word := (List.range 13).map (fun k => s.raw (CMP_L_SHD i k))
def putAct (i : Nat) (ws : List Word) (s : State) : State :=
  foldS (fun k t => t.setReg (CMP_L_ACT i k) (wordAt ws k)) (List.range 13) s
def putShd (i : Nat) (ws : List Word) (s : State) : State :=
  foldS (fun k t => t.setReg (CMP_L_SHD i k) (wordAt ws k)) (List.range 13) s

/-- Job word `k` of a layer's words. -/
def lw (ws : List Word) (k : Nat) : Word := wordAt ws (k - 3)

def lEn (ws : List Word) : Bool := bitAt 0 (lw ws 3)
def lKind (ws : List Word) : Nat := bitsOf 2 1 (lw ws 3)
def lChase (ws : List Word) : Bool := bitAt 3 (lw ws 3)
def lZ (ws : List Word) : Nat := bitsOf 9 4 (lw ws 3)
def lAlpha (ws : List Word) : Nat := bitsOf 19 10 (lw ws 3)
def lPair (ws : List Word) : Bool := bitAt 20 (lw ws 3)
def lTouch (ws : List Word) : Bool := bitAt 21 (lw ws 3)
def lBase (ws : List Word) : Nat := bitsOf 8 0 (lw ws 4)
def lRun (ws : List Word) : Nat := 2 ^ bitsOf 10 9 (lw ws 4)
def lHandle (ws : List Word) : Word := lw ws 4
def lBufW (ws : List Word) : Nat := bitsOf 15 0 (lw ws 5)
def lBufH (ws : List Word) : Nat := bitsOf 31 16 (lw ws 5)
def lStride (ws : List Word) : Nat := bitsOf 15 0 (lw ws 6)
def lChroma (ws : List Word) : Nat := bitsOf 17 16 (lw ws 6)
def lDepth (ws : List Word) : Nat := bitsOf 19 18 (lw ws 6)
def lGfx (ws : List Word) : Nat := bitsOf 21 20 (lw ws 6)
def lPremult (ws : List Word) : Bool := bitAt 22 (lw ws 6)
def lSrcX (ws : List Word) : Nat := bitsOf 15 0 (lw ws 7)
def lSrcY (ws : List Word) : Nat := bitsOf 31 16 (lw ws 7)
def lSrcW (ws : List Word) : Nat := bitsOf 15 0 (lw ws 8)
def lSrcH (ws : List Word) : Nat := bitsOf 31 16 (lw ws 8)
def lDstX (ws : List Word) : Nat := bitsOf 15 0 (lw ws 9)
def lDstY (ws : List Word) : Nat := bitsOf 31 16 (lw ws 9)
def lDstW (ws : List Word) : Nat := zeroTo 65536 (bitsOf 15 0 (lw ws 10))
def lDstH (ws : List Word) : Nat := zeroTo 65536 (bitsOf 31 16 (lw ws 10))
def lPalette (ws : List Word) : Word := lw ws 10
def lMatrix (ws : List Word) : Nat := bitsOf 1 0 (lw ws 11)
def lFull (ws : List Word) : Bool := bitAt 2 (lw ws 11)
def lXset (ws : List Word) : Nat := bitsOf 6 5 (lw ws 11)
def lConvert (ws : List Word) : Bool := bitAt 7 (lw ws 11)
def lFill (ws : List Word) : Nat × Nat × Nat × Nat :=
  (bitsOf 11 0 (lw ws 12), bitsOf 23 12 (lw ws 12), bitsOf 11 0 (lw ws 13), bitsOf 21 12 (lw ws 13))
def lExpect (ws : List Word) : Word := lw ws 14
def lRegion (ws : List Word) : Nat := bitsOf 5 0 (lw ws 15)
def lGuardSet (ws : List Word) : Bool := bitAt 6 (lw ws 15)
def lMargin (ws : List Word) : Nat := bitsOf 31 16 (lw ws 15)

/-- Layer `i` is a video layer. -/
def isVideo (i : Nat) : Bool := decide (i < 32)

/-- The power domain of layer `i` (R486). -/
def layerDomain (i : Nat) : Nat := if i < 32 then 27 + i / 8 else 31

/-! ## Geometry (R214, R219, R220, R224) -/

/-- Width and height of a BUFFER layer's source rectangle; 0 reaches to the source's edge. -/
def bufSrcW (ws : List Word) : Nat := if lSrcW ws = 0 then lBufW ws - lSrcX ws else lSrcW ws
def bufSrcH (ws : List Word) : Nat := if lSrcH ws = 0 then lBufH ws - lSrcY ws else lSrcH ws

/-- Destination size of layer `i` (R224). -/
def dstW (i : Nat) (ws : List Word) : Nat :=
  if isVideo i then lDstW ws else if lKind ws = 2 then lSrcW ws else bufSrcW ws
def dstH (i : Nat) (ws : List Word) : Nat :=
  if isVideo i then lDstH ws else if lKind ws = 2 then lSrcH ws else bufSrcH ws

/-- The scaling check of R219 and R220. -/
def scaleOk (paired : Bool) (sw sh dw dh : Nat) : Bool :=
  decide (0 < sw) && decide (0 < sh)
    && decide (max 6 ((6 * sh + dh - 1) / dh) ≤ (if paired then 196608 else 98304) / sw)
    && decide (sw ≤ 16 * dw) && decide (sh ≤ 16 * dh) && decide (dw ≤ 64 * sw) && decide (dh ≤ 64 * sh)

/-- Length of the overlap of `[a, a + n)` with `[0, lim)`. -/
def clip (a n lim : Nat) : Nat := min (a + n) lim - min a lim

/-- Layer 63 is the guard layer (R240). -/
def guardLayer (s : State) : Bool := bitAt 0 (cmpIn s CMP_GUARD_CTL)

/-- Coverage of layer `i` with words `ws` (R224). -/
def coverage (s : State) (i : Nat) (ws : List Word) : Nat :=
  if !lEn ws || (i == 63 && guardLayer s) then 0
  else clip (lDstX ws) (dstW i ws) (canvasW s) * clip (lDstY ws) (dstH i ws) (canvasH s)

/-- The coverage of all active layers. -/
def totalCoverage (s : State) : Nat := ((List.range 64).map (fun i => coverage s i (actWords s i))).sum

/-! ## LAYER_UPDATE (R214, R215) -/

/-- Cause 1: a reserved code in a used field, or a reserved bit. -/
def updReserved (i : Nat) (w2 : Word) (ws : List Word) : Bool :=
  let k := lKind ws
  decide (bitsOf 15 13 w2 ≠ 0) || decide (bitsOf 31 19 w2 ≠ 0) || decide (bitsOf 31 22 (lw ws 3) ≠ 0)
    || decide (bitsOf 31 24 (lw ws 12) ≠ 0) || decide (bitsOf 31 22 (lw ws 13) ≠ 0) || decide (bitsOf 15 7 (lw ws 15) ≠ 0)
    || k == 3
    || (k == 0 && (decide (bitsOf 31 11 (lw ws 4) ≠ 0) || bitsOf 10 9 (lw ws 4) == 3))
    || (k == 1 && decide (bitsOf 31 23 (lw ws 6) ≠ 0))
    || (k == 1 && isVideo i && (lChroma ws == 0 || lDepth ws == 3))
    || (isVideo i && decide (k < 2) && (decide (bitsOf 31 8 (lw ws 11) ≠ 0) || lMatrix ws == 3
        || bitsOf 4 3 (lw ws 11) == 3))

/-- Bytes a line of a BUFFER source needs (R104, R213). -/
def bufLineNeed (i : Nat) (ws : List Word) : Nat :=
  if isVideo i then match lDepth ws with | 0 => lBufW ws | 1 => lineBytes (lBufW ws) true | _ => 2 * lBufW ws
  else if lGfx ws < 2 then 4 * lBufW ws else lBufW ws

/-- The lowest cause of R215 that applies to the merged shadow; 0 where none does. -/
def updCause (s : State) (i : Nat) (w2 : Word) (ws : List Word) : Nat :=
  let k := lKind ws
  let odd := i % 2 == 1
  let others := fun (j : Nat) (p : List Word → Bool) => p (shdWords s j) || p (actWords s j)
  if updReserved i w2 ws then 1
  else if !isVideo i && (k == 0 || lChase ws || lPair ws) then 2
  else if isVideo i && ((lPair ws && (odd || others (i + 1) lEn)) || (odd && lEn ws && others (i - 1) lPair)) then 3
  else if k == 1 && (decide (lBufW ws < lSrcX ws + bufSrcW ws) || decide (lBufH ws < lSrcY ws + bufSrcH ws)
      || decide (lStride ws < bufLineNeed i ws)) then 4
  else if isVideo i && k == 1 && !scaleOk (lPair ws) (bufSrcW ws) (bufSrcH ws) (lDstW ws) (lDstH ws) then 5
  else if decide (65536 < lDstX ws + dstW i ws) || decide (65536 < lDstY ws + dstH i ws) then 6
  else if (bitAt 18 w2 && !bitAt 16 w2) || (bitAt 16 w2 && bitAt 17 w2) then 7
  else 0

/-- CMP_UPD_ERR records a refused LAYER_UPDATE (R215). -/
def updErr (i cause : Nat) (s : State) : State :=
  ((s.wr CMP_UPD_ERR CMP_UPD_ERR.LAYER i).wr CMP_UPD_ERR CMP_UPD_ERR.CAUSE cause).inc CMP_UPD_ERR CMP_UPD_ERR.COUNT

def LayerSt.idle : LayerSt := ⟨none, none, 0, false, false, [], false⟩
def layerOf (s : State) (i : Nat) : LayerSt := tabGet (fun _ => LayerSt.idle) s.cmp.layers i
def setLayer (i : Nat) (x : LayerSt) (s : State) : State :=
  { s with cmp := { s.cmp with layers := tabSet (fun _ => LayerSt.idle) s.cmp.layers i x } }

/-- The shadow of layer `i` with the words a job writes merged in. -/
def mergeShadow (s : State) (j : Job) (i : Nat) : List Word :=
  (List.range 13).map (fun k => if bitAt k (j.w 2) then j.w (3 + k) else s.raw (CMP_L_SHD i k))

/-- LAYER_UPDATE: the lock-gate arbiter grants the shadow write. The merged shadow is checked; a job without GUARD_WAIT
completes with the write (R215, R241). -/
def execLayerUpdate (slot : Nat) (s : State) : Out :=
  done s (State.when (s.startable slot opLayerUpdate) (fun t =>
    let j := t.job slot
    let i := j.context % 64
    let ws := mergeShadow t j i
    let cause := updCause t i (j.w 2) ws
    if cause ≠ 0 then fail slot stInternal (updErr i cause t)
    else
      let t1 := putShd i ws t
      let t2 := if bitAt 16 (j.w 2) then t1.wr (CMP_L_STATE i) CMP_L_STATE.ARMED 1
        else if bitAt 17 (j.w 2) then t1.wr (CMP_L_STATE i) CMP_L_STATE.ARMED 0 else t1
      let t3 := if bitAt 12 (j.w 2) then setLayer i { layerOf t2 i with setting := lGuardSet ws } t2 else t2
      if bitAt 18 (j.w 2) then
        let gen := BitVec.ofNat 32 ((t3.rd (CMP_L_STATE i) CMP_L_STATE.COMMIT_GEN + 1) % 65536)
        let t4 := t3.setJob slot { t3.job slot with begun := true, results := [gen] }
        { t4 with cmp := { t4.cmp with waits := t4.cmp.waits ++ [⟨t3.jobRef slot, i, false, [], false, 0⟩] } }
      else
        present slot stOk [BitVec.ofNat 32 ((t3.rd (CMP_L_STATE i) CMP_L_STATE.COMMIT_GEN + 1) % 65536)] t3) s)

/-! ## Guarded regions (R238 to R241) -/

/-- Region `n`'s rectangle in force, clipped to the canvas: x, y, width, height. -/
def regionRect (s : State) (n : Nat) : Nat × Nat × Nat × Nat :=
  let a := cmpIn s (CMP_GR_RECT0 n)
  let b := cmpIn s (CMP_GR_RECT1 n)
  let x := bitsOf 15 0 a
  let y := bitsOf 31 16 a
  (x, y, clip x (bitsOf 15 0 b) (canvasW s), clip y (bitsOf 31 16 b) (canvasH s))

/-- Region `n` is enabled in force and its clipped area is not empty. -/
def regionOn (s : State) (n : Nat) : Bool :=
  let (_, _, w, h) := regionRect s n
  bitAt 0 (cmpIn s (CMP_GR_CFG n)) && decide (0 < w) && decide (0 < h)

def regionForced (s : State) (n : Nat) : Bool := s.flag (CMP_GR_CFG n) CMP_GR_CFG.FORCED

/-- Two rectangles share a position. -/
def rectsMeet (a b : Nat × Nat × Nat × Nat) : Bool :=
  decide (a.1 < b.1 + b.2.2.1) && decide (b.1 < a.1 + a.2.2.1)
    && decide (a.2.1 < b.2.1 + b.2.2.2) && decide (b.2.1 < a.2.1 + a.2.2.2)
    && decide (0 < a.2.2.1) && decide (0 < a.2.2.2) && decide (0 < b.2.2.1) && decide (0 < b.2.2.2)

/-- The regions concerned by a copy of layer `i`: those that overlap its destination rectangle, and one named with
GUARD_SET (R241). -/
def concerned (s : State) (i : Nat) (ws : List Word) (setting : Bool) : List Nat :=
  (List.range 64).filter (fun n => regionOn s n
    && (rectsMeet (regionRect s n) (lDstX ws, lDstY ws, dstW i ws, dstH i ws) || (setting && n == lRegion ws)))

/-- A GUARD_WAIT job whose waits have ended completes (R241). -/
def endWait (g : GuardWait) (s : State) : State :=
  presentRef g.ref (if g.miss then stGuardMismatch else stOk) (s.job g.ref.slot).results s

/-- A frame was composed with the copy of a job, or with a later one. -/
def GuardWait.sees (g : GuardWait) (frame : Nat) : Bool := g.copied && decide ((frame + 2 ^ 24 - g.since) % 2 ^ 24 < 2 ^ 23)

/-- Jobs concerned with region `n` take its check in frame `frame`. -/
def waitsTake (n frame : Nat) (miss : Bool) (s : State) : State :=
  let upd := s.cmp.waits.map (fun g =>
    if g.regions.contains n && g.sees frame then { g with regions := g.regions.erase n, miss := g.miss || miss } else g)
  let ended := (s.cmp.waits.zip upd).filter (fun p => p.1.regions.contains n && p.1.sees frame && p.2.regions.isEmpty)
  let s1 := { s with cmp := { s.cmp with waits := upd.filter (fun g => !(ended.any (fun p => p.2 == g))) } }
  foldS (fun p t => endWait p.2 t) ended s1

/-- A frame composed with the copies made has ended: jobs concerned with no region complete (R241). -/
def waitsFrameDone (s : State) : State :=
  let ended := s.cmp.waits.filter (fun g => g.copied && g.regions.isEmpty)
  let s1 := { s with cmp := { s.cmp with waits := s.cmp.waits.filter (fun g => !(g.copied && g.regions.isEmpty)) } }
  foldS endWait ended s1

/-- Regions disabled in force are no longer waited for (R241). -/
def waitsDisabled (s : State) : State :=
  foldS (fun n t => if bitAt 0 (cmpIn t (CMP_GR_CFG n)) then t else waitsTake n (frameNo t) false t) (List.range 64) s

/-- GUARD_CHECK: a region's CRC over a composed frame is complete, and is compared with the expectation that was in
force for the frame (R238, R239, R241). -/
def execGuardCheck (region : Nat) (s : State) : Out :=
  done s (State.when (s.domOn 26) (fun t =>
    match t.cmp.due.find? (fun d => d.region == region) with
    | none => t
    | some d =>
      let n := d.region
      let t0 := { t with cmp := { t.cmp with due := t.cmp.due.erase d } }
      let t1 := t0.setReg (CMP_GR_CRC n) (BitVec.ofNat 32 d.crc)
      let miss := BitVec.ofNat 32 d.crc != d.expect
      let t2 := if miss then
          let u := ((t1.inc (CMP_GR_CFG n) CMP_GR_CFG.MISS_COUNT).incSat (CMP_GR_CFG n) CMP_GR_CFG.MISS_RUN).setBit CMP_IRQ_STATUS 1
          if decide (2 ≤ u.rd (CMP_GR_CFG n) CMP_GR_CFG.MISS_RUN) && bitAt CMP_GR_CFG.FORCE_EN.lo (cmpIn u (CMP_GR_CFG n))
              && !u.cmp.toForce.contains n
          then { u with cmp := { u.cmp with toForce := u.cmp.toForce ++ [n] } } else u
        else t1.wr (CMP_GR_CFG n) CMP_GR_CFG.MISS_RUN 0
      waitsTake n d.frame miss t2) s)

/-- CMP_GR_FORCED: writing 1 to a region's bit releases it at the next gate (R239). -/
def execCmpGrForced (half : Nat) (data : Word) (s : State) : Out :=
  done s (State.when (decide (half < 2) && s.domOn 26) (fun t =>
    let ns := ((List.range 32).filter (fun b => bitAt b data)).map (fun b => 32 * half + b)
    let ns := ns.filter (fun n => regionForced t n && !t.cmp.toFree.contains n)
    { t with cmp := { t.cmp with toFree := t.cmp.toFree ++ ns } }) s)

/-- CMP_GRN_EXPECT: an expectation written applies at the next gate that is not a HOLD gate (R238). -/
def execCmpGrnExpect (region : Nat) (data : Word) (s : State) : Out :=
  done s (State.when (decide (region < 64) && s.domOn 26) (fun t =>
    { t with cmp := { t.cmp with expect := tabSet (fun _ => none) t.cmp.expect region (some data) } }) s)

/-- Expectations written since the last gate outside HOLD come into force (R238). -/
def takeExpect (s : State) : State :=
  let s1 := foldS (fun (e : Nat × Option Word) t => match e.2 with
    | none => t
    | some w => t.setReg (CMP_GR_EXPECT e.1) w) s.cmp.expect s
  { s1 with cmp := { s1.cmp with expect := [] } }

/-- Regions due to be forced are, and those software released are released (R239). -/
def takeForced (s : State) : State :=
  let on := fun (n : Nat) (t : State) =>
    let u := ((t.wr (CMP_GR_CFG n) CMP_GR_CFG.FORCED 1).setBit (CMP_GR_FORCED (n / 32)) (n % 32)).setBit CMP_IRQ_STATUS 0
    let v := u.setFault CMP_FAULT_STATUS 3
    { v with cmp := { v.cmp with due := v.cmp.due.filter (fun d => d.region != n) } }
  let off := fun (n : Nat) (t : State) =>
    ((t.wr (CMP_GR_CFG n) CMP_GR_CFG.FORCED 0).wr (CMP_GR_CFG n) CMP_GR_CFG.MISS_RUN 0).clrBit (CMP_GR_FORCED (n / 32)) (n % 32)
  let s1 := foldS off s.cmp.toFree s
  let s2 := foldS on (s1.cmp.toForce.filter (fun n => !regionForced s1 n)) s1
  { s2 with cmp := { s2.cmp with toForce := [], toFree := [] } }

/-! ## Copies (R225, R227, R542) -/

/-- Set a bit of a layer's CMP_Li_IRQ_STATUS. -/
def layerIrq (i b : Nat) (s : State) : State := s.setBit (CMP_L_IRQ_STATUS i) b

/-- A layer refused its copy or was disabled for overdraw (R225). -/
def overdraw (i : Nat) (s : State) : State := (layerIrq i 4 s).setBit CMP_IRQ_STATUS 3

/-- The pictures a layer holds leave it: they are released at the next gate's selection, and composed no longer (R542). -/
def letGo (i : Nat) (s : State) : State :=
  let x := layerOf s i
  let hs := (x.cur.map (fun p => p.handle)).toList ++ (x.fall.map (fun p => p.handle)).toList
  let s1 := setLayer i { x with cur := none, fall := none, hasPic := false, reset := false, seq := 0,
                                leaving := x.leaving ++ hs } s
  (s1.setReg (CMP_L_PICTURE i) 0).setReg (CMP_L_SEQ i) 0

/-- The source a layer's words give it: its kind where enabled, else none. -/
def sourceOf (ws : List Word) : Nat := if lEn ws then lKind ws else 2

/-- A layer's shadow is copied to active (R225, R227, R238, R241, R542). -/
def copyLayer (i : Nat) (s : State) : State :=
  let old := actWords s i
  let new := shdWords s i
  let setting := (layerOf s i).setting
  let s1 := putAct i new s
  let s2 := ((s1.wr (CMP_L_STATE i) CMP_L_STATE.ARMED 0).inc (CMP_L_STATE i) CMP_L_STATE.COMMIT_GEN)
  let s3 := layerIrq i 0 s2
  -- the pictures of a source that is left; a BUFFER copy retains its handle anew
  let leaves := sourceOf old != sourceOf new || sourceOf new == 1
  let s4 := if leaves then letGo i s3 else s3
  let s5 := setLayer i { layerOf s4 i with setting := false } s4
  let s6 := if setting then s5.setReg (CMP_GR_EXPECT (lRegion new)) (lExpect new) else s5
  let regions := concerned s6 i new setting
  let upd := s6.cmp.waits.map (fun g => if g.layer = i ∧ g.copied = false then { g with copied := true, regions := regions, since := frameNo s6 } else g)
  { s6 with cmp := { s6.cmp with waits := upd } }

/-- The copies of a gate, in ascending layer number, each where the coverage then fits the allowance (R225). -/
def copyLayers (allow : Nat) (s : State) : State :=
  foldS (fun i t =>
    if !t.flag (CMP_L_STATE i) CMP_L_STATE.ARMED then t
    else if allow < totalCoverage t - coverage t i (actWords t i) + coverage t i (shdWords t i) then overdraw i t
    else copyLayer i t) (List.range 64) s

/-- After a change of frame period, layers are disabled from 63 downward until the coverage fits (R225). -/
def disableToFit (allow : Nat) (s : State) : State :=
  foldS (fun i t =>
    if totalCoverage t ≤ allow || coverage t i (actWords t i) = 0 then t
    else letGo i (overdraw i (t.wr (CMP_L_ACT i 0) ⟨0, 1⟩ 0))) (List.range 64).reverse s

/-! ## Picture selection (R229 to R232) -/

/-- The watermark of an entry (R230): complete rows in lines, at most the picture's height. -/
def entryMark (s : State) (e : Nat) : Nat :=
  min (pptRowsDone s e * 2 ^ bitsOf 8 6 (ppt s e 2)) (bitsOf 31 16 (ppt s e 4))

/-- Width and height of a picture's display area, from its entry's words (R96, R213). -/
def dispW (w : List Word) : Nat := bitsOf 15 0 (wordAt w 4) - bitsOf 7 0 (wordAt w 6) - bitsOf 15 8 (wordAt w 6)
def dispH (w : List Word) : Nat := bitsOf 31 16 (wordAt w 4) - bitsOf 23 16 (wordAt w 6) - bitsOf 31 24 (wordAt w 6)

/-- Width and height of a PPT layer's source rectangle on a picture. -/
def pptSrcW (ws pw : List Word) : Nat := if lSrcW ws = 0 then dispW pw - lSrcX ws else lSrcW ws
def pptSrcH (ws pw : List Word) : Nat := if lSrcH ws = 0 then dispH pw - lSrcY ws else lSrcH ws

/-- The words of entry `e`. -/
def pptWords (s : State) (e : Nat) : List Word := (List.range 8).map (ppt s e)

/-- A picture passes R219 for a layer; its source rectangle lies inside the display area. -/
def pictureOk (ws pw : List Word) : Bool :=
  decide (lSrcX ws + pptSrcW ws pw ≤ dispW pw) && decide (lSrcY ws + pptSrcH ws pw ≤ dispH pw)
    && scaleOk (lPair ws) (pptSrcW ws pw) (pptSrcH ws pw) (lDstW ws) (lDstH ws)

/-- The last source line canvas line `y` of a layer reads, in picture lines (R231). -/
def needLine (ws pw : List Word) (y : Nat) : Nat :=
  let top := bitsOf 23 16 (wordAt pw 6) + lSrcY ws
  min (top + pptSrcH ws pw - 1) (top + ((y - lDstY ws) * pptSrcH ws pw + pptSrcH ws pw - 1) / lDstH ws + 3)

/-- The entry of a layer's run that holds its current picture, if one does. -/
def entryOfCur (s : State) (ws : List Word) (x : LayerSt) : Option Nat :=
  match x.cur with
  | none => none
  | some p => ((List.range (lRun ws)).map (fun k => lBase ws + k)).find? (fun e =>
      pptState s e != peEmpty && pptSeq s e == x.seq && ppt s e 0 == p.handle)

/-- The current picture with the watermark its entry now gives. -/
def refreshCur (s : State) (ws : List Word) (x : LayerSt) : Option LayerPic :=
  match x.cur, entryOfCur s ws x with
  | some p, some e => some { p with words := pptWords s e, wm := entryMark s e }
  | c, _ => c

/-- The current picture counts as complete (R230). -/
def currentComplete (s : State) (ws : List Word) (x : LayerSt) : Bool :=
  match x.cur, entryOfCur s ws x with
  | none, _ => false
  | some _, some e => pptState s e == peComplete
  | some p, none => decide (bitsOf 31 16 (wordAt p.words 4) ≤ p.wm)

/-- Append to the hold queue (R229). -/
def postHold (r : HoldReq) (s : State) : State := { s with cmp := { s.cmp with hold := s.cmp.hold ++ [r] } }
def postRelease (i : Nat) (h : Word) (s : State) : State := if h = 0 then s else postHold ⟨.release, i, h, hPool h⟩ s
def postRetain (i : Nat) (h : Word) (s : State) : State := postHold ⟨.retain, i, h, hPool h⟩ s

/-- Set a layer's state code (R226). -/
def setLState (i code : Nat) (s : State) : State := s.wr (CMP_L_STATE i) CMP_L_STATE.STATE code

/-- The live entries of a run that are newer than a layer's picture and may be shown: R230. A candidate that fails the
scaling check sets SOURCE_ERR. -/
def bestEntry (s : State) (i : Nat) (ws : List Word) (x : LayerSt) : Option Nat × State :=
  ((List.range (lRun ws)).map (fun k => lBase ws + k)).foldl (fun (acc : Option Nat × State) e =>
    let t := acc.2
    let st := pptState t e
    let pw := pptWords t e
    let live := st == peDecoding || st == peComplete
    let newer := !x.hasPic || x.reset || decide (0 < orderDiff (pptSeq t e) x.seq)
    let ok := st == peComplete || (lChase ws && decide (needLine ws pw (lDstY ws) + lMargin ws < entryMark t e))
    if !(live && newer && ok) then acc
    else if !pictureOk ws pw then (acc.1, layerIrq i 3 t)
    else match acc.1 with
      | none => (some e, t)
      | some b => if 0 < orderDiff (pptSeq t e) (pptSeq t b) then (some e, t) else acc) (none, s)

/-- Selection of a PPT layer (R230). -/
def selectPpt (i : Nat) (s : State) : State :=
  let ws := actWords s i
  let x0 := layerOf s i
  let empty := (List.range (lRun ws)).all (fun k => pptState s (lBase ws + k) == peEmpty)
  let x := { x0 with reset := x0.reset || empty, cur := refreshCur s ws x0 }
  let (best, s1) := bestEntry s i ws x
  let (y, s2) := match best with
    | some e =>
      let h := ppt s1 e 0
      let t := postRetain i h s1
      let t1 := match x.fall with | none => t | some f => postRelease i f.handle t
      ({ x with fall := x.cur, cur := some ⟨h, pptWords s1 e, entryMark s1 e⟩, seq := pptSeq s1 e, hasPic := true,
                reset := false }, t1)
    | none =>
      let t := if x.hasPic then layerIrq i 1 (s1.inc (CMP_L_REPEAT i) CMP_L_REPEAT.REPEAT_COUNT) else s1
      if currentComplete t ws x then
        ({ x with fall := none }, match x.fall with | none => t | some f => postRelease i f.handle t)
      else (x, t)
  let s3 := setLayer i y s2
  let code := match y.cur with
    | none => 1
    | some _ => if currentComplete s3 ws y then 2 else 3
  let s4 := setLState i code s3
  (s4.setReg (CMP_L_PICTURE i) (match y.cur with | none => 0 | some p => p.handle)).setReg (CMP_L_SEQ i)
    (BitVec.ofNat 32 y.seq)

/-- A BUFFER layer whose copy has just taken effect retains its handle; its state follows (R226, R232). -/
def selectBuffer (i : Nat) (copied : Bool) (s : State) : State :=
  let ws := actWords s i
  let x := layerOf s i
  match x.cur with
  | some _ => setLState i 2 s
  | none =>
    if copied then
      let s1 := postRetain i (lHandle ws) (setLayer i { x with cur := some ⟨lHandle ws, [], 0⟩ } s)
      (setLState i 2 s1).setReg (CMP_L_PICTURE i) (lHandle ws)
    else setLState i 1 s

/-- Selection of layer `i` in its cycle of the gate (R227, R230, R232, R542): handles that an earlier gate left are
released, then the layer chooses its picture. -/
def selectLayer (left : List Word) (copied : Bool) (i : Nat) (s : State) : State :=
  let x := layerOf s i
  let s1 := setLayer i { x with leaving := x.leaving.drop left.length } s
  let ws := actWords s1 i
  let s2 := if !lEn ws then setLState i 0 s1
    else match lKind ws with
      | 0 => selectPpt i s1
      | 1 => selectBuffer i copied s1
      | _ => setLState i 1 s1
  foldS (fun h t => postRelease i h t) left s2

/-! ## The hold queue (R20, R157, R229, R232) -/

/-- A layer's RETAIN was refused: it holds nothing, composes its fill, and SOURCE_ERR sets (R232). -/
def retainRefused (i : Nat) (h : Word) (s : State) : State :=
  let x := layerOf s i
  let drop := fun (p : Option LayerPic) => match p with | some q => if q.handle = h then none else some q | none => none
  let s1 := setLayer i { x with cur := drop x.cur } s
  layerIrq i 3 ((setLState i 1 s1).setReg (CMP_L_PICTURE i) 0)

/-! ## Tile-map entries (R250, R251) -/

def tX (w : List Word) : Nat := bitsOf 15 0 (wordAt w 0)
def tY (w : List Word) : Nat := bitsOf 31 16 (wordAt w 0)
def tWM1 (w : List Word) : Nat := bitsOf 9 0 (wordAt w 1)
def tHM1 (w : List Word) : Nat := bitsOf 19 10 (wordAt w 1)
def tRot (w : List Word) : Nat := bitsOf 21 20 (wordAt w 1)
def tMirror (w : List Word) : Bool := bitAt 22 (wordAt w 1)
def tEn (w : List Word) : Bool := bitAt 23 (wordAt w 1)
def tDrive12 (w : List Word) : Bool := bitAt 24 (wordAt w 1)
def tClass (w : List Word) : Nat := bitsOf 31 26 (wordAt w 1)
def tLane (w : List Word) : Nat := bitsOf 5 0 (wordAt w 2)
def tPos (w : List Word) : Nat := bitsOf 15 6 (wordAt w 2)
def tMatrix (w : List Word) : Nat := bitsOf 31 16 (wordAt w 2)
def tOfs (w : List Word) : Nat := bitsOf 27 0 (wordAt w 3)
def tSerial (w : List Word) : Nat := (wordAt w 4).toNat + (wordAt w 5).toNat * 2 ^ 32
/-- Tile width and height in lamps, and its lamp count. -/
def tW (w : List Word) : Nat := tWM1 w + 1
def tH (w : List Word) : Nat := tHM1 w + 1
def tLamps (w : List Word) : Nat := tW w * tH w
/-- Footprint width and height (R251). -/
def tFw (w : List Word) : Nat := if tRot w % 2 = 0 then tW w else tH w
def tFh (w : List Word) : Nat := if tRot w % 2 = 0 then tH w else tW w
/-- LANE and POS as one number. -/
def tPlace (w : List Word) : Nat := tLane w * 1024 + tPos w

/-! ## Composed positions (R223, R228) -/

/-- The composed positions of canvas line `y`: left edge and width of each tile footprint, guarded region and write-back
window that covers it. -/
def composedSpans (s : State) (y : Nat) : List (Nat × Nat) :=
  (s.lmp.active.filter (fun e => tEn e.2 && decide (tY e.2 ≤ y) && decide (y < tY e.2 + tFh e.2))).map (fun e => (tX e.2, tFw e.2))
    ++ ((List.range 64).filter (fun n => let (_, ry, _, h) := regionRect s n
        regionOn s n && decide (ry ≤ y) && decide (y < ry + h))).map (fun n => let (rx, _, w, _) := regionRect s n; (rx, w))
    ++ (let xy := cmpIn s CMP_WB_WIN_XY
        let wh := cmpIn s CMP_WB_WIN_WH
        if bitAt 0 (cmpIn s CMP_WB_CFG) && decide (bitsOf 31 16 xy ≤ y) && decide (y < bitsOf 31 16 xy + bitsOf 31 16 wh)
        then [(bitsOf 15 0 xy, bitsOf 15 0 wh)] else [])

/-- Canvas line `y` holds composed positions. -/
def lineUsed (s : State) (y : Nat) : Bool := !(composedSpans s y).isEmpty

/-- Layer `i` has a composed position on canvas line `y`, and its pipe fetches for the line (R223, R231). -/
def layerFetches (s : State) (i y : Nat) : Bool :=
  let ws := actWords s i
  let x0 := lDstX ws
  let x1 := min (x0 + dstW i ws) (canvasW s)
  lEn ws && decide (lDstY ws ≤ y) && decide (y < lDstY ws + dstH i ws)
    && (composedSpans s y).any (fun p => decide (p.1 < x1) && decide (x0 < p.1 + p.2) && decide (x0 < x1) && decide (0 < p.2))

/-! ## HOLD (R233) -/

/-- HOLD: software sets or clears CMP_CTL.HOLD; setting it enters HOLD, and HOLD ends at a lock gate (R233, R234). -/
def execHold (data : Word) (s : State) : Out :=
  done s (State.when (s.domOn 26) (fun t =>
    let t1 := t.hostWrite CMP_CTL data
    if bitAt 0 data then enterHold t1 else t1) s)

end Sys2Proof.Machine
end

