-- ==== Sys2Proof/Machine/Compose.lean ====
section
/-!
DEFINITION. Composition (R213 to R223, R239, R240, R247) of one canvas line to the bit, the conversion sets, the CRCs of
guarded regions, and the write-back tap (R235 to R237).
-/
namespace Sys2Proof.Machine

/-- The compositor's multiply (R222). -/
def mul1023 (x y : Nat) : Nat := (x * y + 512 + (x * y + 512) / 1024) / 1024

/-- A sample in the working space: R', G', B' and alpha. -/
abbrev Pix : Type := Nat × Nat × Nat × Nat

/-- Each component and the alpha multiplied. -/
def scalePix (p : Pix) (g : Nat) : Pix := (mul1023 p.1 g, mul1023 p.2.1 g, mul1023 p.2.2.1 g, mul1023 p.2.2.2 g)

/-- A sample applied over a value (R223). -/
def blend (p d : Pix) : Pix :=
  let k := 1023 - p.2.2.2
  let f := fun (a b : Nat) => min 4095 (a + mul1023 b k)
  (f p.1 d.1, f p.2.1 d.2.1, f p.2.2.1 d.2.2.1, min 1023 (p.2.2.2 + mul1023 d.2.2.2 k))

/-! ## Conversion sets (R217) -/

/-- A 16-bit little-endian entry of an image. -/
def half (bs : List Byte) (a : Nat) : Nat := bytesNat ((bs.drop a).take 2)

/-- A signed 16-bit value. -/
def signed16 (x : Nat) : Int := (BitVec.ofNat 16 x).toInt

/-- A conversion set's image of 4,226 bytes. -/
def readXfer (bs : List Byte) : XferImg :=
  ⟨(List.range 9).map (fun i => signed16 (half bs (4 * i))), (List.range 1025).map (fun i => half bs (0x40 + 2 * i)),
    (List.range 1025).map (fun i => half bs (0x880 + 2 * i) % 4096)⟩

/-- A component through a conversion set's input table. -/
def xferIn (g : XferImg) (v : Nat) : Nat :=
  (g.tin.getD (v / 4) 0 * (4 - v % 4) + g.tin.getD (v / 4 + 1) 0 * (v % 4) + 2) / 4

/-- The output of row `k` of a conversion set. -/
def xferOut (g : XferImg) (k : Nat) (r gr b : Nat) : Nat :=
  let c := fun (j : Nat) => g.m.getD (3 * k + j) 0
  let m := (clampInt 0 65535 ((c 0 * r + c 1 * gr + c 2 * b + 8192) / 16384)).toNat
  (g.tout.getD (m / 64) 0 * (64 - m % 64) + g.tout.getD (m / 64 + 1) 0 * (m % 64) + 32) / 64

/-- Three components through a conversion set. -/
def xferApply (g : XferImg) (r gr b : Nat) : Nat × Nat × Nat :=
  let x := xferIn g r
  let y := xferIn g gr
  let z := xferIn g b
  (xferOut g 0 x y z, xferOut g 1 x y z, xferOut g 2 x y z)

def XferSt.none : XferSt := ⟨.none, .none, .none⟩
def xferOf (s : State) (k : Nat) : XferSt := tabGet (fun _ => XferSt.none) s.cmp.xfer k
def setXfer (k : Nat) (x : XferSt) (s : State) : State :=
  { s with cmp := { s.cmp with xfer := tabSet (fun _ => XferSt.none) s.cmp.xfer k x } }

/-- XFER_LOAD: LOAD begins to read the set's image into its idle copy (R217, R248). DESIGN CHOICE (assumption 128): LOAD acts
as it is written, at the address as it is written, since R217 has the next lock gate switch to the copy already loaded. -/
def execXferLoad (set : Nat) (data : Word) (s : State) : Out :=
  done s (State.when (decide (set < 4) && bitAt 0 data && s.domOn 26) (fun t =>
    let a := t.rd (CMP_XFER_SRC_LO set) CMP_XFER_SRC_LO.ADDR_LO * 64 + (t.reg (CMP_XFER_SRC_HI set)).toNat * 2 ^ 32
    setXfer set { xferOf t set with loading := some a, idle := none } (t.wr (CMP_XFER_CTL set) CMP_XFER_CTL.PENDING 0)) s)

/-- XFER_LOAD_DONE: the image is in the idle copy, or an uncorrectable read has failed the load (R217, R248). In HOLD no
DRAM read is issued (R233). -/
def execXferLoadDone (set : Nat) (s : State) : Out :=
  done s (match (xferOf s set).loading, inHold s with
    | none, _ => s
    | some _, true => s
    | some a, false =>
      let (bs, bad, t) := dramRdFor CMP_FAULT_STATUS cmpPort s a 4226
      if bad then setXfer set { xferOf t set with loading := none } (t.wr (CMP_XFER_CTL set) CMP_XFER_CTL.ERROR 1)
      else
        let u := (t.wr (CMP_XFER_CTL set) CMP_XFER_CTL.PENDING 1).wr (CMP_XFER_CTL set) CMP_XFER_CTL.ERROR 0
        setXfer set { xferOf u set with loading := none, idle := some (readXfer bs) } u)

/-- A lock gate switches to the idle copies that are loaded (R217). -/
def switchXfer (s : State) : State :=
  foldS (fun k t => match (xferOf t k).idle with
    | none => t
    | some g => setXfer k { xferOf t k with cur := some g, idle := none }
        ((t.wr (CMP_XFER_CTL k) CMP_XFER_CTL.PENDING 0).wr (CMP_XFER_CTL k) CMP_XFER_CTL.VALID 1)) (List.range 4) s

/-! ## Samples (R103, R104, R213, R216, R218) -/

/-- Sample `i` of a line, widened to 12 bits (R104, R213, R216). -/
def sample12 (depth : Nat) (line : List Byte) (i : Nat) : Nat :=
  match depth with
  | 0 => bytesNat ((line.drop i).take 1) * 16
  | 1 => bytesNat ((line.drop (i / 4 * 5)).take 5) / 2 ^ (10 * (i % 4)) % 1024 * 4
  | _ => bytesNat ((line.drop (2 * i)).take 2) % 4096

/-- The matrix step of R216 on 12-bit samples. -/
def matrix216 (mat : Nat) (full : Bool) (y cb cr : Nat) : Nat × Nat × Nat :=
  if mat = 2 then (cr, y, cb)
  else
    let (y0, kY, kRV, kGU, kGV, kBU) : Int × Int × Int × Int × Int × Int := match mat, full with
      | 0, false => (256, 4787, 7370, 877, 2191, 8684)
      | 0, true => (0, 4096, 6450, 767, 1917, 7601)
      | _, false => (256, 4787, 6901, 770, 2674, 8805)
      | _, true => (0, 4096, 6040, 674, 2340, 7706)
    let l := kY * ((y : Int) - y0)
    let u : Int := (cb : Int) - 2048
    let v : Int := (cr : Int) - 2048
    let c := fun (x : Int) => (clampInt 0 4095 ((x + 2048) / 4096)).toNat
    (c (l + kRV * v), c (l - kGU * u - kGV * v), c (l + kBU * u))

/-- Where a video layer's samples lie: engine address, line bytes, lines of a plane, chroma and depth codes, and the
source rectangle in picture samples. -/
structure VidGeom where
  base   : Nat
  stride : Nat
  lines  : Nat
  chroma : Nat
  depth  : Nat
  left   : Nat
  top    : Nat
  width  : Nat
  height : Nat
  deriving DecidableEq, Repr

/-- The geometry of a layer's picture: of the job for a BUFFER (no entry words), of the entry for a PPT picture (R213). -/
def vidGeom (s : State) (ws : List Word) (p : LayerPic) : VidGeom :=
  match p.words with
  | [] => ⟨bufAddr s p.handle, lStride ws, lBufH ws, lChroma ws, lDepth ws, lSrcX ws, lSrcY ws, bufSrcW ws, bufSrcH ws⟩
  | pw =>
    let w5 := wordAt pw 5
    ⟨bufAddr s p.handle, bitsOf 15 0 w5, bitsOf 31 16 (wordAt pw 4), bitsOf 17 16 w5, (bitAt 18 w5).toNat,
      bitsOf 7 0 (wordAt pw 6) + lSrcX ws, bitsOf 23 16 (wordAt pw 6) + lSrcY ws, pptSrcW ws pw, pptSrcH ws pw⟩

/-- Steps 4 to 6 of R216 on one sample. -/
def vidPix (s : State) (ws : List Word) (y cb cr : Nat) : Pix :=
  let (r, g, b) := matrix216 (lMatrix ws) (lFull ws) y cb cr
  let (r, g, b) := match lConvert ws, (xferOf s (lXset ws)).cur with
    | true, some x => xferApply x r g b
    | _, _ => (r, g, b)
  scalePix (r, g, b, 1023) (lAlpha ws)

/-- `n` samples the spec does not define to the bit: free (R221). -/
def freePix (ws : List Word) : Nat → State → List Pix × State
  | 0, s => ([], s)
  | n + 1, s =>
    let (a, s1) := s.fresh
    let (b, s2) := s1.fresh
    let p := vidPix s2 ws (bitsOf 11 0 a) (bitsOf 23 12 a) (bitsOf 11 0 b)
    let (ps, s3) := freePix ws n s2
    (p :: ps, s3)

/-- Unscaled samples of columns `c` onward; a monochrome picture's chroma is not stated, and free. -/
def vidPixels (ws : List Word) (g : VidGeom) (l0 l1 l2 : List Byte) : List Nat → State → List Pix × State
  | [], s => ([], s)
  | c :: cs, s =>
    let y := sample12 g.depth l0 c
    let (cb, cr, s1) := match g.chroma with
      | 0 => let (w, t) := s.fresh; (bitsOf 11 0 w, bitsOf 23 12 w, t)
      | 3 => (sample12 g.depth l1 c, sample12 g.depth l2 c, s)
      | _ => (sample12 g.depth l1 (c / 2 * 2), sample12 g.depth l1 (c / 2 * 2 + 1), s)
    let p := vidPix s1 ws y cb cr
    let (ps, s2) := vidPixels ws g l0 l1 l2 cs s1
    (p :: ps, s2)

/-- The samples of canvas line `y` of a video layer showing picture `p`, for `n` columns from its left edge; none where
a read fails. -/
def vidLine (s : State) (ws : List Word) (p : LayerPic) (y n : Nat) : Option (List Pix) × State :=
  let g := vidGeom s ws p
  let r := g.top + (y - lDstY ws)
  let plane := g.stride * g.lines
  let cr := if g.chroma = 1 then r / 2 else r
  if g.width ≠ lDstW ws ∨ g.height ≠ lDstH ws then
    -- scaled (R219, R231): the lines from two above the first source line to need() are fetched; the samples are free
    let a := g.top + (y - lDstY ws) * g.height / lDstH ws - 2
    let z := min (g.top + g.height - 1) (g.top + ((y - lDstY ws) * g.height + g.height - 1) / lDstH ws + 3)
    let rows := List.range' (max g.top a) (z + 1 - max g.top a)
    let at' := fun (k : Nat) => (if g.chroma = 1 then k / 2 else k) * g.stride
    let offs := rows.map (fun k => k * g.stride) ++ (if g.chroma = 0 then [] else rows.map (fun k => plane + at' k))
      ++ (if g.chroma = 3 then rows.map (fun k => 2 * plane + k * g.stride) else [])
    let (bad, s0) := offs.foldl (fun (acc : Bool × State) o =>
      let (_, b, t) := dramRdFor CMP_FAULT_STATUS cmpPort acc.2 (g.base + o) g.stride
      (acc.1 || b, t)) (false, s)
    let (ps, t) := freePix ws n s0
    (if bad then none else some ps, t)
  else
    let (l0, b0, s0) := dramRdFor CMP_FAULT_STATUS cmpPort s (g.base + r * g.stride) g.stride
    let (l1, b1, s1) := if g.chroma = 0 then ([], false, s0) else dramRdFor CMP_FAULT_STATUS cmpPort s0 (g.base + plane + cr * g.stride) g.stride
    let (l2, b2, s2) := if g.chroma = 3 then dramRdFor CMP_FAULT_STATUS cmpPort s1 (g.base + 2 * plane + r * g.stride) g.stride else ([], false, s1)
    if b0 || b1 || b2 then (none, s2)
    else
      let (ps, t) := vidPixels ws g l0 l1 l2 ((List.range n).map (fun k => g.left + k)) s2
      (some ps, t)

/-- An 8-bit component widened to 12 bits, and an 8-bit alpha to 10 (R218). -/
def wide8 (c : Nat) : Nat := c * 16 + c / 16
def alpha8 (a : Nat) : Nat := a * 4 + a / 64

/-- An ARGB 8:8:8:8 word as a sample (R213, R218). -/
def argb8 (w : Nat) : Pix :=
  (wide8 (w / 2 ^ 16 % 256), wide8 (w / 2 ^ 8 % 256), wide8 (w % 256), alpha8 (w / 2 ^ 24 % 256))

/-- An ARGB 2:10:10:10 word as a sample. -/
def argb10 (w : Nat) : Pix :=
  let c := fun (x : Nat) => x * 4 + x / 256
  (c (w / 2 ^ 20 % 1024), c (w / 2 ^ 10 % 1024), c (w % 1024), (w / 2 ^ 30 % 4) * 341)

/-- A stored colour premultiplied where it is not, then GLOBAL_ALPHA (R218). -/
def gfxPix (ws : List Word) (p : Pix) : Pix :=
  let a := p.2.2.2
  let q : Pix := if lPremult ws then p else (mul1023 p.1 a, mul1023 p.2.1 a, mul1023 p.2.2.1 a, a)
  scalePix q (lAlpha ws)

/-- The samples of canvas line `y` of a graphic BUFFER layer, for `n` columns; none where a read fails. -/
def gfxLine (s : State) (ws : List Word) (p : LayerPic) (y n : Nat) : Option (List Pix) × State :=
  let a := bufAddr s p.handle + (lSrcY ws + (y - lDstY ws)) * lStride ws
  let (line, bad, s1) := dramRdFor CMP_FAULT_STATUS cmpPort s a (lStride ws)
  let (pal, bad2, s2) := if lGfx ws = 3 then dramRdFor CMP_FAULT_STATUS cmpPort s1 (bufAddr s1 (lPalette ws)) 1024 else ([], false, s1)
  let word := fun (bs : List Byte) (k : Nat) => bytesNat ((bs.drop (4 * k)).take 4)
  let byte := fun (k : Nat) => bytesNat ((line.drop k).take 1)
  let px := fun (c : Nat) => match lGfx ws with
    | 0 => argb8 (word line c)
    | 1 => argb10 (word line c)
    | 2 => let (r, g, b, _) := lFill ws; (r, g, b, alpha8 (byte c))
    | _ => argb8 (word pal (byte c))
  if bad || bad2 then (none, s2)
  else (some ((List.range n).map (fun k => gfxPix ws (px (lSrcX ws + k)))), s2)

/-- The fill of a layer (R218, R226). -/
def fillPix (ws : List Word) : Pix := scalePix (lFill ws) (lAlpha ws)

/-- The picture a layer composes in its state, none where it composes its fill (R226, R231). -/
def shownPic (s : State) (i : Nat) : Option LayerPic :=
  match s.rd (CMP_L_STATE i) CMP_L_STATE.STATE with
  | 2 | 3 => (layerOf s i).cur
  | 4 => (layerOf s i).fall
  | _ => none

/-- The check of a line buffer as a line of `n` samples is read from it, a word a sample (R541; assumption 24); an
uncorrectable one makes the layer compose its fill (R248). -/
def lineCheck (n : Nat) (s : State) : Bool × State := s.sramFault CMP_FAULT_STATUS (max 1 n)

/-- The samples of layer `i` on canvas line `y`, where it has a composed position there: its left edge and its columns
within the canvas. A layer whose fetch or
line buffer fails composes its fill for the line (R248). -/
def layerLine (s : State) (i y : Nat) : (Nat × List Pix) × State :=
  let ws := actWords s i
  let n := clip (lDstX ws) (dstW i ws) (canvasW s)
  if !layerFetches s i y then ((0, []), s)
  else
    let fill := List.replicate n (fillPix ws)
    match shownPic s i with
    | none => ((lDstX ws, fill), s)
    | some p =>
      let (inj, s0) := lineCheck n s
      let (ps, s1) := if isVideo i then vidLine s0 ws p y n else gfxLine s0 ws p y n
      match ps with
      | none => ((lDstX ws, fill), s1.setFault CMP_FAULT_STATUS 1)
      | some xs => ((lDstX ws, if inj then fill else xs), s1)

/-- The samples of every layer on a line. -/
def layerLines (y : Nat) : List Nat → State → List (Nat × Nat × List Pix) × State
  | [], s => ([], s)
  | i :: is, s =>
    let ((x0, ps), s1) := layerLine s i y
    let (rest, s2) := layerLines y is s1
    ((i, x0, ps) :: rest, s2)

/-- Layers in composition order: ascending Z, then number (R223). -/
def zOrder (s : State) : List Nat :=
  (List.range 64).flatMap (fun z => (List.range 64).filter (fun i => lZ (actWords s i) == z))

/-! ## The touch echo (R247) -/

def echoOn (s : State) : Bool := bitAt 1 (cmpIn s CMP_TOUCH_CFG)
def echoLayer (s : State) : Nat := bitsOf 13 8 (cmpIn s CMP_TOUCH_CFG)

/-- The sprites' sample at a canvas position over a layer's own sample. -/
def echoAt (s : State) (x y : Nat) (own : Pix) : Pix :=
  let size := cmpIn s CMP_TOUCH_SPRITE_SIZE
  let w := bitsOf 6 0 size
  let h := bitsOf 14 8 size
  s.cmp.echo.foldl (fun (d : Pix) c =>
    let u : Int := (x : Int) - ((c.1 / 16 : Nat) : Int) + ((w / 2 : Nat) : Int)
    let v : Int := (y : Int) - ((c.2 / 16 : Nat) : Int) + ((h / 2 : Nat) : Int)
    if 0 ≤ u ∧ u < w ∧ 0 ≤ v ∧ v < h then blend (argb8 (wordAt s.cmp.sprite (v.toNat * w + u.toNat)).toNat) d else d) own

/-! ## A line of the canvas (R223, R239, R240) -/

/-- The background fill. -/
def background (s : State) : Pix :=
  let a := cmpIn s CMP_BG_RG
  let b := cmpIn s CMP_BG_BA
  (bitsOf 11 0 a, bitsOf 27 16 a, bitsOf 11 0 b, bitsOf 25 16 b)

/-- A position lies in a forced region. -/
def inForced (s : State) (x y : Nat) : Bool :=
  (List.range 64).any (fun n => regionForced s n &&
    (let (rx, ry, rw, rh) := regionRect s n
     decide (rx ≤ x) && decide (x < rx + rw) && decide (ry ≤ y) && decide (y < ry + rh)))

/-- The value of one canvas position from the layers' lines, in composition order. -/
def composeAt (s : State) (lines : List (Nat × Nat × List Pix)) (y x : Nat) : Nat × Nat × Nat :=
  let forced := inForced s x y
  let p := lines.foldl (fun (d : Pix) l =>
    let skip := if forced then l.1 != 63 else l.1 == 63 && guardLayer s
    if skip then d
    else
      let own := if l.2.1 ≤ x then l.2.2[x - l.2.1]? else none
      if echoOn s && l.1 == echoLayer s && decide (32 ≤ l.1) then blend (echoAt s x y (own.getD (0, 0, 0, 0))) d
      else match own with
        | some q => blend q d
        | none => d) (background s)
  (p.1, p.2.1, p.2.2.1)

/-- Compose line `y` of the canvas. A position no tile, region or window covers is never composed (R223): it holds zeros,
which nothing reads. -/
def composeLine (y : Nat) (s : State) : List (Nat × Nat × Nat) × State :=
  let (lines, s1) := layerLines y (zOrder s) s
  let spans := composedSpans s1 y
  ((List.range (canvasW s1)).map (fun x =>
    if spans.any (fun p => decide (p.1 ≤ x) && decide (x < p.1 + p.2)) then composeAt s1 lines y x else (0, 0, 0)), s1)

/-- The guarded regions checked in the frame take the line into their CRCs; the last line makes a region's check due
(R238). -/
def guardLine (y : Nat) (line : List (Nat × Nat × Nat)) (s : State) : State :=
  foldS (fun n t =>
    let (x, ry, w, h) := regionRect t n
    if regionOn t n && !regionForced t n && decide (ry ≤ y) && decide (y < ry + h) then
      let c0 := if y = ry then 0xFFFFFFFF else tabGet (fun _ => 0) t.cmp.scan.crcs n
      let bytes := (((line.drop x).take w).map (fun p => natBytes 2 p.1 ++ natBytes 2 p.2.1 ++ natBytes 2 p.2.2)).flatten
      let c := bytes.foldl (crcByte 0xEDB88320) c0
      let k := { t.cmp.scan with crcs := tabSet (fun _ => 0) t.cmp.scan.crcs n c }
      let due := if y + 1 = ry + h
        then t.cmp.due ++ [⟨n, Nat.xor c 0xFFFFFFFF, t.reg (CMP_GR_EXPECT n), frameNo t⟩] else t.cmp.due
      { t with cmp := { t.cmp with scan := k, due := due } }
    else t) (List.range 64) s

/-! ## The write-back tap (R235 to R237) -/

def wbIn (s : State) (f : Fld) : Nat := fget f (cmpIn s CMP_WB_CFG)
def wbBase (s : State) : Nat := s.rd CMP_WB_STATUS CMP_WB_STATUS.PPT_BASE

/-- Output width and height of the configuration in force, or none where it breaks R235. -/
def wbSize (s : State) : Option (Nat × Nat) :=
  let fx := wbIn s CMP_WB_CFG.FX_M1 + 1
  let fy := wbIn s CMP_WB_CFG.FY_M1 + 1
  let w := bitsOf 15 0 (cmpIn s CMP_WB_WIN_WH)
  let h := bitsOf 31 16 (cmpIn s CMP_WB_WIN_WH)
  if decide (w % fx = 0) && decide (h % fy = 0) && (w / fx) % 2 == 0 && (h / fy) % 2 == 0 && decide (w / fx ≤ 8192)
      && decide (h / fy ≤ 4320) && decide (wbIn s CMP_WB_CFG.FMT < 3) && decide (0 < w) && decide (0 < h)
  then some (w / fx, h / fy) else none

/-- Bytes of a line of a write-back format (R103, R104, R235). -/
def wbStride (fmt w : Nat) : Nat := if fmt = 2 then (4 * w + 63) / 64 * 64 else strideOf w true

/-- Bytes of a write-back picture. -/
def wbBytes (fmt w h : Nat) : Nat := if fmt = 2 then wbStride 2 w * h else pictureBytes w h (if fmt = 0 then 1 else 3) true

/-- The tap loses its frame: nothing more is written, a published picture is ABANDONED, and DROPS counts (R237). -/
def wbLose (s : State) : State :=
  ((wbAbandon s).inc CMP_WB_STATUS CMP_WB_STATUS.DROPS).setBit CMP_IRQ_STATUS 5

/-- The tap's RELEASE of each picture that a later publication has replaced is posted, behind the gate's RETAINs (R157,
R229, R236). -/
def wbReleases (s : State) : State :=
  let mine := s.dec.gates.filter (fun g => g.req == 19)
  let s1 := { s with dec := { s.dec with gates := s.dec.gates.filter (fun g => g.req != 19) } }
  foldS (fun g t => postRelease 64 g.handle t) mine s1

/-- The tap's ALLOC is posted at a gate (R229, R236). -/
def wbFrameStart (s : State) : State :=
  let s0 := if s.cmp.wb.cur.isSome then wbLose s else s
  let on := bitAt 0 (cmpIn s0 CMP_WB_CFG) && bitAt 0 (s0.reg CMP_WB_CFG)
  let s1 := s0.wr CMP_WB_STATUS CMP_WB_STATUS.CFG_ERR (on && (wbSize s0).isNone).toNat
  if on && s1.cmp.wb.run && (wbSize s1).isSome then postHold ⟨.alloc, 64, 0, wbIn s1 CMP_WB_CFG.POOL⟩ s1 else s1

/-- The tap's buffer is granted: it is published DECODING, or the frame is dropped (R236, R237). -/
def wbGranted (st : Nat) (h : Word) (s : State) : State :=
  match wbSize s with
  | none => releaseNZ 19 h s
  | some (w, ht) =>
    let fmt := wbIn s CMP_WB_CFG.FMT
    if st ≠ stOk then wbLose s
    else if poolSize (hPool h) < wbBytes fmt w ht then wbLose (releaseS 19 h s)
    else
      let x := s.cmp.wb
      let k := x.seq % 4
      let e := wbBase s + k
      let (free, s1) := s.fresh
      let form := match fmt with | 0 => 1 + 4 | 1 => 3 + 4 | _ => bitsOf 2 0 free
      let words : List Word := [h, BitVec.ofNat 32 ((ht + 15) / 16 * 2 ^ 16), BitVec.ofNat 32 (peDecoding + 4 * 2 ^ 6),
        BitVec.ofNat 32 x.seq, BitVec.ofNat 32 (w + ht * 2 ^ 16), BitVec.ofNat 32 (wbStride fmt w + form * 2 ^ 16), 0,
        BitVec.ofNat 32 (frameNo s1)]
      let s2 := gateHold 19 (tabGet (fun _ => 0) x.named k) (pptPut e words s1)
      let xy := cmpIn s2 CMP_WB_WIN_XY
      let p : WbPic := ⟨h, e, w, ht, fmt, wbIn s2 CMP_WB_CFG.FX_M1 + 1, wbIn s2 CMP_WB_CFG.FY_M1 + 1, bitsOf 15 0 xy,
        bitsOf 31 16 xy, bitsOf 2 2 (cmpIn s2 CMP_CANVAS_SPACE), 0, 0, [], []⟩
      let y : WbSt := { x with seq := (x.seq + 1) % 65536, cur := some p, named := tabSet (fun _ => 0) x.named k h,
                               fmts := tabSet (fun _ => 0) x.fmts k fmt }
      { s2 with cmp := { s2.cmp with wb := y } }

/-- `n / d` rounded to the nearest, a half upward. -/
def nearest (n d : Int) : Int := (2 * n + d) / (2 * d)

/-- 12-bit R'G'B' to narrow-range 10-bit YCbCr of the canvas primaries, exactly, rounded to nearest (R235). -/
def toYcc (prim : Nat) (p : Nat × Nat × Nat) : Nat × Nat × Nat :=
  let (kr, kb) : Int × Int := if prim = 0 then (2126, 722) else (2627, 593)
  let r : Int := p.1
  let g : Int := p.2.1
  let b : Int := p.2.2
  let y := kr * r + (10000 - kr - kb) * g + kb * b
  let c := fun (x : Int) => (clampInt 0 1023 x).toNat
  (c (64 + nearest (876 * y) (10000 * 4095)), c (512 + nearest (448 * (10000 * b - y)) ((10000 - kb) * 4095)),
    c (512 + nearest (448 * (10000 * r - y)) ((10000 - kr) * 4095)))

/-- Interleave Cb and Cr. -/
def interleave : List Nat → List Nat → List Nat
  | a :: as, b :: bs => a :: b :: interleave as bs
  | _, _ => []

/-- Write output line `y` of the write-back picture. -/
def wbWriteLine (p : WbPic) (px : List (Nat × Nat × Nat)) (s : State) : State :=
  let base := bufAddr s p.handle
  let st := wbStride p.fmt p.width
  let y := p.lines
  let set := fun (q : WbPic) (t : State) => { t with cmp := { t.cmp with wb := { t.cmp.wb with cur := some q } } }
  if p.fmt = 2 then
    let bytes := (px.map (fun c => natBytes 4 (c.2.2 / 4 + c.2.1 / 4 * 2 ^ 10 + c.1 / 4 * 2 ^ 20 + 3 * 2 ^ 30))).flatten
    set { p with lines := y + 1, taken := 0, sums := [] } (dramWr wbPort s (base + y * st) bytes)
  else
    let ycc := px.map (toYcc p.prim)
    let s1 := dramWr wbPort s (base + y * st) (pack10 (ycc.map (fun c => c.1)))
    let cb := ycc.map (fun c => c.2.1)
    let cr := ycc.map (fun c => c.2.2)
    if p.fmt = 1 then
      let s2 := dramWr wbPort s1 (base + st * p.height + y * st) (pack10 cb)
      let s3 := dramWr wbPort s2 (base + 2 * st * p.height + y * st) (pack10 cr)
      set { p with lines := y + 1, taken := 0, sums := [] } s3
    else
      let c2 := (chroma422 cb).zip (chroma422 cr)
      if y % 2 = 0 then set { p with lines := y + 1, taken := 0, sums := [], chroma := c2 } s1
      else
        let avg := (p.chroma.zip c2).map (fun q => ((q.1.1 + q.2.1 + 1) / 2, (q.1.2 + q.2.2 + 1) / 2))
        let s2 := dramWr wbPort s1 (base + st * p.height + y / 2 * st)
          (pack10 (interleave (avg.map (fun q => q.1)) (avg.map (fun q => q.2))))
        set { p with lines := y + 1, taken := 0, sums := [], chroma := [] } s2

/-- `n` values of canvas positions the spec gives none: free. -/
def freeRgb : Nat → State → List (Nat × Nat × Nat) × State
  | 0, s => ([], s)
  | n + 1, s =>
    let (a, s1) := s.fresh
    let (b, s2) := s1.fresh
    let (rest, s3) := freeRgb n s2
    ((bitsOf 11 0 a, bitsOf 23 12 a, bitsOf 11 0 b) :: rest, s3)

/-- A composed line goes into the write-back tap: its boxes are summed, and a whole box row makes an output line (R235).
Positions of the window outside the canvas have no stated value. -/
def wbLine (y : Nat) (line : List (Nat × Nat × Nat)) (s : State) : State :=
  match s.cmp.wb.cur with
  | none => s
  | some p =>
    if y < p.winY ∨ p.winY + p.height * p.fy ≤ y then s
    else
      let (more, s1) := freeRgb (p.winX + p.width * p.fx - max p.winX line.length) s
      let win := (line ++ more).drop p.winX
      let add := fun (a b : Nat × Nat × Nat) => (a.1 + b.1, a.2.1 + b.2.1, a.2.2 + b.2.2)
      let row := (List.range p.width).map (fun j => ((win.drop (j * p.fx)).take p.fx).foldl add (0, 0, 0))
      let sums := if p.taken = 0 then row else (p.sums.zip row).map (fun q => add q.1 q.2)
      if p.taken + 1 < p.fy then
        let q := { p with taken := p.taken + 1, sums := sums }
        { s1 with cmp := { s1.cmp with wb := { s1.cmp.wb with cur := some q } } }
      else
        let n := p.fx * p.fy
        let avg := fun (x : Nat) => (x + n / 2) / n
        wbWriteLine p (sums.map (fun c => (avg c.1, avg c.2.1, avg c.2.2))) s1

/-- WB_ROWS: sixteen more output lines have reached DRAM, or the last ones: ROWS_DONE advances, and STATE becomes COMPLETE
after the last line (R189, R236). -/
def execWbRows (s : State) : Out :=
  done s (match s.cmp.wb.cur with
    | none => s
    | some p =>
      let r := pptRowsDone s p.entry + 1
      if 16 * r < p.height then State.when (decide (16 * r ≤ p.lines)) (pptRows p.entry r) s
      else if p.lines = p.height ∧ encBehind 2 0 p.handle s = false then
        let s1 := pptSetState p.entry peComplete (pptRows p.entry r s)
        encCaptured 2 0 p.entry { s1 with cmp := { s1.cmp with wb := { s1.cmp.wb with cur := none } } }
      else s)

/-- WB_DROP: the write-back FIFO is full, and the tap drops the frame (R237). -/
def execWbDrop (s : State) : Out := done s (State.when s.cmp.wb.cur.isSome wbLose s)

/-- CMP_WB_CFG_WRITE: setting EN takes an aligned run of 4 entries, or PPT_FAIL sets; clearing it returns the run as EMPTY,
and the buffers its entries named wait for a lock gate (R191, R236). -/
def execCmpWbCfgWrite (data : Word) (s : State) : Out :=
  done s (State.when (s.domOn 26) (fun t =>
    let was := t.flag CMP_WB_CFG CMP_WB_CFG.EN
    let t1 := t.hostWrite CMP_WB_CFG data
    if !was && bitAt 0 data then
      match freeRun t1 4 with
      | some b =>
        let t2 := (takeRun b 4 600 t1).wr CMP_WB_STATUS CMP_WB_STATUS.PPT_BASE b
        { t2 with cmp := { t2.cmp with wb := { t2.cmp.wb with run := true } } }
      | none => t1.wr CMP_WB_STATUS CMP_WB_STATUS.PPT_FAIL 1
    else if was && !bitAt 0 data then
      let t2 := foldS (fun e u => gateHold 19 e.2 u) t1.cmp.wb.named t1
      let t3 := if t2.cmp.wb.run then returnRun (wbBase t2) 4 t2 else t2
      let w : WbSt := ⟨false, t3.cmp.wb.seq, none, [], []⟩
      let hold := t3.cmp.hold.filter (fun r => decide (r.kind ≠ .alloc))
      let t4 := { t3 with cmp := { t3.cmp with wb := w, hold := hold } }
      let t5 := t4.setReg CMP_WB_STATUS (fput ⟨0, 16⟩ (t4.raw CMP_WB_STATUS) 0)
      encInputLost 2 0 t5
    else t1) s)

/-- The sprite's W × H words are read into on-chip memory, by the values in force (R247, R248). -/
def loadSprite (s : State) : State :=
  let size := cmpIn s CMP_TOUCH_SPRITE_SIZE
  let (ws, bad, t) := dramRdWordsFor CMP_FAULT_STATUS cmpPort s (bufAddr s (cmpIn s CMP_TOUCH_SPRITE)) (bitsOf 6 0 size * bitsOf 14 8 size)
  if bad then t.setFault CMP_FAULT_STATUS 1 else { t with cmp := { t.cmp with sprite := ws } }

/-- TOUCH_SPRITE_LOAD: a write of CMP_TOUCH_SPRITE_SIZE. The write takes effect at the next lock gate, and LOAD with it: the
sprite is read there, in HOLD once HOLD has ended (R233, R247, R248; assumption 128). -/
def execTouchSpriteLoad (data : Word) (s : State) : Out :=
  done s (State.when (s.domOn 26) (fun t =>
    let t1 := t.hostWrite CMP_TOUCH_SPRITE_SIZE data
    if bitAt 31 data then { t1 with cmp := { t1.cmp with spriteDue := true } } else t1) s)

/-- A lock gate outside HOLD carries out a sprite load that waits. -/
def spriteGate (s : State) : State :=
  if s.cmp.spriteDue then loadSprite { s with cmp := { s.cmp with spriteDue := false } } else s

/-- The oldest request of the compositor for pool `pool` is granted (R20, R229, R232, R236). Once the queue is empty, what
the gate's RETAINs kept waiting is released (R157). -/
def grantHold (pool : Nat) (s : State) : State :=
  match s.cmp.hold.find? (fun r => r.pool == pool) with
  | none => s
  | some r =>
    let s0 := { s with cmp := { s.cmp with hold := s.cmp.hold.erase r } }
    let s1 := match r.kind with
      | .retain =>
        let (st, t) := bpmRetain s0 19 r.handle
        if st = stOk then t else retainRefused r.layer r.handle t
      | .release => releaseS 19 r.handle s0
      | .alloc =>
        let (st, h, t) := allocAt s0 19 pool (wbIn s0 CMP_WB_CFG.SPILL_UP == 1) true false
        wbGranted st h t
    grantWaits (if s1.cmp.hold.isEmpty then releasePassed s1 else s1)

/-- HOLD_QUEUE_GRANT: the oldest request for pool `pool` is granted; in HOLD none is (R233). -/
def execHoldQueueGrant (pool : Nat) (s : State) : Out := done s (State.when (!inHold s) (grantHold pool) s)

/-- Every request a gate posted is granted within 130 CLK_CTL cycles, long before the next gate (R229): what a run has not
granted by then is granted, in the order posted. -/
def drainHold (s : State) : State := foldS (fun (r : HoldReq) t => grantHold r.pool t) s.cmp.hold s

end Sys2Proof.Machine
end

