-- ==== Sys2Proof/Machine/Depack.lean ====
section
/-!
DEFINITION. Received network frames and the depacketiser (R356, R357, R367): the header fields and checks of each stage,
the RTP packet within, and the NAL units, OBUs or transport-stream payload a packet carries. Where a rule names a standard,
the formats are that standard's (assumption 132).
-/
namespace Sys2Proof.Machine

/-- Byte `i` of a byte list as a number. -/
def byteAt (bs : List Byte) (i : Nat) : Nat := (bs.getD i 0).toNat
/-- A big-endian number of `n` bytes at `i`. -/
def beAt (bs : List Byte) (i n : Nat) : Nat := bytesNat ((bs.drop i).take n).reverse

/-! ## The frame (R356, R357) -/

/-- Tags at the head of what follows the addresses. -/
def vlanCount : Nat → List Byte → Nat
  | 0, _ => 0
  | n + 1, bs => if beAt bs 0 2 = 0x8100 ∨ beAt bs 0 2 = 0x88A8 then 1 + vlanCount n (bs.drop 4) else 0

/-- Tags of a frame. -/
def frameTags (bs : List Byte) : Nat := vlanCount bs.length (bs.drop 12)
/-- EtherType of a frame, after its tags. -/
def frameType (bs : List Byte) : Nat := beAt bs (12 + 4 * frameTags bs) 2
/-- What follows the EtherType. -/
def frameBody (bs : List Byte) : List Byte := bs.drop (14 + 4 * frameTags bs)

/-- The MAC stage accepts the destination: the port's own address, or a multicast one where those are accepted. -/
def macMine (mac : Nat) (mcast : Bool) (bs : List Byte) : Bool :=
  let d := beAt bs 0 6
  d == mac || (mcast && byteAt bs 0 % 2 == 1 && d != 0xFFFFFFFFFFFF)

/-- What the IP and UDP stages find: an error counted in BAD_FRAME, a packet counted in UNMATCHED, or a datagram: its key
fields, IP length and UDP payload. -/
inductive Parsed where
  | bad | other
  | udp (v6 : Bool) (ip dport ipLen : Nat) (payload : List Byte)
  deriving DecidableEq, Repr

/-- The UDP stage (R357): a checksum over the pseudo-header `addrs`; zero is none, which IPv6 does not allow. -/
def parseUdp (v6 : Bool) (ip ipLen : Nat) (addrs u : List Byte) : Parsed :=
  let len := beAt u 4 2
  let sum := beAt u 6 2
  let data := u.take len
  if len < 8 ∨ u.length < len then .bad
  else if (sum = 0 ∧ v6 = true) ∨ (sum ≠ 0 ∧ inetSum (addrs ++ [0, 17] ++ beBytes 2 len ++ data) ≠ 0) then .bad
  else .udp v6 ip (beAt u 2 2) ipLen (data.drop 8)

/-- The IPv4 stage: header checksum and lengths, no fragment, protocol UDP. -/
def parseIp4 (b : List Byte) : Parsed :=
  let ihl := 4 * (byteAt b 0 % 16)
  let len := beAt b 2 2
  if byteAt b 0 / 16 ≠ 4 ∨ ihl < 20 ∨ len < ihl ∨ b.length < len then .bad
  else if inetSum (b.take ihl) ≠ 0 then .bad
  else if beAt b 6 2 % 16384 ≠ 0 ∨ byteAt b 9 ≠ 17 then .other
  else parseUdp false (beAt b 16 4) len ((b.drop 12).take 8) ((b.take len).drop ihl)

/-- The IPv6 stage: lengths, and Next Header equal to UDP. -/
def parseIp6 (b : List Byte) : Parsed :=
  let len := beAt b 4 2
  if b.length < 40 ∨ byteAt b 0 / 16 ≠ 6 ∨ b.length < 40 + len then .bad
  else if byteAt b 6 ≠ 17 then .other
  else parseUdp true (beAt b 24 16) (40 + len) ((b.drop 8).take 32) ((b.drop 40).take len)

/-- The IP and UDP stages of a frame. -/
def parseFrame (bs : List Byte) : Parsed :=
  if frameType bs = 0x0800 then parseIp4 (frameBody bs)
  else if frameType bs = 0x86DD then parseIp6 (frameBody bs)
  else .other

/-! ## RTP -/

/-- An RTP packet. -/
structure RtpPacket where
  v       : Nat
  marker  : Bool
  pt      : Nat
  seq     : Nat
  time    : Nat
  ssrc    : Nat
  ipLen   : Nat
  payload : List Byte
  deriving DecidableEq, Repr

/-- The RTP packet of a UDP payload; one shorter than its header has no version. -/
def parseRtp (ipLen : Nat) (u : List Byte) : RtpPacket :=
  let cc := byteAt u 0 % 16
  let x := byteAt u 0 / 16 % 2
  let h0 := 12 + 4 * cc
  let hdr := if x = 1 then h0 + 4 + 4 * beAt u (h0 + 2) 2 else h0
  let pad := if byteAt u 0 / 32 % 2 = 1 then byteAt u (u.length - 1) else 0
  let v := if u.length < hdr + pad then 0 else byteAt u 0 / 64
  ⟨v, byteAt u 1 / 128 == 1, byteAt u 1 % 128, beAt u 2 2, beAt u 4 4, beAt u 8 4, ipLen,
    (u.take (u.length - pad)).drop hdr⟩

/-- The RTP packet of a frame kept in the reorder store. -/
def rtpOf (bs : List Byte) : Option RtpPacket :=
  match parseFrame bs with
  | .udp _ _ _ n u => some (parseRtp n u)
  | _ => none

/-! ## The depacketiser (R367) -/

/-- A NAL unit or OBU as it is written: its bytes, where the unit itself starts among them, where CLEAR_LEAD is counted from,
and whether it is a VCL NAL unit, OBU_FRAME or OBU_TILE_GROUP (R367, R369, R370). -/
structure NetUnit where
  bytes : List Byte
  start : Nat
  body  : Nat
  vcl   : Bool
  deriving DecidableEq, Repr

/-- A VCL NAL unit by its header byte: HEVC types 0 to 31, H.264 types 1 to 5. -/
def nalVcl (hevc : Bool) (b0 : Nat) : Bool :=
  if hevc then decide (b0 / 2 % 64 < 32) else decide (1 ≤ b0 % 32) && decide (b0 % 32 ≤ 5)

/-- A NAL unit behind its start code. -/
def nalUnit (hevc : Bool) (nal : List Byte) : NetUnit := ⟨[0, 0, 0, 1] ++ nal, 4, 4, nalVcl hevc (byteAt nal 0)⟩

/-- What a packet yields: the units it completes, and the unit it leaves in assembly. -/
abbrev Depacked : Type := List NetUnit × Option (List Byte)

/-- The NAL units of an aggregation packet, each behind its 16-bit size. -/
def aggregated : Nat → List Byte → List (List Byte)
  | 0, _ => []
  | fuel + 1, bs =>
    let n := beAt bs 0 2
    if bs.length < 2 ∨ n = 0 ∨ bs.length < 2 + n then [] else (bs.drop 2).take n :: aggregated fuel (bs.drop (2 + n))

/-- A fragmentation unit: `hdr` is the NAL unit header it stands for, `fu` its FU header. One whose earlier fragments are
missing is dropped. -/
def fragment (hevc : Bool) (frag : Option (List Byte)) (hdr body : List Byte) (fu : Nat) : Depacked :=
  let cur := if 128 ≤ fu then some (hdr ++ body) else frag.map (fun x => x ++ body)
  match cur with
  | none => ([], none)
  | some x => if fu / 64 % 2 = 1 then ([nalUnit hevc x], none) else ([], some x)

/-- RFC 7798: single NAL unit, aggregation packet, fragmentation unit; other types are discarded. -/
def hevcDepack (frag : Option (List Byte)) (p : List Byte) : Depacked :=
  let t := byteAt p 0 / 2 % 64
  if p.length < 2 then ([], none)
  else if t < 48 then ([nalUnit true p], none)
  else if t = 48 then ((aggregated p.length (p.drop 2)).map (nalUnit true), none)
  else if t = 49 then
    let fu := byteAt p 2
    let h0 := byteAt p 0 / 128 * 128 + fu % 64 * 2 + byteAt p 0 % 2
    fragment true frag [BitVec.ofNat 8 h0, p.getD 1 0] (p.drop 3) fu
  else ([], none)

/-- RFC 6184: single NAL unit, STAP-A, FU-A; other types are discarded. -/
def h264Depack (frag : Option (List Byte)) (p : List Byte) : Depacked :=
  let t := byteAt p 0 % 32
  if p.isEmpty ∨ t = 0 then ([], none)
  else if t < 24 then ([nalUnit false p], none)
  else if t = 24 then ((aggregated p.length (p.drop 1)).map (nalUnit false), none)
  else if t = 28 then
    let fu := byteAt p 1
    fragment false frag [BitVec.ofNat 8 (byteAt p 0 / 32 * 32 + fu % 32)] (p.drop 2) fu
  else ([], none)

/-- A number as leb128(). -/
def lebPut : Nat → Nat → List Byte
  | 0, _ => []
  | fuel + 1, v => if v < 128 then [BitVec.ofNat 8 v] else BitVec.ofNat 8 (v % 128 + 128) :: lebPut fuel (v / 128)

/-- The OBU elements of a payload: `w` of them, the last without a length, or with `w` = 0 all behind lengths. -/
def obuElements : Nat → Nat → List Byte → List (List Byte)
  | 0, _, _ => []
  | fuel + 1, w, bs =>
    if bs.isEmpty then []
    else if w = 1 then [bs]
    else
      let (v, n) := lebRead 8 bs
      (bs.drop n).take v :: obuElements fuel (w - 1) (bs.drop (n + v))

/-- An OBU with obu_has_size_field = 1; a temporal delimiter is dropped. -/
def obuUnit (o : List Byte) : List NetUnit :=
  let b0 := byteAt o 0
  let t := b0 / 8 % 16
  let hdr := 1 + b0 / 4 % 2
  let rest := o.drop hdr
  let payload := if b0 / 2 % 2 = 1 then let (v, n) := lebRead 8 rest; (rest.drop n).take v else rest
  let size := lebPut 8 payload.length
  if o.isEmpty ∨ t = 2 then []
  else [⟨BitVec.ofNat 8 (b0 / 4 * 4 + 2 + b0 % 2) :: (o.drop 1).take (hdr - 1) ++ size ++ payload, 0, hdr + size.length,
    t == 6 || t == 4⟩]

/-- AV1 RTP payload: Z says that the first element goes on with the unit in assembly, Y that the last one is not complete,
W how many there are, N that a coded video sequence starts. -/
def av1Depack (frag : Option (List Byte)) (p : List Byte) : Depacked :=
  let h := byteAt p 0
  let old := if h / 8 % 2 = 1 then none else frag
  let es : List (Option (List Byte)) := (obuElements p.length (h / 16 % 4) (p.drop 1)).map some
  let es1 := match h / 128, es with
    | 1, some e :: rest => old.map (fun x => x ++ e) :: rest
    | _, _ => es
  if h / 64 % 2 = 1 then ((es1.dropLast.filterMap id).flatMap obuUnit, es1.getLast?.join)
  else ((es1.filterMap id).flatMap obuUnit, none)

/-- The units a packet completes, by FORMAT. -/
def depack (format : Nat) (frag : Option (List Byte)) (p : List Byte) : Depacked :=
  match format with
  | 0 => hevcDepack frag p
  | 1 => h264Depack frag p
  | _ => av1Depack frag p

/-! ## MPEG-2 transport streams (R367, R368) -/

/-- The transport packets of an RTP payload. -/
def tsSplit : Nat → List Byte → List (List Byte)
  | 0, _ => []
  | fuel + 1, bs => if bs.length < 188 then [] else bs.take 188 :: tsSplit fuel (bs.drop 188)

/-- Where a flow stands in its transport stream: the last continuity counter, and PES header bytes still to come. -/
structure TsPlace where
  cc   : Option Nat
  skip : Nat
  deriving DecidableEq, Repr

/-- What one transport packet adds: continuity-counter gaps, whether a PES packet starts with it and its PTS [31:0], and
payload bytes. -/
structure TsPart where
  gaps  : Nat
  start : Bool
  pts   : Option Nat
  bytes : List Byte
  deriving DecidableEq, Repr

/-- PTS [31:0] of a PES header. -/
def pesPts (p : List Byte) : Option Nat :=
  if byteAt p 7 < 128 then none
  else some ((byteAt p 9 / 2 % 8 * 2 ^ 30 + beAt p 10 2 / 2 * 2 ^ 15 + beAt p 12 2 / 2) % 2 ^ 32)

/-- One transport packet on PID: adaptation fields are skipped, and PES headers removed. -/
def tsPart (pid : Nat) (x : TsPlace) (p : List Byte) : TsPart × TsPlace :=
  let afc := byteAt p 3 / 16 % 4
  let cc := byteAt p 3 % 16
  let skipTo := if afc = 3 then 5 + byteAt p 4 else 4
  let jump := afc == 3 && decide (0 < byteAt p 4) && byteAt p 5 / 128 == 1
  if byteAt p 0 ≠ 0x47 ∨ beAt p 1 2 % 8192 ≠ pid ∨ afc % 2 = 0 ∨ x.cc = some cc then (⟨0, false, none, []⟩, x)
  else
    let gap := match x.cc with | none => false | some c => (c + 1) % 16 != cc && !jump
    let body := p.drop skipTo
    if byteAt p 1 / 64 % 2 = 1 ∧ beAt body 0 3 = 1 then
      let hdr := 9 + byteAt body 8
      (⟨gap.toNat, true, pesPts body, body.drop hdr⟩, ⟨some cc, hdr - body.length⟩)
    else (⟨gap.toNat, false, none, body.drop x.skip⟩, ⟨some cc, x.skip - body.length⟩)

end Sys2Proof.Machine
end

