-- ==== Sys2Proof/Machine/Dma.lean ====
section
/-!
DEFINITION. The DMA channels (R404 to R413): starting a list by job or by GO, taking and checking entries, moving bytes
in bursts of 64, the end of a list and stopping a channel.
-/
namespace Sys2Proof.Machine

def dmaRun (s : State) (c : Nat) : Option DmaRun := tabGet (fun _ => none) s.dma.runs c
def setDmaRun (c : Nat) (r : Option DmaRun) (s : State) : State :=
  { s with dma := { s.dma with runs := tabSet (fun _ => none) s.dma.runs c r } }

/-- The job of the list that ended last on channel `c`; none where GO started it. -/
def dmaLast (s : State) (c : Nat) : Option JobRef := tabGet (fun _ => none) s.dma.last c
def setDmaLast (c : Nat) (r : Option JobRef) (s : State) : State :=
  { s with dma := { s.dma with last := tabSet (fun _ => none) s.dma.last c r } }

/-- The slot of the job channel `c` has accepted and not yet begun, if any: it holds one at most (R409). -/
def dmaAccepted (s : State) (c : Nat) : Option Nat :=
  (s.hq.jobs.find? (fun e => e.2.opcode == opDmaList && e.2.context == c && decide (e.2.st = .running) && !e.2.begun
    && !e.2.record && !e.2.stop)).map Prod.fst

/-- The value FAIL_INDEX takes where no entry failed. -/
def noFail : Nat := 0xFFFFFFFF

/-- A list ends: registers, interrupts and the job's record (R406, R407, R409, R416). -/
def dmaFinish (c : Nat) (job : Option JobRef) (status crc bytes failIndex : Nat) (s : State) : State :=
  let s1 := ((s.setReg (DMA_CH_CRC c) (BitVec.ofNat 32 crc)).setReg64 (DMA_CH_BYTES_LO c) (DMA_CH_BYTES_HI c) bytes).setReg
    (DMA_CH_FAIL_INDEX c) (BitVec.ofNat 32 failIndex)
  let s2 := (s1.wr (DMA_CH_STATUS c) DMA_CH_STATUS.RESULT status).wr (DMA_CH_STATUS c) DMA_CH_STATUS.BUSY 0
  let s3 := if status != stOk && status != stAborted then s2.setBit (DMA_CH_IRQ_STATUS c) 1 else s2
  let s4 := setDmaLast c job (setDmaRun c none s3)
  match job with
  | none => if status = stOk then s4.setBit (DMA_CH_IRQ_STATUS c) 0 else s4
  | some r => presentRef r status [BitVec.ofNat 32 crc, BitVec.ofNat 32 bytes, BitVec.ofNat 32 (bytes / 2 ^ 32),
      BitVec.ofNat 32 failIndex] s4

/-- A list starts on an idle channel, or ends at once where its own words are bad (R408, R409). -/
def dmaStart (c : Nat) (job : Option JobRef) (addr count : Nat) (host bad : Bool) (s : State) : State :=
  let s1 := s.wr (DMA_CH_STATUS c) DMA_CH_STATUS.BY_GO (if job.isNone then 1 else 0)
  if bad || decide (count = 0) || decide (1048576 < count) then dmaFinish c job stInternal 0 0 noFail s1
  else
    setDmaRun c (some ⟨job, addr, host, count, 0, 0, none, none, 0, 0, 0xFFFFFFFF, 0, 0, none⟩)
      (s1.wr (DMA_CH_STATUS c) DMA_CH_STATUS.BUSY 1)

/-- DMA_LIST: the enabled, idle channel runs the job's list (R408, R409). A reserved bit gives INTERNAL with no other
effect (R55). -/
def execDmaList (slot : Nat) (s : State) : Out :=
  done s (State.when (s.startable slot opDmaList && (dmaRun s (s.job slot).context).isNone
      && bitAt 0 (s.reg (DMA_CH_CTL (s.job slot).context))) (fun t =>
    let j := t.job slot
    if decide (bitsOf 31 21 (j.w 4) ≠ 0) || decide (1 < (j.w 5).toNat) then
      present slot stInternal [0, 0, 0, BitVec.ofNat 32 noFail] t
    else
    let bad := decide (bitsOf 3 0 (j.w 2) ≠ 0)
    dmaStart j.context (some (t.jobRef slot)) ((j.w 2).toNat + (j.w 3).toNat * 2 ^ 32) (bitsOf 20 0 (j.w 4))
      (bitAt 0 (j.w 5)) bad (beginJob slot t)) s)

/-! ## Entries (R404, R405) -/

/-- A list entry from its four words. -/
def entryOf (index : Nat) (ws : List Word) : DmaEnt :=
  let w3 := wordAt ws 3
  let space := bitsOf 1 0 w3
  { index := index
    addr := if space = 3 then (wordAt ws 0).toNat else (wordAt ws 0).toNat + (wordAt ws 1).toNat * 2 ^ 32
    handle := (wordAt ws 1).toNat
    len := (wordAt ws 2).toNat
    space := space
    rsvd := decide (bitsOf 31 3 w3 ≠ 0)
    dst := bitAt 2 w3 }

/-- The memory and start address an entry resolves to: 0 DRAM, 1 host, 2 scratchpad. -/
def entryPlace (s : State) (e : DmaEnt) : Nat × Nat :=
  if e.space = 3 then (0, bufAddr s (BitVec.ofNat 32 e.handle) + e.addr) else (e.space, e.addr)

/-- Checks 1 to 3 of R405. -/
def entryCheck123 (s : State) (e : DmaEnt) : Option Nat :=
  let h := BitVec.ofNat 32 e.handle
  if e.rsvd || (e.space == 2 && decide (0x400000 < e.addr + e.len))
      || (e.space == 3 && decide (hPool h < 8) && decide (poolSize (hPool h) < e.addr + e.len))
  then some stInternal
  else if e.space == 3 && !isCurrent s h then some stStaleHandle
  else if e.addr % 64 ≠ 0 ∨ e.len % 64 ≠ 0 then some stMisalign
  else none

/-- Check 4 of R405: the whole ranges of the two current entries overlap in one memory. -/
def entriesOverlap (s : State) (a b : DmaEnt) : Bool :=
  let (ma, xa) := entryPlace s a
  let (mb, xb) := entryPlace s b
  ma == mb && decide (xa < xb + b.len) && decide (xb < xa + a.len)

/-- The list entry `i` of a run, as the channel reads it: none where it cannot be read (R408). -/
def readEntry (r : DmaRun) (i : Nat) (hostEntry : Option (List Word)) (s : State) : Option (List Word) × State :=
  if r.listHost then (hostEntry, s)
  else
    let (ws, bad, t) := dramRdWords dmaPort s (r.listAddr + 16 * i) 4
    (if bad then none else some ws, t)

/-- An ABORT was granted for the list's job: the channel stops after the burst in progress (R412). -/
def dmaHalted (s : State) (r : DmaRun) : Bool :=
  match r.slot with
  | none => false
  | some j => decide ((s.job j.slot).st = .running) && (s.job j.slot).seq == j.seq && (s.job j.slot).stop

/-- A list entry as it arrives at the channel: its four words are checked on the fabric path (R416, R541). -/
def arriveEntry (c : Nat) (x : Option (List Word) × State) : Option (List Word) × State :=
  match x with
  | (none, s) => (none, s)
  | (some ws, s) =>
    let (bad, t) := s.fabricCheck (DMA_CH_FAULT_STATUS c) 4
    (if bad then none else some ws, t)

/-- DMA_ENTRY: the next entry of the list is read for one stream; one of that stream becomes current and is checked
(R405), one of the other stream is passed over. One that cannot be read ends the list (R408) as an uncorrectable list
error (R416). -/
def execDmaEntry (channel : Nat) (dst : Bool) (hostEntry : Option (List Word)) (s : State) : Out :=
  done s (match dmaRun s channel with
    | none => s
    | some r =>
      let i := if dst then r.nextDst else r.nextSrc
      State.when (r.failed.isNone && (if dst then r.dst else r.src).isNone && decide (i < r.count) && !dmaHalted s r) (fun t =>
        let (ws?, t1) := arriveEntry channel (readEntry r i hostEntry t)
        let r1 := if dst then { r with nextDst := i + 1 } else { r with nextSrc := i + 1 }
        match ws? with
        | none =>
          setDmaRun channel (some { r1 with failed := some (stInternal, i) }) (t1.setFault (DMA_CH_FAULT_STATUS channel) 1)
        | some ws =>
          let e := entryOf i ws
          if e.dst != dst then setDmaRun channel (some r1) t1
          else match entryCheck123 t1 e with
            | some st => setDmaRun channel (some { r1 with failed := some (st, i) }) t1
            | none =>
              if e.len = 0 then setDmaRun channel (some r1) t1
              else
                let r2 := if dst then { r1 with dst := some e, dstOff := 0, segDst := 0 }
                  else { r1 with src := some e, srcOff := 0, segDst := r1.dstOff }
                match if dst then r1.src else r1.dst with
                | none => setDmaRun channel (some r2) t1
                | some o =>
                  if entriesOverlap t1 e o
                  then setDmaRun channel (some { r2 with failed := some (stOverlap, max i o.index) }) t1
                  else setDmaRun channel (some r2) t1) s)

/-! ## Moving bytes (R407, R413, R444) -/

/-- Read 64 bytes at a place: bytes, whether they are in error, and the state. -/
def placeRead (m a : Nat) (hostData : Option (List Byte)) (s : State) : List Byte × Bool × State :=
  match m with
  | 0 => dramRd dmaPort s a 64
  | 1 => match hostData with
    | some bs => if bs.length = 64 then (bs, false, s) else ([], true, s)
    | none => ([], true, s)
  | _ => (List.range 16).foldl (fun (acc : List Byte × Bool × State) i =>
      let (w, bad, t) := spdRead acc.2.2 (a / 4 + i)
      (acc.1 ++ wordBytes w, acc.2.1 || bad, t)) ([], false, s)

/-- Write 64 bytes at a place. -/
def placeWrite (m a : Nat) (bs : List Byte) (s : State) : State :=
  match m with
  | 0 => dramWr dmaPort s a bs
  | 1 => hostMemBulk s a bs
  | _ => foldS (fun (p : Nat × Word) t => spdPut t (a / 4 + p.1) p.2)
      ((List.range 16).zip (bytesWords bs)) s

/-- Words of a burst written to the scratchpad that another port wrote in the same cycle and won: they hold the winner's
value, and the channel goes on (R441, R443, R444). -/
def lostWords (a : Nat) (lost : List (Nat × Nat × Word)) (s : State) : State :=
  foldS (fun (e : Nat × Nat × Word) t =>
    State.when (decide (e.1 < 16) && decide (e.2.1 < 2))
      (fun u => spdCollision (a / 4 + e.1) e.2.1 [2] (spdPut u (a / 4 + e.1) e.2.2)) t) lost s

/-- The injected checks of a burst: of its sixteen words as they arrive on the fabric path, and of the burst as it is read
from the channel's data buffer, sixteen words of it (R416, R541). -/
def burstCheck (c : Nat) (s : State) : Bool × State :=
  let fs := DMA_CH_FAULT_STATUS c
  let (lost, s0) := s.fabricCheck fs 16
  let (bad, s1) := s0.sramCheck fs 16 [0, 1]
  let (bad3, s2) := s1.sramCheck fs 1 [3]
  (lost || bad || bad3, s2)

/-- DMA_SEGMENT: 64 bytes move from the current source entry to the current destination entry (assumption 19). -/
def execDmaSegment (channel : Nat) (facts : DmaFacts) (s : State) : Out :=
  done s (match dmaRun s channel with
    | none => s
    | some r =>
      match r.failed, r.src, r.dst with
      | none, some se, some de =>
        if dmaHalted s r then s else
        let (ms, xs) := entryPlace s se
        let (md, xd) := entryPlace s de
        let (bs, bad, s1) := placeRead ms (xs + r.srcOff) facts.host s
        let (inj, s2) := burstCheck channel s1
        if bad || inj then
          setDmaRun channel (some { r with failed := some (stInternal, se.index) })
            (s2.setFault (DMA_CH_FAULT_STATUS channel) 1)
        else
          let s3 := placeWrite md (xd + r.dstOff) bs s2
          let s4 := if md = 2 then lostWords (xd + r.dstOff) facts.lost s3 else s3
          let so := r.srcOff + 64
          let dOff := r.dstOff + 64
          let r1 := { r with srcOff := so, dstOff := dOff, crc := crc32cRun r.crc bs, bytes := r.bytes + 64 }
          let r2 := if se.len ≤ so then { r1 with src := none, srcOff := 0, segDst := dOff } else r1
          let r3 := if de.len ≤ dOff then { r2 with dst := none, dstOff := 0, segDst := 0 } else r2
          setDmaRun channel (some r3) s4
      | _, _, _ => s)

/-- The CRC a run has reached (R407). -/
def runCrc (r : DmaRun) : Nat := Nat.xor r.crc 0xFFFFFFFF

/-- How a list ends now, if it does (R405, R406): its status and failing index. -/
def listOutcome (r : DmaRun) : Option (Nat × Nat) :=
  match r.failed with
  | some f => some f
  | none =>
    let srcOut := r.src.isNone && r.nextSrc == r.count
    let dstOut := r.dst.isNone && r.nextDst == r.count
    match srcOut, dstOut, r.src, r.dst with
    | true, true, _, _ => some (stOk, noFail)
    | true, false, _, some d => some (stInternal, d.index)
    | false, true, some x, _ => some (stInternal, x.index)
    | _, _, _, _ => none

/-- DMA_LIST_END: the list ends and its CRC, bytes and status are recorded (R406, R407). -/
def execDmaListEnd (channel : Nat) (s : State) : Out :=
  done s (match dmaRun s channel with
    | none => s
    | some r => match listOutcome r, dmaHalted s r with
      | none, _ => s
      | some _, true => s
      | some (st, ix), false => dmaFinish channel r.slot st (runCrc r) r.bytes ix s)

/-! ## Starting and stopping by register (R409, R411, R412) -/

/-- The completion record a job of channel `c` has presented, and HQ not yet committed, becomes ABORTED with zero result
words (R412). -/
def dmaRecall (c : Nat) (s : State) : State :=
  foldS (fun (e : Nat × Job) t =>
    let t1 := t.setJob e.1 { e.2 with status := stAborted, results := [] }
    if dmaLast s c = some ⟨e.1, e.2.seq⟩ then t1.wr (DMA_CH_STATUS c) DMA_CH_STATUS.RESULT stAborted else t1)
    (s.jobList.filter (fun e => decide (e.2.st = .running) && e.2.record && !e.2.stop && e.2.opcode == opDmaList
      && e.2.context == c && e.2.begun)) s

/-- A job the channel has accepted and not begun is dropped (R411, R412). -/
def dmaDrop (c : Nat) (s : State) : State :=
  match dmaAccepted s c with
  | none => s
  | some x => present x stAborted [] s

/-- Write bytes that may or may not arrive: those for a frozen channel or a window being zeroed are dropped (R411). -/
def looseWrite (m a : Nat) (bs : List Byte) (s : State) : State :=
  let t := placeWrite m a bs s
  if t.drc.trip.isSome then s else t

/-- EN of channel `c` is cleared: its list is dropped. The bytes of the segment in progress, BYTES and CRC are free
(R411; assumption 9). Every job of the channel whose record is not committed completes with ABORTED and zero result
words (R412). -/
def dmaStop (c : Nat) (s0 : State) : State :=
  let s := dmaDrop c (dmaRecall c s0)
  match dmaRun s c with
  | none => s
  | some r =>
    let s1 := match r.src, r.dst with
      | some se, some de =>
        let (md, xd) := entryPlace s de
        let n := min (de.len - r.segDst) (r.dstOff - r.segDst + (se.len - r.srcOff))
        let (bs, t) := freshBytes n s
        (List.range (n / 64)).foldl (fun u i => looseWrite md (xd + r.segDst + 64 * i) ((bs.drop (64 * i)).take 64) u) t
      | _, _ => s
    let (w0, s2) := s1.fresh
    let (w1, s3) := s2.fresh
    let (w2, s4) := s3.fresh
    let (w3, s5) := s4.fresh
    let s6 := (((s5.setReg (DMA_CH_CRC c) w0).setReg (DMA_CH_BYTES_LO c) w1).setReg (DMA_CH_BYTES_HI c) w2).setReg
      (DMA_CH_FAIL_INDEX c) w3
    let s7 := (s6.wr (DMA_CH_STATUS c) DMA_CH_STATUS.RESULT stAborted).wr (DMA_CH_STATUS c) DMA_CH_STATUS.BUSY 0
    let s8 := setDmaLast c r.slot (setDmaRun c none s7)
    match r.slot with
    | none => s8
    | some j => presentRef j stAborted [] s8

/-- DMA_GO: a list is started by register, or the write is ignored and counted (R409). -/
def execDmaGo (channel : Nat) (data : Word) (s : State) : Out :=
  done s (State.when (decide (channel < 16) && bitAt 1 data && s.domOn 1) (fun t =>
    let was := t.flag (DMA_CH_CTL channel) DMA_CH_CTL.EN
    let t1 := t.hostWrite (DMA_CH_CTL channel) data
    let t2 := if was && !bitAt 0 data then dmaStop channel t1 else t1
    if !bitAt 0 data || t2.flag (DMA_CH_STATUS channel) DMA_CH_STATUS.BUSY
    then t2.inc (DMA_CH_STATUS channel) DMA_CH_STATUS.GO_IGNORED
    else dmaStart channel none (t2.reg64 (DMA_CH_LIST_LO channel) (DMA_CH_LIST_HI channel))
      (t2.rd (DMA_CH_COUNT channel) DMA_CH_COUNT.COUNT) (bitAt 2 data) false t2) s)

/-- DMA_EN_CLEAR: EN is cleared and the channel stops (R411, R412). -/
def execDmaEnClear (channel : Nat) (data : Word) (s : State) : Out :=
  done s (State.when (decide (channel < 16) && !bitAt 0 data && !bitAt 1 data && s.domOn 1
      && s.flag (DMA_CH_CTL channel) DMA_CH_CTL.EN) (fun t =>
    dmaStop channel (t.hostWrite (DMA_CH_CTL channel) data)) s)

/-- An ABORT of job `r` stops the channel after the burst in progress: RESULT reads ABORTED, FAIL_INDEX names no entry,
and CRC and BYTES are exact for the bytes moved, also where the list had already ended (R412). -/
def dmaAbort (c : Nat) (r : JobRef) (s : State) : State :=
  match dmaRun s c with
  | some d => if d.slot = some r then setDmaLast c d.slot (dmaFinish c none stAborted (runCrc d) d.bytes noFail s) else s
  | none =>
    if dmaLast s c = some r
    then (s.wr (DMA_CH_STATUS c) DMA_CH_STATUS.RESULT stAborted).setReg (DMA_CH_FAIL_INDEX c) (BitVec.ofNat 32 noFail)
    else s

end Sys2Proof.Machine
end

