-- ==== Sys2Proof/Machine/Drc.lean ====
section
/-!
DEFINITION. The memory system's commands (R419 to R455): initialisation, windows and address masks, the channel scheduler,
self-refresh, retraining, the patrol scrubber, freezing and release, and the secure scratchpad with its life cycle.
-/
namespace Sys2Proof.Machine

/-! ## Initialisation, windows and masks (R419 to R425) -/

/-- Channels whose group is on and which DRC_CFG has initialised become ACTIVE. -/
def startChannels (s : State) : State :=
  foldS (fun c t => if chanOn t c && t.rd (DRC_CH_STATUS c) DRC_CH_STATUS.STATE == 0
    then t.wr (DRC_CH_STATUS c) DRC_CH_STATUS.STATE 1 else t) (List.range (numChannels s.fuse.variant)) s

/-- DRC_INIT: a write of DRC_CFG.INIT starts initialisation, or is ignored (R419). -/
def execDrcInit (data : Word) (s : State) : Out :=
  done s (State.when (bitAt 8 data && s.domOn 1) (fun t =>
    let t1 := t.hostWrite DRC_CFG data
    if t1.flag DRC_CFG DRC_CFG.READY then t1
    else if t1.rd DRC_CFG DRC_CFG.RATE = 3 ∨ t1.rd DRC_CFG DRC_CFG.DENSITY = 3 then t1.setBit DRC_ERR 3
    else { t1 with drc := { t1.drc with initing := true } }) s)

/-- DRC_INIT_DONE: READY sets (R419). -/
def execDrcInitDone (s : State) : Out :=
  done s (State.when s.drc.initing (fun t =>
    startChannels ({ t with drc := { t.drc with initing := false } }.wr DRC_CFG DRC_CFG.READY 1)) s)

/-- A window write is refused (R421, R506). -/
def badWindow (w : Nat) (s : State) : State := (s.setBit DRC_ERR 2).wr DRC_ERR DRC_ERR.WINDOW w

/-- Two ranges, given by start and length, overlap. -/
def rangesOverlap (a n b m : Nat) : Bool := decide (a < b + m) && decide (b < a + n)

/-- Enabling window `w` with its fields as they stand is refused (R421). -/
def windowRefused (s : State) (w : Nat) : Bool :=
  winSize s w == 0
    || (List.range 64).any (fun v => v != w && winEn s v &&
        (rangesOverlap (winBase s w) (winSize s w) (winBase s v) (winSize s v)
          || rangesOverlap (winPhys s w) (winPhysSize s w) (winPhys s v) (winPhysSize s v)))
    || decide (dramCapacity s < winPhys s w + winPhysSize s w)
    || !s.flag DRC_CFG DRC_CFG.READY
    || (List.range' 4 8).any (fun g => domPresent s.fuse.variant g && !s.domOn g)

/-- Zero data with valid check bytes over a physical range (R421, R506). -/
def zeroPhys (a n : Nat) (s : State) : State :=
  { s with drc := { s.drc with
      dram := tabDrop (fun x => decide (a ≤ x) && decide (x < a + n)) s.drc.dram
      err := tabDrop (fun k => decide (a ≤ 4 * k) && decide (4 * k < a + n)) s.drc.err } }

/-- The window under a running memory test (R506). -/
def underTest (s : State) (w : Nat) : Bool :=
  s.flag TOP_MEMTEST_CTL TOP_MEMTEST_CTL.BUSY && s.rd TOP_MEMTEST_CTL TOP_MEMTEST_CTL.WINDOW == w

/-- DRC_WIN_EN: a write of DRC_WINw_CFG enables the window, disables it, sets its kind while disabled, or is refused
(R421). -/
def execDrcWinEn (window : Nat) (data : Word) (s : State) : Out :=
  done s (State.when (decide (window < 64) && s.domOn 1) (fun t =>
    let a := DRC_WIN_CFG window
    let on := winEn t window
    if underTest t window then badWindow window t
    else if t.locked then t
    else if on then
      if bitAt 0 data then t
      else
        let t1 := (t.clrBit a 0).clrBit a 3
        { t1 with drc := { t1.drc with zeroing := t1.drc.zeroing.filter (fun v => v != window) } }
    else
      let t1 := (t.wr a DRC_WIN_CFG.PROTECTED (bitsOf 1 1 data)).wr a DRC_WIN_CFG.ZERO (bitsOf 2 2 data)
      if !bitAt 0 data then t1
      else if windowRefused t1 window then badWindow window t
      else
        let t2 := t1.setBit a 0
        if bitAt 1 data && bitAt 2 data then
          let t3 := zeroPhys (winPhys t2 window) (winPhysSize t2 window) t2
          { t3 with drc := { t3.drc with zeroing := window :: t3.drc.zeroing } }
        else t2.setBit a 3) s)

/-- WINDOW_ZERO_DONE: the zero fill ends and READY sets (R421). -/
def execWindowZeroDone (window : Nat) (s : State) : Out :=
  done s (State.when (s.drc.zeroing.contains window) (fun t =>
    { t.setBit (DRC_WIN_CFG window) 3 with
      drc := { t.drc with zeroing := t.drc.zeroing.filter (fun v => v != window) } }) s)

/-- The address and home mask bit of the hashed bit a map register holds: 0 to 4 CHi, 5 and 6 BGi, 7 and 8 BAi (R424,
R425). -/
def mapHome (v : Variant) (index : Nat) : Nat :=
  if index < 5 then index else variantChanBits v + (index - 5)

/-- A mask selects its own home bit and no other hashed home bit (R425). -/
def maskOk (v : Variant) (index mask : Nat) : Bool :=
  (List.range (variantChanBits v + 4)).all (fun b => mask.testBit b == (b == mapHome v index))

/-- DRC_MAP_WRITE: a mask is taken or refused (R425). -/
def execDrcMapWrite (index : Nat) (data : Word) (s : State) : Out :=
  done s (State.when (decide (index < 9) && s.domOn 1 && !s.locked
      && !(s.fuse.variant == .lzw4430 && index == 4)) (fun t =>
    let mask := bitsOf 30 0 data
    if maskOk t.fuse.variant index mask
    then t.setReg (DRC_MAP_CH index) (BitVec.ofNat 32 mask) else t.setBit DRC_ERR 1) s)

/-! ## Scheduling (R429 to R435) -/

/-- The order the fabric's arbiter for the channel grants arrivals in: by urgency and then round robin, the requests of one
port in the order it made them (R20, R19); `last` is the port granted before. -/
def fabricOrder : Nat → Nat → List DrcArrival → List DrcArrival
  | 0, _, _ => []
  | n + 1, last, qs =>
    match fabricPick last (qs.map (fun q => (q.port, q.urg))) with
    | none => []
    | some (p, _) =>
      match qs.find? (fun q => q.port == p) with
      | none => []
      | some q => q :: fabricOrder n p (qs.erase q)

/-- A request that arrives is granted by the fabric, enters its queue and its words are checked (R431, R541). At a full
queue it waits outside (R431), as does one to a window still being zeroed (R421). A read that finds queued writes of its own
port to its burst is answered with their data and enters no queue (R432). -/
def enterQueue (c : Nat) (r : DramReq) (s : State) : State :=
  let s1 := (s.fabricCheck (DRC_CH_FAULT_STATUS c) (if r.isRead then 1 else (r.data.length + 3) / 4)).2
  let ch : DramChan := { dramChan s1 c with last := r.port }
  if r.isRead && ch.wq.any (sameBurst r) then
    let bs := (ch.wq.filter (sameBurst r)).foldl (overlay (reqPhys r)) (tabGetRange dramDefault s1.drc.dram (reqPhys r) r.len)
    setDramChan c { ch with answers := ch.answers ++ [⟨r.port, r.burst, false, bs⟩] } s1
  else
    let r1 := { r with seq := ch.seq }
    if r.isRead then
      if ch.rq.length < 64 then setDramChan c { ch with rq := ch.rq ++ [r1], seq := ch.seq + 1 } s1 else s
    else if ch.wq.length < 64 then setDramChan c { ch with wq := ch.wq ++ [r1], seq := ch.seq + 1 } s1 else s

/-- A request arrives at channel `c`: outside every window, or where its burst or check burst maps to a channel whose group
is off, it is dropped and recorded (R423). -/
def arrive (c : Nat) (q : DrcArrival) (s : State) : State :=
  let a := q.burst * 64 + q.offset % 64
  match winFor s a with
  | none => unmapped s a
  | some w =>
    let len := min q.len (64 - q.offset % 64)
    let r := requestAt s q.port w a q.isRead len (if q.isRead then [] else (q.data ++ List.replicate len 0).take len)
    if reqChan s r ≠ c then s
    else if reqDead s r then unmapped s a
    else if w ∈ s.drc.zeroing then s
    else enterQueue c { r with unit := false, urg := if bitAt 16 (s.reg (DRC_PORT_QOS q.port)) then 3 else 0 } s

/-- The drain flag of R431 for the write queue's length. -/
def drainNext (ch : DramChan) : Bool :=
  let d := if ch.drain then true else decide (48 ≤ ch.wq.length)
  if d && decide (ch.wq.length ≤ 16) then false else d

/-- The kind of R431: reads go before writes, except in a drain. -/
def reqKind (drain : Bool) (r : DramReq) : Nat := if r.isRead then (if drain then 0 else 1) else (if drain then 1 else 0)

/-- `a` goes before `b` in R431: higher urgency, then higher kind, then older. -/
def reqBefore (drain : Bool) (a b : DramReq) : Bool :=
  decide (b.urg < a.urg) || (a.urg == b.urg && (decide (reqKind drain b < reqKind drain a)
    || (reqKind drain a == reqKind drain b && decide (a.seq < b.seq))))

/-- The request the scheduler picks among the candidates (R431). -/
def pickReq (drain : Bool) : List DramReq → Option DramReq
  | [] => none
  | r :: rs => match pickReq drain rs with
    | none => some r
    | some b => if reqBefore drain b r then some b else some r

/-- No older request of the same port to the same burst is queued: two such take effect in issue order (R432). -/
def mayIssue (ch : DramChan) (r : DramReq) : Bool :=
  (ch.rq ++ ch.wq).all (fun q => !(q.port == r.port && q.burst == r.burst && decide (q.seq < r.seq)))

/-- The requests the scheduler may pick: those whose bank can take a command, in the order of R432. -/
def schedulable (ch : DramChan) (ready : List Nat) : List DramReq :=
  (ch.rq ++ ch.wq).filter (fun r => ready.contains r.seq && mayIssue ch r)

/-- A queue entry leaves its queue. -/
def dropReq (seq : Nat) (ch : DramChan) : DramChan :=
  { ch with rq := ch.rq.filter (fun q => q.seq != seq), wq := ch.wq.filter (fun q => q.seq != seq) }

/-- Channel `c` issues a queued request: its queue word and, in a protected window, the words of its burst are checked; a
check error freezes the channel, which holds the request (R426, R436, R452). -/
def issueReq (c : Nat) (r : DramReq) (s : State) : State :=
  let taken := fun (t : State) => setDramChan c (dropReq r.seq (dramChan t c)) t
  let stop := fun (cause phys : Nat) (t : State) =>
    let (syn, u) := t.fresh
    freezeOn c cause phys syn.toNat r (taken u)
  match s.sramCheck (DRC_CH_FAULT_STATUS c) 1 [0, 1] with
  | (true, s1) => stop 2 (reqPhys r) s1
  | (false, s1) =>
    if r.isRead then
      match serveRead r s1 with
      | (_, some k, s2) => stop 1 (4 * k) s2
      | (bs, none, s2) =>
        let u := taken s2
        setDramChan c { dramChan u c with answers := (dramChan u c).answers ++ [⟨r.port, r.burst, false, bs⟩] } u
    else
      match serveWrite false r s1 with
      | (some k, s2) => stop 1 (4 * k) s2
      | (none, s2) => taken s2

/-- One command slot of channel `c`: a command that bank timing or refresh requires, or the request the scheduler picks
among those whose bank can take a command, by R431 and R432. -/
def commandSlot (c : Nat) (slot : SlotFacts) (s : State) : State :=
  let ch := dramChan s c
  let drain := drainNext ch
  let s1 := setDramChan c { ch with drain := drain } s
  match slot.bank with
  | some b => putDramChan c (noteCmd (cmdWord s1 (b.code % 16) (b.port % 64) b.burst) (dramChan s1 c)) s1
  | none =>
    match pickReq drain (schedulable ch slot.ready) with
    | none => s1
    | some r => issueReq c r s1

/-- CHANNEL_SCHEDULE: arrivals enter the queues as the fabric grants them, and the channel has one command slot; a channel
that is not ACTIVE issues nothing (R433, R435, R436). -/
def execChannelSchedule (channel : Nat) (arrivals : List DrcArrival) (slot : SlotFacts) (s : State) : Out :=
  done s (State.when (decide (channel < numChannels s.fuse.variant)) (fun t =>
    let t0 := if chanOn t channel then setDramChan channel { dramChan t channel with answers := [] } t else t
    let t1 := foldS (arrive channel) (fabricOrder arrivals.length (dramChan t0 channel).last arrivals) t0
    if chanOn t1 channel && chanState t1 channel == 1 then commandSlot channel slot t1 else t1) s)

/-- The urgency of a request after `cycles` in the queue under a target in units of 10 ns (R430). -/
def urgencyAt (target cycles : Nat) : Nat :=
  let t := max 1 target * 12
  if 90 * t ≤ 100 * cycles then 3 else if 75 * t ≤ 100 * cycles then 2 else if 50 * t ≤ 100 * cycles then 1 else 0

/-- URGENCY_RISE: requests past a threshold of their port's TARGET rise in urgency; urgency never falls (R430). -/
def execUrgencyRise (channel : Nat) (s : State) : Out :=
  done s (State.when (decide (channel < numChannels s.fuse.variant) && chanOn s channel) (fun t =>
    let up := fun (r : DramReq) =>
      { r with urg := max r.urg (urgencyAt (t.rd (DRC_PORT_QOS r.port) DRC_PORT_QOS.TARGET) (t.cyc - r.since)) }
    let ch := dramChan t channel
    setDramChan channel { ch with rq := ch.rq.map up, wq := ch.wq.map up } t) s)

/-- The power domain of the requester at a DRAM port (R429, R486). -/
def portDomain (p : Nat) : Nat :=
  if p ≤ 8 then 15 + p else if p ≤ 10 then 24 + (p - 9) else if p ≤ 27 then 26 else if p ≤ 30 then 32
  else if p ≤ 32 then 37 + (p - 31) else if p ≤ 34 then 39 else if p = 35 then 13 else 1

/-- A KEEP_AWAKE port has its domain on (R433); the sequencers' port counts with either sequencer domain, and the reserved
ports 39 to 47 have none. -/
def keptAwake (s : State) : Bool :=
  (List.range 39).any (fun p => bitAt 17 (s.reg (DRC_PORT_QOS p))
    && (s.domOn (portDomain p) || (p == 35 && s.domOn 14)))

/-- SELF_REFRESH: a channel with no queued request for IDLE_SR_NS enters self-refresh, unless kept awake (R433). -/
def execSelfRefresh (channel : Nat) (s : State) : Out :=
  done s (State.when (decide (channel < numChannels s.fuse.variant) && chanOn s channel
      && s.rd (DRC_CH_STATUS channel) DRC_CH_STATUS.STATE == 1 && !keptAwake s) (fun t =>
    let ch := dramChan t channel
    if ch.rq.isEmpty && ch.wq.isEmpty
    then putDramChan channel (noteCmd 8 ch) (t.wr (DRC_CH_STATUS channel) DRC_CH_STATUS.STATE 2) else t) s)

/-- SELF_REFRESH_EXIT: a request makes the channel exit, to be retrained before it serves it (R433, R435). -/
def execSelfRefreshExit (channel : Nat) (s : State) : Out :=
  done s (State.when (decide (channel < numChannels s.fuse.variant) && chanOn s channel
      && s.rd (DRC_CH_STATUS channel) DRC_CH_STATUS.STATE == 2) (fun t =>
    let ch := dramChan t channel
    if ch.rq.isEmpty && ch.wq.isEmpty then t else leaveSelfRefresh channel t) s)

/-- The channel whose turn background retraining has come to: channels are served one at a time in ascending order, and
those off, frozen or in self-refresh are skipped (R435). -/
def nextTrain (s : State) : Option Nat :=
  let n := numChannels s.fuse.variant
  ((List.range n).map (fun i => (s.drc.trainPos + i) % n)).find? (fun c =>
    chanOn s c && s.rd (DRC_CH_STATUS c) DRC_CH_STATUS.STATE == 1)

/-- RETRAINING: the sequencer retrains the channel whose turn has come, or a channel leaving self-refresh retrains before it
serves its first request (R435). -/
def execRetraining (channel durationNs : Nat) (inRange : Bool) (s : State) : Out :=
  done s (State.when (decide (channel < numChannels s.fuse.variant) && chanOn s channel && decide (durationNs ≤ 2000)
      && (s.rd (DRC_CH_STATUS channel) DRC_CH_STATUS.STATE == 3
        || (nextTrain s == some channel && s.flag DRC_TRAIN_CFG DRC_TRAIN_CFG.EN))) (fun t =>
    let t1 := (t.wr (DRC_CH_TRAIN channel) DRC_CH_TRAIN.LAST_NS durationNs).inc (DRC_CH_TRAIN channel) DRC_CH_TRAIN.RUNS
    let t2 := (if inRange then t1 else t1.setBit (DRC_CH_IRQ_STATUS channel) 2).wr
      (DRC_CH_STATUS channel) DRC_CH_STATUS.STATE 1
    if t.rd (DRC_CH_STATUS channel) DRC_CH_STATUS.STATE = 3 then t2
    else { t2 with drc := { t2.drc with trainPos := (channel + 1) % numChannels t2.fuse.variant } }) s)

/-! ## Scrubbing (R427) -/

/-- The enabled protected windows. -/
def protWindows (s : State) : List Nat := (List.range 64).filter (fun w => winEn s w && winProt s w)

/-- The lowest granule of the protected windows at or above an engine address. -/
def granuleFrom (s : State) (a : Nat) : Option Nat :=
  ((protWindows s).filterMap (fun w =>
    if a ≤ winBase s w then some (winBase s w)
    else if a < winBase s w + winSize s w then some (a / 256 * 256) else none)).foldl
    (fun acc x => match acc with | none => some x | some y => some (min x y)) none

/-- The scrubber's port (R429). -/
def scrubPort : Nat := 38

/-- Scrub one word of a granule: a correctable one is written back corrected (R426, R427). -/
def scrubWord (w a : Nat) (s : State) : State :=
  let r := requestAt s scrubPort w a true 4 []
  let c := reqChan s r
  if reqDead s r then unmapped s a
  else match accessStop s w r with
  | some t => s.trip t
  | none =>
    let k := reqPhys r / 4
    let s0 := if a % 64 = 0 then noteAccess { r with chk := none } s else s
    match tabGet (fun _ => 0) s0.drc.err k with
    | 0 => s0
    | 1 =>
      let t := noteAccess { r with isRead := false } (correctedWord s0 c)
      { t with drc := { t.drc with err := tabSet (fun _ => 0) t.drc.err k 0 } }
    | _ => ((s0.setReg64 DRC_SCRUB_UE_LO DRC_SCRUB_UE_HI a).inc DRC_SCRUB DRC_SCRUB.UE_COUNT).setBit
        (DRC_CH_IRQ_STATUS c) 1

/-- SCRUB: the scrubber reads the next granule and its check burst, writes back corrected words and records uncorrectable
ones (R427). -/
def execScrub (s : State) : Out :=
  done s (State.when (s.flag DRC_SCRUB DRC_SCRUB.EN && !s.flag TOP_MEMTEST_CTL TOP_MEMTEST_CTL.BUSY && s.domOn 1) (fun t =>
    let g := match granuleFrom t t.drc.scrubPos with
      | some x => some x
      | none => granuleFrom t 0
    match g with
    | none => t
    | some a =>
      match winFor t a with
      | none => t
      | some w =>
        let t0 := if reqDead t (requestAt t scrubPort w a true 4 []) then t else noteBurst 2 scrubPort (checkBurst t w a) t
        let t1 := foldS (fun i u => scrubWord w (a + 4 * i) u) (List.range 64) t0
        { t1 with drc := { t1.drc with scrubPos := a + 256 } }) s)

/-! ## Freeze and release (R436 to R439, R452) -/

/-- The request a check error names: the oldest queued one of its port and kind to its burst, or the access of a unit
(R436). -/
def failingReq (ch : DramChan) (r : DramReq) : DramReq :=
  ((if r.isRead then ch.rq else ch.wq).find? (sameBurst r)).getD r

/-- FREEZE: a check error freezes a channel, which holds the failing request at the head of its queue: an uncorrectable
word of a protected window, which is then marked, on a read, or an error on the command path (R436). -/
def execFreeze (channel : Nat) (cmdPath : Bool) (engAddr : Nat) (facts : FreezeFacts) (s : State) : Out :=
  done s (State.when (decide (channel < numChannels s.fuse.variant) && chanOn s channel && !chanFrozen s channel
      && chanState s channel != 0) (fun t =>
    match winFor t engAddr with
    | none => t
    | some w =>
      let q := requestAt t facts.port w engAddr facts.isRead 4 []
      let p := physOf t w engAddr / 4 * 4
      let r := failingReq (dramChan t channel) q
      let u := setDramChan channel (if r.unit then dramChan t channel else dropReq r.seq (dramChan t channel)) t
      if reqChan t q ≠ channel then t
      else if cmdPath then freezeOn channel 2 p facts.syndrome r u
      else if !winProt t w || !facts.isRead then t
      else freezeOn channel 1 p facts.syndrome r
        { u with drc := { u.drc with err := tabSet (fun _ => 0) u.drc.err (p / 4) 2 } }) s)

/-- A request that channel `c` held is handled as R439 says: a unit's access is handed back for its command to meet; a queued
read is answered as uncorrectable, and one that failed on the command path is discarded. -/
def releaseHeld (c cause seq : Nat) (s : State) : State :=
  let ch := dramChan s c
  match (ch.rq ++ ch.wq).find? (fun q => q.seq == seq) with
  | none => s
  | some r =>
    let t := setDramChan c (dropReq seq ch) s
    if r.unit then { t with drc := { t.drc with returned := t.drc.returned ++ [⟨r.port, r.burst, r.isRead, cause⟩] } }
    else if cause = 1 then
      if r.isRead then
        let bs := tabGetRange dramDefault t.drc.dram (reqPhys r) r.len
        setDramChan c { dramChan t c with answers := (dramChan t c).answers ++ [⟨r.port, r.burst, true, bs⟩] } t
      else (serveWrite true r t).2
    else t

/-- FREEZE_RELEASE: the channel resumes; a failing read returns uncorrectable, a request that failed on the command path
is discarded (R439). -/
def execFreezeRelease (channel : Nat) (data : Word) (s : State) : Out :=
  done s (State.when (decide (channel < 32) && bitAt 16 data && chanOn s channel && chanFrozen s channel) (fun t =>
    let cause := t.rd (DRC_CH_FREEZE channel) DRC_CH_FREEZE.CAUSE
    let h := tabGet (fun _ => 0) t.drc.held channel
    let t1 := (t.wr (DRC_CH_FREEZE channel) DRC_CH_FREEZE.FROZEN 0).wr (DRC_CH_STATUS channel) DRC_CH_STATUS.STATE 1
    let t2 := t1.clrBit DRC_FROZEN channel
    let t3 := if cause = 2 then t2.inc (DRC_CH_FREEZE channel) DRC_CH_FREEZE.DISCARDED else t2
    let t4 := setDramChan channel { dramChan t3 channel with answers := [] } t3
    let t5 := if h = 0 then t4 else releaseHeld channel cause (h - 1) t4
    { t5 with drc := { t5.drc with held := tabSet (fun _ => 0) t5.drc.held channel 0 } }) s)

/-- ECC_WRITE: a write of DRCc_ECC sets CE_TIDE and zeroes CE_COUNT (R452). -/
def execEccWrite (channel : Nat) (data : Word) (s : State) : Out :=
  done s (State.when (decide (channel < 32) && s.regLive (DRC_CH_ECC channel)) (fun t =>
    (t.hostWrite (DRC_CH_ECC channel) data).wr (DRC_CH_ECC channel) DRC_CH_ECC.CE_COUNT 0) s)

/-! ## The secure scratchpad and the life cycle (R446 to R451) -/

/-- The whole store is zeroed (R448, R449). -/
def wipeSecure (s : State) : State :=
  let t := { s with sec := { s.sec with mem := [], err := [] } }
  (t.inc SEC_WIPES SEC_WIPES.WIPES).setBit SEC_IRQ_STATUS 1

/-- TAMPER: TAMPER_N low for 1 µs: the event is recorded, and the store wiped if PD_SEC is on (R449). -/
def execTamper (s : State) : Out :=
  done s (State.when (s.pins.tamperN && s.domOn 0) (fun t =>
    let t1 := { t with pins := { t.pins with tamperN := false } }
    let t2 := (t1.inc SEC_TAMPER SEC_TAMPER.EVENTS).setBit SEC_TAMPER 1
    if t2.domOn 12 then (wipeSecure t2).setBit SEC_IRQ_STATUS 0 else t2) s)

/-- TAMPER_N_RISE: TAMPER_N is high again (R449). -/
def execTamperNRise (s : State) : Out :=
  done s { s with pins := { s.pins with tamperN := true } }

/-- SEC_LC_ARM: a transition code is armed (R450, R451). -/
def execSecLcArm (data : Word) (s : State) : Out :=
  done s (State.when (s.domOn 12) (fun t => { t with sec := { t.sec with arm := some data, armAt := t.cyc } }) s)

/-- The transitions of R450: from, to, code, and whether SVC_KEY_N must be low. -/
def lcTransitions : List (Nat × Nat × Nat × Bool) :=
  [(0, 1, 0x50524F56, false), (1, 2, 0x4445504C, true), (1, 3, 0x5245544E, true), (2, 3, 0x5245544E, true)]

/-- A transition to `target` is authorised (R451); CLK_PIX counts 1,200,000 cycles in 1 ms. -/
def lcAuthorised (s : State) (target : Nat) : Bool :=
  !s.locked && lcTransitions.any (fun r => r.1 == s.fuse.lifeCycle && r.2.1 == target
    && s.sec.arm == some (BitVec.ofNat 32 r.2.2.1) && (!r.2.2.2 || !s.pins.svcKeyN))
    && decide (s.cyc - s.sec.armAt ≤ 1200000)

/-- SEC_LC_GO: the transition starts with a wipe, or is refused (R451). -/
def execSecLcGo (data : Word) (s : State) : Out :=
  done s (State.when (bitAt 2 data && s.domOn 12 && s.sec.target.isNone) (fun t =>
    let target := bitsOf 1 0 data
    let t1 := t.hostWrite SEC_LC_CTL data
    if lcAuthorised t1 target then
      { (wipeSecure t1).wr SEC_LC_CTL SEC_LC_CTL.BUSY 1 with sec := { (wipeSecure t1).sec with target := some target } }
    else
      let t2 := (t1.wr SEC_LC_CTL SEC_LC_CTL.RESULT 2).setBit SEC_IRQ_STATUS 2
      { t2 with sec := { t2.sec with arm := none } }) s)

/-- LC_DONE: the fuses are written and SEC_LC_STATE takes the new state (R451). -/
def execLcDone (s : State) : Out :=
  done s (match s.sec.target with
    | none => s
    | some g =>
      let t := { s with fuse := { s.fuse with lifeCycle := g, burnt := g }, sec := { s.sec with target := none } }
      ((t.wr SEC_LC_CTL SEC_LC_CTL.BUSY 0).wr SEC_LC_CTL SEC_LC_CTL.RESULT 1).setBit SEC_IRQ_STATUS 2)

end Sys2Proof.Machine
end

