-- ==== Sys2Proof/Machine/Lamp.lean ====
section
/-!
DEFINITION. Lamp correction (R250 to R273): the tile map and its updates, tile states and strangers, serial writes, the
EOTF and matrix stores, the correction of a canvas line into drive values, exhausted lamps and the headroom manager.
-/
namespace Sys2Proof.Machine

/-! ## Tile-map entries (R250, R251) -/

/-- Steps 1 and 2 of R243 read in lamps: the footprint position of tile lamp (u, v) (R251). -/
def footPos (w : List Word) (u v : Nat) : Nat × Nat :=
  let u' := if tMirror w then tW w - 1 - u else u
  match tRot w with
  | 0 => (u', v)
  | 1 => (tH w - 1 - v, u')
  | 2 => (tW w - 1 - u', tH w - 1 - v)
  | _ => (v, tW w - 1 - u')

/-- The footprint index of tile lamp (u, v) (R251). -/
def footIndex (w : List Word) (u v : Nat) : Nat := (footPos w u v).2 * tFw w + (footPos w u v).1

def actTile (s : State) (t : Nat) : List Word := tabGet (fun _ => []) s.lmp.active t
def shdTile (s : State) (t : Nat) : List Word := tabGet (fun _ => []) s.lmp.shadow t
/-- Tile indices with an enabled entry in a map, ascending. -/
def enTiles (m : Tab (List Word)) : List Nat := tabKeys (m.filter (fun e => tEn e.2))

def tileState (s : State) (t : Nat) : Nat := tabGet (fun _ => 0) s.lmp.states t
def tsVacant : Nat := 0
def tsAwaited : Nat := 1
def tsLit : Nat := 2
def tsReplaced : Nat := 3
def tsMisplaced : Nat := 4
def tsSilent : Nat := 5
/-- States whose tiles are driven (R256). -/
def drivenState (x : Nat) : Bool := x == tsLit || x == tsReplaced || x == tsMisplaced

/-- One more than the highest enabled tile index in the active map (R285). -/
def tilesHi (s : State) : Nat := ((enTiles s.lmp.active).getLast?.map (fun t => t + 1)).getD 0

/-- The roster slot at a lane and position. -/
def slotAt (s : State) (place : Nat) : Option RosterSlot := tabGet (fun _ => none) s.plk.roster place

/-! ## TILEMAP_UPDATE (R252 to R254) -/

/-- LMP_TM_ERR records a refused job (R252). -/
def tmErr (tile cause : Nat) (s : State) : State :=
  (((s.wr LMP_TM_ERR LMP_TM_ERR.TILE tile).wr LMP_TM_ERR LMP_TM_ERR.CAUSE cause).inc LMP_TM_ERR LMP_TM_ERR.COUNT).setBit
    LMP_IRQ_STATUS 6

/-- A reserved field of an entry is not zero (R250). -/
def tileReserved (w : List Word) : Bool :=
  bitAt 25 (wordAt w 1) || decide (bitsOf 31 28 (wordAt w 3) ≠ 0) || wordAt w 6 != 0 || wordAt w 7 != 0

/-- The lowest of causes 1 to 5 that applies to tile `t` of the merged map; 0 where none does (R252). -/
def tileCause (s : State) (m : Tab (List Word)) (mine : Bool) (t : Nat) : Nat :=
  let w := tabGet (fun _ => []) m t
  if mine && (tileReserved w || decide (maxTiles s.fuse.variant ≤ t)) then 1
  else if !tEn w then 0
  else if decide (canvasW s < tX w + tFw w) || decide (canvasH s < tY w + tFh w) then 2
  else if numLanes s.fuse.variant ≤ tLane w then 3
  else if m.any (fun e => e.1 != t && tEn e.2 && tPlace e.2 == tPlace w) then 4
  else if s.rd LMP_GAIN_SIZE LMP_GAIN_SIZE.LAMPS < tOfs w + tLamps w then 5
  else 0

/-- Lamps of the enabled entries of a map. -/
def mapLamps (m : Tab (List Word)) : Nat := ((m.filter (fun e => tEn e.2)).map (fun e => tLamps e.2)).sum

/-- Step 4 of R252: the first failing tile of the merged map and its cause. Cause 6 names the job's first tile. -/
def mapCheck (s : State) (m : Tab (List Word)) (first count : Nat) : Option (Nat × Nat) :=
  let keys := (List.range first).filter (fun t => tEn (tabGet (fun _ => []) m t)) ++ List.range' first count
    ++ (tabKeys m).filter (fun t => decide (first + count ≤ t))
  match keys.findSome? (fun t =>
      let c := tileCause s m (decide (first ≤ t) && decide (t < first + count)) t
      if c = 0 then none else some (t, c)) with
  | some x => some x
  | none => if lampsFit s.fuse.variant (mapLamps m) (rateNow s) then none else some (first, 6)

/-- TILEMAP_UPDATE: the entries are read, checked against the shadow map with them merged in, and written into the
shadow, where they wait for the next lock gate outside HOLD (R252 to R254). -/
def execTilemapUpdate (slot : Nat) (s : State) : Out :=
  done s (State.when (s.startable slot opTilemapUpdate) (fun t =>
    let j := t.job slot
    let first := j.context
    let count := bitsOf 16 0 (j.w 2)
    let ofs := (j.w 4).toNat
    let refuse := fun (tile cause : Nat) (u : State) => fail slot stInternal (tmErr tile cause u)
    if bitsOf 31 16 (j.w 1) ≠ 0 ∨ bitsOf 31 17 (j.w 2) ≠ 0 then refuse first 1 t
    else if !isCurrent t (j.w 3) then fail slot stStaleHandle t
    else if count = 0 ∨ ofs % 32 ≠ 0 ∨ poolSize (hPool (j.w 3)) < ofs + 32 * count then refuse first 7 t
    else
      let (ws, bad, t1) := dramRdWordsFor LMP_FAULT_STATUS lampPort t (bufAddr t (j.w 3) + ofs) (8 * count)
      if bad then refuse first 7 t1
      else
        let put := fun (m : Tab (List Word)) (i : Nat) => tabSet (fun _ => []) m (first + i) ((ws.drop (8 * i)).take 8)
        let m := (List.range count).foldl put t1.lmp.shadow
        match mapCheck t1 m first count with
        | some (tile, cause) => refuse tile cause t1
        | none =>
          let dam := t1.lmp.damaged.filter (fun x => !(decide (first ≤ x) && decide (x < first + count)))
          let t2 := { t1 with lmp := { t1.lmp with shadow := m, damaged := dam } }
          present slot stOk [BitVec.ofNat 32 ((frameNo t2 + 1) % 2 ^ 24)] t2) s)

/-- SERIAL_WRITE: the engine's serial write is granted; it is dropped and counted where the shadow entry no longer
names the position it matched (R256, R259). -/
def execSerialWrite (tile : Nat) (s : State) : Out :=
  done s (match s.lmp.serials.find? (fun x => x.tile == tile) with
    | none => s
    | some x =>
      let t := { s with lmp := { s.lmp with serials := s.lmp.serials.erase x } }
      let w := shdTile t tile
      if w.isEmpty || tPlace w != x.lane * 1024 + x.pos then t.inc LMP_TM_ERR LMP_TM_ERR.COUNT
      else
        let w' := w.take 4 ++ [BitVec.ofNat 32 x.serial, BitVec.ofNat 32 (x.serial / 2 ^ 32)] ++ w.drop 6
        let owed := if t.lmp.owed.contains tile then t.lmp.owed else t.lmp.owed ++ [tile]
        { t with lmp := { t.lmp with shadow := tabSet (fun _ => []) t.lmp.shadow tile w', owed := owed } })

/-! ## Tile states at a lock gate (R254 to R260, R266) -/

/-- The committed entries become active together (R254). -/
def applyTilemap (s : State) : State :=
  let newly := (enTiles s.lmp.shadow).filter (fun t => !tEn (actTile s t))
  { s with lmp := { s.lmp with active := s.lmp.shadow, wasLit := s.lmp.wasLit.filter (fun t => !newly.contains t) } }

/-- The eight words of an entry are read for the gate: an uncorrectable error damages it, and a damaged entry is
uncorrectable whenever it is read (R266, R471, R541). -/
def checkEntry (t : Nat) (s : State) : State :=
  let (bad, s1) := s.sramCheck LMP_FAULT_STATUS 8
  if bad || s1.lmp.damaged.contains t then
    let s2 := s1.setFault LMP_FAULT_STATUS 1
    { s2 with lmp := { s2.lmp with damaged := if s2.lmp.damaged.contains t then s2.lmp.damaged else t :: s2.lmp.damaged } }
  else s1

/-- The state of tile `t` (R256). -/
def evalTile (s : State) (t : Nat) : Nat :=
  let w := actTile s t
  if !tEn w then tsVacant
  else if s.lmp.damaged.contains t then tsAwaited
  else match slotAt s (tPlace w) with
    | none => if s.lmp.wasLit.contains t then tsSilent else tsAwaited
    | some r =>
      if tSerial w = 0 ∨ r.serial = tSerial w then tsLit
      else if s.lmp.active.any (fun e => e.1 != t && tEn e.2 && tSerial e.2 == r.serial) then tsMisplaced
      else tsReplaced

/-- A LIT tile with SERIAL = 0 adopts the serial its slot holds (R256). -/
def adoptSerial (t : Nat) (s : State) : State :=
  let w := actTile s t
  match slotAt s (tPlace w) with
  | none => s
  | some r =>
    if tSerial w ≠ 0 ∨ tSerial (shdTile s t) = r.serial ∨ s.lmp.serials.any (fun x => x.tile == t) then s
    else { s with lmp := { s.lmp with serials := s.lmp.serials ++ [⟨t, tLane w, tPos w, r.serial⟩] } }

/-- One tile is evaluated at a gate. -/
def stepTile (t : Nat) (s : State) : State :=
  let s0 := if tEn (actTile s t) then checkEntry t s else s
  let old := tileState s0 t
  let new := evalTile s0 t
  let lit := if new = tsLit ∧ !s0.lmp.wasLit.contains t then t :: s0.lmp.wasLit else s0.lmp.wasLit
  let at' := if new = tsLit ∧ old ≠ tsLit then tabSet (fun _ => 0) s0.lmp.litAt t s0.cyc else s0.lmp.litAt
  let states := tabSet (fun _ => 0) s0.lmp.states t new
  let s1 := { s0 with lmp := { s0.lmp with states := states, wasLit := lit, litAt := at' } }
  let s2 := if new = old then s1 else s1.setBit LMP_IRQ_STATUS 0
  let s3 := if new = tsReplaced ∧ old ≠ tsReplaced then s2.setBit LMP_IRQ_STATUS 2 else s2
  let s4 := if new = tsMisplaced ∧ old ≠ tsMisplaced then s3.setBit LMP_IRQ_STATUS 3 else s3
  if new = tsLit then adoptSerial t s4 else s4

/-- Every entry is evaluated against its roster slot, and the counts of the map follow (R256, R272). -/
def evalTiles (s : State) : State :=
  let s1 := foldS stepTile (tabKeys s.lmp.active) s
  let lit := (s1.lmp.states.filter (fun e => e.2 == tsLit)).length
  (s1.wr LMP_LAMPS LMP_LAMPS.LAMPS (mapLamps s1.lmp.active)).wr LMP_TILE_COUNT LMP_TILE_COUNT.LIT lit

/-- The stranger listed at `k`: its place and serial. -/
def strangerAt (s : State) (k : Nat) : Option (Nat × Nat) :=
  let w := s.raw (LMP_STRG_POS k)
  if bitAt 31 w then
    some (bitsOf 5 0 w * 1024 + bitsOf 15 6 w, (s.raw (LMP_STRG_LO k)).toNat + (s.raw (LMP_STRG_HI k)).toNat * 2 ^ 32)
  else none

/-- Show a stranger, or none, at `k` of the list. -/
def putStranger (k : Nat) (x : Option (Nat × Nat)) (s : State) : State :=
  match x with
  | none => ((s.setReg (LMP_STRG_LO k) 0).setReg (LMP_STRG_HI k) 0).setReg (LMP_STRG_POS k) 0
  | some (p, n) => (s.setReg64 (LMP_STRG_LO k) (LMP_STRG_HI k) n).setReg (LMP_STRG_POS k)
      (BitVec.ofNat 32 (p / 1024 % 64 + p % 1024 * 64 + 2 ^ 31))

/-- The receivers no enabled entry names: places and serials, ascending (R257). -/
def strangers (s : State) : List (Nat × Nat) :=
  let named := (s.lmp.active.filter (fun e => tEn e.2)).map (fun e => tPlace e.2)
  s.plk.roster.filterMap (fun e => match e.2 with
    | none => none
    | some r => if named.contains e.1 then none else some (e.1, r.serial))

/-- The stranger list at a gate: those that left go, those found are listed up to 256 or counted (R257). -/
def listStrangers (s : State) : State :=
  let found := strangers s
  let s1 := foldS (fun k t => match strangerAt t k with
    | none => t
    | some x => if found.contains x then t else putStranger k none t) (List.range 256) s
  let s2 := { s1 with lmp := { s1.lmp with unlisted := s1.lmp.unlisted.filter (fun x => found.contains x) } }
  let listed := (List.range 256).filterMap (strangerAt s2)
  let s3 := foldS (fun (x : Nat × Nat) t =>
    if listed.contains x then t
    else
      let new := !t.lmp.unlisted.contains x
      let t1 := if new then t.setBit LMP_IRQ_STATUS 1 else t
      match (List.range 256).find? (fun k => (strangerAt t1 k).isNone) with
      | some k =>
        let t2 := putStranger k (some x) t1
        { t2 with lmp := { t2.lmp with unlisted := t2.lmp.unlisted.erase x } }
      | none =>
        if new then
          let t2 := t1.inc LMP_STRG_COUNT LMP_STRG_COUNT.OVERFLOW
          { t2 with lmp := { t2.lmp with unlisted := t2.lmp.unlisted ++ [x] } }
        else t1) found s2
  s3.wr LMP_STRG_COUNT LMP_STRG_COUNT.LISTED ((List.range 256).filterMap (strangerAt s3)).length

/-! ## The EOTF table and the matrix store (R262, R263) -/

/-- LMP_EOTF_LOAD: LOAD begins to read the image into the idle copy. -/
def execLmpEotfLoad (data : Word) (s : State) : Out :=
  done s (State.when (bitAt 0 data && s.domOn 32) (fun t =>
    let a := t.rd LMP_EOTF_SRC_LO LMP_EOTF_SRC_LO.ADDR_LO * 64 + (t.reg LMP_EOTF_SRC_HI).toNat * 2 ^ 32
    let t1 := t.wr LMP_EOTF_CTL LMP_EOTF_CTL.PENDING 0
    { t1 with lmp := { t1.lmp with eotfAt := some a } }) s)

/-- LMP_EOTF_LOAD_DONE: the image is in the idle copy, or an uncorrectable read has failed the load. -/
def execLmpEotfLoadDone (s : State) : Out :=
  done s (match s.lmp.eotfAt with
    | none => s
    | some a =>
      let (ws, bad, t) := dramRdWordsFor LMP_FAULT_STATUS lampPort s a 4096
      let t1 := { t with lmp := { t.lmp with eotfAt := none } }
      if bad then t1.wr LMP_EOTF_CTL LMP_EOTF_CTL.ERROR 1
      else
        let t2 := (t1.wr LMP_EOTF_CTL LMP_EOTF_CTL.PENDING 1).wr LMP_EOTF_CTL LMP_EOTF_CTL.ERROR 0
        { t2 with lmp := { t2.lmp with idle := tabSetRange (fun _ => 0) [] 0 (ws.map (bitsOf 19 0)) } })

/-- A lock gate switches to a loaded EOTF table (R262). -/
def switchEotf (s : State) : State :=
  if s.flag LMP_EOTF_CTL LMP_EOTF_CTL.PENDING then
    let t := (s.wr LMP_EOTF_CTL LMP_EOTF_CTL.PENDING 0).wr LMP_EOTF_CTL LMP_EOTF_CTL.VALID 1
    { t with lmp := { t.lmp with eotf := t.lmp.idle, idle := [] } }
  else s

def eotfAt (s : State) (v : Nat) : Nat := tabGet (fun _ => 0) s.lmp.eotf v

/-- LMP_MTX_GO: FIRST is written, and GO begins a load unless one runs. -/
def execLmpMtxGo (data : Word) (s : State) : Out :=
  done s (State.when (s.domOn 32) (fun t =>
    let t0 := t.hostWrite LMP_MTX_CTL data
    if !bitAt 31 data || t0.flag LMP_MTX_CTL LMP_MTX_CTL.BUSY then t0
    else
      let first := t0.rd LMP_MTX_CTL LMP_MTX_CTL.FIRST
      let count := t0.rd LMP_MTX_COUNT LMP_MTX_COUNT.COUNT
      if 65536 < first + count then t0.wr LMP_MTX_CTL LMP_MTX_CTL.ERROR 1
      else
        let a := t0.rd LMP_MTX_SRC_LO LMP_MTX_SRC_LO.ADDR_LO * 32 + (t0.reg LMP_MTX_SRC_HI).toNat * 2 ^ 32
        let t1 := (t0.wr LMP_MTX_CTL LMP_MTX_CTL.BUSY 1).wr LMP_MTX_CTL LMP_MTX_CTL.ERROR 0
        { t1 with lmp := { t1.lmp with mtxLoad := some (a, first, count) } }) s)

def identityMtx : List Int := [16384, 0, 0, 0, 16384, 0, 0, 0, 16384]

/-- The matrices of a load, in order, until a read fails. -/
def loadMatrices : Nat → Nat → Nat → State → State
  | 0, _, _, s => s
  | n + 1, a, i, s =>
    let (bs, bad, t) := dramRdFor LMP_FAULT_STATUS lampPort s a 32
    if bad then t.wr LMP_MTX_CTL LMP_MTX_CTL.ERROR 1
    else
      let m := (List.range 9).map (fun j => signed16 (half bs (2 * j)))
      loadMatrices n (a + 32) (i + 1)
        { t with lmp := { t.lmp with mtx := tabSet (fun _ => []) t.lmp.mtx i m } }

/-- LMP_MTX_LOAD_DONE: the load has ended; entries read before a failure stand. -/
def execLmpMtxLoadDone (s : State) : Out :=
  done s (match s.lmp.mtxLoad with
    | none => s
    | some (a, first, count) =>
      let t := loadMatrices count a first (s.wr LMP_MTX_CTL LMP_MTX_CTL.BUSY 0)
      { t with lmp := { t.lmp with mtxLoad := none } })

/-! ## The correction pipeline (R261, R264 to R267) -/

/-- The 16 × 16 ordered dither matrix (R265). -/
def bayer (x y : Nat) : Nat :=
  ((List.range 4).map (fun k => (Nat.xor x y / 2 ^ k % 2) * 2 ^ (7 - 2 * k) + (y / 2 ^ k % 2) * 2 ^ (6 - 2 * k))).sum

/-- The wall level the pipeline uses: LMP_LEVEL in force, at most 1.0. -/
def levelNow (s : State) : Nat := min 8388608 (bitsOf 23 0 (cmpIn s LMP_LEVEL))

/-- The headroom ceiling of channel `k`, in units of q (R261). -/
def headroom (s : State) (k : Nat) : Nat :=
  16 * match k with
  | 0 => bitsOf 15 0 (cmpIn s LMP_HEADROOM_RG)
  | 1 => bitsOf 31 16 (cmpIn s LMP_HEADROOM_RG)
  | _ => bitsOf 15 0 (cmpIn s LMP_HEADROOM_B)

/-- m of channel `k` for linear values (R261). -/
def mtxOut (m : List Int) (k : Nat) (lin : Nat → Nat) : Nat :=
  let c := fun (j : Nat) => m.getD (3 * k + j) 0
  (clampInt 0 2097151 ((c 0 * lin 0 + c 1 * lin 1 + c 2 * lin 2 + 8192) / 16384)).toNat

/-- A value times a gain and the wall level (R261, R267). -/
def gainLevel (m g level : Nat) : Nat := (m * g * level + 0x80000000) / 2 ^ 32

/-- Drive code from q and the dither value (R261). -/
def driveCode (d12 : Bool) (q b : Nat) : Nat := if d12 then min 4095 ((q + b) / 256) else (q + b / 16) / 16

/-- The dither value of a canvas position in frame `f` (R265). -/
def ditherAt (s : State) (f x y : Nat) : Nat :=
  if !s.flag LMP_CTL LMP_CTL.DITHER_EN then 128
  else if s.flag LMP_CTL LMP_CTL.TEMPORAL then bayer ((x + 5 * f) % 16) ((y + 9 * f) % 16)
  else bayer (x % 16) (y % 16)

/-- Channel `k` of a triple. -/
def chan (c : Nat × Nat × Nat) (k : Nat) : Nat := match k with | 0 => c.1 | 1 => c.2.1 | _ => c.2.2

/-- The three channels of a computation. -/
def each3 (f : Nat → Nat) : Nat × Nat × Nat := (f 0, f 1, f 2)

/-- The gains of a gain word (R264). -/
def gainsOf (w : Word) : Nat × Nat × Nat := (bitsOf 9 0 w, bitsOf 19 10 w, bitsOf 29 20 w)

/-- Address of the gain word at an index (R264). -/
def gainAddr (s : State) (i : Nat) : Nat :=
  s.rd LMP_GAIN_BASE_LO LMP_GAIN_BASE_LO.BASE_LO * 64 + (s.reg LMP_GAIN_BASE_HI).toNat * 2 ^ 32 + 4 * i

/-- The matrix a tile uses for a line: the identity for a line on which a word of it is uncorrectable (R266). -/
def matrixFor (t : Nat) (s : State) : List Int × State :=
  match s.sramFault LMP_FAULT_STATUS 8 with
  | (true, s1) => (identityMtx, s1)
  | (false, s1) => (tabGet (fun _ => []) s1.lmp.mtx (tMatrix (actTile s t)), s1)

/-- The placeholder drive of a tile (R272). -/
def placeholder (s : State) (d12 : Bool) : Nat × Nat × Nat :=
  let f := fun (x : Nat) => if d12 then x / 16 else x
  (f (s.rd LMP_PLACEHOLDER_RG LMP_PLACEHOLDER_RG.PH_R), f (s.rd LMP_PLACEHOLDER_RG LMP_PLACEHOLDER_RG.PH_G),
    f (s.rd LMP_PLACEHOLDER_B LMP_PLACEHOLDER_B.PH_B))

/-- A lamp is exhausted (R267): `need` exceeds the ceiling on some channel, or a gain is 1,023. -/
def lampExhausted (need g hr : Nat × Nat × Nat) : Bool :=
  (List.range 3).any (fun k => decide (chan hr k < chan need k) || chan g k == 1023)

/-- Note what a corrected row needs, and a tile with an exhausted lamp (R267, R269). -/
def noteNeed (t : Nat) (needs : List (Nat × Nat × Nat)) (gs : List (Nat × Nat × Nat)) (s : State) : State :=
  let hr := each3 (headroom s)
  let need := (List.range 3).map (fun k => needs.foldl (fun a n => max a (chan n k)) (s.lmp.need.getD k 0))
  let exh := (needs.zip gs).any (fun p => lampExhausted p.1 p.2 hr)
  { s with lmp := { s.lmp with need := need, exh := if exh && !s.lmp.exh.contains t then s.lmp.exh ++ [t] else s.lmp.exh } }

/-- The gains the exhaustion test of the frame uses for row `b` of tile `t`: those the row is corrected with, or, where a
tile step has changed them in this frame, those before it (R271). -/
def testGains (s : State) (t b : Nat) (gs : List (Nat × Nat × Nat)) : List (Nat × Nat × Nat) :=
  match s.lmp.tested.find? (fun e => e.1 == t) with
  | none => gs
  | some e => ((e.2.drop (b * tFw (actTile s t))).take (tFw (actTile s t))).map gainsOf

/-- Row `y` of a driven tile with its gains read: the drive values of its lamps (R261, R267). -/
def correctRow (t y : Nat) (line gs : List (Nat × Nat × Nat)) (s : State) : List (Nat × Nat × Nat) × State :=
  let w := actTile s t
  let (m, s1) := matrixFor t s
  let (more, s2) := freeRgb (tX w + tFw w - max (tX w) line.length) s1
  let px := ((line ++ more).drop (tX w)).take (tFw w)
  let f := frameNo s2
  let lv := levelNow s2
  let top := eotfAt s2 4095
  let white := each3 (fun k => mtxOut m k (fun _ => top))
  let lamp := fun (p : Nat × (Nat × Nat × Nat) × (Nat × Nat × Nat)) =>
    let (a, c, g) := p
    let b := ditherAt s2 f (tX w + a) y
    each3 (fun k =>
      let lin := fun j => eotfAt s2 (chan c j)
      driveCode (tDrive12 w) (min (gainLevel (mtxOut m k lin) (chan g k) lv) (headroom s2 k)) b)
  let tested := testGains s2 t (y - tY w) gs
  let needs := tested.map (fun g => each3 (fun k => gainLevel (chan white k) (chan g k) lv))
  (((List.range (tFw w)).zip (px.zip gs)).map lamp, noteNeed t needs tested s2)

/-- A footprint row joins the rows of its tile that wait for a PIXEL frame (R316). -/
def putRow (key b : Nat) (row : List (Nat × Nat × Nat)) (s : State) : State :=
  let old := tabGet (fun _ => ⟨0, 0, []⟩) s.lmp.pix key
  let new : PixRows := if old.frame = frameNo s ∧ old.start + old.rows.length = b then { old with rows := old.rows ++ [row] }
    else ⟨frameNo s, b, [row]⟩
  { s with lmp := { s.lmp with pix := tabSet (fun _ => ⟨0, 0, []⟩) s.lmp.pix key new } }

/-- Canvas line `y` reaches one tile: its row is corrected or takes the placeholder, and waits to be sent. Answers the
row's drive values (R256, R258, R261, R264). -/
def lampTile (y t : Nat) (line : List (Nat × Nat × Nat)) (s : State) : Option (List (Nat × Nat × Nat)) × State :=
  let w := actTile s t
  let st := tileState s t
  if y < tY w ∨ tY w + tFh w ≤ y ∨ !drivenState st then (none, s)
  else
    let b := y - tY w
    if st = tsMisplaced ∨ (st = tsReplaced ∧ s.flag LMP_CTL LMP_CTL.REPLACE_FILL) then
      let row := List.replicate (tFw w) (placeholder s (tDrive12 w))
      (some row, putRow t b row s)
    else if st = tsReplaced then
      let (row, s1) := correctRow t y line (List.replicate (tFw w) (512, 512, 512)) s
      (some row, putRow t b row s1)
    else
      let (ws, bad, s1) := dramRdWordsFor LMP_FAULT_STATUS lampPort s (gainAddr s (tOfs w + b * tFw w)) (tFw w)
      if bad then (none, s1.setFault LMP_FAULT_STATUS 1)
      else
        let (row, s2) := correctRow t y line (ws.map gainsOf) s1
        (some row, putRow t b row s2)

/-- Lamp correction is on for the frame (R272). -/
def lampsOn (s : State) : Bool := s.domOn 32 && bitAt 0 (cmpIn s LMP_CTL)

/-! ## Exhausted lamps and the headroom manager (R268, R269) -/

/-- COMP_EXHAUSTED of tile `t`. -/
def exhBit (s : State) (t : Nat) : Bool := bitAt (t % 32) (s.raw (LMP_EXH_BITMAP (t / 32)))

/-- The end of a frame's correction (R268, R269). -/
def endExhausted (s : State) : State :=
  let s1 := foldS (fun t u =>
    if exhBit u t then u else (u.setBit (LMP_EXH_BITMAP (t / 32)) (t % 32)).setBit LMP_IRQ_STATUS 4) s.lmp.exh s
  let s2 := s1.setReg LMP_EXH_TILES (BitVec.ofNat 32 s.lmp.exh.length)
  let s3 := foldS (fun k u => u.setReg (LMP_NEED_MAX k) (BitVec.ofNat 32 (s.lmp.need.getD k 0))) (List.range 3) s2
  let minute := (List.range 3).map (fun k => max (s.lmp.minute.getD k 0) (s.lmp.need.getD k 0))
  { s3 with lmp := { s3.lmp with exh := [], exhDue := false, need := [0, 0, 0], minute := minute } }

/-- EXHAUSTED: at the end of a frame the bits of the tiles with an exhausted lamp set (R268). -/
def execExhausted (s : State) : Out := done s (State.when s.lmp.exhDue endExhausted s)

/-- HEADROOM_MANAGER: the minute has ended, and the manager steps LEVEL towards its target (R269). -/
def execHeadroomManager (s : State) : Out :=
  done s (State.when (s.domOn 32 && s.flag LMP_HRM_CTL LMP_HRM_CTL.EN) (fun t =>
    let level := min 8388608 (t.rd LMP_LEVEL LMP_LEVEL.LEVEL)
    let need := fun (k : Nat) => t.lmp.minute.getD k 0
    let fit := (List.range 3).foldl (fun a k => if 0 < need k then min a (level * headroom t k / need k) else a) 8388608
    let target := min (min 8388608 (t.rd LMP_LEVEL_MAX LMP_LEVEL_MAX.LEVEL_MAX)) fit
    let low := t.rd LMP_LEVEL_MIN LMP_LEVEL_MIN.LEVEL_MIN
    let step := max 1 (level * 5 / 60000)
    let l1 := if target < level then max (max target (level - step)) low else level
    let l2 := if l1 < target then min target (l1 + step) else l1
    let floor := decide (target < low) && l2 == low
    let t1 := (t.wr LMP_HRM_STATUS LMP_HRM_STATUS.TARGET target).wr LMP_HRM_STATUS LMP_HRM_STATUS.AT_FLOOR floor.toNat
    let t2 := if floor then t1.setBit LMP_IRQ_STATUS 5 else t1
    { t2 with lmp := { t2.lmp with minute := [0, 0, 0], level := some l2 } }) s)

/-- A lock gate takes the level the manager set (R269). -/
def takeLevel (s : State) : State :=
  match s.lmp.level with
  | none => s
  | some l =>
    let t := s.wr LMP_LEVEL LMP_LEVEL.LEVEL l
    { t with lmp := { t.lmp with level := none } }

end Sys2Proof.Machine
end

