-- ==== Sys2Proof/Machine/Links.lean ====
section
/-!
DEFINITION. The panel links (R304 to R345): lanes and their states, loops and routes, the roster, discovery, the towpath
frames the engine takes, STATUS checks and the frame clock with genlock.
-/
namespace Sys2Proof.Machine

/-! ## Lanes -/

/-- A lane whose power domain was just switched on. -/
def LaneSt.reset : LaneSt :=
  ⟨false, 2, 0, none, [], [], [], [], 0, false, [0, 0, 0, 0], 0, 0, [], [0, 0, 0, 0], none, [], false, false, false, 0, []⟩

def laneOf (s : State) (n : Nat) : LaneSt := tabGet (fun _ => LaneSt.reset) s.plk.lanes n
def setLane (n : Nat) (x : LaneSt) (s : State) : State :=
  { s with plk := { s.plk with lanes := tabSet (fun _ => LaneSt.reset) s.plk.lanes n x } }

/-- Lane `n` is present and its domain is on. -/
def laneLive (s : State) (n : Nat) : Bool := decide (n < numLanes s.fuse.variant) && s.domOn (33 + n / 16)

def lsDisabled : Nat := 0
def lsDown : Nat := 1
def lsSettling : Nat := 2
def lsDiscovering : Nat := 3
def lsUp : Nat := 4
def laneState (s : State) (n : Nat) : Nat := s.rd (PLK_LANE_STATUS n) PLK_LANE_STATUS.STATE
def laneUp (s : State) (n : Nat) : Bool := laneLive s n && laneState s n == lsUp
def laneIrq (n b : Nat) (s : State) : State := s.setBit (PLK_LANE_IRQ_STATUS n) b

/-- A lane's state changes (R338). -/
def setLaneState (n st : Nat) (s : State) : State :=
  if laneState s n = st then s else laneIrq n 0 (s.wr (PLK_LANE_STATUS n) PLK_LANE_STATUS.STATE st)

/-! ## Loops (R341, R342) -/

def loopEn (s : State) (p : Nat) : Bool := bitAt 0 (s.raw (PLK_LANE_LOOP p))
def loopLen (s : State) (p : Nat) : Nat := s.rd (PLK_LANE_LOOP p) PLK_LANE_LOOP.LOOP_LEN

/-- The partner of a loop's primary lane, where the loop is set as R341 has it. -/
def partnerOf (s : State) (p : Nat) : Option Nat :=
  let q := s.rd (PLK_LANE_LOOP p) PLK_LANE_LOOP.PARTNER
  if loopEn s p && decide (q < numLanes s.fuse.variant) && q != p && !loopEn s q then some q else none

/-- The primary lane whose partner `n` is. -/
def primaryOf (s : State) (n : Nat) : Option Nat := (List.range 64).find? (fun p => partnerOf s p == some n)

/-- The lane whose roster holds the receivers lane `n` reaches. -/
def ownerOf (s : State) (n : Nat) : Nat := (primaryOf s n).getD n

/-- The lanes that reach the roster of lane `n`. -/
def endsOf (s : State) (n : Nat) : List Nat := n :: (partnerOf s n).toList

/-- A lane in a loop, at either end. -/
def inLoop (s : State) (n : Nat) : Bool := (partnerOf s n).isSome || (primaryOf s n).isSome

/-- The roster place of position `p` heard on lane `n`; none outside the loop (R341). -/
def placeOf (s : State) (n p : Nat) : Option Nat :=
  if 1024 ≤ p then none
  else match primaryOf s n with
    | some m => if p < loopLen s m then some (m * 1024 + (loopLen s m - 1 - p)) else none
    | none => if (partnerOf s n).isSome ∧ loopLen s n ≤ p then none else some (n * 1024 + p)

/-- The position on lane `n`, one of its ends, of a roster place. -/
def posOn (s : State) (n place : Nat) : Nat :=
  if place / 1024 = n then place % 1024 else loopLen s (place / 1024) - 1 - place % 1024

/-- Where forward frames for a roster place go: lane and CHAIN_POS, by the SPLIT in force (R342). -/
def routeOf (s : State) (place : Nat) : Nat × Nat :=
  let p := place / 1024
  let q := place % 1024
  match partnerOf s p with
  | some m => if q < (laneOf s p).split then (p, q) else (m, loopLen s p - 1 - q)
  | none => (p, q)

/-! ## The roster (R339, R340) -/

def putSlot (place : Nat) (x : Option RosterSlot) (s : State) : State :=
  { s with plk := { s.plk with roster := tabSet (fun _ => none) s.plk.roster place x } }

/-- A roster slot empties. -/
def emptySlot (place : Nat) (s : State) : State :=
  match slotAt s place with
  | none => s
  | some _ => laneIrq (place / 1024) 1 (putSlot place none s)

/-- The filled places of lane `n`'s roster. -/
def filledOf (s : State) (n : Nat) : List Nat := (tabKeys s.plk.roster).filter (fun k => k / 1024 == n)

/-! ## Frames (R309 to R313) -/

/-- A control frame of the engine: no job, no drive data. -/
def ctlFrame (cls typ flags pos frame arg serial : Nat) (data : List Byte) : LinkFrame :=
  ⟨cls, 0, typ, flags, pos, frame, 0, 0, 0, arg, serial, data, none, false, 0⟩

/-- Queue a frame on lane `n` in its class. A lane holds at most 4 CONTROL frames, and the engine's own wait for room
(R375). -/
def enqueue (n : Nat) (f : LinkFrame) (s : State) : State :=
  let l := laneOf s n
  setLane n (match f.cls with
    | 0 => { l with q0 := l.q0 ++ [f] }
    | 1 => { l with q1 := l.q1 ++ [f] }
    | 2 => if l.q2.length < 4 ∧ l.wait2.isEmpty then { l with q2 := l.q2 ++ [f] } else { l with wait2 := l.wait2 ++ [f] }
    | _ => { l with q3 := l.q3 ++ [f] }) s

/-- CONTROL frames of the engine that waited take the room there is (R375). -/
def LaneSt.takeRoom (l : LaneSt) : LaneSt :=
  let k := 4 - l.q2.length
  { l with q2 := l.q2 ++ l.wait2.take k, wait2 := l.wait2.drop k }

/-- A number as `n` bytes in network order. -/
def netBytes (n x : Nat) : List Byte := (natBytes n x).reverse

/-! ## Lanes coming up and going down (R304, R313, R338, R340, R353) -/

/-- The rate a lane tries: its fixed rate, or the one it has alternated to (R304); RATE 3 acts as 0. -/
def laneRate (s : State) (n : Nat) : Nat :=
  match s.rd (PLK_LANE_CFG n) PLK_LANE_CFG.RATE with
  | 1 => 2
  | 2 => 1
  | _ => (laneOf s n).rate

/-- The frames a lane holds with a job: queued or on the wire. -/
def jobFrames (l : LaneSt) : List LinkFrame :=
  (l.q2 ++ l.q3 ++ l.wire.toList).filter (fun f => f.job.isSome)

/-- Frame `f` of a LINK_SEND will not leave: the job completes with LINK_DOWN (R353). -/
def failFrame (f : LinkFrame) (s : State) : State :=
  match f.job with
  | none => s
  | some r => presentRef r stLinkDown [] s

/-- Positions of a frame's STATUS heard on lane `n`. -/
def heardOn (s : State) (frame n : Nat) : List Nat :=
  (s.plk.status.filter (fun e => e.1 == frame && e.2.1 == n)).map (fun e => e.2.2)

/-- Lane `m` still hears the receiver at a roster place: a STATUS of the last four frames came from it there, or a reply of
the discovery window (R340, assumption 130). -/
def stillHeard (s : State) (replies : List (Nat × Nat)) (m place : Nat) : Bool :=
  s.plk.frames.any (fun f => (heardOn s f m).contains (posOn s m place)) || replies.contains (m, place % 1024)

/-- Lane `n` leaves its state for DOWN or DISABLED: its frames go, LINK_SEND jobs end, its part of a discovery window ends,
and roster slots no other end still hears empty (R338, R339, R340, R353). PIXEL frames stay, and the next gate discards them
(R318). -/
def laneLeave (n st : Nat) (s : State) : State :=
  let l := laneOf s n
  let s1 := foldS failFrame (jobFrames l) s
  let s2 := setLane n { l with lock := false, q0 := [], q2 := [], q3 := [], wire := none, wait2 := [] } s1
  let s3 := setLaneState n st ((s2.wr (PLK_LANE_STATUS n) PLK_LANE_STATUS.SPEED 0).wr (PLK_LANE_STATUS n)
    PLK_LANE_STATUS.REDISCOVER 0)
  let o := ownerOf s3 n
  let others := (endsOf s3 o).filter (fun m => m != n && laneLive s3 m && decide (lsDiscovering ≤ laneState s3 m))
  let replies := ((laneOf s3 o).replies.getD []).filter (fun r => r.1 != n)
  let s4 := foldS (fun k t => if others.any (fun m => stillHeard t replies m k) then t else emptySlot k t) (filledOf s3 o) s3
  if others.isEmpty then setLane o { laneOf s4 o with replies := none } s4
  else setLane o { laneOf s4 o with replies := (laneOf s4 o).replies.map (fun _ => replies) } s4

/-- LANE_EN: a write of PLK_LANEn_CFG enables or disables the lane, or fixes its rate (R304, R338). -/
def execLaneEn (lane : Nat) (data : Word) (s : State) : Out :=
  done s (State.when (laneLive s lane) (fun t =>
    let old := s.flag (PLK_LANE_CFG lane) PLK_LANE_CFG.EN
    let t1 := t.hostWrite (PLK_LANE_CFG lane) data
    let new := t1.flag (PLK_LANE_CFG lane) PLK_LANE_CFG.EN
    if (laneOf t1 lane).bist then t1
    else if new && !old then setLaneState lane lsDown (setLane lane { laneOf t1 lane with rate := 2 } t1)
    else if old && !new then laneLeave lane lsDisabled t1
    else if decide (lsSettling ≤ laneState t1 lane) && laneRate t1 lane != (laneOf t1 lane).rate then laneLeave lane lsDown t1
    else t1) s)

/-- RATE_ALTERNATION: a lane without block lock tries the other rate (R304). -/
def execRateAlternation (lane : Nat) (s : State) : Out :=
  done s (State.when (laneLive s lane && laneState s lane == lsDown
      && (s.rd (PLK_LANE_CFG lane) PLK_LANE_CFG.RATE == 0 || s.rd (PLK_LANE_CFG lane) PLK_LANE_CFG.RATE == 3)) (fun t =>
    let l := laneOf t lane
    setLane lane { l with rate := if l.rate = 2 then 1 else 2 } t) s)

/-- BLOCK_LOCK: the lane enters SETTLING; SEQ restarts, credits and deficits are zero (R313, R338, R377). -/
def execBlockLock (lane : Nat) (s : State) : Out :=
  done s (State.when (laneLive s lane && laneState s lane == lsDown) (fun t =>
    let l := laneOf t lane
    let r := laneRate t lane
    let t1 := setLane lane { l with lock := true, rate := r, seq := 0, credit1 := 0, credit2 := 0, deficit := [0, 0, 0, 0],
                                    looped := false } t
    setLaneState lane lsSettling (t1.wr (PLK_LANE_STATUS lane) PLK_LANE_STATUS.SPEED r)) s)

/-- BLOCK_LOCK_LOSS: block lock has been lost for 1 ms; the lane goes DOWN (R338). -/
def execBlockLockLoss (lane : Nat) (s : State) : Out :=
  done s (State.when (laneLive s lane && decide (lsSettling ≤ laneState s lane)) (fun t => laneLeave lane lsDown t) s)

/-! ## Discovery (R321, R329, R339) -/

/-- The DISCOVER frame. -/
def discoverFrame : LinkFrame := ctlFrame 2 0x20 1 0 0 0 0 []

/-- DISCOVER goes out on every end of the lane's roster that can send it, and the window opens (R339, R342). -/
def discover (n : Nat) (s : State) : State :=
  let o := ownerOf s n
  let able := (endsOf s o).filter (fun m => laneLive s m && decide (lsDiscovering ≤ laneState s m))
  let s1 := foldS (fun m t =>
    let t1 := enqueue m discoverFrame t
    if laneState t1 m = lsUp then t1.wr (PLK_LANE_STATUS m) PLK_LANE_STATUS.REDISCOVER 1 else t1) able s
  let l := laneOf s1 o
  setLane o { l with replies := some [] } s1

/-- SETTLING_END: after 20 ms the lane sends DISCOVER and collects replies (R338, R339). -/
def execSettlingEnd (lane : Nat) (s : State) : Out :=
  done s (State.when (laneLive s lane && laneState s lane == lsSettling) (fun t =>
    discover lane (setLaneState lane lsDiscovering t)) s)

/-- DISCOVER: software asks for a DISCOVER; a lane that is neither DISCOVERING nor UP sends none (R338, R339). -/
def execDiscover (lane : Nat) (data : Word) (s : State) : Out :=
  done s (State.when (laneLive s lane && bitAt 0 data && decide (lsDiscovering ≤ laneState s lane)) (discover lane) s)

/-- A lane comes UP: its tiles' history restarts (R256, R338). -/
def comeUp (n : Nat) (s : State) : State :=
  if laneState s n = lsDiscovering then
    let t := setLaneState n lsUp s
    { t with lmp := { t.lmp with wasLit := t.lmp.wasLit.filter (fun x => tLane (actTile t x) != n) } }
  else s

/-- DISCOVERY_WINDOW: the window ends; slots that sent no reply empty, and the lane is UP (R338, R339). -/
def execDiscoveryWindow (lane : Nat) (s : State) : Out :=
  done s (State.when (laneLive s lane) (fun t =>
    let o := ownerOf t lane
    let t1 := match (laneOf t o).replies with
      | none => t
      | some ps =>
        let u := foldS (fun k v => if ps.any (fun r => r.2 == k % 1024) then v else emptySlot k v) (filledOf t o) t
        setLane o { laneOf u o with replies := none } u
    foldS (fun m u => comeUp m (u.wr (PLK_LANE_STATUS m) PLK_LANE_STATUS.REDISCOVER 0)) (endsOf t1 o) t1) s)

/-- The engine takes a frame of these MAC facts: no VLAN tag, EtherType 0x88B5, VERSION 1 (R309). -/
def macTaken (m : MacFacts) : Bool := !m.vlan && m.etherType == 0x88B5 && m.version == 1

/-- A frame received on lane `n` is lost and counted (R354). -/
def rxLost (n : Nat) (s : State) : State := laneIrq n 6 (s.inc (PLK_LANE_RX_DROP n) PLK_LANE_RX_DROP.COUNT)

/-- A towpath frame is taken on its lane (R331): the lane holds block lock, and the frame is one of R309; any other is
discarded. One with a bad FCS is dropped and counted, and so is one that holds an uncorrectable word of the lane's FIFO: the
words checked are those of a shortest frame (R354, R541; assumption 25). -/
def rxFrame (mac : MacFacts) (f : State → State) (s : State) : State :=
  let n := mac.lane
  State.when (laneLive s n && decide (lsSettling ≤ laneState s n)) (fun t =>
    if !mac.fcsOk then rxLost n t
    else if !macTaken mac then t
    else match t.sramFault (PLK_LANE_FAULT_STATUS n) 16 with
    | (false, u) => f (u.inc (PLK_LANE_RX_FRAMES n) PLK_LANE_RX_FRAMES.COUNT)
    | (true, u) => rxLost n u) s

/-- DISCOVER_REPLY: the slot at the reply's position takes its serial, size and fields, within the window (R339, R341). -/
def execDiscoverReply (mac : MacFacts) (reply : ReplyFacts) (s : State) : Out :=
  done s (rxFrame mac (fun t =>
    let o := ownerOf t mac.lane
    match (laneOf t o).replies, placeOf t mac.lane reply.pos with
    | some ps, some k =>
      let r := (mac.lane, k % 1024)
      let t1 := setLane o { laneOf t o with replies := some (if ps.contains r then ps else ps ++ [r]) } t
      let fresh : RosterSlot := ⟨reply.serial, reply.wM1, reply.hM1, reply.caps, reply.leadNs, reply.fw, 0, false, 0, 0, 0, none, 0,
        reply.maker, reply.calib⟩
      match slotAt t1 k with
      | some x =>
        if x.serial = reply.serial then
          putSlot k (some { x with wM1 := reply.wM1, hM1 := reply.hM1, caps := reply.caps, lead := reply.leadNs, fw := reply.fw,
                                     maker := reply.maker, calib := reply.calib }) t1
        else laneIrq o 1 (putSlot k (some fresh) t1)
      | none => laneIrq o 1 (putSlot k (some fresh) t1)
    | _, _ => t) s)

/-! ## STATUS and its checks (R325, R331, R340, R343) -/

/-- STATUS: recorded for its frame, and kept with its roster slot (R325, R331, R340). -/
def execStatus (mac : MacFacts) (st : StatusFacts) (s : State) : Out :=
  done s (rxFrame mac (fun t =>
    let e := (st.frame, mac.lane, st.pos)
    let t1 := if t.plk.frames.contains st.frame && !t.plk.status.contains e
      then { t with plk := { t.plk with status := t.plk.status ++ [e] } } else t
    match placeOf t1 mac.lane st.pos with
    | none => t1
    | some k => match slotAt t1 k with
      | none => t1
      | some x =>
        let y := { x with temp := st.temp % 256, homeB := st.homeB, missed := st.missed % 65536 }
        putSlot k (some { y with ctlSeq := st.ctlSeq % 65536, result := st.ctlResult % 256, heard := some t1.cyc }) t1) s)

/-- One more than the highest of a list of positions; 0 where there is none. -/
def reachOf (ps : List Nat) : Nat := ps.foldl (fun a p => max a (p + 1)) 0

/-- The automatic split of a loop at a STATUS check (R343). -/
def autoSplit (frame p m : Nat) (s : State) : State :=
  let split := s.rd (PLK_LANE_LOOP p) PLK_LANE_LOOP.SPLIT
  let hi := reachOf (heardOn s frame p)
  let lo := loopLen s p - reachOf (heardOn s frame m)
  let new := min (max split (min lo hi)) (max lo hi)
  if s.flag (PLK_LANE_CFG p) PLK_LANE_CFG.AUTO_SPLIT && new != split
  then laneIrq p 2 (s.wr (PLK_LANE_LOOP p) PLK_LANE_LOOP.SPLIT new) else s

/-- One filled slot at a STATUS check: whether a STATUS of the frame came from it at some end (R340). Its roster word is
checked as it is read; an uncorrectable one is used as it is, since the spec gives it no consequence of its own (R354, R541;
assumption 25). -/
def checkSlot (frame : Nat) (place : Nat) (s0 : State) : State :=
  match slotAt s0 place with
  | none => s0
  | some x =>
    let o := place / 1024
    let s := (s0.sramFault (PLK_LANE_FAULT_STATUS o) 1).2
    if (endsOf s o).any (fun m => (heardOn s frame m).contains (posOn s m place)) then putSlot place (some { x with silent := 0 }) s
    else
      let s1 := s.inc (PLK_LANE_STATUS_MISS o) PLK_LANE_STATUS_MISS.COUNT
      if max 1 (s.rd PLK_STATUS_CFG PLK_STATUS_CFG.SILENT_N) ≤ x.silent + 1 then emptySlot place s1
      else putSlot place (some { x with silent := x.silent + 1 }) s1

/-- The other lane of the loop lane `n` is in. -/
def loopOther (s : State) (n : Nat) : Option Nat :=
  match partnerOf s n with
  | some m => some m
  | none => primaryOf s n

/-- LOOP_FROM differs from the configured partner, or a loop lane that is UP has seen no forward frame come back (R354;
asked at each STATUS check, assumption 71). -/
def loopWrong (s : State) (n : Nat) : Bool :=
  match loopOther s n with
  | none => false
  | some m => (s.flag (PLK_LANE_STATUS n) PLK_LANE_STATUS.LOOP_SEEN
      && s.rd (PLK_LANE_STATUS n) PLK_LANE_STATUS.LOOP_FROM != m) || (laneUp s n && !(laneOf s n).looped)

/-- LOOP_MISMATCH of a loop lane. -/
def loopCheck (n : Nat) (s : State) : State := if loopWrong s n then laneIrq n 3 s else s

/-- The check of one roster. -/
def checkRoster (frame n : Nat) (s : State) : State :=
  let ends := endsOf s n
  if (primaryOf s n).isSome || !ends.any (laneUp s) || ends.any (fun m => laneState s m == lsDiscovering) then s
  else
    let s1 := foldS (fun m t => t.wr (PLK_LANE_STATUS m) PLK_LANE_STATUS.REACH (reachOf (heardOn t frame m))) ends s
    let s2 := foldS (checkSlot frame) (filledOf s1 n) s1
    match partnerOf s2 n with
    | some m => autoSplit frame n m (foldS loopCheck ends s2)
    | none => s2

/-- STATUS_CHECK: WAIT_US after the gate of a frame, positions without its STATUS are counted, slots empty after
SILENT_N checks, and loops are split (R340, R343). -/
def execStatusCheck (frame : Nat) (s : State) : Out :=
  done s (State.when (s.plk.frames.contains frame) (fun t =>
    foldS (fun n u => if laneLive u n then checkRoster frame n u else u) (List.range 64) t) s)

/-- SPLIT_WRITE: a write of PLK_LANEn_LOOP is granted; its SPLIT routes from the next gate (R344, R354). A write that sets a
loop empties the partner lane's own slots: the primary's roster holds every position (R341). -/
def execSplitWrite (lane : Nat) (data : Word) (s : State) : Out :=
  done s (State.when (laneLive s lane) (fun t =>
    let a := PLK_LANE_LOOP lane
    if loopEn t lane && bitAt 0 data then t.wr a PLK_LANE_LOOP.SPLIT (fget PLK_LANE_LOOP.SPLIT data)
    else
      let t1 := t.hostWrite a data
      match partnerOf t1 lane with
      | none => t1
      | some q => foldS emptySlot (filledOf t1 q) t1) s)

/-! ## Other towpath frames (R327, R330, R331, R348) -/

/-- The alert registers show the oldest alert of the lane's FIFO (R354). -/
def showAlert (n : Nat) (s : State) : State :=
  match (laneOf s n).alerts with
  | [] => foldS (fun j t => t.setReg (PLK_LANE_ALERT_D n j) 0) (List.range 4) (s.setReg (PLK_LANE_ALERT n) 0)
  | (pos, code, d) :: _ =>
    let s1 := s.setReg (PLK_LANE_ALERT n) (BitVec.ofNat 32 (pos % 1024 + code % 256 * 2 ^ 16 + 2 ^ 31))
    laneIrq n 4 (foldS (fun j t => t.setReg (PLK_LANE_ALERT_D n j) (wordAt d j)) (List.range 4) s1)

/-- ALERT: it enters the lane's FIFO of 16, or is lost; a PORT_UP starts a discovery where AUTO_DISCOVER is set (R330,
R331, R339). -/
def execAlert (mac : MacFacts) (pos code : Nat) (detail : List Word) (s : State) : Out :=
  done s (rxFrame mac (fun t =>
    let l := laneOf t mac.lane
    let t1 := if 16 ≤ l.alerts.length then t.inc (PLK_LANE_ALERT_LOST mac.lane) PLK_LANE_ALERT_LOST.COUNT
      else showAlert mac.lane (setLane mac.lane { l with alerts := l.alerts ++ [(pos, code, detail)] } t)
    if decide (code % 256 = 3) && t1.flag (PLK_LANE_CFG mac.lane) PLK_LANE_CFG.AUTO_DISCOVER
        && decide (lsDiscovering ≤ laneState t1 mac.lane)
    then discover mac.lane t1 else t1) s)

/-- POP: the oldest alert is removed; ALERT sets again while one stays (R354). -/
def execPop (lane : Nat) (data : Word) (s : State) : Out :=
  done s (State.when (laneLive s lane && bitAt 0 data) (fun t =>
    let l := laneOf t lane
    showAlert lane (setLane lane { l with alerts := l.alerts.drop 1 } t)) s)

/-- LOOP_FRAME: a forward frame on the receive side is discarded, and its lane recorded (R331, R354). -/
def execLoopFrame (mac : MacFacts) (srcLane : Nat) (s : State) : Out :=
  done s (rxFrame mac (fun t =>
    let t1 := (t.wr (PLK_LANE_STATUS mac.lane) PLK_LANE_STATUS.LOOP_SEEN 1).wr (PLK_LANE_STATUS mac.lane)
      PLK_LANE_STATUS.LOOP_FROM srcLane
    loopCheck mac.lane (setLane mac.lane { laneOf t1 mac.lane with looped := true } t1)) s)

/-- TOWPATH_DROP: a towpath frame finds the receive FIFO full (R331). -/
def execTowpathDrop (lane : Nat) (s : State) : Out :=
  done s (State.when (laneLive s lane && decide (lsSettling ≤ laneState s lane)) (fun t =>
    rxLost lane t) s)

/-- One entry of a CRC_REPORT against the expected CRC of its window (R242, R347, R348). -/
def farReport (place frame : Nat) (e : Nat × Nat × Word) (s : State) : State :=
  match s.plk.crcs.find? (fun x => x.frame == frame && x.pos == place && x.window == e.1 && x.region == e.2.1) with
  | none => s
  | some x =>
    let t := { s with plk := { s.plk with crcs := s.plk.crcs.erase x } }
    if BitVec.ofNat 32 (Nat.xor x.crc 0xFFFFFFFF) = e.2.2 then t
    else (t.inc (CMP_GR_CRC_FAR e.2.1) CMP_GR_CRC_FAR.FAR_COUNT).setBit CMP_IRQ_STATUS 2

/-- CRC_REPORT: each window's CRC is compared with the expected one. -/
def execCrcReport (mac : MacFacts) (pos frame : Nat) (entries : List (Nat × Nat × Word)) (s : State) : Out :=
  done s (rxFrame mac (fun t => match placeOf t mac.lane pos with
    | none => t
    | some k => foldS (farReport k frame) entries t) s)

/-! ## Lane self-test and eye scans (R345, R505) -/

/-- LANE_BIST_START: BIST holds the lane DISABLED, or is refused as BUSY (R345). A run in progress goes on. -/
def execLaneBistStart (lane : Nat) (data : Word) (s : State) : Out :=
  done s (State.when (laneLive s lane && bitAt 1 data) (fun t =>
    let split := fun (p : Nat) => t.rd (PLK_LANE_LOOP p) PLK_LANE_LOOP.SPLIT
    let free := !t.flag (PLK_LANE_CFG lane) PLK_LANE_CFG.EN || ((partnerOf t lane).isSome && split lane == 0)
      || (match primaryOf t lane with | some p => split p == loopLen t p | none => false)
    if free && (laneOf t lane).bist then t
    else if free then
      let t1 := laneLeave lane lsDisabled t
      setLane lane { laneOf t1 lane with bist := true } t1
    else t.wr (PLK_LANE_BIST lane) PLK_LANE_BIST.RESULT 3) s)

/-- LANE_BIST_DONE: the result, and the lane starts over (R345). -/
def execLaneBistDone (lane : Nat) (pass : Bool) (s : State) : Out :=
  done s (State.when (laneLive s lane && (laneOf s lane).bist) (fun t =>
    let t1 := setLane lane { laneOf t lane with bist := false, rate := 2 } t
    let t2 := (t1.wr (PLK_LANE_BIST lane) PLK_LANE_BIST.RESULT (if pass then 1 else 2)).inc (PLK_LANE_BIST lane)
      PLK_LANE_BIST.RUNS
    if t2.flag (PLK_LANE_CFG lane) PLK_LANE_CFG.EN then setLaneState lane lsDown t2 else t2) s)

/-- EYE_SCAN: a scan starts; it disturbs nothing (R345). -/
def execEyeScan (lane : Nat) (data : Word) (s : State) : Out :=
  done s (State.when (laneLive s lane && bitAt 2 data) (fun t =>
    setLane lane { laneOf t lane with scan := true } (t.wr (PLK_LANE_EYE lane) PLK_LANE_EYE.DONE 0)) s)

/-- EYE_SCAN_DONE: the eye opening measured (R354). -/
def execEyeScanDone (lane width height : Nat) (s : State) : Out :=
  done s (State.when (laneLive s lane && (laneOf s lane).scan) (fun t =>
    let t1 := setLane lane { laneOf t lane with scan := false } t
    ((t1.wr (PLK_LANE_EYE lane) PLK_LANE_EYE.WIDTH width).wr (PLK_LANE_EYE lane) PLK_LANE_EYE.HEIGHT height).wr
      (PLK_LANE_EYE lane) PLK_LANE_EYE.DONE 1) s)

/-! ## The frame clock (R332 to R334) -/

/-- RATE: a write of PLK_FRAME_CFG; a RATE that the lamps do not fit, or a code without a rate, is refused and the write
ignored (R333). -/
def execRate (data : Word) (s : State) : Out :=
  done s (State.when (s.domOn 1) (fun t =>
    let c := bitsOf 3 0 data
    if decide (14 ≤ c) || !lampsFit t.fuse.variant (t.rd LMP_LAMPS LMP_LAMPS.LAMPS) c
    then t.wr PLK_FRAME_STATUS PLK_FRAME_STATUS.RATE_REFUSED 1
    else
      let t1 := t.hostWrite PLK_FRAME_CFG data
      -- R504: a software write of IDENTIFY cancels Breakwater's count
      let t2 := { t1 with pwr := { t1.pwr with identCount := false } }
      { t2 with plk := { t2.plk with newRate := if c = rateNow t2 then none else some c } }) s)

/-- Gates per genlock edge (R334). -/
def glDiv (s : State) : Nat := match s.rd PLK_FRAME_CFG PLK_FRAME_CFG.GL_DIV with | 1 => 2 | 2 => 4 | _ => 1

/-- LOCKED clears: the period returns to nominal (R334). -/
def loseLock (s : State) : State :=
  let s1 := (s.wr PLK_FRAME_STATUS PLK_FRAME_STATUS.LOCKED 0).inc PLK_FRAME_STATUS PLK_FRAME_STATUS.LOCK_LOSSES
  let s2 := if s1.domOn 33 then laneIrq 0 7 s1 else s1
  { s2 with plk := { s2.plk with trim := 0, trimFor := 0, good := 0 } }

/-- GENLOCK_EDGE: a rising edge of GENLOCK_IN is timestamped, two CLK_PIX cycles later behind its synchroniser (R334,
R532). -/
def execGenlockEdge (s : State) : Out :=
  done s (State.when (s.domOn 1 && s.flag PLK_FRAME_CFG PLK_FRAME_CFG.GENLOCK_EN) (fun t =>
    { t with plk := { t.plk with edge := some (t.cyc + 2) } }) s)

/-- GENLOCK_LOSS: no edge for three expected intervals clears LOCKED (R334). -/
def execGenlockLoss (s : State) : Out :=
  done s (State.when (s.domOn 1 && s.flag PLK_FRAME_STATUS PLK_FRAME_STATUS.LOCKED) loseLock s)

/-- The first gate after an edge: the error, the trim it calls for, and the lock (R334). An edge still in the synchroniser is
for the next gate. -/
def genlockGate (s : State) : State :=
  match s.plk.edge with
  | none => s
  | some edge =>
    if s.cyc < edge then s
    else
    let nominal := periodNow s / 2 ^ 32
    let e : Int := (s.cyc : Int) - ((edge : Int) + (s.rd PLK_GENLOCK_DELAY PLK_GENLOCK_DELAY.DELAY : Int))
    let lim : Int := (nominal / 1024 : Nat)
    let trim := clampInt (-lim) lim (e.tdiv (8 * (glDiv s : Int)))
    let s1 := s.setReg PLK_GENLOCK_ERR (BitVec.ofInt 32 e)
    let locked := s1.flag PLK_FRAME_STATUS PLK_FRAME_STATUS.LOCKED
    let good := if e.natAbs < 1200 then min 16 (s1.plk.good + 1) else 0
    let s2 := { s1 with plk := { s1.plk with edge := none, trim := trim, trimFor := glDiv s, good := good } }
    if locked && decide (nominal / 4 < e.natAbs) then loseLock s2
    else if !locked && decide (16 ≤ good) then
      let s3 := s2.wr PLK_FRAME_STATUS PLK_FRAME_STATUS.LOCKED 1
      if s3.domOn 33 then laneIrq 0 7 s3 else s3
    else s2

/-- A new RATE comes into force at a gate (R333). Answers whether the period changed. -/
def takeRate (s : State) : Bool × State :=
  match s.plk.newRate with
  | none => (false, s)
  | some c =>
    let s1 := s.wr PLK_FRAME_STATUS PLK_FRAME_STATUS.RATE c
    let s2 := (s1.setReg PLK_PERIOD_INT (BitVec.ofNat 32 (rateInt c))).setReg PLK_PERIOD_FRAC (BitVec.ofNat 32 (rateFrac c))
    (true, { s2 with plk := { s2.plk with newRate := none, frac := 0 } })

/-- A gate opens a frame: its whole count of cycles (R332, R334), and the records of the last four frames (R340). -/
def openFrame (s : State) : State :=
  let c := rateNow s
  let sum := s.plk.frac + rateFrac c
  let trim : Int := if 0 < s.plk.trimFor then s.plk.trim else 0
  let len := ((rateInt c + sum / 2 ^ 32 : Nat) : Int) - trim
  let frames := (frameNo s :: s.plk.frames).take 4
  { s with plk := { s.plk with frac := sum % 2 ^ 32, period := len.toNat, gateAt := s.cyc, trimFor := s.plk.trimFor - 1,
                               frames := frames, status := s.plk.status.filter (fun e => frames.contains e.1),
                               crcs := s.plk.crcs.filter (fun x => frames.contains x.frame) } }

/-- Every lane takes its SPLIT for the frame (R344). -/
def takeSplits (s : State) : State :=
  foldS (fun n t => if laneLive t n then
      let l := laneOf t n
      let v := t.rd (PLK_LANE_LOOP n) PLK_LANE_LOOP.SPLIT
      if l.split = v then t else setLane n { l with split := v } t
    else t) (List.range 64) s

end Sys2Proof.Machine
end

