-- ==== Sys2Proof/Machine/Egress.lean ====
section
/-!
DEFINITION. The forward direction of the panel links (R309 to R320, R342, R346 to R348, R351 to R353, R375 to R379): SYNC,
PIXEL and CONFIG frames, the far-end windows, LINK_SEND, and each lane's egress scheduler.
-/
namespace Sys2Proof.Machine

/-! ## The frame on the wire (R309, R310, R377) -/

/-- The 32-byte header of a forward frame sent on lane `n` (R310). -/
def headerBytes (n : Nat) (f : LinkFrame) : List Byte :=
  netBytes 1 0x10 ++ netBytes 1 f.typ ++ netBytes 2 f.flags ++ netBytes 2 f.pos ++ netBytes 3 f.frame ++ netBytes 1 f.fmt
    ++ netBytes 2 f.row ++ netBytes 2 f.rows ++ netBytes 2 f.seq ++ netBytes 2 f.data.length ++ netBytes 1 n ++ netBytes 1 0
    ++ netBytes 4 f.arg ++ netBytes 8 f.serial

/-- MAC client data of a forward frame: header, payload and padding (R309). -/
def frameBytes (n : Nat) (f : LinkFrame) : List Byte :=
  let bs := headerBytes n f ++ f.data
  bs ++ List.replicate (46 - bs.length) 0

/-- A forward frame from its destination address to its padding (R309): its check sequence follows on the wire. -/
def macFrame (n : Nat) (f : LinkFrame) : List Byte :=
  [0x03, 0x4B, 0x4C, 0, 0, 1] ++ [0x02, 0x4B, 0x4C, 0, 0, BitVec.ofNat 8 n] ++ [0x88, 0xB5] ++ frameBytes n f

/-- Bytes from destination address through FCS (R309). -/
def frameLen (f : LinkFrame) : Nat := max 64 (14 + 32 + f.data.length + 4)

/-! ## SYNC (R314, R315) -/

/-- CLK_PIX cycles in nanoseconds, to the nearest. -/
def cyclesNs (c : Nat) : Nat := (c * 5 + 3) / 6

/-- SYNC of the frame a gate opens is queued on every enabled lane that can send it (R227, R314, R338). DELAY_NS follows
as the frame is sent. -/
def queueSync (s : State) : State :=
  let mode := (inHold s).toNat + (s.flag PLK_FRAME_CFG PLK_FRAME_CFG.IDENTIFY).toNat * 2
    + (s.flag PLK_FRAME_STATUS PLK_FRAME_STATUS.LOCKED).toNat * 4
  let data := netBytes 4 (s.rd PLK_PRESENT PLK_PRESENT.OFFSET_NS) ++ netBytes 4 (cyclesNs s.plk.period) ++ netBytes 4 0
    ++ netBytes 1 mode ++ [0, 0, 0]
  let f := ctlFrame 0 0x01 1 0 (frameNo s) 0 0 data
  foldS (fun n t => if laneLive t n && decide (lsSettling ≤ laneState t n) then enqueue n f t else t) (List.range 64) s

/-- DELAY_NS as a SYNC reaches the wire: the time since its gate, and the lane's first cable (R315). -/
def stampSync (n : Nat) (s : State) (f : LinkFrame) : LinkFrame :=
  if f.cls ≠ 0 then f
  else
    let d := cyclesNs (s.cyc - s.plk.gateAt) + s.rd (PLK_LANE_CFG n) PLK_LANE_CFG.CABLE_NS
    { f with data := f.data.take 8 ++ netBytes 4 d ++ f.data.drop 12 }

/-! ## PIXEL (R316 to R318) -/

/-- 12-bit values packed most significant bit first (R317). -/
def packDrive12 : List Nat → List Byte
  | a :: b :: rest =>
    BitVec.ofNat 8 (a / 16) :: BitVec.ofNat 8 (a % 16 * 16 + b / 256 % 16) :: BitVec.ofNat 8 b :: packDrive12 rest
  | [a] => [BitVec.ofNat 8 (a / 16), BitVec.ofNat 8 (a % 16 * 16)]
  | [] => []

/-- The payload of rows of drive values (R317). -/
def drivePayload (d12 : Bool) (rows : List (List (Nat × Nat × Nat))) : List Byte :=
  let vs := ((rows.flatten).map (fun p => [p.1, p.2.1, p.2.2])).flatten
  if d12 then packDrive12 vs else (vs.map (netBytes 2)).flatten

/-- What a tile has been told by CONFIG: its ORIENT item and its windows. -/
def toldOf (s : State) (t : Nat) : TileCfg := tabGet (fun _ => ⟨[], [], [], 0⟩) s.plk.told t

/-- What PIXEL names: a tile whose ORIENT has gone ahead of it (R320), or, 65,536 more than its place, a stranger, listed or
not (R257). Its place, serial, footprint width and height, and whether its drive is 12-bit. -/
def pixelTarget (s : State) (key : Nat) : Option (Nat × Nat × Nat × Nat × Bool) :=
  if key < 65536 then
    let w := actTile s key
    match slotAt s (tPlace w) with
    | some x => if drivenState (tileState s key) && !(toldOf s key).orient.isEmpty then some (tPlace w, x.serial, tFw w, tFh w, tDrive12 w) else none
    | none => none
  else
    let place := key - 65536
    match slotAt s place, (strangers s).any (fun x => x.1 == place) with
    | some x, true => some (place, x.serial, x.wM1 + 1, x.hM1 + 1, false)
    | _, _ => none

/-- Rows of a footprint a PIXEL frame takes (R316). -/
def pixelRows (d12 : Bool) (fw left : Nat) : Nat := min ((if d12 then 2036 else 1527) / fw) left

/-- The rows that wait of a tile or stranger. -/
def pixOf (s : State) (key : Nat) : PixRows := tabGet (fun _ => ⟨0, 0, []⟩) s.lmp.pix key

/-- PIXEL: the next whole rows of a tile, once corrected, are built into a frame and queued in class 1 of the lane that
serves its place (R316, R317, R342). -/
def execPixel (tile : Nat) (s : State) : Out :=
  done s (match pixelTarget s tile with
    | none => s
    | some (place, serial, fw, fh, d12) =>
      let x := pixOf s tile
      let r := pixelRows d12 fw (fh - x.start)
      let (lane, pos) := routeOf s place
      State.when (lampsOn s && decide (0 < r) && decide (r ≤ x.rows.length) && laneUp s lane && x.frame == frameNo s) (fun t =>
        let flags := if x.start + r = fh then 2 else 0
        let f : LinkFrame := ⟨1, 0, 0x02, flags, pos, x.frame, d12.toNat, x.start, r, 0, serial,
          drivePayload d12 (x.rows.take r), none, false, 0⟩
        let left := { x with start := x.start + r, rows := x.rows.drop r }
        let pix := tabSet (fun _ => ⟨0, 0, []⟩) t.lmp.pix tile left
        enqueue lane f { t with lmp := { t.lmp with pix := pix } }) s)

/-- At a gate, PIXEL frames of the frame before that have not started on the wire are discarded and counted, and no rows
wait (R318). -/
def dropPixels (s : State) : State :=
  let s1 := foldS (fun n t =>
    let l := laneOf t n
    let old := l.q1.countP (fun f => f.typ == 0x02)
    if old = 0 then t
    else
      let t1 := setLane n { l with q1 := l.q1.filter (fun f => f.typ != 0x02) } t
      laneIrq n 5 (t1.addTo (PLK_LANE_PIXEL_DROP n) PLK_LANE_PIXEL_DROP.COUNT old)) (List.range 64) s
  { s1 with lmp := { s1.lmp with pix := [] } }

/-- The rows of every stranger: the placeholder on every lamp it reports, while lamp correction is on (R257, R272). -/
def strangerRows (s : State) : State :=
  if !lampsOn s then s
  else foldS (fun (p : Nat × Nat) t => match pixelTarget t (65536 + p.1) with
    | none => t
    | some (_, _, fw, fh, _) =>
      let row := List.replicate fw (placeholder t false)
      let x : PixRows := ⟨frameNo t, 0, List.replicate fh row⟩
      { t with lmp := { t.lmp with pix := tabSet (fun _ => ⟨0, 0, []⟩) t.lmp.pix (65536 + p.1) x } }) (strangers s) s

/-! ## CONFIG of the engine and far-end windows (R319, R320, R346 to R348) -/

/-- The ORIENT item of a tile (R319). -/
def orientItem (s : State) (w : List Word) : List Byte :=
  let b := tRot w + (tMirror w).toNat * 4 + (inLoop s (tLane w)).toNat * 8
  [1, 0] ++ netBytes 2 8 ++ netBytes 1 b ++ [0, 0, 0] ++ netBytes 2 (tWM1 w) ++ netBytes 2 (tHM1 w)

/-- The far-end intersections of a tile, in ascending region: region, A0, B0, W and H (R346). -/
def farWindows (s : State) (w : List Word) : List (Nat × Nat × Nat × Nat × Nat) :=
  (List.range 64).filterMap (fun n =>
    let (x, y, rw, rh) := regionRect s n
    let x0 := max x (tX w)
    let y0 := max y (tY w)
    let x1 := min (x + rw) (tX w + tFw w)
    let y1 := min (y + rh) (tY w + tFh w)
    if regionOn s n && bitAt CMP_GR_CFG.FAR_EN.lo (cmpIn s (CMP_GR_CFG n)) && decide (x0 < x1) && decide (y0 < y1)
    then some (n, x0 - tX w, y0 - tY w, x1 - x0, y1 - y0) else none)

/-- The GUARD item of a list of windows (R319). -/
def guardItem (ws : List (Nat × Nat × Nat × Nat × Nat)) : List Byte :=
  let one := fun (p : Nat × (Nat × Nat × Nat × Nat × Nat)) =>
    netBytes 1 p.1 ++ netBytes 1 p.2.1 ++ netBytes 2 p.2.2.1 ++ netBytes 2 p.2.2.2.1 ++ netBytes 2 p.2.2.2.2.1
      ++ netBytes 2 p.2.2.2.2.2 ++ [0, 0]
  let body := (((List.range ws.length).zip ws).map one).flatten
  [2, 0] ++ netBytes 2 (4 + body.length) ++ netBytes 1 ws.length ++ [0, 0, 0] ++ body

def setTold (t : Nat) (x : TileCfg) (s : State) : State :=
  { s with plk := { s.plk with told := tabSet (fun _ => ⟨[], [], [], 0⟩) s.plk.told t x } }

/-- One tile at a gate: ORIENT where it enters a driven state or its orientation, size or loop membership changed, GUARD
where its windows changed, and, outside HOLD, the expected CRCs of the frame's windows begin (R320, R346, R348). An
intersection beyond the eighth is counted as it appears (assumption 129). A tile of a lane that is not UP at the gate is told
at the first gate at which it is (R338). -/
def configTile (hold : Bool) (t : Nat) (s : State) : State :=
  let w := actTile s t
  let old := toldOf s t
  match drivenState (tileState s t), slotAt s (tPlace w) with
  | true, some x =>
    let (lane, pos) := routeOf s (tPlace w)
    if !laneUp s lane then s
    else
      let item := orientItem s w
      let all := farWindows s w
      let wins := all.take 8
      let beyond := (all.drop 8).map (fun p => p.1)
      let f := fun (data : List Byte) => ctlFrame 1 0x10 0 pos (frameNo s) 0 x.serial data
      let s1 := if old.orient = item ∧ old.state = tileState s t then s else enqueue lane (f item) s
      let fresh := old.orient.isEmpty && !wins.isEmpty
      let s2 := if old.windows = wins ∧ !fresh then s1 else enqueue lane (f (guardItem wins)) s1
      let new := (beyond.filter (fun n => !old.skipped.contains n)).length
      let s3 := setTold t ⟨item, wins, beyond, tileState s t⟩
        (s2.addTo (PLK_LANE_GUARD_SKIP lane) PLK_LANE_GUARD_SKIP.COUNT new)
      let marks := if hold then [] else ((List.range wins.length).zip wins).map (fun p =>
        (⟨frameNo s, t, tPlace w, p.1, p.2.1, 0xFFFFFFFF⟩ : FarCrc))
      { s3 with plk := { s3.plk with crcs := s3.plk.crcs ++ marks } }
  | _, _ => if old.orient.isEmpty then s else setTold t { old with orient := [], skipped := [], state := 0 } s

/-- CONFIG of every tile at a gate (R320). -/
def configTiles (hold : Bool) (s : State) : State :=
  foldS (configTile hold) ((tabKeys s.lmp.active ++ tabKeys s.plk.told).eraseDups) s

/-- A footprint row of a tile goes into the expected CRCs of its windows (R347). -/
def farRow (t b : Nat) (row : List (Nat × Nat × Nat)) (s : State) : State :=
  let wins := (toldOf s t).windows
  let upd := fun (x : FarCrc) =>
    match wins[x.window]? with
    | none => x
    | some (_, a0, b0, w, h) =>
      if x.tile = t ∧ x.frame = frameNo s ∧ b0 ≤ b ∧ b < b0 + h then
        let vs := (((row.drop a0).take w).map (fun p => [p.1, p.2.1, p.2.2])).flatten
        { x with crc := ((vs.map (netBytes 2)).flatten).foldl (crcByte 0xEDB88320) x.crc }
      else x
  { s with plk := { s.plk with crcs := s.plk.crcs.map upd } }

/-- Windows with no report by the second gate after their frame's gate are counted (R348). -/
def crcMissing (s : State) : State :=
  match s.plk.frames[2]? with
  | none => s
  | some f => foldS (fun (x : FarCrc) t =>
      if x.frame = f then t.inc (PLK_LANE_CRC_MISSING (x.pos / 1024)) PLK_LANE_CRC_MISSING.COUNT else t) s.plk.crcs s

/-! ## LINK_SEND (R351 to R353, R375) -/

def lkType (j : Job) : Nat := bitsOf 7 0 (j.w 2)
def lkPos (j : Job) : Nat := bitsOf 17 8 (j.w 2)
def lkBcast (j : Job) : Bool := bitAt 18 (j.w 2)
def lkLength (j : Job) : Nat := bitsOf 13 0 (j.w 5)
def lkClass (j : Job) : Nat := if lkType j = 0x30 then 3 else 2

/-- The lanes a LINK_SEND goes out on, with CHAIN_POS (R342). -/
def lkRoutes (s : State) (j : Job) : List (Nat × Nat) :=
  let p := j.context
  if lkBcast j then (p, 0) :: ((partnerOf s p).toList.filter (laneUp s)).map (fun m => (m, 0))
  else [routeOf s (p * 1024 + lkPos j)]

/-- A lane has room for one more LINK_SEND frame of a job (R375). -/
def lkRoom (s : State) (j : Job) : Bool :=
  (lkRoutes s j).all (fun r =>
    let l := laneOf s r.1
    if lkClass j = 3 then decide ((l.q3.filter (fun f => f.sub == j.sq % 4)).length < 4) else decide (l.q2.length + l.wait2.length < 4))

/-- LINK_SEND jobs that are RUNNING and have not brought their frame yet: each has a place of its class and sub-queue on its
lanes (R375). -/
def lkPromised (s : State) (j : Job) (n : Nat) : Nat :=
  (s.hq.jobs.filter (fun e => e.2.opcode == opLinkSend && decide (e.2.st = .running) && !e.2.begun && !e.2.record
    && !e.2.stop && lkClass e.2 == lkClass j && (lkClass j != 3 || e.2.sq % 4 == j.sq % 4)
    && (lkRoutes s e.2).any (fun r => r.1 == n))).length

/-- A QUEUED LINK_SEND finds a place on each of its lanes; others wait in QUEUED (R375). -/
def lkPlace (s : State) (j : Job) : Bool :=
  (lkRoutes s j).all (fun r =>
    let l := laneOf s r.1
    let held := if lkClass j = 3 then (l.q3.filter (fun f => f.sub == j.sq % 4)).length else l.q2.length + l.wait2.length
    decide (held + lkPromised s j r.1 < 4))

/-- Item IDs of a CONFIG payload (R319), with fuel. -/
def configIds : Nat → List Byte → List Nat
  | 0, _ => []
  | n + 1, bs => match bs with
    | id :: _ :: hi :: lo :: rest => id.toNat :: configIds n (rest.drop (hi.toNat * 256 + lo.toNat))
    | _ => []

/-- LINK_SEND: the frame is read from its buffer and queued on its lane, or the job is refused (R351 to R353). A lane without
room for it makes it wait (R375). -/
def execLinkSend (slot : Nat) (s : State) : Out :=
  done s (State.when (s.startable slot opLinkSend && lkRoom s (s.job slot)) (fun t =>
    let j := t.job slot
    let ofs := (j.w 4).toNat
    let len := lkLength j
    let h := j.w 3
    let size := poolSize (hPool h)
    if bitsOf 31 21 (j.w 2) ≠ 0 ∨ bitsOf 31 14 (j.w 5) ≠ 0 ∨ ofs % 16 ≠ 0 then fail slot stInternal t
    else if !isCurrent t h then fail slot stStaleHandle t
    else
      let (pre, bad0, t1) := if ofs + 16 ≤ size then dramRdFor (PLK_LANE_FAULT_STATUS j.context) lanePort t (bufAddr t h + ofs) 16 else ([], false, t)
      let (data, bad1, t2) := dramRdFor (PLK_LANE_FAULT_STATUS j.context) lanePort t1 (bufAddr t1 h + ofs + 16) (min len (size - (ofs + 16)))
      let arg := bytesNat (pre.take 4)
      let serial := bytesNat ((pre.drop 4).take 8)
      let typ := lkType j
      let routes := lkRoutes t2 j
      if bad0 || bad1 then fail slot stInternal t2
      else if !([0x10, 0x11, 0x20, 0x30].contains typ)
          || (typ == 0x20 && !pre.isEmpty && (arg % 256 == 0 || arg % 256 == 2))
          || (typ == 0x10 && (configIds len data).any (fun i => i == 1 || i == 2)) then fail slot 0x53 t2
      else if 9166 < len ∨ size < ofs + 16 + len then fail slot 0x52 t2
      else if (primaryOf t2 j.context).isSome
          || ((partnerOf t2 j.context).isSome && decide (loopLen t2 j.context ≤ lkPos j)) then fail slot 0x54 t2
      else if routes.any (fun r => (laneOf t2 r.1).bist) then fail slot stBusy t2
      else if !routes.all (fun r => laneUp t2 r.1) then fail slot stLinkDown t2
      else
        let flags := (lkBcast j).toNat + (bitAt 19 (j.w 2)).toNat * 2 + (bitAt 20 (j.w 2)).toNat * 4
        let t3 := beginJob slot t2
        let both := decide (routes.length = 2)
        let f : LinkFrame := ⟨lkClass j, j.sq % 4, typ, flags, 0, 0, 0, 0, 0, arg, serial, data, some (t.jobRef slot), both, 0⟩
        foldS (fun r u => enqueue r.1 { f with pos := r.2 } u) routes t3) s)

/-- Frame `f` of a LINK_SEND has left lane `n`: its SEQ goes into the result, and the job completes once no lane holds a
frame of it (R351, R353). -/
def frameLeft (n : Nat) (f : LinkFrame) (s : State) : State :=
  match f.job with
  | none => s
  | some r =>
    if !s.jobLive r then s
    else
      let j := s.job r.slot
      let part := if f.both ∧ n ≠ j.context then f.seq * 2 ^ 16 else f.seq
      let res := BitVec.ofNat 32 ((wordAt j.results 0).toNat + part)
      let s1 := s.setJob r.slot { j with results := [res] }
      if (List.range 64).any (fun m => (jobFrames (laneOf s1 m)).any (fun g => g.job == some r)) then s1
      else presentRef r stOk [res] s1

/-- LINK_SEND_DONE: the last byte of a LINK_SEND frame leaves the lane (R353). -/
def execLinkSendDone (lane : Nat) (s : State) : Out :=
  done s (match (laneOf s lane).wire with
    | none => s
    | some f => frameLeft lane f (setLane lane { laneOf s lane with wire := none } s))

/-! ## The egress scheduler (R376 to R378) -/

/-- The shaping values in force: OVERHEAD, PIX_RATE, PIX_BURST, CTL_RATE, CTL_BURST and QUANTUM. -/
def shapeRegs (s : State) (n : Nat) : List Nat :=
  [s.rd (PLK_LANE_SHAPE n) PLK_LANE_SHAPE.OVERHEAD, s.rd (PLK_LANE_PIX_RATE n) PLK_LANE_PIX_RATE.RATE,
    s.rd (PLK_LANE_PIX_BURST n) PLK_LANE_PIX_BURST.BURST, s.rd (PLK_LANE_CTL_RATE n) PLK_LANE_CTL_RATE.RATE,
    s.rd (PLK_LANE_CTL_BURST n) PLK_LANE_CTL_BURST.BURST, s.rd (PLK_LANE_DRR n) PLK_LANE_DRR.QUANTUM]

/-- Shaping values before any refill: the reset values of R382. -/
def shapeOf (l : LaneSt) (i : Nat) : Nat :=
  (if l.shape.isEmpty then [20, 170449, 27708, 208, 9236, 9236] else l.shape).getD i 0

/-- A burst or quantum at least as long as any frame (R377). -/
def atLeastFrame (l : LaneSt) (x : Nat) : Nat := max x (9216 + shapeOf l 0)

/-- CREDIT_REFILL: shaping writes are latched, and the class 1 and 2 credits refilled (R377, R378). -/
def execCreditRefill (lane : Nat) (s : State) : Out :=
  done s (State.when (laneLive s lane) (fun t =>
    let l := { laneOf t lane with shape := shapeRegs t lane }
    let rate := fun (r : Nat) => if l.rate = 1 then r * 2 / 5 else r
    let fill := fun (c r b : Nat) => min (c + rate (shapeOf l r)) (atLeastFrame l (shapeOf l b) * 256)
    setLane lane { l with credit1 := fill l.credit1 1 2, credit2 := fill l.credit2 3 4 } t) s)

/-- Counted length of a frame (R377). -/
def countedLen (l : LaneSt) (f : LinkFrame) : Nat := frameLen f + shapeOf l 0

/-- The head of a BULK sub-queue. -/
def bulkHead (l : LaneSt) (i : Nat) : Option LinkFrame := l.q3.find? (fun f => f.sub == i)

/-- The deficit round robin (R377); two rounds serve any frame. -/
def bulk : Nat → LaneSt → Option (LinkFrame × LaneSt)
  | 0, _ => none
  | n + 1, l =>
    let next := (l.cur + 1) % 4
    match bulkHead l l.cur with
    | none => bulk n { l with deficit := l.deficit.set l.cur 0, started := false, cur := next }
    | some f =>
      let d := l.deficit.getD l.cur 0 + (if l.started then 0 else atLeastFrame l (shapeOf l 5))
      if countedLen l f ≤ d then
        some (f, { l with deficit := l.deficit.set l.cur (d - countedLen l f), started := true, q3 := l.q3.erase f })
      else bulk n { l with deficit := l.deficit.set l.cur d, started := false, cur := next }

/-- The frame the scheduler chooses on a lane, and the lane without it (R377); only an UP lane sends PIXEL and BULK
(R338). -/
def selectFrame (up : Bool) (l : LaneSt) : Option (LinkFrame × LaneSt) :=
  match l.q0 with
  | f :: rest => some (f, { l with q0 := rest })
  | [] =>
    let rest := match l.q2 with
      | f :: more =>
        if countedLen l f * 256 ≤ l.credit2 then some (f, { l with q2 := more, credit2 := l.credit2 - countedLen l f * 256 })
        else none
      | [] => none
    let low := match rest with
      | some x => some x
      | none => if up then bulk 8 l else none
    match up, l.q1 with
    | true, f :: more =>
      if countedLen l f * 256 ≤ l.credit1 then some (f, { l with q1 := more, credit1 := l.credit1 - countedLen l f * 256 })
      else low
    | _, _ => low

/-- A frame that holds an uncorrectable word of the transmit FIFO is dropped: a PIXEL frame is counted, and a LINK_SEND ends
with INTERNAL (R354; assumption 25). -/
def txLost (n : Nat) (f : LinkFrame) (s : State) : State :=
  if f.typ = 0x02 then laneIrq n 5 (s.inc (PLK_LANE_PIXEL_DROP n) PLK_LANE_PIXEL_DROP.COUNT)
  else match f.job with
  | none => s
  | some r => presentRef r stInternal [] s

/-- Frame `f0` goes onto lane `n`'s wire, `l` being the lane without it (R313, R315). -/
def sendFrame (n : Nat) (f0 : LinkFrame) (l : LaneSt) (t : State) : State :=
  let f := stampSync n t { f0 with seq := l.seq }
  let b := l.rest.getD f.cls 0 + countedLen l f
  let t1 := setLane n { l with wire := some f, seq := (l.seq + 1) % 65536, rest := l.rest.set f.cls (b % 64) } t
  (t1.addTo (PLK_LANE_CLASS_BYTES n f.cls) PLK_LANE_CLASS_BYTES.BYTES64 (b / 64)).inc (PLK_LANE_TX_FRAMES n)
    PLK_LANE_TX_FRAMES.COUNT

/-- LANE_EGRESS_SELECT: the wire is free, and the scheduler puts the next frame on it (R313, R315, R376, R377). The words of
its place in the transmit FIFO are checked as they are read (R354, R541). -/
def execLaneEgressSelect (lane : Nat) (s : State) : Out :=
  done s (State.when (laneLive s lane && decide (lsSettling ≤ laneState s lane)
      && (match (laneOf s lane).wire with | some f => f.job.isNone | none => true)) (fun t =>
    let up := laneState t lane == lsUp
    match (selectFrame up { laneOf t lane with wire := none }).map (fun x => (x.1, x.2.takeRoom)) with
    | none => setLane lane { laneOf t lane with wire := none } t
    | some (f, l) =>
      match t.sramFault (PLK_LANE_FAULT_STATUS lane) ((frameLen f + 3) / 4) with
      | (false, u) => sendFrame lane f l u
      | (true, u) => txLost lane f (setLane lane l u)) s)

end Sys2Proof.Machine
end

