-- ==== Sys2Proof/Machine/Ledger.lean ====
section
/-!
DEFINITION. The ledger's tables, curves and samples (R275, R281 to R288): addresses of the accumulator, baseline and gain
tables, efficiency and gains, the drive a sample adds, and the tile summary.
-/
namespace Sys2Proof.Machine

def lgOff : Nat := 0
def lgRestoring : Nat := 1
def lgRunning : Nat := 2
def lgStopped : Nat := 3
def ldgState (s : State) : Nat := s.rd LDG_STATUS LDG_STATUS.STATE
def sumValid (s : State) : Bool := s.flag LDG_STATUS LDG_STATUS.SUM_VALID

def stLedgerState : Nat := 0x61
def stTileState : Nat := 0x62
def stCalibTimeout : Nat := 0x63
def stCalibBad : Nat := 0x64
def stStoreEmpty : Nat := 0x65

/-! ## Addresses (R264, R275) -/

def accAddr (s : State) (i : Nat) : Nat :=
  s.rd LDG_ACC_BASE_LO LDG_ACC_BASE_LO.ADDR_LO * 64 + (s.reg LDG_ACC_BASE_HI).toNat * 2 ^ 32 + 12 * i
def blAddr (s : State) (i : Nat) : Nat :=
  s.rd LDG_BL_BASE_LO LDG_BL_BASE_LO.ADDR_LO * 64 + (s.reg LDG_BL_BASE_HI).toNat * 2 ^ 32 + 4 * i
def stageAddr (s : State) (a : Nat) : Nat :=
  s.rd LDG_STAGE_BASE_LO LDG_STAGE_BASE_LO.ADDR_LO * 64 + (s.reg LDG_STAGE_BASE_HI).toNat * 2 ^ 32 + a

/-! ## Efficiency curves and gains (R287, R288) -/

/-- A byte of the current class store. -/
def classByte (s : State) (a : Nat) : Nat := (tabGet (fun _ => 0) s.ldg.classes a).toNat

def classStep (s : State) (c : Nat) : Nat := classByte s (2048 * c) % 32
/-- PT[c][i][k]. -/
def classPoint (s : State) (c i k : Nat) : Nat :=
  classByte s (2048 * c + 64 + 6 * i + 2 * k) + 256 * classByte s (2048 * c + 64 + 6 * i + 2 * k + 1)

/-- eff(c, k, a). -/
def effAt (st : State) (c k a : Nat) : Nat :=
  let step := classStep st c
  let i := a / 2 ^ step
  let f := a % 2 ^ step
  if 255 ≤ i then classPoint st c 255 k
  else (classPoint st c i k * (2 ^ step - f) + classPoint st c (i + 1) k * f) / 2 ^ step

/-- gain(c, k, a, b). -/
def gainAt (st : State) (c k a b : Nat) : Nat :=
  let e := effAt st c k a
  if e = 0 then 1023 else min 1023 ((b * 32768 + e / 2) / e)

/-- base(c, k, a, m). -/
def baseAt (st : State) (c k a m : Nat) : Nat := min 1023 ((m * effAt st c k a + 16384) / 2 ^ 15)

/-- A gain word from its channels; the reserved bits are zero (R264). -/
def gainWord (g : Nat × Nat × Nat) : Word := BitVec.ofNat 32 (g.1 + g.2.1 * 2 ^ 10 + g.2.2 * 2 ^ 20)

/-! ## Sampling (R281 to R284) -/

def sampleN (s : State) : Nat := min 256 (max 16 (s.rd LDG_CFG LDG_CFG.SAMPLE_N))

/-- K for `n` frames (R282). -/
def sampleK (s : State) (n : Nat) : Nat :=
  min 0xFFFFFFFF ((n * periodNow s * 2 ^ 24 + 2109375000 * 2 ^ 32) / (4218750000 * 2 ^ 32))

/-- A lock gate counts towards the next sample, and outside HOLD begins one when the count is reached (R281). A STOP that
waits begins none. -/
def gateSample (hold : Bool) (s : State) : State :=
  if ldgState s ≠ lgRunning ∨ !s.domOn 32 then { s with ldg := { s.ldg with sample := none, sampled := false } }
  else
    let n := s.ldg.gates + 1
    if hold || decide (n < sampleN s) || !s.ldg.stops.isEmpty then
      { s with ldg := { s.ldg with gates := n, sample := none, sampled := false } }
    else
      let k := sampleK s n
      let no := s.rd LDG_SAMPLES LDG_SAMPLES.S
      let tiles := (tabKeys s.lmp.active).filter (fun t => tileState s t == tsLit)
      let s1 := (s.setReg LDG_SAMPLES (BitVec.ofNat 32 (no + 1))).setReg LDG_K (BitVec.ofNat 32 k)
      { s1 with ldg := { s1.ldg with gates := 0, sample := some ⟨k, no, tiles, [], []⟩, sampled := true } }

/-- A byte as a signed number. -/
def signed8 (x : Nat) : Int := (BitVec.ofNat 8 x).toInt

/-- The weight band of a tile (R283). -/
def tempBand (s : State) (t : Nat) : Nat :=
  let tdef := s.rd LDG_TEMP_CFG LDG_TEMP_CFG.TDEF
  match slotAt s (tPlace (actTile s t)) with
  | none => tdef
  | some x => match x.heard with
    | none => tdef
    | some c =>
      if c < tabGet (fun _ => 0) s.lmp.litAt t ∨ s.rd LDG_TEMP_CFG LDG_TEMP_CFG.STALE_S * 1200000000 ≤ s.cyc - c then tdef
      else
        let d := (signed8 x.temp - signed8 (s.rd LDG_TEMP_CFG LDG_TEMP_CFG.T0)) / ((2 ^ s.rd LDG_TEMP_CFG LDG_TEMP_CFG.TSHIFT : Nat) : Int)
        (clampInt 0 15 d).toNat

/-- The increment one channel of a lamp gains (R282). -/
def ledgerInc (k no w cx cy dr : Nat) : Nat :=
  let d := bayer ((cx + 7 * no) % 16) ((cy + 11 * no) % 16) * 256 + bayer (no % 16) (no / 16 % 16)
  let v := dr * w * k
  v / 2 ^ 48 + (if d < v / 2 ^ 32 % 65536 then 1 else 0)

/-- Three little-endian words of a byte list at record `i`. -/
def triple (ws : List Word) (i : Nat) : Nat × Nat × Nat :=
  ((wordAt ws (3 * i)).toNat, (wordAt ws (3 * i + 1)).toNat, (wordAt ws (3 * i + 2)).toNat)

/-- The summary word of channel `k` of tile `t`. -/
def sumOf (s : State) (t k : Nat) : Nat := tabGet (fun _ => 0) s.ldg.sums (3 * t + k)

/-- After a tile's last line in a sample its drive moves into the summary; an uncorrectable word loses the tile's summary
(R284, R302). -/
def summaryAdd (t : Nat) (x : LdgSample) (s : State) : State :=
  let s1 := match s.sramFault LDG_FAULT_STATUS 3 with
    | (false, u) => u
    | (true, u) =>
      let sums := (List.range 3).foldl (fun m k => tabSet (fun _ => 0) m (3 * t + k) 0) u.ldg.sums
      { u with ldg := { u.ldg with sums := sums, lost := if u.ldg.lost.contains t then u.ldg.lost else t :: u.ldg.lost } }
  foldS (fun k u =>
    let i := 3 * t + k
    let r := tabGet (fun _ => 0) u.ldg.rsd i + tabGet (fun _ => 0) x.tsum i
    let n := (tabGet (fun _ => 0) u.ldg.sums i + r / 64) % 2 ^ 32
    let sums := tabSet (fun _ => 0) u.ldg.sums i n
    { u with ldg := { u.ldg with sums := sums, rsd := tabSet (fun _ => 0) u.ldg.rsd i (r % 64) } }) (List.range 3) s1

/-- A corrected footprint row of a sampled tile adds its weighted drive to the accumulators (R282, R284). -/
def ledgerRow (t b : Nat) (row : List (Nat × Nat × Nat)) (s : State) : State :=
  match s.ldg.sample with
  | none => s
  | some x =>
    if !x.tiles.contains t then s
    else
      let w := actTile s t
      let fw := tFw w
      let a0 := accAddr s (tOfs w + b * fw)
      let (ws, _, s1) := dramRdWords samplePort s a0 (3 * fw)
      let wt := s1.rd (LDG_TEMPW (tempBand s1 t)) LDG_TEMPW.W
      let incs := ((List.range fw).zip row).map (fun p => each3 (fun k =>
        let dr := if tDrive12 w then chan p.2 k * 16 else chan p.2 k
        ledgerInc x.k x.s wt (tX w + p.1) (tY w + b) dr))
      let acc := ((List.range fw).zip incs).map (fun p =>
        (List.range 3).map (fun k => BitVec.ofNat 32 (min 0xFFFFFFFF (chan (triple ws p.1) k + chan p.2 k))))
      let s2 := dramWrWords samplePort s1 a0 acc.flatten
      let tsum := (List.range 3).foldl (fun m k =>
        tabSet (fun _ => 0) m (3 * t + k) (tabGet (fun _ => 0) m (3 * t + k) + (incs.map (fun c => chan c k)).sum)) x.tsum
      let n := tabGet (fun _ => 0) x.lines t + 1
      let y := { x with lines := tabSet (fun _ => 0) x.lines t n, tsum := tsum }
      let s3 := { s2 with ldg := { s2.ldg with sample := some y } }
      if n = tFh w then summaryAdd t y s3 else s3

end Sys2Proof.Machine
end

