-- ==== Sys2Proof/Machine/Store.lean ====
section
/-!
DEFINITION. The ledger store (R285, R292 to R296): the layout of the eMMC user area, generations, summary commits and the
journal, and the commands that write them.
-/
namespace Sys2Proof.Machine

/-! ## Layout (R293, R294) -/

def emCommitAddr (slot : Nat) : Nat := (0x800 + slot * 0x800) * 512
def emJournalAddr : Nat := 0x4000 * 512
def emJournalSize : Nat := 0x100000 * 512
def emGenAddr (slot : Nat) : Nat := (0x120000 + slot * 0xA00000) * 512

/-- Bytes of the user area. -/
def emGet (m : Tab Byte) (a n : Nat) : List Byte := tabGetRange (fun _ => 0) m a n
def emPut (m : Tab Byte) (a : Nat) (bs : List Byte) : Tab Byte := tabSetRange (fun _ => 0) m a bs
def emWords (m : Tab Byte) (a n : Nat) : List Word := bytesWords (emGet m a (4 * n))

/-- A byte address of the journal ring. -/
def jAddr (a : Nat) : Nat := emJournalAddr + a % emJournalSize
/-- Bytes of the journal ring from offset `a`. -/
def jGet (m : Tab Byte) (a n : Nat) : List Byte := (List.range n).map (fun i => tabGet (fun _ => 0) m (jAddr (a + i)))

/-- A 512-byte header sector: its words, zero up to word 126, and its CRC over them and `more` (R285, R294, R295). -/
def headerSector (ws : List Word) (more : List Byte) : List Byte :=
  let head := wordsBytes (ws ++ List.replicate (127 - ws.length) 0)
  head ++ wordBytes (crc32c (head ++ more))

/-- A header sector's MAGIC and CRC check. -/
def headerOk (magic : Word) (ws : List Word) (more : List Byte) : Bool :=
  wordAt ws 0 == magic && wordAt ws 127 == crc32c (wordsBytes (ws.take 127) ++ more)

def magicLabel : Word := 0x4C444C42
def magicCommit : Word := 0x4C445355
def magicGen : Word := 0x4C444749
def magicJournal : Word := 0x4C444A45
def magicCalib : Word := 0x434C4231

/-! ## What the store holds -/

/-- The label checks (R293). -/
def labelOk (m : Tab Byte) : Bool := let ws := emWords m 0 128; headerOk magicLabel ws [] && wordAt ws 1 == 1

def genHeader (m : Tab Byte) (g : Nat) : List Word := emWords m (emGenAddr g) 128
def genEpoch (m : Tab Byte) (g : Nat) : Nat := (wordAt (genHeader m g) 2).toNat
def genJmark (m : Tab Byte) (g : Nat) : Nat := (wordAt (genHeader m g) 3).toNat
def genLamps (m : Tab Byte) (g : Nat) : Nat := (wordAt (genHeader m g) 4).toNat
def genTilesHi (m : Tab Byte) (g : Nat) : Nat := (wordAt (genHeader m g) 5).toNat
def genChunks (m : Tab Byte) (g : Nat) : Nat := (wordAt (genHeader m g) 6).toNat

/-- Generation `g` is valid (R294), and no restore has found it unusable (R297). -/
def genValid (s : State) (g : Nat) : Bool :=
  let m := s.ldg.store
  !s.ldg.badGen.contains g && headerOk magicGen (genHeader m g) (emGet m (emGenAddr g + 0x200) (4 * genChunks m g))

/-- The valid generations, the newest first. -/
def validGens (s : State) : List Nat :=
  match genValid s 0, genValid s 1 with
  | true, true => if genEpoch s.ldg.store 0 < genEpoch s.ldg.store 1 then [1, 0] else [0, 1]
  | true, false => [0]
  | false, true => [1]
  | false, false => []

/-- The slot a pass writes: the one that does not hold the newest valid generation (R290). -/
def passSlot (s : State) : Nat := match validGens s with | g :: _ => 1 - g | [] => 0

def commitHeader (m : Tab Byte) (c : Nat) : List Word := emWords m (emCommitAddr c) 128
def commitValid (m : Tab Byte) (c : Nat) : Bool := headerOk magicCommit (commitHeader m c) []
def commitSeq (m : Tab Byte) (c : Nat) : Nat := (wordAt (commitHeader m c) 1).toNat

/-- The slot of the newest valid commit, if any (R285). -/
def newestCommit (m : Tab Byte) : Option Nat :=
  match commitValid m 0, commitValid m 1 with
  | true, true => if commitSeq m 0 < commitSeq m 1 then some 1 else some 0
  | true, false => some 0
  | false, true => some 1
  | false, false => none

/-- The summary word of channel `k` of tile `t` in the newest commit; 0 where none holds it (R297). -/
def committedSum (m : Tab Byte) (t k : Nat) : Nat :=
  match newestCommit m with
  | none => 0
  | some c =>
    if t < bitsOf 16 0 (wordAt (commitHeader m c) 2) then bytesNat (emGet m (emCommitAddr c + 512 + (3 * t + k) * 4) 4) else 0

/-- Bytes an entry of a tile of `n` lamps takes in the journal (R295). -/
def jEntryLen (n : Nat) : Nat := (512 + 16 * n + 4095) / 4096 * 4096

/-- The entry at ring offset `a`, where its checks hold: its words and lamp count (R295). -/
def jEntryAt (m : Tab Byte) (a : Nat) : Option (List Word × Nat) :=
  let ws := bytesWords (jGet m a 512)
  let r3 := wordAt ws 11
  let n := (bitsOf 9 0 r3 + 1) * (bitsOf 19 10 r3 + 1)
  if headerOk magicJournal ws [] && wordAt ws 16 == crc32c (jGet m (a + 512) (16 * n)) then some (ws, n) else none

/-- The entries the journal holds: sequence, ring offset and length, by sequence. -/
def journalScan (m : Tab Byte) : List (Nat × Nat × Nat) :=
  let starts := (tabKeys m).filter (fun a => decide (emJournalAddr ≤ a) && decide (a < emJournalAddr + emJournalSize)
    && (a - emJournalAddr) % 4096 == 0)
  let found : List (Nat × Nat × Nat) := starts.filterMap (fun a => match jEntryAt m (a - emJournalAddr) with
    | some (ws, n) => some ((wordAt ws 1).toNat, a - emJournalAddr, jEntryLen n)
    | none => none)
  found.foldl (fun (acc : List (Nat × Nat × Nat)) (e : Nat × Nat × Nat) => acc.filter (fun x => decide (x.1 < e.1)) ++ [e] ++ acc.filter (fun x => decide (e.1 < x.1))) []

/-- Bytes of the journal that are not free. -/
def jUsed (s : State) : Nat := (s.ldg.entries.map (fun e => e.2.2)).sum

/-- LDG_JOURNAL follows the entries (R302). -/
def showJournal (s : State) : State :=
  (s.wr LDG_JOURNAL LDG_JOURNAL.FREE_MIB ((emJournalSize - jUsed s) / 2 ^ 20)).wr LDG_JOURNAL LDG_JOURNAL.ENTRIES
    s.ldg.entries.length

/-- Entries below the JMARK of the older of two valid generations are free (R295). -/
def freeEntries (s : State) : State :=
  match validGens s with
  | [_, g] =>
    let es := s.ldg.entries.filter (fun e => decide (genJmark s.ldg.store g ≤ e.1))
    showJournal { s with ldg := { s.ldg with entries := es } }
  | _ => showJournal s

/-- The journal as the store holds it is taken up: its entries and the next sequence and place. -/
def takeJournal (s : State) : State :=
  let es := journalScan s.ldg.store
  let marks := (validGens s).map (genJmark s.ldg.store)
  let next := (es.map (fun (e : Nat × Nat × Nat) => e.1 + 1) ++ marks).foldl max s.ldg.jseq
  let head := match es.getLast? with | some e => (e.2.1 + e.2.2) % emJournalSize | none => s.ldg.jhead
  freeEntries { s with ldg := { s.ldg with entries := es, jseq := next, jhead := head } }

/-! ## Commands (R296) -/

/-- A byte list in pieces of at most 64 KiB. -/
def emPieces : Nat → List Byte → List (List Byte)
  | 0, _ => []
  | n + 1, bs => if bs.isEmpty then [] else bs.take 65536 :: emPieces n (bs.drop 65536)

/-- The commands that write bytes at an address; the last one ends its item where `last` says so. -/
def writesFor (cls addr item : Nat) (last : Bool) (bs : List Byte) : List EmWrite :=
  let ps := emPieces (bs.length / 65536 + 1) bs
  ((List.range ps.length).zip ps).map (fun p => ⟨cls, addr + 65536 * p.1, p.2, last && p.1 + 1 == ps.length, item⟩)

def queueWrites (ws : List EmWrite) (s : State) : State := { s with ldg := { s.ldg with writes := s.ldg.writes ++ ws } }

/-- The commands that write a journal item, which may cross the end of the ring. -/
def journalWrites (a item : Nat) (bs : List Byte) : List EmWrite :=
  let n := emJournalSize - a % emJournalSize
  if bs.length ≤ n then writesFor 2 (jAddr a) item true bs
  else writesFor 2 (jAddr a) item false (bs.take n) ++ writesFor 2 emJournalAddr item true (bs.drop n)

/-- Items of FORMAT and of a restore's reads, apart from epochs: a restore reads the label with the commits and the
journal, and then each generation. -/
def itemFormat : Nat := 2 ^ 33
def itemRead : Nat := 2 ^ 34
def itemGen (g : Nat) : Nat := itemRead + 1 + g

/-- A command of class `c` waits or is in progress. -/
def emBusy (s : State) (p : Nat → Bool) : Bool :=
  s.ldg.writes.any (fun w => p w.cls) || (match s.ldg.cmd with | some w => p w.cls | none => false)

/-! ## Summary commits (R285) -/

/-- A commit begins: an invalid header, the SUM words of tiles 0 to TILES_HI − 1, and the header last, into the slot
that does not hold the newest valid commit. -/
def startCommit (pf : Bool) (s : State) : State :=
  let m := s.ldg.store
  let slot := match newestCommit m with | some c => 1 - c | none => 0
  let seq := match newestCommit m with | some c => commitSeq m c + 1 | none => 1
  let hi := s.ldg.hi
  let sums := ((List.range (3 * hi)).map (fun i => natBytes 4 (tabGet (fun _ => 0) s.ldg.sums i))).flatten
  let (pad, s1) := freshBytes ((512 - sums.length % 512) % 512) s
  let data := sums ++ pad
  let item := s1.ldg.commits + 1
  let cls := if pf then 0 else 1
  let head := headerSector [magicCommit, BitVec.ofNat 32 seq, BitVec.ofNat 32 (hi + pf.toNat * 2 ^ 31),
    BitVec.ofNat 32 (frameNo s1), crc32c data] []
  let a := emCommitAddr slot
  let ws := writesFor cls a item false (List.replicate 512 0) ++ writesFor cls (a + 512) item false data
    ++ writesFor cls a item true head
  let s2 := queueWrites ws s1
  { s2 with ldg := { s2.ldg with commits := item } }

/-- A STOP whose sample has ended begins the commit it waits for (R277). -/
def serveStops (s : State) : State :=
  if s.ldg.sample.isSome || !s.ldg.stops.any (fun x => x.2 == 0) || emBusy s (fun c => c == 1) then s
  else
    let t := startCommit false s
    { t with ldg := { t.ldg with stops := t.ldg.stops.map (fun x => if x.2 = 0 then (x.1, t.ldg.commits) else x) } }

/-- The main PLL locks or stops. -/
def setLock (v : Bool) (s : State) : State := s.wr CLK_STATUS CLK_STATUS.MAIN_LOCK v.toNat

/-- A commit made while the main PLL is stopped is over: the PLL stops again (R493). -/
def restPll (s : State) : State :=
  match s.pwr.mode with
  | .shed => setLock false s
  | .asleep => if s.domOn 1 then s else setLock false s
  | _ => s

/-- SUMMARY_COMMIT: COMMIT_S seconds have passed and Breakwater commits the summary, in sleep and SHED too, where the main
PLL runs for it; without REFCLK the PLL cannot (R285, R493, R495). -/
def execSummaryCommit (s : State) : Out :=
  done s (State.when (sumValid s && ldgState s != lgRestoring && !s.ldg.pfail && !emBusy s (fun c => decide (c ≤ 1))
    && decide (s.pwr.mode ≠ .porst) && !s.pwr.refStopped) (fun t => startCommit false (setLock true t)) s)

/-! ## Epoch passes (R289, R290, R294) -/

/-- Bytes of the accumulator part of a lamp area, to the next 1 MiB boundary. -/
def accArea (lamps : Nat) : Nat := (12 * lamps + 2 ^ 20 - 1) / 2 ^ 20 * 2 ^ 20
def lampChunks (lamps : Nat) : Nat := (accArea lamps + 4 * lamps + 2 ^ 20 - 1) / 2 ^ 20

def gainLamps (s : State) : Nat := s.rd LMP_GAIN_SIZE LMP_GAIN_SIZE.LAMPS

/-- The store as it will stand once every waiting generation command is done. -/
def storeAhead (s : State) : Tab Byte :=
  (s.ldg.cmd.toList ++ s.ldg.writes).foldl (fun m w => if w.cls = 3 then emPut m w.addr w.data else m) s.ldg.store

/-- The tile table, the class store, the chunk table and the header of a pass whose tiles are all staged (R290, R294). -/
def closePass (p : LdgPass) (s : State) : State :=
  let a := emGenAddr p.slot
  let lamps := gainLamps s
  let ahead := storeAhead s
  let chunks := ((List.range (lampChunks lamps)).map (fun i => wordBytes (crc32c (emGet ahead (a + 0x400000 + i * 2 ^ 20) (2 ^ 20))))).flatten
  let head := headerSector [magicGen, 1, BitVec.ofNat 32 p.epoch, BitVec.ofNat 32 p.jmark, BitVec.ofNat 32 lamps,
    BitVec.ofNat 32 p.tilesHi, BitVec.ofNat 32 (lampChunks lamps), BitVec.ofNat 32 p.frame] chunks
  let cls := (List.range 131072).map (fun i => tabGet (fun _ => 0) s.ldg.classes i)
  let ws := writesFor 3 (a + 0x300000) p.epoch false cls ++ writesFor 3 (a + 0x100000) p.epoch false p.table
    ++ writesFor 3 (a + 0x200) p.epoch false chunks ++ writesFor 3 a p.epoch true head
  let s1 := queueWrites ws s
  { s1 with ldg := { s1.ldg with pass := some { p with closing := true } } }

/-- The next enabled tile of a pass from index `t`. -/
def nextTile (s : State) (t hi : Nat) : Option Nat :=
  (enTiles s.lmp.active).find? (fun x => decide (t ≤ x) && decide (x < hi))

/-- Show the pass's next tile, or close the pass where none is left. -/
def passOn (p : LdgPass) (s : State) : State :=
  match nextTile s p.tile p.tilesHi with
  | some t =>
    let q := { p with tile := t, table := p.table ++ List.replicate (32 * (t - p.tile)) 0 }
    (({ s with ldg := { s.ldg with pass := some q } } : State).setReg LDG_PASS (BitVec.ofNat 32 t))
  | none =>
    let q := { p with tile := p.tilesHi, table := p.table ++ List.replicate (32 * (p.tilesHi - p.tile)) 0 }
    closePass q (s.setReg LDG_PASS (BitVec.ofNat 32 p.tilesHi))

/-- An epoch pass starts: the header of its slot is invalidated, and a loaded class store becomes current (R287, R290). -/
def startPass (s : State) : State :=
  let slot := passSlot s
  let e := (s.rd LDG_EPOCH LDG_EPOCH.EPOCH + 1) % 2 ^ 32
  let s1 := queueWrites (writesFor 3 (emGenAddr slot) e false (List.replicate 512 0)) (s.wr LDG_STATUS LDG_STATUS.PASS 1)
  let cls := if s1.ldg.idleNew then s1.ldg.idle else s1.ldg.classes
  let p : LdgPass := ⟨e, s1.ldg.jseq, slot, 0, tilesHi s1, frameNo s1, s1.ldg.saves, [], false⟩
  passOn p { s1 with ldg := { s1.ldg with due := false, saves := [], classes := cls, idleNew := false } }

/-- The pass in progress ends: its register bit clears, and an epoch that waited for it starts (R289). -/
def endPass (s : State) : State :=
  let s1 := { s.wr LDG_STATUS LDG_STATUS.PASS 0 with ldg := { s.ldg with pass := none } }
  if s1.ldg.due && ldgState s1 == lgRunning && s1.ldg.stops.isEmpty then startPass s1 else s1

/-- An op that is ready and finds too little journal space starts an epoch if none is running (R295). -/
def seekSpace (s : State) : State :=
  if s.ldg.pass.isNone && ldgState s == lgRunning && s.ldg.stops.isEmpty && s.ldg.ops.any (fun o =>
      decide (o.stage = .ready) && decide (emJournalSize < jUsed s + jEntryLen (tLamps (actTile s o.tile))))
  then startPass s else s

/-- EPOCH: EPOCH_H hours have passed or a SAVE waits; at a lock gate a pass starts, or waits for the one that runs
(R289). -/
def execEpoch (s : State) : Out :=
  done s (State.when (s.domOn 32 && ldgState s == lgRunning && s.ldg.stops.isEmpty) (fun t =>
    if t.ldg.pass.isSome then
      let t1 := t.setBit LDG_IRQ_STATUS 5
      { t1 with ldg := { t1.ldg with due := true } }
    else startPass t) s)

/-- GENERATION_DONE: the tile table and header are written, and the generation is valid (R290, R294). -/
def execGenerationDone (s : State) : Out :=
  done s (match s.ldg.pass with
    | none => s
    | some p => State.when (p.closing && !emBusy s (fun c => c == 3)) (fun t =>
        let t1 := (t.setReg LDG_EPOCH (BitVec.ofNat 32 p.epoch)).setBit LDG_IRQ_STATUS 0
        let t2 := { t1 with ldg := { t1.ldg with badGen := t1.ldg.badGen.filter (fun g => g != p.slot) } }
        let t3 := foldS (fun r u => presentRef r stOk [BitVec.ofNat 32 p.epoch] u) p.saves t2
        seekSpace (endPass (freeEntries t3))) s)

/-! ## The eMMC commands (R296) -/

/-- The next command by priority: the first of the lowest class that waits. -/
def nextCommand (ws : List EmWrite) : Option EmWrite :=
  (List.range 4).findSome? (fun c => ws.find? (fun w => w.cls == c))

/-- EMMC_COMMAND: the arbiter issues the next command. -/
def execEmmcCommand (s : State) : Out :=
  done s (State.when (s.ldg.cmd.isNone && decide (s.pwr.mode ≠ .porst)) (fun t => match nextCommand t.ldg.writes with
    | none => t
    | some w => { t with ldg := { t.ldg with cmd := some w, tries := 0, writes := t.ldg.writes.erase w } }) s)

/-- The device answers its first command: it is initialised, and what it says of itself is shown (R292, R302). Its size
and life are the device's own: free. -/
def deviceSeen (s : State) : State :=
  if s.flag LDG_STORE LDG_STORE.PRESENT then s
  else
    let (life, s1) := s.fresh
    let (mib, s2) := s1.fresh
    let s3 := (((s2.wr LDG_STORE LDG_STORE.PRESENT 1).wr LDG_STORE LDG_STORE.LIFE_A (bitsOf 3 0 life)).wr LDG_STORE
      LDG_STORE.LIFE_B (bitsOf 7 4 life)).setReg LDG_STORE_SIZE mib
    if s3.domOn 32 && (decide (9 ≤ bitsOf 3 0 life) || decide (9 ≤ bitsOf 7 4 life)) then s3.setBit LDG_IRQ_STATUS 6 else s3

/-- LABEL_OK follows the label and the size of the user area (R292, R302). -/
def showLabel (s : State) : State :=
  s.wr LDG_STORE LDG_STORE.LABEL_OK
    (labelOk s.ldg.store && decide (11341398016 ≤ (s.reg LDG_STORE_SIZE).toNat * 2 ^ 20)).toNat

/-- LDG_COMMIT shows the newest valid commit of the store, whoever wrote it (R302). -/
def showCommit (s : State) : State :=
  s.setReg LDG_COMMIT (BitVec.ofNat 32 (match newestCommit s.ldg.store with
    | some c => commitSeq s.ldg.store c
    | none => 0))

/-- Remove the waiting commands of a class. -/
def dropWrites (p : EmWrite → Bool) (s : State) : State :=
  { s with ldg := { s.ldg with writes := s.ldg.writes.filter (fun w => !p w) } }

/-- The ledger is STOPPED: a pass in progress is abandoned, SAVEs and operations not yet stepped end with LEDGER_STATE
(R276). -/
def enterStopped (s : State) : State :=
  let saves := s.ldg.saves ++ (match s.ldg.pass with | some p => p.saves | none => [])
  let s1 := foldS (fun r t => presentRef r stLedgerState [] t) saves s
  let early := fun (o : LdgOp) => !(decide (o.stage = .journal) || decide (o.stage = .durable))
  let s2 := foldS (fun o t => match o.ref with | some r => presentRef r stLedgerState [] t | none => t)
    (s1.ldg.ops.filter early) s1
  let s3 := dropWrites (fun w => w.cls == 3) s2
  let s4 := (s3.wr LDG_STATUS LDG_STATUS.STATE lgStopped).wr LDG_STATUS LDG_STATUS.PASS 0
  { s4 with ldg := { s4.ldg with pass := none, saves := [], due := false, ops := s4.ldg.ops.filter (fun o => !early o) } }

/-- A commit is durable: the STOPs that waited for it end (R277, R285). -/
def commitDurable (item : Nat) (s : State) : State :=
  let s1 := restPll s
  let ended := s1.ldg.stops.filter (fun x => x.2 == item)
  if ended.isEmpty then serveStops s1
  else
    let s2 := enterStopped { s1 with ldg := { s1.ldg with stops := s1.ldg.stops.filter (fun x => x.2 != item) } }
    foldS (fun x t => presentRef x.1 stOk [t.reg LDG_EPOCH] t) ended s2

end Sys2Proof.Machine
end

