-- ==== Sys2Proof/Machine/LedgerOps.lean ====
section
/-!
DEFINITION. The ledger at work (R276 to R280, R291, R296 to R300): the LEDGER_OP jobs, tile steps, restore, rebase, the
replacement procedure with its calibration records, and the ends of the store's commands.
-/
namespace Sys2Proof.Machine

/-- A ledger interrupt, where PD_LMP is on. -/
def ldgIrq (b : Nat) (s : State) : State := if s.domOn 32 then s.setBit LDG_IRQ_STATUS b else s

/-! ## Lamp records and their order (R251, R270, R295) -/

/-- Tile-native index of footprint index `k` (R251). -/
def nativeIndex (w : List Word) (k : Nat) : Nat :=
  ((List.range (tLamps w)).find? (fun j => footIndex w (j % tW w) (j / tW w) == k)).getD 0

/-- A tile-native list in footprint order. -/
def toFoot {α : Type} (d : α) (w : List Word) (xs : List α) : List α :=
  (List.range (tLamps w)).map (fun k => xs.getD (nativeIndex w k) d)

/-- A list in footprint order in tile-native order. -/
def toNative {α : Type} (d : α) (w : List Word) (xs : List α) : List α :=
  (List.range (tLamps w)).map (fun j => xs.getD (footIndex w (j % tW w) (j / tW w)) d)

/-- The words of a list by `k`. -/
def groups (k n : Nat) (ws : List Word) : List (List Word) := (List.range n).map (fun i => (ws.drop (k * i)).take k)

/-- Three accumulator words as numbers. -/
def accOf (ws : List Word) : Nat × Nat × Nat := each3 (fun k => (wordAt ws k).toNat)

/-- A tile record (R294). -/
def tileRecord (s : State) (t serial : Nat) : List Word :=
  let w := actTile s t
  [BitVec.ofNat 32 serial, BitVec.ofNat 32 (serial / 2 ^ 32), BitVec.ofNat 32 (tOfs w),
    BitVec.ofNat 32 (bitsOf 22 0 (wordAt w 1) + tClass w * 2 ^ 23 + 2 ^ 31),
    BitVec.ofNat 32 (sumOf s t 0), BitVec.ofNat 32 (sumOf s t 1), BitVec.ofNat 32 (sumOf s t 2), 0]

/-- Write a tile's accumulators, baselines and gains, each where given. -/
def putLamps (t : Nat) (acc : Option (List (List Word))) (bl gain : List Word) (s : State) : State :=
  let o := tOfs (actTile s t)
  let s1 := match acc with | some a => dramWrWords ledgerPort s (accAddr s o) a.flatten | none => s
  dramWrWords ledgerPort (dramWrWords ledgerPort s1 (blAddr s1 o) bl) (gainAddr s1 o) gain

/-- The gain word of an accumulator and a baseline (R288). -/
def gainOf (s : State) (c : Nat) (a b : Nat × Nat × Nat) : Nat × Nat × Nat := each3 (fun k => gainAt s c k (chan a k) (chan b k))
/-- The baseline word of an accumulator and a measured gain (R288). -/
def baseOf (s : State) (c : Nat) (a m : Nat × Nat × Nat) : Nat × Nat × Nat := each3 (fun k => baseAt s c k (chan a k) (chan m k))

/-- A gain with a channel of 1,023. -/
def isTop (g : Nat × Nat × Nat) : Bool := g.1 == 1023 || g.2.1 == 1023 || g.2.2 == 1023

/-! ## The operations in progress -/

def dropOp (t : Nat) (s : State) : State := { s with ldg := { s.ldg with ops := s.ldg.ops.filter (fun o => o.tile != t) } }
def putOp (x : LdgOp) (s : State) : State :=
  { s with ldg := { s.ldg with ops := s.ldg.ops.map (fun o => if o.tile = x.tile then x else o) } }
/-- An operation ends with a status: its job, if it has one, completes. -/
def endOp (o : LdgOp) (st : Nat) (res : List Word) (s : State) : State :=
  let t := dropOp o.tile s
  match o.ref with | some r => presentRef r st res t | none => t

/-- The staging region is in use: one operation has it from its request to its tile step. -/
def stagingBusy (s : State) : Bool :=
  s.ldg.ops.any (fun o => decide (o.stage = .receiving) || decide (o.stage = .complete) || decide (o.stage = .ready))

/-- A REBASE takes the staging region: its image is read into it (R300). -/
def stageRebase (o : LdgOp) (s : State) : State :=
  if !isCurrent s o.image then endOp o stStaleHandle [] s
  else
    let (bs, bad, s1) := dramRdFor LDG_FAULT_STATUS ledgerPort s (bufAddr s o.image + o.offset) (4 * tLamps (actTile s o.tile))
    if bad then endOp o stInternal [] s1 else putOp { o with stage := .ready } (dramWr ledgerPort s1 (stageAddr s1 0) bs)

/-- A replacement takes the staging region: the receiver is asked for its calibration record (R299, R321). One whose tile
has left REPLACED while it waited does not start (R260, R299). -/
def stageReplace (o : LdgOp) (s : State) : State :=
  if tileState s o.tile != tsReplaced then endOp o stTileState [] s
  else
  let (n, p) := routeOf s (o.lane * 1024 + o.pos)
  let s1 := if laneUp s n then enqueue n (ctlFrame 2 0x20 0 p 0 2 o.serial []) s else s
  putOp { o with stage := .receiving, got := 0 } s1

/-- The oldest operation that waits for the staging region takes it once it is free. -/
def promote : Nat → State → State
  | 0, s => s
  | n + 1, s =>
    if stagingBusy s then s
    else match s.ldg.ops.find? (fun o => decide (o.stage = .asking)) with
      | none => s
      | some o => promote n (if o.kind = 3 then stageRebase o s else stageReplace o s)

def promoteOps (s : State) : State := seekSpace (promote (s.ldg.ops.length + 1) s)

def opOn (s : State) (t : Nat) : Bool := s.ldg.ops.any (fun o => o.tile == t)

/-- An operation begins on a tile. -/
def beginOp (o : LdgOp) (s : State) : State := promoteOps { s with ldg := { s.ldg with ops := s.ldg.ops ++ [o] } }

/-- The replacement procedure begins on tile `t` (R258, R299). -/
def beginReplace (ref : Option JobRef) (t : Nat) (s : State) : State :=
  let w := actTile s t
  let serial := match slotAt s (tPlace w) with | some r => r.serial | none => 0
  beginOp ⟨ref, 4, t, .asking, 0, 0, 0, serial, tLane w, tPos w, 0, 0, [], ref.isNone⟩ s

/-- The shadow entry of tile `t` names the serial its roster slot holds: the engine's serial write only waits for a gate
outside HOLD. -/
def serialWaits (s : State) (t : Nat) : Bool :=
  match slotAt s (tPlace (actTile s t)) with
  | none => false
  | some r => tSerial (shdTile s t) == r.serial

/-- Under AUTO_ACCEPT a tile that enters REPLACED starts its replacement procedure, at once or after the operation that is
on it; a tile whose new serial a TILEMAP_UPDATE has overwritten runs it again (R258, R259), but not while the engine's serial
write only waits for a gate outside HOLD. `before` holds the states of the last gate. -/
def autoReplace (before : Tab Nat) (s : State) : State :=
  let replaced := (tabKeys s.lmp.active).filter (fun t => tileState s t == tsReplaced)
  let due := replaced.filter (fun t => tabGet (fun _ => 0) before t != tsReplaced || s.lmp.owed.contains t)
  if !s.flag LMP_CTL LMP_CTL.AUTO_ACCEPT || ldgState s != lgRunning then
    { s with lmp := { s.lmp with owed := s.lmp.owed.filter (fun t => replaced.contains t) } }
  else
    let later := due.filter (fun t => opOn s t || (tabGet (fun _ => 0) before t == tsReplaced && serialWaits s t))
    foldS (fun t u => if later.contains t then u else beginReplace none t u) due { s with lmp := { s.lmp with owed := later } }

/-! ## LEDGER_OP (R277 to R280) -/

/-- A LEDGER_OP of operation `op` runs: a reserved bit, a CONTEXT other than 0 where the operation names no tile, and a
state that does not accept it are refused in the order of R280; `pre` gives the statuses between INTERNAL and
LEDGER_STATE. -/
def ledgerOp (slot op : Nat) (tile : Bool) (states : List Nat) (pre : Job → State → Nat) (body : Job → State → State)
    (s : State) : Out :=
  done s (State.when (s.startable slot opLedgerOp && bitsOf 7 0 ((s.job slot).w 2) == op) (fun t =>
    let j := t.job slot
    if bitsOf 31 8 (j.w 2) ≠ 0 ∨ (!tile && j.context != 0) = true then fail slot stInternal t
    else if pre j t ≠ stOk then fail slot (pre j t) t
    else if !states.contains (ldgState t) then fail slot stLedgerState t
    else body j t) s)

/-- An image of `n` bytes in the buffer of word 3 at the offset of word 4. -/
def imagePre (n : Nat) (j : Job) (s : State) : Nat :=
  if hPool (j.w 3) < 8 ∧ poolSize (hPool (j.w 3)) < (j.w 4).toNat + n then stInternal
  else if !isCurrent s (j.w 3) then stStaleHandle
  else stOk

/-! ## Restore (R297, R298) -/

/-- The record's words 2 to 6 of a START. -/
def startResults (e : Nat) (r : LdgRestore) : List Word :=
  [BitVec.ofNat 32 e, BitVec.ofNat 32 r.restored, BitVec.ofNat 32 r.missed, BitVec.ofNat 32 r.fallback]

/-- The ledger enters RUNNING. -/
def enterRunning (s : State) : State :=
  let t := ldgIrq 3 (s.wr LDG_STATUS LDG_STATUS.STATE lgRunning)
  { t with ldg := { t.ldg with gates := 0, sample := none, restore := none } }

/-- A restore ends without RUNNING: the ledger is STOPPED, and START has completed (R276, R279, R302). -/
def restoreFails (ref : JobRef) (st : Nat) (s : State) : State :=
  let t := dropWrites (fun x => decide (itemRead ≤ x.item)) (ldgIrq 3 (s.wr LDG_STATUS LDG_STATUS.STATE lgStopped))
  presentRef ref st [] { t with ldg := { t.ldg with restore := none } }

/-- Every tile is restored: the summary source is loaded and the ledger runs (R297). -/
def finishRestore (r : LdgRestore) (s : State) : State :=
  let e := genEpoch s.ldg.store r.newer
  let s1 := (s.wr LDG_STATUS LDG_STATUS.SUM_VALID 1).setReg LDG_EPOCH (BitVec.ofNat 32 e)
  let s2 := { s1 with ldg := { s1.ldg with sums := r.sums, rsd := [], lost := [] } }
  let s3 := if r.missed = 0 then s2 else ldgIrq 4 s2
  presentRef r.ref stOk (startResults e r) (enterRunning s3)

/-- The next enabled tile of a restore, or its end. -/
def restoreOn (r : LdgRestore) (s : State) : State :=
  match nextTile s r.tile 65536 with
  | some t => { s with ldg := { s.ldg with restore := some { r with tile := t } } }
  | none => finishRestore r s

/-- A chunk of a generation's lamp area fails its CRC (R294, R297). -/
def genBroken (m : Tab Byte) (g : Nat) : Bool :=
  !(List.range (genChunks m g)).all (fun i => wordAt (emWords m (emGenAddr g + 0x200 + 4 * i) 1) 0
    == crc32c (emGet m (emGenAddr g + 0x400000 + i * 2 ^ 20) (2 ^ 20)))

/-- The summary source of a restore for tile `t`, channel `k` (R297, R302). -/
def sumSource (s : State) (t k : Nat) : Nat :=
  if sumValid s && !s.ldg.lost.contains t then sumOf s t k else committedSum s.ldg.store t k

/-- The store has been read: N and Q are taken, with the class store and the journal, or the restore fails (R297). -/
def beginRestore (ref : JobRef) (s : State) : State :=
  if !labelOk s.ldg.store then restoreFails ref stStoreEmpty s
  else
    let bad := (validGens s).takeWhile (genBroken s.ldg.store)
    let s1 := { s with ldg := { s.ldg with badGen := s.ldg.badGen ++ bad } }
    match validGens s1 with
    | [] => restoreFails ref stStoreEmpty s1
    | n :: q =>
      let own := tabSetRange (fun _ => 0) [] 0 (emGet s1.ldg.store (emGenAddr n + 0x300000) 131072)
      let cls := if s1.ldg.idleNew then s1.ldg.idle else if s1.ldg.loaded then s1.ldg.classes else own
      let s2 := takeJournal { s1 with ldg := { s1.ldg with classes := cls, idleNew := false } }
      let sums := (List.range (3 * maxTiles s2.fuse.variant)).foldl
        (fun m i => tabSet (fun _ => 0) m i (sumSource s2 (i / 3) (i % 3))) []
      restoreOn ⟨ref, 0, n, q.head?, sums, 0, 0, 0⟩ s2

/-- The record of tile `t` in generation `g`: zero at or beyond its TILES_HI. -/
def genRecord (m : Tab Byte) (g t : Nat) : List Word :=
  if t < genTilesHi m g then emWords m (emGenAddr g + 0x100000 + 32 * t) 8 else []

/-- The lamps of a record in generation `g`: ACC_R, ACC_G, ACC_B and the baseline of each. -/
def genLampsOf (m : Tab Byte) (g : Nat) (rcd : List Word) : List (List Word) :=
  let n := tLamps [0, wordAt rcd 3]
  let o := bitsOf 27 0 (wordAt rcd 2)
  let a := emGenAddr g + 0x400000
  ((groups 3 n (emWords m (a + 12 * o) (3 * n))).zip (emWords m (a + accArea (genLamps m g) + 4 * o) n)).map
    (fun p => p.1 ++ [p.2])

/-- A record's lamps in the footprint order of tile `t` (R297). -/
def reorder (s : State) (t : Nat) (rcd : List Word) (xs : List (List Word)) : List (List Word) :=
  toFoot [] (actTile s t) (toNative [] [0, wordAt rcd 3] xs)

def recSerial (rcd : List Word) : Nat := (wordAt rcd 0).toNat + (wordAt rcd 1).toNat * 2 ^ 32

/-- A record fits the tile-map entry of tile `t` (R297). -/
def recFits (s : State) (t : Nat) (rcd : List Word) : Bool :=
  let w := actTile s t
  bitAt 31 (wordAt rcd 3) && tLamps [0, wordAt rcd 3] == tLamps w && (tSerial w == 0 || recSerial rcd == tSerial w)

/-- The shares of a channel: T divided over the weights, in order (R298). -/
def shares (total : Int) (sum : Int) : List Int → Int → Int → List Int
  | [], _, _ => []
  | w :: ws, cum, given =>
    let c := cum + w
    let x := (total * c).tdiv sum - given
    x :: shares total sum ws c (given + x)

/-- The accumulators of one channel after apportioning, and whether the lamps shared equally (R298). -/
def apportion (dlt : Int) (accN : List Nat) (accQ : Option (List Nat)) : List Nat × Bool :=
  let total := if 0 < dlt then dlt * 64 else 0
  let w0 : List Int := match accQ with
    | some q => (accN.zip q).map (fun p => (p.1 : Int) - (p.2 : Int))
    | none => accN.map Int.ofNat
  let even := w0.sum == 0
  let w := if even then w0.map (fun _ => (1 : Int)) else w0
  (((accN.zip (shares total w.sum w 0 0)).map (fun p => (clampInt 0 0xFFFFFFFF ((p.1 : Int) + p.2)).toNat)), even)

/-- The journal entry for tile `t` with the highest sequence not below `mark`: its record and lamps (R297). -/
def journalFor (s : State) (t mark : Nat) : Option (List Word × List (List Word)) :=
  (s.ldg.entries.reverse.filter (fun e => decide (mark ≤ e.1))).findSome? (fun e =>
    match jEntryAt s.ldg.store e.2.1 with
    | some (ws, n) =>
      if (wordAt ws 3).toNat = t then
        some ((ws.drop 8).take 8, groups 4 n (bytesWords (jGet s.ldg.store (e.2.1 + 512) (16 * n))))
      else none
    | none => none)

/-- A signed 32-bit difference of two summary words (R284, R298). -/
def sumDiff (a : Nat) (b : Word) : Int := (BitVec.ofNat 32 a - b).toInt

/-- The tile step of a restore (R297, R298). -/
def restoreTile (r : LdgRestore) (s : State) : State :=
  let t := r.tile
  let w := actTile s t
  let c := tClass w
  let m := s.ldg.store
  let j := journalFor s t (genJmark m r.newer)
  let rcd := match j with | some x => x.1 | none => genRecord m r.newer t
  if !recFits s t rcd then
    let acc := List.replicate (tLamps w) [0, 0, 0]
    let bl := gainWord (baseOf s c (0, 0, 0) (512, 512, 512))
    let s1 := putLamps t (some acc) (List.replicate (tLamps w) bl) (List.replicate (tLamps w) (gainWord (512, 512, 512))) s
    restoreOn { r with tile := t + 1, missed := r.missed + 1 } s1
  else
    let lamps := reorder s t rcd (match j with | some x => x.2 | none => genLampsOf m r.newer rcd)
    let old := match r.older with
      | none => none
      | some q =>
        let rq := genRecord m q t
        if j.isNone && recSerial rq == recSerial rcd && tLamps [0, wordAt rq 3] == tLamps [0, wordAt rcd 3]
            && bitAt 31 (wordAt rq 3)
        then some (reorder s t rq (genLampsOf m q rq)) else none
    let per := (List.range 3).map (fun k => apportion (sumDiff (tabGet (fun _ => 0) r.sums (3 * t + k)) (wordAt rcd (4 + k)))
      (lamps.map (fun x => (wordAt x k).toNat)) (old.map (fun o => o.map (fun x => (wordAt x k).toNat))))
    let acc := (List.range (tLamps w)).map (fun i => per.map (fun p => BitVec.ofNat 32 (p.1.getD i 0)))
    let bl := lamps.map (fun x => wordAt x 3)
    let gain := (acc.zip bl).map (fun p => gainWord (gainOf s c (accOf p.1) (gainsOf p.2)))
    let fb := old.isNone || per.any (fun p => p.2)
    restoreOn { r with tile := t + 1, restored := r.restored + 1, fallback := r.fallback + fb.toNat }
      (putLamps t (some acc) bl gain s)

/-! ## The jobs -/

/-- START with RESTORE = 0 adopts the tables in DRAM (R278). -/
def adopt (ref : JobRef) (s : State) : State :=
  let e := match validGens s with | g :: _ => genEpoch s.ldg.store g | [] => 0
  let sums := if sumValid s then s.ldg.sums.filter (fun x => !s.ldg.lost.contains (x.1 / 3)) else []
  let s1 := (s.wr LDG_STATUS LDG_STATUS.SUM_VALID 1).setReg LDG_EPOCH (BitVec.ofNat 32 e)
  let s2 := takeJournal { s1 with ldg := { s1.ldg with sums := sums, rsd := [], lost := [] } }
  presentRef ref stOk (startResults e ⟨ref, 0, 0, none, [], 0, 0, 0⟩) (enterRunning s2)

/-- LEDGER_OP START (R276 to R278, R297). -/
def execLedgerOpStart (slot : Nat) (s : State) : Out :=
  ledgerOp slot 0 false [lgOff, lgStopped] (fun _ _ => stOk) (fun j t =>
    let ref := t.jobRef slot
    let t1 := beginJob slot t
    if !bitAt 0 (j.w 3) then adopt ref t1
    else
      let t2 := queueWrites [⟨3, 0, [], true, itemRead⟩, ⟨3, emGenAddr 0, [], true, itemGen 0⟩,
        ⟨3, emGenAddr 1, [], true, itemGen 1⟩] (t1.wr LDG_STATUS LDG_STATUS.STATE lgRestoring)
      { t2 with ldg := { t2.ldg with restore := some ⟨ref, 0, 2, none, [], 0, 0, 0⟩ } }) s

/-- LEDGER_OP STOP: it waits for the sample in progress and a durable commit (R277). -/
def execLedgerOpStop (slot : Nat) (s : State) : Out :=
  ledgerOp slot 1 false [lgRunning] (fun _ _ => stOk) (fun _ t =>
    let ref := t.jobRef slot
    let t1 := beginJob slot t
    serveStops { t1 with ldg := { t1.ldg with stops := t1.ldg.stops ++ [(ref, 0)] } }) s

/-- LEDGER_OP SAVE: an epoch starts at the next gate for it (R277, R289). -/
def execLedgerOpSave (slot : Nat) (s : State) : Out :=
  ledgerOp slot 2 false [lgRunning] (fun _ _ => stOk) (fun _ t =>
    let ref := t.jobRef slot
    let t1 := beginJob slot t
    { t1 with ldg := { t1.ldg with saves := t1.ldg.saves ++ [ref] } }) s

/-- LEDGER_OP REBASE: a tile in LIT, AWAITED or SILENT takes measured gains (R300). -/
def execLedgerOpRebase (slot : Nat) (s : State) : Out :=
  ledgerOp slot 3 true [lgRunning] (fun j t => imagePre (4 * tLamps (actTile t j.context)) j t) (fun j t =>
    let st := tileState t j.context
    if !(st == tsLit || st == tsAwaited || st == tsSilent) then fail slot stTileState t
    else if opOn t j.context then fail slot stBusy t
    else
      beginOp ⟨some (t.jobRef slot), 3, j.context, .asking, j.w 3, (j.w 4).toNat, bitsOf 0 0 (j.w 5), 0, 0, 0, 0, 0, [], false⟩
        (beginJob slot t)) s

/-- LEDGER_OP REPLACE: the replacement procedure of a tile in REPLACED (R299). -/
def execLedgerOpReplace (slot : Nat) (s : State) : Out :=
  ledgerOp slot 4 true [lgRunning] (fun _ _ => stOk) (fun j t =>
    if tileState t j.context != tsReplaced then fail slot stTileState t
    else if opOn t j.context then fail slot stBusy t
    else beginReplace (some (t.jobRef slot)) j.context (beginJob slot t)) s

/-- LEDGER_OP LOAD_CLASSES: a class image is read into the idle class store (R287). -/
def execLedgerOpLoadClasses (slot : Nat) (s : State) : Out :=
  ledgerOp slot 5 false [lgOff, lgRunning, lgStopped] (imagePre 131072) (fun j t =>
    let (bs, bad, t1) := dramRdFor LDG_FAULT_STATUS ledgerPort t (bufAddr t (j.w 3) + (j.w 4).toNat) 131072
    if bad then fail slot stInternal t1
    else
      let img := tabSetRange (fun _ => 0) [] 0 bs
      let t2 := if ldgState t1 = lgRunning then { t1 with ldg := { t1.ldg with idle := img, idleNew := true, loaded := true } }
        else { t1 with ldg := { t1.ldg with classes := img, idleNew := false, loaded := true } }
      present slot stOk [64] t2) s

/-- LEDGER_OP FORMAT: the label is written, and generations, commits and journal entries are invalidated (R277, R293). -/
def execLedgerOpFormat (slot : Nat) (s : State) : Out :=
  ledgerOp slot 6 false [lgOff, lgStopped] (fun j _ => if j.w 3 = 0x464D5431 then stOk else stInternal) (fun _ t =>
    let ref := t.jobRef slot
    let zero := fun (a : Nat) => writesFor 3 a itemFormat false (List.replicate 512 0)
    let old := (journalScan t.ldg.store).map (fun (e : Nat × Nat × Nat) => jAddr e.2.1)
    let ws := ([emGenAddr 0, emGenAddr 1, emCommitAddr 0, emCommitAddr 1] ++ old).map zero
    let t1 := queueWrites (ws.flatten ++ writesFor 3 0 itemFormat true (headerSector [magicLabel, 1] [])) (beginJob slot t)
    { t1 with ldg := { t1.ldg with formats := t1.ldg.formats ++ [ref] } }) s

/-- LEDGER_OP TEST: the ledger SRAM's BIST runs in OFF only and clears SUM_VALID (R277, R505). -/
def execLedgerOpTest (slot : Nat) (pass : Bool) (s : State) : Out :=
  ledgerOp slot 7 false [lgOff, lgRestoring, lgRunning, lgStopped] (fun _ _ => stOk) (fun _ t =>
    if ldgState t ≠ lgOff then fail slot stBusy t
    else
      let t1 := t.wr LDG_STATUS LDG_STATUS.SUM_VALID 0
      present slot stOk [BitVec.ofNat 32 pass.toNat]
        { t1 with ldg := { t1.ldg with sums := [], rsd := [], lost := [] } }) s

/-! ## Tile steps (R290, R291, R299, R300) -/

/-- The journal entry of an operation's new records (R295). -/
def journalEntry (s : State) (o : LdgOp) (serial : Nat) (acc : List (List Word)) (bl : List Word) : List Byte :=
  let data := wordsBytes ((acc.zip bl).map (fun p => p.1 ++ [p.2])).flatten
  headerSector ([magicJournal, BitVec.ofNat 32 s.ldg.jseq, BitVec.ofNat 32 o.kind, BitVec.ofNat 32 o.tile, 0, 0, 0, 0]
    ++ tileRecord s o.tile serial ++ [crc32c data]) [] ++ data

/-- An operation's records are in the tables: its journal entry is queued. -/
def queueJournal (o : LdgOp) (serial : Nat) (acc : List (List Word)) (bl : List Word) (res : List Word) (s : State) : State :=
  let bytes := journalEntry s o serial acc bl
  let len := jEntryLen (tLamps (actTile s o.tile))
  let q := s.ldg.jseq
  let s1 := queueWrites (journalWrites s.ldg.jhead q bytes) s
  let s2 := { s1 with ldg := { s1.ldg with jseq := q + 1, jhead := (s1.ldg.jhead + len) % emJournalSize,
                                           entries := s1.ldg.entries ++ [(q, s1.ldg.jhead, len)] } }
  promoteOps (showJournal (putOp { o with stage := .journal, jseq := q, serial := serial, results := res } s2))

/-- The gains a tile has are those the exhaustion test of the frame in progress uses, whatever is written (R271). -/
def keepTestGains (t : Nat) (s : State) : State :=
  let w := actTile s t
  if tileState s t != tsLit || s.lmp.tested.any (fun e => e.1 == t) then s
  else
    let (old, _, s1) := dramRdWords ledgerPort s (gainAddr s (tOfs w)) (tLamps w)
    { s1 with lmp := { s1.lmp with tested := s1.lmp.tested ++ [(t, old)] } }

/-- The tile step of a REBASE (R271, R300). -/
def stepRebase (o : LdgOp) (s0 : State) : State :=
  let s := keepTestGains o.tile s0
  let w := actTile s o.tile
  let n := tLamps w
  let (img, _, s1) := dramRdWords ledgerPort s (stageAddr s 0) n
  let (aw, _, s2) := dramRdWords ledgerPort s1 (accAddr s1 (tOfs w)) (3 * n)
  let m := if o.order = 1 then toFoot 0 w img else img
  let acc := groups 3 n aw
  let bl := (acc.zip m).map (fun p => gainWord (baseOf s2 (tClass w) (accOf p.1) (gainsOf p.2)))
  let top := (img.filter (fun x => isTop (gainsOf x))).length
  let q := BitVec.ofNat 32 s2.ldg.jseq
  queueJournal o (tSerial w) acc bl [BitVec.ofNat 32 top, q] (putLamps o.tile none bl m s2)

/-- The tile step of a replacement (R299). -/
def stepReplace (o : LdgOp) (s : State) : State :=
  let w := actTile s o.tile
  let n := tLamps w
  let (hw, _, s1) := dramRdWords ledgerPort s (stageAddr s 0) 8
  let (lw, _, s2) := dramRdWords ledgerPort s1 (stageAddr s1 32) (4 * n)
  let lamps := toFoot [] w (groups 4 n lw)
  let acc := lamps.map (fun x => x.take 3)
  let bl3 := lamps.map (fun x => baseOf s2 (tClass w) (accOf x) (gainsOf (wordAt x 3)))
  let gain := (lamps.zip bl3).map (fun p => gainOf s2 (tClass w) (accOf p.1) p.2)
  let top := (gain.filter isTop).length
  let serial := recSerial (hw.drop 2)
  let res := [BitVec.ofNat 32 (bitsOf 25 20 (wordAt hw 1)), BitVec.ofNat 32 top, BitVec.ofNat 32 s2.ldg.jseq,
    wordAt hw 2, wordAt hw 3]
  queueJournal o serial acc (bl3.map gainWord) res (putLamps o.tile (some acc) (bl3.map gainWord) (gain.map gainWord) s2)

/-- The tile step of an epoch pass (R290). -/
def stepPass (p : LdgPass) (s : State) : State :=
  let t := p.tile
  let w := actTile s t
  if !tEn w then passOn p s
  else
    let n := tLamps w
    let o := tOfs w
    let (aw, _, s1) := dramRdWords ledgerPort s (accAddr s o) (3 * n)
    let (bl, _, s2) := dramRdWords ledgerPort s1 (blAddr s1 o) n
    let st := tileState s2 t
    let gain := ((groups 3 n aw).zip bl).map (fun x => gainWord (gainOf s2 (tClass w) (accOf x.1) (gainsOf x.2)))
    let s3 := if st = tsReplaced ∨ st = tsMisplaced then s2 else dramWrWords ledgerPort s2 (gainAddr s2 o) gain
    let a := emGenAddr p.slot + 0x400000
    let s4 := queueWrites (writesFor 3 (a + 12 * o) p.epoch false (wordsBytes aw)
      ++ writesFor 3 (a + accArea (gainLamps s3) + 4 * o) p.epoch false (wordsBytes bl)) s3
    passOn { p with tile := t + 1, table := p.table ++ wordsBytes (tileRecord s4 t (tSerial w)) } s4

/-- A tile step reads the class store, whose words are checked (R302, R541); the spec gives a double error there no
consequence (assumption 131). -/
def classRead (s : State) : State :=
  (s.sramFault LDG_FAULT_STATUS 1).2

/-- The tile step of a replacement whose tile is still REPLACED; else the procedure ends, and the tables are unchanged (R260,
R299). -/
def stepReplaced (o : LdgOp) (s : State) : State :=
  if tileState s o.tile = tsReplaced then stepReplace o s else promoteOps (endOp o stTileState [] s)

/-- An operation whose tile step is due: it is ready and the journal has room for it. -/
def readyOp (s : State) : Option LdgOp :=
  s.ldg.ops.find? (fun o => decide (o.stage = .ready)
    && decide (jUsed s + jEntryLen (tLamps (actTile s o.tile)) ≤ emJournalSize))

/-- TILE_STEP: in a frame that is not sampled, from its lock gate to the next, the arbiter grants a step of
a restore, of an operation or of a pass (R291). -/
def execTileStep (s : State) : Out :=
  done s (State.when (s.domOn 32 && !s.ldg.sampled && s.ldg.stops.isEmpty) (fun t0 =>
    let t := classRead t0
    match t.ldg.restore with
    | some r => if r.newer < 2 then restoreTile r t else t
    | none =>
      if ldgState t ≠ lgRunning then t
      else match readyOp t with
        | some o => if o.kind = 3 then stepRebase o t else stepReplaced o t
        | none => match t.ldg.pass with
          | some p => if p.closing then t else stepPass p t
          | none => t) s)

/-- JOURNAL_WRITE: an operation's journal entry is durable, and its job completes; under AUTO_ACCEPT the serial write
follows a replacement (R258, R295, R299, R300). -/
def execJournalWrite (s : State) : Out :=
  done s (match s.ldg.ops.find? (fun o => decide (o.stage = .durable)) with
    | none => s
    | some o =>
      let t := endOp o stOk o.results s
      if o.kind = 4 ∧ (o.auto || t.flag LMP_CTL LMP_CTL.AUTO_ACCEPT) = true then
        { t with lmp := { t.lmp with serials := t.lmp.serials ++ [⟨o.tile, o.lane, o.pos, o.serial⟩] } }
      else t)

/-! ## Calibration records (R299, R328) -/

/-- The replacement that receives a record. -/
def receiving (s : State) : Option LdgOp := s.ldg.ops.find? (fun o => decide (o.stage = .receiving))

/-- CALIB_UP: a fragment of the record asked for is written at its offset in the staging region; others are discarded
(R328). -/
def execCalibUp (mac : MacFacts) (arg : Nat) (last : Bool) (bytes : List Byte) (s : State) : Out :=
  done s (rxFrame mac (fun t => match receiving t with
    | none => t
    | some o =>
      if !(endsOf t (ownerOf t o.lane)).contains mac.lane || decide (8192 < bytes.length) || decide (2 ^ 26 < arg + bytes.length) then t
      else
        let got := if arg = o.got then o.got + bytes.length else o.got
        putOp { o with got := got, stage := if last && arg + bytes.length == got then .complete else .receiving }
          (dramWr ledgerPort t (stageAddr t arg) bytes)) s)

/-- CALIB_TIMEOUT: TIMEOUT_MS have passed without a complete record (R299). -/
def execCalibTimeout (s : State) : Out :=
  done s (match receiving s with
    | none => s
    | some o => promoteOps (endOp o stCalibTimeout [] s))

/-- The checks of a calibration record (R299). -/
def calibOk (s : State) (o : LdgOp) (hw lw : List Word) : Bool :=
  let w := actTile s o.tile
  wordAt hw 0 == magicCalib && bitsOf 19 0 (wordAt hw 1) == bitsOf 19 0 (wordAt w 1)
    && o.got == 32 + 16 * tLamps w && wordAt hw 4 == crc32c (wordsBytes lw)
    && (match slotAt s (tPlace w) with | some r => recSerial (hw.drop 2) == r.serial | none => false)

/-- CALIB_RECORD_COMPLETE: the last fragment is in; the record is checked, and waits for its tile step (R299). -/
def execCalibRecordComplete (s : State) : Out :=
  done s (match s.ldg.ops.find? (fun o => decide (o.stage = .complete)) with
    | none => s
    | some o =>
      let (hw, bad1, s1) := dramRdWords ledgerPort s (stageAddr s 0) 8
      let (lw, bad2, s2) := dramRdWords ledgerPort s1 (stageAddr s1 32) (4 * tLamps (actTile s1 o.tile))
      if bad1 || bad2 || !calibOk s2 o hw lw then promoteOps (endOp o stCalibBad [] s2)
      else seekSpace (putOp { o with stage := .ready } s2))

/-! ## The ends of the store's commands (R277, R296) -/

/-- A FORMAT is durable: the store is empty and the summary is zero (R277, R284). -/
def formatDone (s : State) : State :=
  let s1 := ((s.wr LDG_STATUS LDG_STATUS.SUM_VALID 1).setReg LDG_EPOCH 0).setReg LDG_COMMIT 0
  let s2 := { s1 with ldg := { s1.ldg with sums := [], rsd := [], lost := [], entries := [], badGen := [], formats := [] } }
  foldS (fun r t => presentRef r stOk [] t) s.ldg.formats (showJournal (showLabel s2))

/-- The last read of the store for a restore has ended. A read left over from a restore that was stopped begins none. -/
def storeRead (s : State) : State :=
  match s.ldg.restore with
  | some r => if s.ldg.writes.any (fun x => decide (itemRead ≤ x.item)) then s else beginRestore r.ref s
  | none => s

/-- The item whose last command succeeded is done. -/
def itemDone (w : EmWrite) (s : State) : State :=
  if w.cls ≤ 1 then commitDurable w.item s
  else if w.cls = 2 then
    let ops := s.ldg.ops.map (fun o => if o.stage = .journal ∧ o.jseq = w.item then { o with stage := .durable } else o)
    { s with ldg := { s.ldg with ops := ops } }
  else if w.item = itemFormat then formatDone s
  else if w.item = itemGen 1 then storeRead s
  else s

/-- A generation that cannot be read is unusable, and counts as invalid from then on (R297). -/
def genUnreadable (g : Nat) (s : State) : State :=
  { s with ldg := { s.ldg with badGen := if s.ldg.badGen.contains g then s.ldg.badGen else s.ldg.badGen ++ [g] } }

/-- A command succeeds: what it writes is durable. -/
def emmcOk (w : EmWrite) (s : State) : State :=
  let s1 := { s with ldg := { s.ldg with store := emPut s.ldg.store w.addr w.data, cmd := none, tries := 0 } }
  let s2 := showCommit (showLabel (deviceSeen s1))
  let s3 := if s2.domOn 32 && !w.data.isEmpty then s2.wr LDG_STATUS LDG_STATUS.STORE_FAIL 0 else s2
  if w.last then itemDone w s3 else s3

/-- What waited on a failed command ends with LEDGER_IO (R296). -/
def itemFails (w : EmWrite) (s : State) : State :=
  let drop := dropWrites (fun x => x.cls == w.cls && x.item == w.item)
  match w.cls with
  | 0 => { s with ldg := { s.ldg with writes := w :: s.ldg.writes } }
  | 1 =>
    let ended := s.ldg.stops.filter (fun x => x.2 == w.item)
    let s1 := restPll (ldgIrq 2 (drop s))
    foldS (fun x t => presentRef x.1 stLedgerIo [] t) ended
      { s1 with ldg := { s1.ldg with stops := s1.ldg.stops.filter (fun x => x.2 != w.item) } }
  | 2 =>
    let s1 := drop s
    let s2 := showJournal { s1 with ldg := { s1.ldg with entries := s1.ldg.entries.filter (fun e => e.1 != w.item) } }
    foldS (fun o t => endOp o stLedgerIo [] t) (s2.ldg.ops.filter (fun o => decide (o.stage = .journal) && o.jseq == w.item)) s2
  | _ =>
    let s1 := drop s
    if w.item = itemFormat then
      foldS (fun r t => presentRef r stLedgerIo [] t) s1.ldg.formats { s1 with ldg := { s1.ldg with formats := [] } }
    else if w.item = itemRead then
      (match s1.ldg.restore with
        | some r => restoreFails r.ref stLedgerIo s1
        | none => s1)
    else if w.item = itemGen 0 then genUnreadable 0 s1
    else if w.item = itemGen 1 then storeRead (genUnreadable 1 s1)
    else match s1.ldg.pass with
      | none => s1
      | some p => seekSpace (endPass (foldS (fun r t => presentRef r stLedgerIo [] t) p.saves s1))

/-- A command fails: it is issued twice more before what it belongs to fails (R296). -/
def emmcFails (w : EmWrite) (s : State) : State :=
  if s.ldg.tries < 2 then { s with ldg := { s.ldg with tries := s.ldg.tries + 1 } }
  else
    let s1 := ldgIrq 1 (({ s with ldg := { s.ldg with cmd := none, tries := 0 } } : State).inc LDG_STORE LDG_STORE.IO_ERRORS)
    let s2 := if s1.domOn 32 && !w.data.isEmpty then s1.wr LDG_STATUS LDG_STATUS.STORE_FAIL 1 else s1
    itemFails w s2

/-- The power-fail commit begins once the command that was in progress has finished: its slot and COMMIT_SEQ follow what the
store then holds (R285, R286). -/
def powerFailCommit (s : State) : State :=
  if s.ldg.pfDue && s.ldg.cmd.isNone then
    let t := startCommit true s
    { t with ldg := { t.ldg with pfDue := false } }
  else s

/-- EMMC_COMMAND_DONE: the command in progress ends (R296). -/
def execEmmcCommandDone (ok : Bool) (s : State) : Out :=
  done s (match s.ldg.cmd with
    | none => s
    | some w => powerFailCommit (if ok then emmcOk w s else emmcFails w s))

end Sys2Proof.Machine
end

