-- ==== Sys2Proof/Machine/Ingress.lean ====
section
/-!
DEFINITION. The ingress ports (R356 to R374, R380): the stages of a received frame, the flow table, the meter, reordering,
access units with their decryption, and delivery as records or jobs.
-/
namespace Sys2Proof.Machine

/-! ## Flow entries (R359 to R361) -/

/-- Entry `i` of port `p`'s copy of the flow table, and the flow it holds. -/
def flowId (p i : Nat) : Nat := 4096 * p + i
/-- The words of the entry a flow stands in. -/
def flowWords (s : State) (k : Nat) : List Word := tabGet (fun _ => []) s.igr.flows k
/-- The flow of index `i` as software sees it: it stands in the copy of the port its entry names (R362). -/
def flowOf (s : State) (i : Nat) : Nat := if (flowWords s (flowId 1 i)).isEmpty then i else flowId 1 i
def fValid (w : List Word) : Bool := bitAt 0 (wordAt w 0)
def fPort (w : List Word) : Nat := bitsOf 1 1 (wordAt w 0)
def fIpv6 (w : List Word) : Bool := bitAt 2 (wordAt w 0)
def fFormat (w : List Word) : Nat := bitsOf 5 3 (wordAt w 0)
def fDecode (w : List Word) : Bool := bitAt 6 (wordAt w 0)
def fHandover (w : List Word) : Bool := bitAt 7 (wordAt w 0)
def fCrypt (w : List Word) : Nat := bitsOf 11 10 (wordAt w 0)
def fKeySlot (w : List Word) : Nat := bitsOf 19 12 (wordAt w 0)
def fPool (w : List Word) : Nat := bitsOf 22 20 (wordAt w 0)
def fCq (w : List Word) : Nat := bitsOf 31 24 (wordAt w 0)
def fDstIp (w : List Word) : Nat :=
  let v4 := (wordAt w 4).toNat
  if fIpv6 w then (wordAt w 1).toNat * 2 ^ 96 + (wordAt w 2).toNat * 2 ^ 64 + (wordAt w 3).toNat * 2 ^ 32 + v4 else v4
def fDstPort (w : List Word) : Nat := bitsOf 15 0 (wordAt w 5)
def fPt (w : List Word) : Nat := bitsOf 22 16 (wordAt w 5)
def fContext (w : List Word) : Nat := bitsOf 31 23 (wordAt w 5)
def fLead (w : List Word) : Nat := bitsOf 23 16 (wordAt w 7)
def fCir (w : List Word) : Nat := bitsOf 26 0 (wordAt w 8)
def fPir (w : List Word) : Nat := bitsOf 26 0 (wordAt w 9)
def fCbs (w : List Word) : Nat := bitsOf 23 0 (wordAt w 10)
def fPbs (w : List Word) : Nat := bitsOf 23 0 (wordAt w 11)

/-- The 20-byte key (R359). -/
def flowKey (port : Nat) (v6 : Bool) (ip dport : Nat) : List Byte :=
  numBytes ([port, v6.toNat] ++ bigEndian 16 ip ++ bigEndian 2 dport)
def entryKey (w : List Word) : List Byte := flowKey (fPort w) (fIpv6 w) (fDstIp w) (fDstPort w)
/-- The set of a key (R359). -/
def flowSet (key : List Byte) : Nat := (crc32c key).toNat % 512

/-- The flow of port `p` whose valid entry has the key (R359, R362). -/
def findFlow (s : State) (p : Nat) (key : List Byte) : Option Nat :=
  (tabKeys s.igr.flows).find? (fun i => i / 4096 == p && fValid (flowWords s i) && fPort (flowWords s i) == p && !s.igr.bad.contains i
    && entryKey (flowWords s i) == key)

/-! ## Flow state -/

/-- Buckets hold units of 1/9,600,000 byte (R363). -/
def bucketUnit : Nat := 9600000

def FlowSt.init : FlowSt := ⟨0, false, 0, 0, [], false, 0, 0, 0, none, none, none, 0, false, 0, [0, 0, 0, 0, 0, 0, 0, 0]⟩
def flowSt (s : State) (i : Nat) : FlowSt := tabGet (fun _ => FlowSt.init) s.igr.st i
def setFlow (i : Nat) (x : FlowSt) (s : State) : State :=
  { s with igr := { s.igr with st := tabSet (fun _ => FlowSt.init) s.igr.st i x } }

/-- Counters of a flow by their place in IGR_FLOW_CNT (R380). -/
def cntGreen : Nat := 0
def cntYellow : Nat := 1
def cntRed : Nat := 2
def cntYellowDrop : Nat := 3
def cntLost : Nat := 4
def cntLate : Nat := 5
def cntUnits : Nat := 6
def cntDropped : Nat := 7

/-- A flow counter grows by `n`, wrapping. -/
def countFlow (i c n : Nat) (s : State) : State :=
  let x := flowSt s i
  setFlow i { x with cnt := x.cnt.set c ((x.cnt.getD c 0 + n) % 2 ^ 32) } s

def igrIrq (p b : Nat) (s : State) : State := s.setBit (IGR_PORT_IRQ_STATUS p) b

/-- A unit or access unit is dropped (R368, R372, R374). -/
def unitDrop (i : Nat) (s : State) : State := igrIrq (fPort (flowWords s i)) 5 (countFlow i cntDropped 1 s)

/-- The requester number of a port's buffers (R368). -/
def igrReq (p : Nat) : Nat := 21 + p

/-- µs since PD_IGR was reset at a cycle (R373). -/
def igrMicros (s : State) (p c : Nat) : Nat := (c - tabGet (fun _ => 0) s.igr.base p) / 1200

/-! ## Delivery (R369, R372 to R374) -/

/-- The ingress record of a unit (R372). -/
def igrRecord (i : Nat) (a : AccessUnit) (u : ReadyUnit) (eop resync : Bool) : List Word :=
  [BitVec.ofNat 32 (i % 4096 + 0xE1 * 2 ^ 24), 0xFFFF, a.handle, BitVec.ofNat 32 u.start, BitVec.ofNat 32 u.len,
    BitVec.ofNat 32 a.stamp, BitVec.ofNat 32 (eop.toNat + u.loss.toNat * 2 + resync.toNat * 4)]

/-- The DECODE_UNIT of a unit (R373, R79). -/
def igrJob (s : State) (i : Nat) (a : AccessUnit) (u : ReadyUnit) (eop : Bool) : List Word :=
  let w := flowWords s i
  [BitVec.ofNat 32 (opDecodeUnit + (flowSt s i).units % 65536 * 2 ^ 16), BitVec.ofNat 32 (fContext w), a.handle,
    BitVec.ofNat 32 u.start, BitVec.ofNat 32 u.len, BitVec.ofNat 32 a.stamp,
    BitVec.ofNat 32 (igrMicros s (fPort w) u.arrival), BitVec.ofNat 32 (eop.toNat + 8)] ++ List.replicate 8 0

/-- The admission arbiter grants port `p`: it is the source visited last (R20, R374). -/
def portVisit (p : Nat) (s : State) : State := { s with hq := { s.hq with rr := 512 + p } }

/-- A slot of completion ring `k` is free for an ingress port (R51, R372, R374). -/
def cqRoom (s : State) (k : Nat) : Bool := cqEn s k && decide (1 ≤ freeSlots s k)

/-- A unit of flow `i` is handed over, or dropped (R369, R372 to R374). -/
def handUnit (i : Nat) (eop : Bool) (u : ReadyUnit) (s : State) : State :=
  match (flowSt s i).au with
  | none => s
  | some a =>
    if a.dropped then s
    else
      let w := flowWords s i
      let req := igrReq (fPort w)
      let (st, s1) := bpmRetain s req a.handle
      let x := flowSt s1 i
      let k := fCq w
      if st ≠ stOk then unitDrop i s1
      else if !fDecode w then
        if cqRoom s1 k then
          let s2 := countEntry k (writeEntry k (igrRecord i a u eop x.resync) s1)
          countFlow i cntUnits 1 (setFlow i { flowSt s2 i with resync := false, units := x.units + 1 } s2)
        else unitDrop i (releaseS req a.handle s1)
      else match freeTags s1 false with
        | [] => unitDrop i (setFlow i { x with au := some { a with dropped := true } } (releaseS req a.handle s1))
        | t :: _ =>
          if cqRoom s1 k then
            let j := { Job.empty with st := .queued, sq := 0x8000 + i % 4096, cq := k, seq := s1.hq.seq, words := igrJob s1 i a u eop }
            let s2 := s1.setJob t j
            let s3 := portVisit (fPort w) { s2 with hq := { s2.hq with seq := s2.hq.seq + 1 } }
            let s4 := s3.wr HQ_TAG_STATUS HQ_TAG_STATUS.PEAK (max (s3.rd HQ_TAG_STATUS HQ_TAG_STATUS.PEAK) s3.jobList.length)
            countFlow i cntUnits 1 (setFlow i { flowSt s4 i with units := x.units + 1 } s4)
          else unitDrop i (setFlow i { x with au := some { a with dropped := true } } (releaseS req a.handle s1))

/-- Units that are complete go out as the next packet of their access unit arrives (R369). -/
def handReady (i : Nat) (s : State) : State :=
  match (flowSt s i).au with
  | none => s
  | some a =>
    let t := foldS (handUnit i false) a.ready s
    match (flowSt t i).au with
    | none => t
    | some b => setFlow i { flowSt t i with au := some { b with ready := [] } } t

/-- The units that end with their access unit. -/
def lastUnits (a : AccessUnit) : List ReadyUnit :=
  a.ready ++ (if a.start < a.bytes then [⟨a.start, a.bytes - a.start, a.arrival, a.loss⟩] else [])

/-! ## Decryption (R370, R371) -/

/-- The region of a unit at `start` to `stop` of the bytes, counted from `body`, is decrypted; answers the bytes and the
blocks done. -/
def decryptSpan (crypt lead : Nat) (key iv : List Nat) (rtp start body stop : Nat) (vcl : Bool)
    (acc : List Byte × Nat) : List Byte × Nat :=
  let a := body + lead
  let n := (stop - a) / 16
  if !vcl || decide (stop - start < lead + 16) || decide (stop ≤ a) then acc
  else
    let head := acc.1.take a
    let rest := acc.1.drop a
    if crypt = 1 then (head ++ cencBlocks key (iv.take 4 ++ bigEndian 4 rtp) n acc.2 rest, acc.2 + n)
    else (head ++ cbcsBlocks key n 0 iv rest, acc.2)

/-- The KEY and the IV an access unit has latched. -/
def auKey (a : AccessUnit) : List Nat := bytesNum (wordsBytes (a.key.take 4))
def auIv (a : AccessUnit) : List Nat := bytesNum (wordsBytes ((a.key.drop 4).take 4))

/-- A unit in clear (R370). -/
def decryptUnit (w : List Word) (a : AccessUnit) (u : NetUnit) : List Byte × Nat :=
  if fCrypt w = 0 then (u.bytes, a.blocks)
  else decryptSpan (fCrypt w) (fLead w) (auKey a) (auIv a) a.rtp u.start u.body u.bytes.length u.vcl (u.bytes, a.blocks)

/-- A transport-stream flow carries HEVC: the codec of the context it feeds. -/
def tsHevc (s : State) (k : Nat) : Bool :=
  let w := flowWords s k
  match (if fDecode w then ctxOf s (fContext w) else none) with
  | some x => x.codec == 0
  | none => Config.tsHevc k

/-- The PES payload of a whole access unit in clear, NAL unit by NAL unit between its start codes (R370). -/
def decryptStream (s : State) (k : Nat) (a : AccessUnit) (bs : List Byte) : List Byte :=
  let w := flowWords s k
  ((startCodeSpans 0 0 none bs).foldl (fun acc u =>
    decryptSpan (fCrypt w) (fLead w) (auKey a) (auIv a) a.rtp u.1 u.1 (u.1 + u.2)
      (nalVcl (tsHevc s k) (byteAt bs u.1)) acc) (bs, a.blocks)).1

/-- A key slot as a latch reads it: its KEY and IV, or none where it is not VALID (R371, R446, R447, R455). -/
def latchKey (k : Nat) (s : State) : Option (List Word) × State :=
  let ws := (List.range 16).map (fun j => secGet s (16 * k + j))
  let (lost, s1) := s.sramCheck SEC_FAULT_STATUS 16
  let bad := lost || (List.range 16).any (fun j => s1.sec.err.contains (16 * k + j))
  let s2 := if bad then s1.setFault SEC_FAULT_STATUS 1 else s1
  if s2.domOn 12 && s2.fuse.lifeCycle != 3 && bitAt 0 (wordAt ws 12) && !bad then (some (ws.take 8), s2) else (none, s2)

/-! ## Access units (R367 to R369) -/

/-- Bytes go into the buffer of flow `k`'s access unit, unless they would pass its end: then the rest is dropped (R368). -/
def putBytes (k : Nat) (n : Nat) (f : AccessUnit → State → State) (s : State) : State :=
  match (flowSt s k).au with
  | none => s
  | some a =>
    if a.dropped then s
    else if poolSize (hPool a.handle) < a.bytes + n then
      unitDrop k (setFlow k { flowSt s k with au := some { a with dropped := true } } s)
    else f a s

/-- Clear bytes are written at the end of the access unit. -/
def writeBytes (k : Nat) (bs : List Byte) (a : AccessUnit) (s : State) : State :=
  let s1 := dramWr (ingressPort (fPort (flowWords s k))) s (bufAddr s a.handle + a.bytes) bs
  setFlow k { flowSt s1 k with au := some { a with bytes := a.bytes + bs.length } } s1

/-- A NAL unit or OBU that is complete is written; under HANDOVER 1 a VCL NAL unit, OBU_FRAME or OBU_TILE_GROUP ends a
unit (R367, R369, R370). -/
def putUnit (k arr : Nat) (u : NetUnit) (s : State) : State :=
  putBytes k u.bytes.length (fun a t =>
    let w := flowWords t k
    let (bs, blocks) := decryptUnit w a u
    let t1 := writeBytes k bs { a with blocks := blocks } t
    match (flowSt t1 k).au with
    | none => t1
    | some b =>
      if fHandover w && u.vcl then
        let c := { b with ready := b.ready ++ [⟨b.start, b.bytes - b.start, b.arrival, b.loss⟩], start := b.bytes, arrival := arr }
        setFlow k { flowSt t1 k with au := some c } t1
      else t1) s

/-- PES payload bytes are written as they come, or under CRYPT 2 kept until the access unit ends, where the last NAL unit of
them ends too (R367, R370; assumption 133). -/
def putStream (k : Nat) (bs : List Byte) (s : State) : State :=
  let w := flowWords s k
  if fCrypt w = 0 then putBytes k bs.length (writeBytes k bs) s
  else
    let old := (flowSt s k).frag.getD []
    putBytes k (old.length + bs.length) (fun _ t => setFlow k { flowSt t k with frag := some (old ++ bs) } t) s

/-- What is kept of a transport stream under CRYPT 2 is decrypted and written. -/
def flushStream (k : Nat) (s : State) : State :=
  match (flowSt s k).frag with
  | none => s
  | some bs =>
    if fFormat (flowWords s k) = 3 then putBytes k bs.length (fun a t => writeBytes k (decryptStream t k a bs) a t) s else s

/-- The access unit of flow `k` ends: its units are handed over, the last with END_OF_PICTURE, the port's hold is released,
and a NAL unit or OBU that is not complete is discarded (R367, R369). -/
def endAccess (k : Nat) (s0 : State) : State :=
  let s := flushStream k s0
  match (flowSt s k).au with
  | none => s
  | some a =>
    let us := lastUnits a
    let t := match us.getLast? with
      | none => s
      | some l => handUnit k true l (foldS (handUnit k false) us.dropLast s)
    releaseNZ (igrReq (fPort (flowWords s k))) a.handle (setFlow k { flowSt t k with au := none, frag := none } t)

/-- An access unit starts: a buffer is allocated and the key slot latched, or it is dropped whole (R368). -/
def startAccess (k stamp time arr : Nat) (gap : Bool) (s : State) : State :=
  let w := flowWords s k
  let p := fPort w
  let (st, h, s1) := allocAt s (igrReq p) (fPool w) (bitAt 23 (wordAt w 0)) true true
  let (key, s2) := if fCrypt w = 0 then (some [], s1) else latchKey (fKeySlot w) s1
  let s3 := if key.isNone then igrIrq p 6 s2 else s2
  let put := fun (a : AccessUnit) (t : State) => setFlow k { flowSt t k with au := some a } t
  match decide (st = stOk), key with
  | true, some ws => put ⟨h, stamp, time, 0, 0, arr, gap, [], ws, 0, false⟩ s3
  | ok, _ =>
    let s4 := if ok then releaseS (igrReq p) h s3 else s3
    unitDrop k (put ⟨0, stamp, time, 0, 0, arr, gap, [], [], 0, true⟩ s4)

/-- A packet that begins a unit gives it its arrival (R373). -/
def noteArrival (k arr : Nat) (s : State) : State :=
  let x := flowSt s k
  match x.au with
  | none => s
  | some a => if a.start = a.bytes ∧ x.frag = none then setFlow k { x with au := some { a with arrival := arr } } s else s

/-- The units a packet completes are written, and the one it leaves in assembly is kept (R367). -/
def takePayload (k arr : Nat) (p : List Byte) (s : State) : State :=
  let d := depack (fFormat (flowWords s k)) (flowSt s k).frag p
  foldS (putUnit k arr) d.1 (setFlow k { flowSt s k with frag := d.2 } s)

/-- One transport packet: a PES start ends the access unit and starts the next; a PES header without a PTS leaves the
stamp open, a free value (R367, R368, assumption 133). -/
def takeTs (k time arr : Nat) (gap : Bool) (p : List Byte) (s : State) : State :=
  let x := flowSt s k
  let (part, place) := tsPart (bitsOf 12 0 (wordAt (flowWords s k) 7)) ⟨x.ccLast, x.skip⟩ p
  let s1 := countFlow k cntLost part.gaps (setFlow k { x with ccLast := place.cc, skip := place.skip } s)
  let s2 := if part.start then
      let (stamp, u) := match part.pts with
        | some v => (v, s1)
        | none => let (f, u) := s1.fresh; (f.toNat, u)
      startAccess k stamp time arr gap (endAccess k u)
    else s1
  if part.bytes.isEmpty then s2 else putStream k part.bytes s2

/-- A packet reaches the depacketiser in sequence; after a gap the unit in assembly has lost a fragment (R365, R367 to
R369). -/
def deliver (k arr : Nat) (f : RtpPacket) (s : State) : State :=
  let ts := fFormat (flowWords s k) == 3
  let x := flowSt s k
  let gap := x.gap
  let s0 := setFlow k { x with gap := false, frag := if gap && !ts then none else x.frag } s
  let s1 := match (flowSt s0 k).au with
    | none => s0
    | some a =>
      let t := setFlow k { flowSt s0 k with au := some { a with loss := a.loss || gap } } s0
      if a.rtp = f.time then handReady k t else endAccess k t
  let s2 := if ts then foldS (takeTs k f.time arr gap) (tsSplit f.payload.length f.payload) s1
    else
      let u := if (flowSt s1 k).au.isNone then startAccess k f.time f.time arr gap s1 else s1
      takePayload k arr f.payload (noteArrival k arr u)
  if f.marker then endAccess k s2 else s2

/-! ## Reordering (R365, R366) -/

/-- DRAM address of slot `n` of port `p`'s reorder store (R366, R380). -/
def rsAddr (s : State) (p n : Nat) : Nat :=
  s.rd (IGR_PORT_RS_LO p) IGR_PORT_RS_LO.BASE_LO * 64 + (s.reg (IGR_PORT_RS_HI p)).toNat * 2 ^ 32 + 9216 * n

/-- The held packet with sequence number `n`. -/
def heldAt (x : FlowSt) (n : Nat) : Option HeldPacket := x.held.find? (fun e => e.seq == n)

/-- A held packet is read out of its slot; none where its bytes cannot be read: the frame is then dropped (R380). -/
def takeHeld (k : Nat) (e : HeldPacket) (s : State) : Option RtpPacket × State :=
  let p := fPort (flowWords s k)
  let x := flowSt s k
  let (bs, bad, t) := dramRdFor (IGR_PORT_FAULT_STATUS p) (ingressPort p) (setFlow k { x with held := x.held.erase e } s) (rsAddr s p e.slot) e.len
  if bad then (none, t.setFault (IGR_PORT_FAULT_STATUS p) 1) else (rtpOf bs, t)

/-- Move NEXT past a number. -/
def passNumber (k n : Nat) (s : State) : State := setFlow k { flowSt s k with next := (n + 1) % 65536 } s

/-- A number is lost (R365). -/
def loseNumber (k n : Nat) (s : State) : State :=
  let t := passNumber k n (countFlow k cntLost 1 s)
  igrIrq (fPort (flowWords s k)) 4 (setFlow k { flowSt t k with gap := true } t)

/-- Deliver one packet and move NEXT past it. -/
def deliverNext (k arr : Nat) (f : RtpPacket) (s : State) : State := passNumber k f.seq (deliver k arr f s)

/-- Deliver a held packet. -/
def deliverHeldOne (k : Nat) (e : HeldPacket) (s : State) : State :=
  match takeHeld k e s with
  | (some f, t) => deliverNext k e.arr f t
  | (none, t) => loseNumber k e.seq t

/-- Deliver the held packets that follow in sequence. -/
def deliverRun : Nat → Nat → State → State
  | 0, _, s => s
  | n + 1, k, s =>
    match heldAt (flowSt s k) (flowSt s k).next with
    | none => s
    | some e => deliverRun n k (deliverHeldOne k e s)

/-- Move NEXT `d` numbers on: held packets on the way are delivered in order, the other numbers are lost (R365). -/
def passGap : Nat → Nat → State → State
  | 0, _, s => s
  | d + 1, k, s =>
    match heldAt (flowSt s k) (flowSt s k).next with
    | some e => passGap d k (deliverHeldOne k e s)
    | none => passGap d k (loseNumber k (flowSt s k).next s)

/-- What is held and in sequence is delivered. -/
def deliverHeld (k : Nat) (s : State) : State := deliverRun (flowSt s k).held.length k s

/-- The slots of port `p`'s reorder store that hold a packet. -/
def slotsUsed (s : State) (p : Nat) : List Nat :=
  (s.igr.st.map (fun e => if e.1 / 4096 = p then e.2.held.map (fun x => x.slot) else [])).flatten

/-- The sequence state of a flow is reset, and packet `f` is taken as the first (R365). -/
def firstPacket (k : Nat) (reset : Bool) (f : RtpPacket) (s : State) : State :=
  let x := flowSt s k
  setFlow k { x with next := f.seq, synced := true, ssrc := f.ssrc, lates := 0, held := [],
                     resync := x.resync || reset } s

/-- A packet is held in a slot of the reorder store, or dropped where none is free; a number already held is a duplicate
(R365, R366). -/
def holdPacket (k : Nat) (bs : List Byte) (f : RtpPacket) (s : State) : State :=
  let x := flowSt s k
  let p := fPort (flowWords s k)
  if (heldAt x f.seq).isSome then countFlow k cntLate 1 s
  else
    let used := slotsUsed s p
    match (List.range (s.rd (IGR_PORT_RS_SLOTS p) IGR_PORT_RS_SLOTS.SLOTS)).find? (fun n => !used.contains n) with
    | none => igrIrq p 7 (s.inc (IGR_PORT_RS_FULL p) IGR_PORT_RS_FULL.COUNT)
    | some n =>
      setFlow k { x with held := x.held ++ [⟨s.cyc, f.seq, n, bs.length⟩] } (dramWr (ingressPort p) s (rsAddr s p n) bs)

/-- A packet in sequence: it is delivered, and what follows it. -/
def inSequence (k : Nat) (f : RtpPacket) (s : State) : State := deliverHeld k (deliverNext k s.cyc f s)

/-- The reorder stage of a packet (R365). -/
def reorderPacket (k : Nat) (bs : List Byte) (f : RtpPacket) (s : State) : State :=
  let x := flowSt s k
  let w := flowWords s k
  let d := (f.seq + 65536 - x.next) % 65536
  if !x.synced then inSequence k f (firstPacket k false f s)
  else if !bitAt 9 (wordAt w 0) && x.ssrc != f.ssrc then inSequence k f (firstPacket k true f s)
  else if 32768 ≤ d then
    if 16 ≤ x.lates then inSequence k f (firstPacket k true f s)
    else countFlow k cntLate 1 (setFlow k { x with lates := x.lates + 1 } s)
  else
    let s0 := setFlow k { x with lates := 0 } s
    let s1 := if 1024 ≤ d then deliverHeld k (passGap (d - 1023) k s0) else s0
    if (f.seq + 65536 - (flowSt s1 k).next) % 65536 = 0 then inSequence k f s1 else holdPacket k bs f s1

/-- A buffer request of the flow's port would have to wait behind the compositor's queue (R20): for the pool of its access
units, or for the buffer of the one in assembly. -/
def igrAwaits (s : State) (k : Nat) : Bool :=
  holdWaiting s (fPool (flowWords s k)) || (match (flowSt s k).au with
    | none => false
    | some a => !a.dropped && holdWaiting s (hPool a.handle))

/-- REORDER_TIMEOUT of a flow (`flowId`): the oldest held packet has waited TIMEOUT_US; the numbers before it are lost, and delivery goes on
from it (R365). -/
def execReorderTimeout (flow : Nat) (s : State) : Out :=
  done s (let k := flow
    let x := flowSt s k
    match x.held.head? with
    | none => s
    | some e => State.when (s.domOn (37 + flow / 4096) && !igrAwaits s k)
        (fun t => deliverHeld k (passGap ((e.seq + 65536 - x.next) % 65536) k t)) s)

/-! ## The meter (R363, R364) -/

/-- Colours of R363. -/
inductive Colour where
  | green | yellow | red
  deriving DecidableEq, Repr

/-- The meter's decision on a packet, and the buckets after it (R363). -/
def meter (w : List Word) (overhead now len : Nat) (x : FlowSt) : Colour × FlowSt :=
  let b := (len + overhead) * bucketUnit
  let dt := now - x.last
  let tc := min (x.tc + dt * fCir w) (fCbs w * bucketUnit)
  let tp := min (x.tp + dt * fPir w) (fPbs w * bucketUnit)
  if tp < b then (.red, { x with tc := tc, tp := tp, last := now })
  else if tc < b then (.yellow, { x with tc := tc, tp := tp - b, last := now })
  else (.green, { x with tc := tc - b, tp := tp - b, last := now })

/-- A packet of flow `i`, in a frame of bytes `bs`, passes the RTP check, the meter and the reorder stage (R357). -/
def flowPacket (i : Nat) (bs : List Byte) (f : RtpPacket) (s : State) : State :=
  let w := flowWords s i
  let p := fPort w
  if f.v ≠ 2 ∨ (bitAt 8 (wordAt w 0) && f.pt != fPt w) = true ∨ (bitAt 9 (wordAt w 0) && f.ssrc != (wordAt w 6).toNat) = true then
    countFlow i cntLate 1 s
  else
    let (c, x) := meter w (s.rd (IGR_PORT_CFG p) IGR_PORT_CFG.OVERHEAD) s.cyc f.ipLen (flowSt s i)
    let s1 := setFlow i x s
    match c with
    | .red => igrIrq p 2 (countFlow i cntRed 1 s1)
    | .yellow =>
      let s2 := countFlow i cntYellow 1 s1
      if poolFree s2 (fPool w) < bitsOf 20 0 (s2.raw (BPM_POOL_TIDE (fPool w))) then
        igrIrq p 3 (countFlow i cntYellowDrop 1 s2)
      else reorderPacket i bs f s2
    | .green => reorderPacket i bs f (countFlow i cntGreen 1 s1)

/-! ## Writing and reading entries (R361, R362, R380) -/

/-- The lowest cause of R361 for which a write of `w` at index `i` is refused; 0 where none holds. -/
def flowCause (s : State) (i : Nat) (w : List Word) : Nat :=
  if decide (4 ≤ fFormat w) || fCrypt w == 3 || decide (numPorts s.fuse.variant ≤ fPort w)
      || decide (bitsOf 15 13 (wordAt w 7) ≠ 0) || decide (bitsOf 31 24 (wordAt w 7) ≠ 0)
      || decide (bitsOf 31 27 (wordAt w 8) ≠ 0) || decide (bitsOf 31 27 (wordAt w 9) ≠ 0)
      || decide (bitsOf 31 24 (wordAt w 10) ≠ 0) || decide (bitsOf 31 24 (wordAt w 11) ≠ 0) then 1
  else if i / 8 ≠ flowSet (entryKey w) then 2
  else if (tabKeys s.igr.flows).any (fun k => k % 4096 != i && fValid (flowWords s k) && fPort (flowWords s k) == fPort w
      && entryKey (flowWords s k) == entryKey w) then 3
  else if (fFormat w == 3 && (fCrypt w == 1 || fHandover w)) || (fFormat w == 2 && fCrypt w == 2) then 4
  else if decide (fPir w < fCir w) || fCbs w == 0 || fPbs w == 0 then 5
  else 0

/-- A word 0 without KEY_SLOT. -/
def noKeySlot (w : Word) : Word := fput ⟨12, 8⟩ w 0

/-- A write that keeps a flow's state changes only the meter words or KEY_SLOT (R361). -/
def keepsFlow (old new : List Word) : Bool :=
  !old.isEmpty && noKeySlot (wordAt old 0) == noKeySlot (wordAt new 0) && (old.drop 1).take 7 == (new.drop 1).take 7

/-- A flow is reset: what it held goes, its access unit in assembly is dropped, and its buckets are full (R361, R380). -/
def resetFlow (k : Nat) (w : List Word) (s : State) : State :=
  let s1 := match (flowSt s k).au with
    | none => s
    | some a =>
      let p := fPort (flowWords s k)
      let t := releaseNZ (igrReq p) a.handle s
      if a.dropped then t else igrIrq p 5 t
  setFlow k { FlowSt.init with tc := fCbs w * bucketUnit, tp := fPbs w * bucketUnit, last := s1.cyc, resync := true } s1

/-- Port `p`'s arbiter grants a write of entry `i` in its copy: words, or none where the entry moves away. A port whose domain
is off has no copy (R361, R362, R490). -/
def putEntry (p i : Nat) (w : List Word) (s : State) : State :=
  State.when (s.domOn (37 + p)) (fun t =>
    let k := flowId p i
    let x := flowSt t k
    let t1 := if w.isEmpty then
        let u := resetFlow k w t
        { u with igr := { u.igr with st := tabSet (fun _ => FlowSt.init) u.igr.st k FlowSt.init } }
      else if keepsFlow (flowWords t k) w then
        setFlow k { x with tc := min x.tc (fCbs w * bucketUnit), tp := min x.tp (fPbs w * bucketUnit) } t
      else resetFlow k w t
    { t1 with igr := { t1.igr with flows := tabSet (fun _ => []) t1.igr.flows k w, bad := t1.igr.bad.filter (fun e => e != k) } }) s

/-! ## Frames (R356, R357) -/

/-- An access of the flow table meets an injected error: an uncorrectable one makes the entry invalid (R362, R380,
R541). -/
def flowAccess (p : Nat) (i : Option Nat) (s : State) : Option Nat × State :=
  match s.sramFault (IGR_PORT_FAULT_STATUS p) 16 with
  | (false, t) => (i, t)
  | (true, u) =>
    (none, match i with | none => u | some k => { u with igr := { u.igr with bad := k :: u.igr.bad } })

/-- The part of a write that a port's arbiter still has to grant is granted (R362). -/
def lateWrite (s : State) : State :=
  match s.igr.late with
  | none => s
  | some (p, i, w) => putEntry p i w { s with igr := { s.igr with late := none } }

/-- INGRESS_FRAME: a received frame passes the stages of R357 in order; a PAUSE or PFC frame is discarded (R356). Where its
buffer requests have to wait at the BPM arbiter the frame waits with them, so the command does not take place before (R20). -/
def execIngressFrame (port : Nat) (frame : NetFrame) (s : State) : Out :=
  done s (State.when (decide (port < numPorts s.fuse.variant) && s.domOn (37 + port)
      && s.flag (IGR_PORT_CFG port) IGR_PORT_CFG.EN && s.flag (IGR_PORT_STATUS port) IGR_PORT_STATUS.LINK_UP) (fun t =>
    let bs := frame.bytes
    let t0 := t.inc (IGR_PORT_RX_FRAMES port) IGR_PORT_RX_FRAMES.COUNT
    let badFrame := t0.inc (IGR_PORT_BAD_FRAME port) IGR_PORT_BAD_FRAME.COUNT
    let unmatched := fun (u : State) => u.inc (IGR_PORT_UNMATCHED port) IGR_PORT_UNMATCHED.COUNT
    let mac := t0.rd (IGR_PORT_MAC_HI port) IGR_PORT_MAC_HI.MAC_0_1 * 2 ^ 32 + (t0.reg (IGR_PORT_MAC_LO port)).toNat
    if !frame.fcsOk || decide (9216 < bs.length + 4) || decide (bs.length < 14) then badFrame
    else if decide (2 ≤ frameTags bs) || !macMine mac (t0.flag (IGR_PORT_CFG port) IGR_PORT_CFG.ACCEPT_MCAST) bs
        || frameType bs == 0x8808 then unmatched t0
    else if !frame.fifoRoom then igrIrq port 1 (t0.inc (IGR_PORT_RX_FIFO_DROP port) IGR_PORT_RX_FIFO_DROP.COUNT)
    else match parseFrame bs with
      | .bad => badFrame
      | .other => unmatched t0
      | .udp v6 ip dport ipLen payload =>
        let (i, t1) := flowAccess port (findFlow t0 port (flowKey port v6 ip dport)) t0
        match i with
        | none => lateWrite (unmatched t1)
        | some k => if igrAwaits t k then t else lateWrite (flowPacket k bs (parseRtp ipLen payload) t1)) s)

/-- IGR_LINK: LINK_UP and FEC_LOCK follow the link; without CFG.FEC there is no RS-FEC to lock (R356, R380). -/
def execIgrLink (port : Nat) (up fecLock : Bool) (s : State) : Out :=
  done s (State.when (decide (port < numPorts s.fuse.variant) && s.domOn (37 + port)) (fun t =>
    let old := t.flag (IGR_PORT_STATUS port) IGR_PORT_STATUS.LINK_UP
    let t1 := (t.wr (IGR_PORT_STATUS port) IGR_PORT_STATUS.LINK_UP up.toNat).wr (IGR_PORT_STATUS port)
      IGR_PORT_STATUS.FEC_LOCK (fecLock && t.flag (IGR_PORT_CFG port) IGR_PORT_CFG.FEC).toNat
    if old == up then t1 else igrIrq port 0 t1) s)

/-- IGR_FLOW_WRITE: the staging words are written into the entry, or refused (R361, R362). A write that moves an entry to the
other port takes each port's arbiter: `wr.late` names the port whose part is granted later, after at most one frame more; until
then the command is in progress and further ones are ignored. -/
def execIgrFlowWrite (wr : FlowWrite) (s : State) : Out :=
  done s (State.when (bitAt 0 wr.data && s.domOn 1 && s.igr.late.isNone) (fun t =>
    let i := t.rd IGR_FLOW_SEL IGR_FLOW_SEL.INDEX
    let w := (List.range 12).map (fun j => t.reg (IGR_FLOW_W j))
    let c := flowCause t i w
    let new := fPort w
    let old := flowOf t i / 4096
    if c ≠ 0 then
      let t1 := ((t.wr IGR_FLOW_ERR IGR_FLOW_ERR.INDEX i).wr IGR_FLOW_ERR IGR_FLOW_ERR.CAUSE c).inc IGR_FLOW_ERR IGR_FLOW_ERR.COUNT
      if t1.domOn (37 + new) then igrIrq new 9 t1 else t1
    else if old = new ∨ (flowWords t (flowOf t i)).isEmpty then putEntry new i w t
    else if wr.late = some old then
      let t1 := putEntry new i w t
      { t1 with igr := { t1.igr with late := some (old, i, []) } }
    else
      let t1 := putEntry old i [] t
      if wr.late = some new then { t1 with igr := { t1.igr with late := some (new, i, w) } } else putEntry new i w t1) s)

/-- IGR_FLOW_READ: the staging words are loaded from the entry (R380). -/
def execIgrFlowRead (data : Word) (s : State) : Out :=
  done s (State.when (bitAt 1 data && s.domOn 1 && s.igr.late.isNone) (fun t =>
    let w := flowWords t (flowOf t (t.rd IGR_FLOW_SEL IGR_FLOW_SEL.INDEX))
    foldS (fun j u => u.setReg (IGR_FLOW_W j) (wordAt w j)) (List.range 12) t) s)

end Sys2Proof.Machine
end

