-- ==== Sys2Proof/Machine/Touch.lean ====
section
/-!
DEFINITION. Touch (R243 to R247): the mapping of a contact onto the canvas, the layer it hits, tracked contacts and their
records.
-/
namespace Sys2Proof.Machine

/-- The canvas position, in 1/16 lamp, of tile position (u, v) (R243). -/
def touchMap (w : List Word) (u v : Nat) : Nat × Nat :=
  let tw := 16 * tW w
  let th := 16 * tH w
  let u' := if tMirror w then tw - 1 - u else u
  let (a, b) := match tRot w with
    | 0 => (u', v)
    | 1 => (th - 1 - v, u')
    | 2 => (tw - 1 - u', th - 1 - v)
    | _ => (v, tw - 1 - u')
  (16 * tX w + a, 16 * tY w + b)

/-- A layer's destination rectangle holds a canvas position. -/
def layerCovers (i : Nat) (ws : List Word) (x y : Nat) : Bool :=
  decide (lDstX ws ≤ x) && decide (x < lDstX ws + dstW i ws) && decide (lDstY ws ≤ y) && decide (y < lDstY ws + dstH i ws)

/-- The layer a contact hits: the highest in composition order that takes touch hits there (R244). -/
def hitLayer (s : State) (x y : Nat) : Option Nat :=
  (zOrder s).reverse.find? (fun i => let ws := actWords s i; lEn ws && lTouch ws && layerCovers i ws x y)

/-- The width and the height of a video layer's source rectangle, each where the layer's words or its source give it. -/
def touchSrc (s : State) (i : Nat) (ws : List Word) : Option Nat × Option Nat :=
  let given := fun (n : Nat) => if n = 0 then none else some n
  match lKind ws, (layerOf s i).cur with
  | 1, _ => (some (bufSrcW ws), some (bufSrcH ws))
  | 0, some p => (some (pptSrcW ws p.words), some (pptSrcH ws p.words))
  | _, _ => (given (lSrcW ws), given (lSrcH ws))

/-- A source coordinate of a video layer's hit (R244); free where the source gives no size to scale by. -/
def touchCoord (src dst size c : Nat) (n : Option Nat) (s : State) : Nat × State :=
  match n with
  | some k => ((src + (c - 16 * dst) * k / (16 * size)) % 65536, s)
  | none =>
    let (r, t) := s.fresh
    (bitsOf 15 0 r, t)

/-- The hit of a contact: layer and source coordinates (R244). A coordinate whose source gives no size is free. -/
def touchHit (cx cy : Nat) (s : State) : Option (Nat × Nat × Nat) × State :=
  match hitLayer s (cx / 16) (cy / 16) with
  | none => (none, s)
  | some i =>
    let ws := actWords s i
    if !isVideo i then (some (i, cx / 16 - lDstX ws, cy / 16 - lDstY ws), s)
    else
      let (sw, sh) := touchSrc s i ws
      let (lx, s1) := touchCoord (lSrcX ws) (lDstX ws) (lDstW ws) cx sw s
      let (ly, s2) := touchCoord (lSrcY ws) (lDstY ws) (lDstH ws) cy sh s1
      (some (i, lx, ly), s2)

/-! ## Contacts and records (R245, R246) -/

/-- A contact or record is dropped (R245, R246). -/
def touchDrop (s : State) : State := (s.inc CMP_TOUCH_STATUS CMP_TOUCH_STATUS.TOUCH_DROPS).setBit CMP_IRQ_STATUS 6

/-- Words 0 to 6 of a touch record; events 0 DOWN, 1 MOVE, 2 UP, 3 LOST (R246). -/
def touchRecord (ev : Nat) (c : TouchSt) : List Word :=
  let (hit, l, lx, ly) := match c.hit with | some (i, a, b) => (1, i, a, b) | none => (0, 0, 0, 0)
  [BitVec.ofNat 32 (c.num % 256 + ev * 2 ^ 8 + 0xE0 * 2 ^ 24), 0xFFFF, BitVec.ofNat 32 (c.cx % 2 ^ 20),
    BitVec.ofNat 32 (c.cy % 2 ^ 20 + l * 2 ^ 20 + hit * 2 ^ 26), BitVec.ofNat 32 (lx + ly * 2 ^ 16),
    BitVec.ofNat 32 c.frame, BitVec.ofNat 32 (c.tile % 65536 + c.pressure % 65536 * 2 ^ 16)]

/-- Write a record where its ring has room, or drop it (R246); with touch disabled there is none (R248). -/
def putTouch (ev : Nat) (c : TouchSt) (s : State) : State :=
  let k := bitsOf 23 16 (cmpIn s CMP_TOUCH_CFG)
  if !bitAt 0 (cmpIn s CMP_TOUCH_CFG) then s
  else if cqRoom s k then countEntry k (writeEntry k (touchRecord ev c) s) else touchDrop s

/-- Replace the tracked contacts; CONTACTS follows. -/
def setTouch (cs : List TouchSt) (s : State) : State :=
  ({ s with cmp := { s.cmp with touch := cs } } : State).wr CMP_TOUCH_STATUS CMP_TOUCH_STATUS.CONTACTS cs.length

/-- One contact of a TOUCH frame from tile `t` (R243 to R245). -/
def touchOne (t : Nat) (c : Contact) (s : State) : State :=
  let (cx, cy) := touchMap (actTile s t) c.u c.v
  let mine := fun (x : TouchSt) => x.tile == t && x.id == c.id
  match c.event with
  | 0 =>
    match (List.range 256).find? (fun n => !s.cmp.touch.any (fun x => x.num == n)) with
    | none => touchDrop { s with cmp := { s.cmp with deaf := s.cmp.deaf ++ [(t, c.id)] } }
    | some n =>
      let (hit, s1) := touchHit cx cy s
      let x : TouchSt := ⟨n, t, c.id, cx, cy, hit, c.pressure, frameNo s1, false⟩
      putTouch 0 x (setTouch (s1.cmp.touch ++ [x]) s1)
  | 1 =>
    match s.cmp.touch.reverse.find? mine with
    | none => s
    | some o =>
      let (hit, s1) := touchHit cx cy s
      let x := { o with cx := cx, cy := cy, hit := hit, pressure := c.pressure, frame := frameNo s1, moved := true }
      setTouch (s1.cmp.touch.map (fun y => if y.num = o.num then x else y)) s1
  | _ =>
    match s.cmp.touch.reverse.find? mine with
    | none => { s with cmp := { s.cmp with deaf := s.cmp.deaf.erase (t, c.id) } }
    | some o =>
      let (hit, s1) := touchHit cx cy s
      let x := { o with cx := cx, cy := cy, hit := hit, pressure := c.pressure, frame := frameNo s1 }
      putTouch 2 x (setTouch (s1.cmp.touch.filter (fun y => y.num != o.num)) s1)

/-- TOUCH: the contacts of a frame are mapped from the tile that sent it (R243 to R246). -/
def execTouch (mac : MacFacts) (pos : Nat) (contacts : List Contact) (s : State) : Out :=
  done s (rxFrame mac (fun t =>
    match placeOf t mac.lane pos with
    | none => t
    | some k => match (enTiles t.lmp.active).find? (fun i => tPlace (actTile t i) == k) with
      | none => t
      | some i =>
        if t.domOn 26 && bitAt 0 (cmpIn t CMP_TOUCH_CFG) && drivenState (tileState t i) then foldS (touchOne i) contacts t
        else t) s)

/-- Contacts of tiles that have left the wall end with LOST (R245). -/
def touchLost (s : State) : State :=
  let gone := s.cmp.touch.filter (fun c => !drivenState (tileState s c.tile))
  let s1 := if gone.isEmpty then s else setTouch (s.cmp.touch.filter (fun c => drivenState (tileState s c.tile))) s
  let s2 := { s1 with cmp := { s1.cmp with deaf := s1.cmp.deaf.filter (fun d => drivenState (tileState s1 d.1)) } }
  foldS (fun c t => putTouch 3 c t) gone s2

/-- At a gate each contact that moved since the last writes its MOVE, and the contacts down are latched for the echo
(R245, R247). -/
def touchGate (s : State) : State :=
  let moved := s.cmp.touch.filter (fun c => c.moved)
  let s1 := { s with cmp := { s.cmp with touch := s.cmp.touch.map (fun c => { c with moved := false }),
                                         echo := s.cmp.touch.map (fun c => (c.cx, c.cy)) } }
  foldS (fun c t => putTouch 1 c t) moved s1

end Sys2Proof.Machine
end

