-- ==== Sys2Proof/Machine/Gate.lean ====
section
/-!
DEFINITION. The lock gate and scanout (R226 to R234): what a gate does in its order, inside and outside HOLD, the start of
a canvas line, and a line composed into lamp correction, the guarded regions and the write-back tap.
-/
namespace Sys2Proof.Machine

/-! ## Lines (R228, R231) -/

def setScan (k : ScanSt) (s : State) : State := { s with cmp := { s.cmp with scan := k } }

/-- The canvas's last line has been composed: the frame's work in lamp correction and the ledger ends with it (R241, R268,
R281). -/
def lastLine (s : State) : State :=
  let s1 := waitsFrameDone (setScan ⟨false, 0, false, []⟩ s)
  let s2 := { s1 with lmp := { s1.lmp with exhDue := lampsOn s1 }, ldg := { s1.ldg with sample := none } }
  serveStops s2

/-- A line is composed: scanout goes on to the next. -/
def nextLine (s : State) : State :=
  let k := s.cmp.scan
  if k.line + 1 < canvasH s then setScan { k with line := k.line + 1, started := false } s else lastLine s

/-- A CHASING layer whose fetch for line `y` has been overtaken becomes LOST (R231). -/
def chase (y i : Nat) (s : State) : State :=
  let ws := actWords s i
  if s.rd (CMP_L_STATE i) CMP_L_STATE.STATE ≠ 3 ∨ layerFetches s i y = false then s
  else match refreshCur s ws (layerOf s i) with
    | none => s
    | some p =>
      let s1 := setLayer i { layerOf s i with cur := some p } s
      if needLine ws p.words y < p.wm then s1
      else layerIrq i 2 (setLState i 4 (s1.inc (CMP_L_CHASE_LOST i) CMP_L_CHASE_LOST.CHASE_LOST))

/-- CANVAS_LINE_START: the next canvas line starts, once the one before has finished and the gate's RETAINs are granted;
one with no composed position is composed at once (R228, R229, R231). -/
def execCanvasLineStart (s : State) : Out :=
  done s (State.when (s.domOn 26 && s.cmp.scan.active && !s.cmp.scan.started && s.cmp.hold.isEmpty) (fun t =>
    let y := t.cmp.scan.line
    if lineUsed t y then foldS (chase y) (List.range 64) (setScan { t.cmp.scan with started := true } t)
    else nextLine t) s)

/-- One tile takes a composed line: its row is corrected, and a LIT tile's row is counted by the ledger (R261, R282). -/
def lampLine (y : Nat) (line : List (Nat × Nat × Nat)) (t : Nat) (s : State) : State :=
  match lampTile y t line s with
  | (none, s1) => s1
  | (some row, s1) =>
    let b := y - tY (actTile s1 t)
    let s2 := farRow t b row s1
    if tileState s2 t = tsLit then ledgerRow t b row s2 else s2

/-- LINE_COMPOSED: the line's last position has left the blending stage (R223, R228, R238, R261). -/
def execLineComposed (s : State) : Out :=
  done s (State.when (s.domOn 26 && s.cmp.scan.active && s.cmp.scan.started) (fun t =>
    let y := t.cmp.scan.line
    let (line, t1) := composeLine y t
    let t2 := wbLine y line (guardLine y line t1)
    let t3 := if lampsOn t2 then foldS (lampLine y line) (enTiles t2.lmp.active) t2 else t2
    nextLine t3) s)

/-! ## The lock gate (R226 to R234) -/

/-- The frame in progress ends at the gate: lines not composed are counted as late (R228, R241, R268). -/
def closeFrame (s : State) : State :=
  let k := s.cmp.scan
  let late := if k.active then ((List.range' k.line (canvasH s - k.line)).filter (lineUsed s)).length else 0
  let s1 := if late = 0 then s
    else (s.addTo CMP_LATE_LINES CMP_LATE_LINES.LINES late).setFault CMP_FAULT_STATUS 4
  let s2 := if k.active then waitsFrameDone s1 else s1
  let s3 := if s2.lmp.exhDue || (k.active && lampsOn s2) then endExhausted s2 else s2
  setScan ⟨false, 0, false, []⟩ { s3 with lmp := { s3.lmp with tested := [] } }

/-- HOLD is entered and left at a gate (R233, R234). -/
def gateHolds (s : State) : State :=
  let want := s.raw DRC_FROZEN != 0 || s.flag CMP_CTL CMP_CTL.HOLD
  if want then enterHold s
  else if inHold s then (s.wr CMP_STATUS CMP_STATUS.IN_HOLD 0).setBit CMP_IRQ_STATUS 4
  else s

/-- What every gate does first: the frame number, the values whose writes waited for it, the frame clock, and the loaded
conversion sets and EOTF table (R217, R228, R248, R262, R269, R332 to R334, R344). Answers whether the period changed. -/
def gateOpens (s : State) : Bool × State :=
  let s1 := takeForce (takeLevel (s.inc CMP_STATUS CMP_STATUS.FRAME))
  let (changed, s2) := takeRate (genlockGate s1)
  (changed, switchEotf (switchXfer (takeSplits (openFrame s2))))

/-- Encoders that wait for a write-back picture count the gate; four lose their source (R191). -/
def encGate (s : State) : State :=
  foldS (fun n t => match encJobOf t n with
    | none => t
    | some j =>
      if j.phase = .waiting ∧ ejKind j.words = 2 then
        setEncJob n (some { j with gates := j.gates + 1, lost := j.lost || decide (4 ≤ j.gates + 1) }) t
      else t) [0, 1] s

/-- Every tile is evaluated, a tile that enters REPLACED may start its replacement, and strangers are listed; contacts of
tiles that left end (R245, R256 to R258). -/
def gateTiles (s : State) : State :=
  let before := s.lmp.states
  let s1 := if s.domOn 32 then listStrangers (autoReplace before (evalTiles s)) else s
  touchGate (touchLost s1)

/-- The committed tile map becomes active, and Breakwater keeps its TILES_HI (R254, R285). -/
def gateMap (s : State) : State :=
  if !s.domOn 32 then s
  else
    let t := applyTilemap s
    { t with ldg := { t.ldg with hi := tilesHi t } }

/-- Copies and selection of every layer (R225, R227, R230, R232, R238, R542). -/
def gateLayers (left : List (List Word)) (s : State) : State :=
  let armed := (List.range 64).map (fun i => s.flag (CMP_L_STATE i) CMP_L_STATE.ARMED)
  let s1 := gateTiles (gateMap (copyLayers (allowance (rateNow s)) (takeExpect s)))
  let s2 := waitsDisabled (takeForced s1)
  foldS (fun i t => selectLayer (left.getD i []) (armed.getD i false && !s1.flag (CMP_L_STATE i) CMP_L_STATE.ARMED) i t)
    (List.range 64) s2

/-- Frames of the links at a gate: what is late is dropped, missing far-end reports are counted, SYNC is queued (R227,
R314, R318, R348). -/
def gateLinks (s : State) : State := crcMissing (dropPixels s)

/-- The gate's coverage and allowance are shown (R248). -/
def showCoverage (s : State) : State :=
  (s.setReg CMP_COVERAGE (BitVec.ofNat 32 (totalCoverage s / 64))).setReg CMP_ALLOWANCE
    (BitVec.ofNat 32 (allowance (rateNow s) / 64))

/-- A gate in HOLD: gates, SYNC and the frame count go on, and guarded regions are forced and released; nothing is copied,
selected or held (R233, R239). -/
def holdGate (s0 : State) : State :=
  let s := waitsDisabled (takeForced s0)
  let t := gateLinks (gateTiles s)
  serveStops (gateSample true (encGate (queueSync (if t.domOn 32 then configTiles true t else t))))

/-- A gate outside HOLD, in full (R227, R234). -/
def fullGate (left : List (List Word)) (s : State) : State :=
  let s1 := gateLayers left s
  let s2 := if s1.domOn 32 then strangerRows (configTiles false (gateLinks s1)) else gateLinks s1
  let s3 := queueSync (wbReleases (wbFrameStart s2))
  let s4 := gateSlots (fencesAtGate (frameNo s3) s3)
  let s5 := if s4.cmp.hold.isEmpty then releasePassed s4 else s4
  serveStops (gateSample false (encGate (setScan ⟨true, 0, false, []⟩ s5)))

/-- LOCK_GATE: the lock-gate arbiter grants the gate. It waits for nothing (R229). -/
def execLockGate (s : State) : Out :=
  done s (State.when (s.domOn 26) (fun t =>
    let t0 := gateHolds (closeFrame t)
    let t1 := if inHold t0 then t0 else drainHold t0
    let left := (List.range 64).map (fun i => (layerOf t1 i).leaving)
    let (changed, t2) := gateOpens t1
    let t3 := if changed then disableToFit (allowance (rateNow t2)) t2 else t2
    showCoverage (if inHold t3 then holdGate t3 else fullGate left (spriteGate t3))) s)

end Sys2Proof.Machine
end

