-- ==== Sys2Proof/Machine/Jobs.lean ====
section
/-!
DEFINITION. How a QUEUED job reaches its unit, with the checks of R55 and R4 (JOB_DISPATCH), and how a RUNNING job an
ABORT has reached stops (RUNNING_JOB_STOP); the ABORT rows and the Function Level Reset, which can end the units that a
waiting STREAM_CLOSE waits for.
-/
namespace Sys2Proof.Machine

/-- Opcodes of R54. -/
def knownOp (op : Nat) : Bool :=
  [opStreamOpen, opStreamClose, opDecodeUnit, opEncodePicture, opLayerUpdate, opTilemapUpdate, opLedgerOp, opDmaList,
    opBufferOp, opLinkSend, opMicrocodeLoad, opFence, opAbort].contains op

/-- The largest CONTEXT of an opcode (R54). The context of an ABORT is checked with its other words. -/
def contextMax (op : Nat) : Nat :=
  if op = opStreamOpen ∨ op = opStreamClose ∨ op = opDecodeUnit then 511
  else if op = opEncodePicture ∨ op = opDmaList then 15
  else if op = opLayerUpdate ∨ op = opLinkSend then 63
  else if op = opMicrocodeLoad ∨ op = opBufferOp then 3
  else 65535

/-- The unit a job names is absent, or its domain is off (R4, R490). -/
def jobAbsent (s : State) (j : Job) : Bool :=
  let op := j.opcode
  if op = opLayerUpdate then !(s.domOn 26 && s.domOn (layerDomain j.context))
  else if op = opTilemapUpdate then !s.domOn 32
  else if op = opLedgerOp then
    !s.domOn 32 || decide (7 < bitsOf 7 0 (j.w 2))
      || ((bitsOf 7 0 (j.w 2) == 3 || bitsOf 7 0 (j.w 2) == 4) && decide (maxTiles s.fuse.variant ≤ j.context))
  else if op = opLinkSend then !laneLive s j.context
  else if op = opMicrocodeLoad then !s.domOn (13 + j.context / 2)
  else if op = opEncodePicture then numEncoders s.fuse.variant == 0
  else false

/-- The job completes with INTERNAL and has no other effect (R55); MODE 3 of an ABORT is reserved (R59). -/
def refusedJob (s : State) (j : Job) : Bool :=
  !knownOp j.opcode || decide (contextMax j.opcode < j.context) || headerBad s j || jobAbsent s j
    || (j.opcode == opAbort && bitsOf 26 25 (j.w 2) == 3)

/-- A refused update is recorded with cause 1 (R55, R215, R252). -/
def noteRefusal (j : Job) (s : State) : State :=
  if j.opcode = opLayerUpdate ∧ s.domOn 26 = true then updErr (j.context % 64) 1 s
  else if j.opcode = opTilemapUpdate ∧ s.domOn 32 = true then tmErr j.context 1 s
  else s

/-- The unit accepts the job now: a DMA channel that is enabled, runs no list and holds no accepted one (R409), a lane
with room in its queue. -/
def unitAccepts (s : State) (j : Job) : Bool :=
  if j.opcode = opDmaList then
    bitAt 0 (s.reg (DMA_CH_CTL j.context)) && (dmaRun s j.context).isNone && (dmaAccepted s j.context).isNone
  else if j.opcode = opLinkSend then lkPlace s j
  else true

/-- JOB_DISPATCH: a unit accepts a QUEUED job, which becomes RUNNING; a job R55 refuses is RUNNING with its record
presented. A FENCE and a DECODE_UNIT do not leave QUEUED here, and a BUFFER_OP leaves it with its grant; one that R55
refuses completes at once, for it is never RUNNING (R402). -/
def execJobDispatch (slot : Nat) (s : State) : Out :=
  let j := s.job slot
  done s (State.when (mayStart s j && s.domOn 1 && j.opcode != opFence && j.opcode != opDecodeUnit
      && (refusedJob s j || (unitAccepts s j && j.opcode != opBufferOp))) (fun t =>
    match tagCheck slot t with
    | (false, t1) => t1
    | (true, t1) =>
      if j.opcode = opBufferOp then completeNow slot stInternal (bufferEcho j) t1
      else
      let t2 := t1.setJob slot { t1.job slot with st := .running }
      if refusedJob t2 j then fail slot stInternal (noteRefusal j t2)
      else if j.opcode = opEncodePicture then
        { t2 with enc := { t2.enc with order := t2.enc.order ++ [t2.jobRef slot] } }
      else t2) s)

/-! ## ABORT and Function Level Reset (R39, R55, R59, R77) -/

/-- Every STREAM_CLOSE whose last unit has ended closes its context, however that unit ended (R77). -/
def closeReady (s : State) : State := foldS tryClose (tabKeys s.dec.ctxs) s

/-- An ABORT of the given mode runs; one with a reserved bit or mode set completes with INTERNAL (R55, R59). -/
def abortMode (mode slot : Nat) (s : State) : State :=
  State.when (s.startable slot opAbort && bitsOf 26 25 ((s.job slot).w 2) == mode) (fun t =>
    if abortOk (t.job slot) then closeReady (runAbort slot t) else fail slot stInternal t) s

/-- ABORT_TAG: the jobs of one ring with one tag. -/
def execAbortTag (slot : Nat) (s : State) : Out := done s (abortMode 0 slot s)

/-- ABORT_RING: every job of one submission ring. -/
def execAbortRing (slot : Nat) (s : State) : Out := done s (abortMode 1 slot s)

/-- ABORT_OPCODE_CONTEXT: every job with a given OPCODE and CONTEXT. -/
def execAbortOpcodeContext (slot : Nat) (s : State) : Out := done s (abortMode 2 slot s)

/-- What a Function Level Reset leaves (R39); the units it took from a waiting STREAM_CLOSE are waited for no longer. -/
def functionReset (s : State) : State := closeReady (flrReach s)

/-- FUNCTION_LEVEL_RESET. -/
def execFunctionLevelReset (s : State) : Out := done s (State.when (s.domOn 1) functionReset s)

/-! ## Stopping -/

/-- A DECODE_UNIT stops: its picture becomes ABANDONED, and the picture's other jobs complete with their own conditions and
release their bitstreams (R79, R99, R102, R115, R173); STREAM_ERR sets where one of them ended so (R175). DESIGN CHOICE (assumption 113): the stopped unit is not consumed, and
its own bitstream is not released. -/
def stopUnit (c : Nat) (r : JobRef) (s : State) : State :=
  match picOf s c with
  | none => s
  | some p =>
    if p.jobs.any (fun k => k.ref == r) then
      let others := p.jobs.filter (fun k => k.ref != r)
      tryClose c (foldS (fun k t => finishJob (p.members.headD 0) p k [] none t) others
        (abandonPic c (streamErr { p with jobs := others } [] s)))
    else s

/-- A STREAM_CLOSE that waits no longer closes its context. DESIGN CHOICE (assumption 114): the context stays open. -/
def stopClose (c : Nat) (r : JobRef) (s : State) : State :=
  modCtx c (fun x => if x.closing = some r then { x with closing := none } else x) s

/-- A load ends, and its bank is INVALID; a pending switch no longer takes effect (R143, R145). -/
def stopLoad (q : Nat) (r : JobRef) (s : State) : State :=
  let h := hsqOf s q
  match h.load, h.switch with
  | some ld, _ => if ld.ref = r then setBank q ld.bank 0 (setHsq q { h with load := none } s) else s
  | none, some (r1, _, _) =>
    if r1 = r then (setHsq q { h with switch := none } s).wr (HSQ_STATUS q) HSQ_STATUS.SWITCH_PENDING 0 else s
  | none, none => s

/-- The encoder that runs the job stops (R198). -/
def stopEncode (r : JobRef) (s : State) : State :=
  foldS (fun n t => match encJobOf t n with
    | none => t
    | some j => if j.ref = r then encAbort n t else t) (List.range 2)
    { s with enc := { s.enc with order := s.enc.order.filter (fun x => x != r) } }

/-- An operation whose journal entry is already queued goes on without its job; one before it is dropped. -/
def stopTileOp (r : JobRef) (s : State) : State :=
  let late := fun (o : LdgOp) => decide (o.stage = .journal) || decide (o.stage = .durable)
  let ops := s.ldg.ops.filterMap (fun o => if o.ref = some r then (if late o then some { o with ref := none } else none) else some o)
  promoteOps { s with ldg := { s.ldg with ops := ops } }

/-- A ledger operation stops: a START leaves the ledger STOPPED, and what waits no longer waits for the job. -/
def stopLedger (r : JobRef) (s : State) : State :=
  let s1 := match s.ldg.restore with
    | some x => if x.ref = r then restoreFails r stAborted s else s
    | none => s
  let pass := s1.ldg.pass.map (fun p => { p with saves := p.saves.filter (fun x => x != r) })
  let s2 := { s1 with ldg := { s1.ldg with
    pass := pass
    saves := s1.ldg.saves.filter (fun x => x != r)
    stops := s1.ldg.stops.filter (fun x => x.1 != r)
    formats := s1.ldg.formats.filter (fun x => x != r) } }
  if s2.ldg.ops.any (fun o => o.ref == some r) then stopTileOp r s2 else s2

/-- What the unit of a stopped job ends; the work done stands (R60). -/
def stopWork (j : Job) (r : JobRef) (s : State) : State :=
  let op := j.opcode
  if op = opDecodeUnit then stopUnit j.context r s
  else if op = opStreamClose then stopClose j.context r s
  else if op = opDmaList then dmaAbort j.context r s
  else if op = opMicrocodeLoad then stopLoad j.context r s
  else if op = opEncodePicture then stopEncode r s
  else if op = opLedgerOp then stopLedger r s
  else if op = opLayerUpdate then
    { s with cmp := { s.cmp with waits := s.cmp.waits.filter (fun g => g.ref != r) } }
  else s

/-- Result words of a job an ABORT stops: they are absent (R61), but a DECODE_UNIT of the picture in progress reports the
picture's count of damaged CTUs at the abort (R173; assumption 134). -/
def stopResults (j : Job) (r : JobRef) (s : State) : List Word :=
  if j.opcode = opDecodeUnit then
    match picOf s j.context with
    | none => []
    | some p => if p.jobs.any (fun k => k.ref == r) then unitResults none p.damage.length else []
  else []

/-- A stopped job completes with ABORTED, at once or, where R53 orders it behind another, as COMPLETION_COMMIT comes to it:
its record then waits (R50, R53, R60). -/
def endStopped (slot : Nat) (results : List Word) (s : State) : State :=
  if commitsNow s (s.job slot) then completeNow slot stAborted results s
  else s.setJob slot { s.job slot with record := true, status := stAborted, results := results }

/-- RUNNING_JOB_STOP: a RUNNING job an ABORT has reached stops and completes with ABORTED (R60, R61). -/
def execRunningJobStop (slot : Nat) (s : State) : Out :=
  done s (State.when (decide ((s.job slot).st = .running) && (s.job slot).stop && !(s.job slot).record) (fun t =>
    endStopped slot (stopResults (t.job slot) (t.jobRef slot) t) (stopWork (t.job slot) (t.jobRef slot) t)) s)

end Sys2Proof.Machine
end

