-- ==== Sys2Proof/Machine/Power.lean ====
section
/-!
DEFINITION. Power, clocks, start-up and life cycle (R480 to R513): switching domains, power fail and SHED, sleep and wake,
the resets, the service key, temperature and the DRAM window test.
-/
namespace Sys2Proof.Machine

/-! ## Domains (R486 to R489) -/

/-- A set of domains without domain `n`. -/
def without (doms n : Nat) : Nat := doms - Nat.land doms (2 ^ n)

/-- Switching `n` off would leave a domain on without its parents (R486, R487). -/
def childOn (s : State) (n : Nat) : Bool :=
  (List.range 40).any (fun m => m != n && s.domOn m && !parentsIn s.fuse.variant (without s.pwr.doms n) m)

/-- The domains whose units a RUNNING job occupies (R490). -/
def jobDomains (s : State) (j : Job) : List Nat :=
  let op := j.opcode
  if op = opLayerUpdate then [26, layerDomain j.context]
  else if op = opTilemapUpdate ∨ op = opLedgerOp then [32]
  else if op = opLinkSend then [33 + j.context / 16]
  else if op = opMicrocodeLoad then [13 + j.context / 2]
  else if op = opDecodeUnit then
    match picOf s j.context with
    | none => []
    | some p => (13 + p.seq / 2) :: p.members.map (fun m => 15 + m)
  else if op = opEncodePicture then
    if j.begun then ((List.range 2).filter (fun n => (encJobOf s n).any (fun x => x.ref.seq == j.seq))).map (fun n => 24 + n)
    else if ejStart j.words || !(sessOf s j.context).words.isEmpty then [24 + jobEncoder s j] else []
  else []

/-- A job dispatched to a unit of domain `n` runs. -/
def domainBusy (s : State) (n : Nat) : Bool :=
  s.jobList.any (fun e => decide (e.2.st = .running) && !e.2.record && (jobDomains s e.2).contains n)

/-- The off condition of domain `n` (R489). -/
def offCondition (s : State) (n : Nat) : Bool :=
  if n ≤ 11 then (List.range 64).all (fun w => !winEn s w) && (List.range 8).all (fun p => !poolEn s p)
  else if n = 12 then true
  else if n ≤ 14 then
    [2 * (n - 13), 2 * (n - 13) + 1].all (fun q => !s.flag (HSQ_CTL q) HSQ_CTL.EN && hsqState s q == 0)
  else if n ≤ 23 then roleOf s (n - 15) == roOffline
  else if n ≤ 25 then !s.flag (EN_STATUS (n - 24)) EN_STATUS.BUSY && !s.flag (EN_STATUS (n - 24)) EN_STATUS.WAITING
  else if n = 26 then !s.flag CMP_WB_CFG CMP_WB_CFG.EN
  else if n ≤ 31 then
    (List.range 64).all (fun i => layerDomain i != n || (!bitAt 0 (s.raw (CMP_L_ACT i 0)) && !bitAt 0 (s.raw (CMP_L_SHD i 0))
      && !s.flag (CMP_L_STATE i) CMP_L_STATE.ARMED))
  else if n = 32 then !s.flag LMP_CTL LMP_CTL.EN && (ldgState s == lgOff || ldgState s == lgStopped)
  else if n ≤ 36 then (List.range 16).all (fun k => !s.flag (PLK_LANE_CFG (16 * (n - 33) + k)) PLK_LANE_CFG.EN)
  else if n ≤ 38 then !s.flag (IGR_PORT_CFG (n - 37)) IGR_PORT_CFG.EN
  else (List.range 8).all (fun i => !s.flag (SDI_IN_CFG i) SDI_IN_CFG.EN)
    && (List.range 2).all (fun i => !s.flag (SDI_OUT_CFG i) SDI_OUT_CFG.EN)

/-! ## What a domain loses (R490, R491) -/

/-- PD_CTL: HQ, ICU, BPM, DMA, the scratchpad, the common registers and the stream contexts. -/
def clearCtl (s : State) : State :=
  { s with
    hq := { State.reset.hq with seq := s.hq.seq }
    icu := State.reset.icu
    bpm := State.reset.bpm
    dma := State.reset.dma
    drc := State.reset.drc
    spd := State.reset.spd
    dec := { State.reset.dec with rotated := s.cyc }
    plk := { s.plk with newRate := none }
    igr := { s.igr with late := none } }

/-- PD_PCIE in reset: the configuration space holds its reset values (R36, R37, R497). -/
def clearPcie (s : State) : State := { s with pcie := State.reset.pcie }

/-- PD_DRCg: what its channels hold, and their queues (R419, R501). -/
def clearGroup (g : Nat) (s : State) : State :=
  let mine := fun (p : Nat) => chanOf s p / 4 == g
  let d := s.drc
  let bits := ((List.range 32).filter (fun c => c / 4 != g && bitAt c (s.raw DRC_FROZEN))).map (fun c => 2 ^ c)
  { s.setReg DRC_FROZEN (BitVec.ofNat 32 bits.sum) with drc := { d with
    dram := tabDrop mine d.dram
    err := tabDrop (fun k => mine (4 * k)) d.err
    returned := d.returned.filter (fun b => !mine (64 * b.burst))
    held := tabDrop (fun c => c / 4 == g) d.held
    chans := tabDrop (fun c => c / 4 == g) d.chans } }

/-- PD_SEC: the store and the armed code. A fuse write cut short leaves the fuses in either state, which SEC_LC_STATE shows
from the next reset on (R451): which one is free. -/
def clearSec (s : State) : State :=
  match s.sec.target with
  | none => { s with sec := State.reset.sec }
  | some g =>
    let (w, t) := s.fresh
    { t with sec := State.reset.sec, fuse := { t.fuse with burnt := if bitAt 0 w then g else t.fuse.burnt } }

/-- The frame clock restarts with its domain. -/
def clearClock (s : State) : State :=
  { s with plk := { s.plk with frames := [], frac := 0, gateAt := s.cyc, period := 20000000, edge := none, trim := 0, trimFor := 0, good := 0 } }

/-- PD_CMPB: the blend, the lock-gate arbiter, the frame timer and the write-back tap. -/
def clearBlend (s : State) : State :=
  let t := if s.cmp.wb.run then returnRun (wbBase s) 4 s else s
  clearClock { t with cmp := { State.reset.cmp with layers := t.cmp.layers } }

/-- The layers of one of the domains 27 to 31. -/
def clearLayers (n : Nat) (s : State) : State :=
  { s with cmp := { s.cmp with
    layers := tabDrop (fun i => layerDomain i == n) s.cmp.layers
    waits := s.cmp.waits.filter (fun g => layerDomain g.layer != n) } }

/-- PD_LMP: lamp correction and the ledger engine. The summary, the store and the commits are Breakwater's (R284, R285,
R302). -/
def clearLamp (s : State) : State :=
  let g := { s.ldg with gates := 0, sample := none, sampled := false, classes := [], idle := [], idleNew := false, loaded := false, pass := none }
  let g2 := { g with due := false, saves := [], restore := none, ops := [], badGen := [], stops := [], formats := [] }
  dropWrites (fun w => decide (2 ≤ w.cls)) { s with lmp := State.reset.lmp, ldg := g2 }

/-- PD_PLKg: sixteen lanes and their rosters. -/
def clearLanes (g : Nat) (s : State) : State :=
  let p := s.plk
  { s with plk := { p with
    lanes := tabDrop (fun n => n / 16 == g) p.lanes
    roster := tabDrop (fun k => k / 16384 == g) p.roster
    status := p.status.filter (fun x => x.2.1 / 16 != g)
    crcs := p.crcs.filter (fun x => x.pos / 16384 != g) } }

/-- PD_IGRp: the port's copy of the flow table and its flows. -/
def clearPort (p : Nat) (s : State) : State :=
  let mine := fun (k : Nat) => k / 4096 == p
  { s with igr := { s.igr with
    flows := tabDrop mine s.igr.flows
    st := tabDrop mine s.igr.st
    bad := s.igr.bad.filter (fun k => !mine k)
    late := s.igr.late.filter (fun x => x.1 != p) } }

/-- PD_SDI: the capture inputs and the preview outputs. -/
def clearSdi (s : State) : State :=
  let t := foldS (fun n u => if u.flag (SDI_IN_CFG n) SDI_IN_CFG.EN && !sdiFlag u n SDI_IN_STATUS.PPT_FAIL
    then returnRun (sdiBase u n) 4 u else u) (List.range 8) s
  { t with sdi := State.reset.sdi }

/-- The sessions of encoder `n`. -/
def sessionsOf (s : State) (n : Nat) : List Nat :=
  (tabKeys s.enc.sess).filter (fun k => bitsOf 0 0 (wordAt (sessOf s k).words 0) == n)

/-- An encoder loses its job and its sessions. While it is off, what is left of a session names the encoder its jobs go to
(R490). -/
def clearEncoder (n : Nat) (s : State) : State :=
  let t := setEncJob n none s
  let stub := fun (k : Nat) (u : State) => { u with enc := { u.enc with
    sess := tabSet (fun _ => EncSess.none) u.enc.sess k { EncSess.none with words := (sessOf u k).words.take 1 } } }
  foldS stub (sessionsOf t n) t

/-- An encoder that is on again has no session (R491). -/
def encoderUp (n : Nat) (s : State) : State :=
  let mine := sessionsOf s n
  { s with enc := { s.enc with sess := tabDrop (fun k => mine.contains k) s.enc.sess } }

/-- A slice whose domain is off is OFFLINE, or stays RETIRED; PD_CTL holds its registers, BUSY_CYCLES among them (R5, R107,
R116). -/
def clearSlice (n : Nat) (s : State) : State :=
  let t := setSlice n { SliceSt.idle with busy := (sliceOf s n).busy } (s.wr (DS_STATUS n) DS_STATUS.BUSY 0)
  if roleOf t n = roRetired then t else setRole n roOffline t

/-- What the units of domain `n` hold is lost. -/
def clearUnits (n : Nat) (s : State) : State :=
  if n = 1 then clearCtl s
  else if n = 3 then clearPcie s
  else if n < 3 then s
  else if n ≤ 11 then clearGroup (n - 4) s
  else if n = 12 then clearSec s
  else if n ≤ 14 then setHsq (2 * (n - 13)) hsqIdle (setHsq (2 * (n - 13) + 1) hsqIdle s)
  else if n ≤ 23 then clearSlice (n - 15) s
  else if n ≤ 25 then clearEncoder (n - 24) s
  else if n = 26 then clearBlend s
  else if n ≤ 31 then clearLayers n s
  else if n = 32 then clearLamp s
  else if n ≤ 36 then clearLanes (n - 33) s
  else if n ≤ 38 then clearPort (n - 37) s
  else clearSdi s

/-- The registers of a domain return to their reset values; LDG_STATUS.SUM_VALID and LDG_CFG.COMMIT_S are Breakwater's
and stand (R302, R491). -/
def clearRegs (n : Nat) (s : State) : State :=
  let t := s.resetDomainRegs n
  if n = 32 then
    (t.wr LDG_STATUS LDG_STATUS.SUM_VALID (s.rd LDG_STATUS LDG_STATUS.SUM_VALID)).wr LDG_CFG LDG_CFG.COMMIT_S
      (s.rd LDG_CFG LDG_CFG.COMMIT_S)
  else t

/-- Domain `n` is off from this cycle: its units are absent and its registers hold their reset values (R490, R491). -/
def domainDown (n : Nat) (s : State) : State :=
  let t := clearRegs n (clearUnits n s)
  { t with pwr := { t.pwr with doms := without t.pwr.doms n } }

/-- Breakwater's identify toggle: it sets IDENTIFY and starts the count, or clears it (R504). -/
def toggleIdentify (s : State) : State :=
  let old := s.flag PLK_FRAME_CFG PLK_FRAME_CFG.IDENTIFY
  let t := s.wr PLK_FRAME_CFG PLK_FRAME_CFG.IDENTIFY (!old).toNat
  { t with pwr := { t.pwr with identCount := !old } }

/-- A sensor's last reading in degrees. -/
def tempOf (s : State) (i : Nat) : Int := (BitVec.ofNat 8 (s.rd (PWR_TEMP i) PWR_TEMP.TEMP)).toInt

/-- Some sensor reads at or above a threshold. -/
def anyAtOrAbove (s : State) (c : Nat) : Bool := (List.range 16).any (fun i => decide ((c : Int) ≤ tempOf s i))

/-- TEMP_WARN, TEMP_HOT and HOT set while their cause persists (R509). -/
def tempLevels (s : State) : State :=
  if !s.domOn 1 then s
  else
    let t := if anyAtOrAbove s (s.rd PWR_TEMP_CFG PWR_TEMP_CFG.WARN_C) then s.setBit PWR_IRQ_STATUS 3 else s
    if anyAtOrAbove t (t.rd PWR_TEMP_CFG PWR_TEMP_CFG.HOT_C) then (t.setBit PWR_IRQ_STATUS 4).setFault PWR_FAULT_STATUS 3 else t

/-- PD_CTL is on again: a held identify toggle is applied, every block samples its sources again, and conditions that hold
set their status bits (R459, R504, R509). -/
def ctlUp (s : State) : State :=
  let t := tempLevels s.resample
  if t.pwr.identHeld then toggleIdentify { t with pwr := { t.pwr with identHeld := false } } else t

/-- What the switching on of domain `n` brings beside its reset values (R491). -/
def domainUp (n : Nat) (s : State) : State :=
  let u := clearRegs n s
  let t := { u with pwr := { u.pwr with doms := Nat.lor u.pwr.doms (2 ^ n) } }
  if 4 ≤ n ∧ n ≤ 11 then (if t.flag DRC_CFG DRC_CFG.READY then startChannels t else t)
  else if 15 ≤ n ∧ n ≤ 23 then
    if t.flag (DS_CTL (n - 15)) DS_CTL.DRAIN || roleOf t (n - 15) != roOffline then t else joinRole (n - 15) t
  else if n = 24 ∨ n = 25 then encoderUp (n - 24) t
  else if n = 26 then clearClock t
  else if n = 37 ∨ n = 38 then { t with igr := { t.igr with base := tabSet (fun _ => 0) t.igr.base (n - 37) t.cyc } }
  else if n = 39 then { t with sdi := { t.sdi with base := t.cyc } }
  else t

/-! ## PWR_CMD (R488) -/

/-- A command is refused and recorded. -/
def pwrRefuse (n cause : Nat) (s : State) : State :=
  let e := ((s.wr PWR_ERR PWR_ERR.REFUSED 1).wr PWR_ERR PWR_ERR.DOMAIN n).wr PWR_ERR PWR_ERR.CAUSE cause
  (e.inc PWR_ERR PWR_ERR.COUNT).setBit PWR_IRQ_STATUS 1

/-- The tests of R488 in their order: none where the switch is decided, some 0 where the command completes at once, or
the cause of a refusal. -/
def pwrTest (s : State) (n : Nat) (up both : Bool) : Option Nat :=
  if s.pwr.cmd.isSome then some 5
  else if both then some 7
  else if !domPresent s.fuse.variant n then some 4
  else if n ≤ 3 then some 6
  else if s.domOn n == up then some 0
  else if up && !parentsIn s.fuse.variant s.pwr.doms n then some 1
  else if !up && childOn s n then some 2
  else if up then (if 15 ≤ n ∧ n ≤ 23 ∧ roleOf s (n - 15) = roRetired then some 3 else none)
  else if !offCondition s n || domainBusy s n then some 3
  else none

/-- The power-control word of a decided command is read (R541, R512): false where it is uncorrectable. -/
def pwrWord (s : State) : Bool × State :=
  match s.sramFault PWR_FAULT_STATUS 1 with
  | (bad, t) => (!bad, t)

/-- A write of PWR_CMD with ON or OFF set. -/
def pwrCmd (data : Word) (s : State) : State :=
  let n := bitsOf 5 0 data
  let up := bitAt 8 data
  let t := s.hostWrite PWR_CMD data
  match pwrTest s n up (up && bitAt 9 data) with
  | some 0 => t
  | some c => pwrRefuse n c t
  | none =>
    match pwrWord t with
    | (false, t1) => pwrRefuse n 3 t1
    | (true, t1) =>
      let t2 := t1.wr PWR_CMD PWR_CMD.BUSY 1
      let t3 := { t2 with pwr := { t2.pwr with cmd := some (n, up) } }
      if up then t3 else domainDown n t3

/-- PWR_CMD_ON: software commands a domain on (R488, R491). -/
def execPwrCmdOn (data : Word) (s : State) : Out :=
  done s (State.when (bitAt 8 data && s.domOn 1) (pwrCmd data) s)

/-- PWR_CMD_OFF: software commands a domain off (R488 to R490). -/
def execPwrCmdOff (data : Word) (s : State) : Out :=
  done s (State.when (bitAt 9 data && s.domOn 1) (pwrCmd data) s)

/-- DOMAIN_SWITCH_DONE: the switch in progress ends (R488, R491). -/
def execDomainSwitchDone (s : State) : Out :=
  done s (match s.pwr.cmd with
    | none => s
    | some (n, up) =>
      let t := (s.wr PWR_CMD PWR_CMD.BUSY 0).setBit PWR_IRQ_STATUS 0
      let t1 := { t with pwr := { t.pwr with cmd := none } }
      if up then domainUp n t1 else t1)

/-! ## Shedding -/

/-- The jobs of a shed unit end with INTERNAL, and a picture in progress there is abandoned (R501). -/
def endUnitJobs (n : Nat) (s : State) : State :=
  let hit := s.jobList.filter (fun e => decide (e.2.st = .running) && !e.2.record && (jobDomains s e.2).contains n)
  foldS (fun e t =>
    let r : JobRef := ⟨e.1, e.2.seq⟩
    let t1 := if e.2.opcode = opDecodeUnit then abandonPic e.2.context t else t
    presentRef r stInternal [] (encTaken r t1)) hit s

/-- The jobs of a shed unit end, and with them what a waiting STREAM_CLOSE waits for (R77, R501). -/
def endUnits (n : Nat) (s : State) : State := closeReady (endUnitJobs n s)

/-- Domains that are on and not kept are shed, in descending number (R483, R501); a switch in progress ends there (R488). -/
def shed (keep : Nat → Bool) (s : State) : State :=
  foldS (fun n t => if t.domOn n && !keep n then domainDown n (endUnits n t) else t)
    ((List.range' 1 39).reverse)
    (let t := s.wr PWR_CMD PWR_CMD.BUSY 0
     { t with pwr := { t.pwr with cmd := none } })

/-- Domains 1 to 3 are on again after a restart or a wake; DS_ROT_STATUS.ELAPSED_MIN counts from PD_CTL's return (R117). -/
def mainUp (s : State) : State :=
  { s with pwr := { s.pwr with doms := Nat.lor s.pwr.doms 14 }
           dec := { s.dec with rotated := if s.domOn 1 then s.dec.rotated else s.cyc } }

/-! ## Supplies and power fail (R480 to R485) -/

/-- The power-fail sequence: sampling stops, every domain but PD_AON is shed, and the summary commit begins with
POWER_FAIL = 1, once the eMMC command in progress has finished (R286, R483). Without REFCLK the main PLL does not lock: there
is no commit, and the engine is in SHED (R494, R495; DEDUCED, assumption 98). -/
def powerFailRun (cause : ShedCause) (s : State) : State :=
  let s0 := if s.pwr.sleepReq then abandonSleep s else s
  let s1 := setLock (!s0.pwr.refStopped) (shed (fun _ => false) s0)
  let s2 := dropWrites (fun _ => true) s1
  if s2.pwr.refStopped then { s2 with pwr := { s2.pwr with mode := .shed, shed := cause, wakeReq := false } }
  else
  let s3 := { s2 with pwr := { s2.pwr with mode := .powerFail, shed := cause, wakeReq := false } }
  if sumValid s3 then
    let s4 := s3.wr LDG_PF LDG_PF.DONE 0
    powerFailCommit { s4 with ldg := { s4.ldg with pfail := true, pfDue := true } }
  else s3

/-- The engine can still fail: it runs or sleeps. -/
def canFail (s : State) : Bool := decide (s.pwr.mode = .run) || decide (s.pwr.mode = .asleep)

/-- POWER_FAIL: PWRFAIL_N is low for two CLK_AON cycles (R483, R485). -/
def execPowerFail (s : State) : Out :=
  done s (State.when s.pins.pwrfailN (fun t =>
    let t1 := { t with pins := { t.pins with pwrfailN := false } }
    if t1.pwr.mode = .porst then t1
    else
      let t2 := t1.setBit BW_IRQ_STATUS 5
      if canFail t2 then powerFailRun .powerFail t2 else t2) s)

/-- PWRFAIL_N_RISE: the pin is high again; a sequence begun runs on (R483). -/
def execPwrfailNRise (s : State) : Out :=
  done s (State.when (!s.pins.pwrfailN) (fun t =>
    let t1 := { t with pins := { t.pins with pwrfailN := true } }
    if t1.pwr.mode = .porst then t1 else t1.setBit BW_IRQ_STATUS 5) s)

/-- POWER_FAIL_COMMIT_DONE: the commit is durable, LDG_PF says how long it took, and the engine is in SHED with the main
PLL stopped (R286, R483, R484). -/
def execPowerFailCommitDone (durationUs : Nat) (s : State) : Out :=
  done s (State.when (decide (s.pwr.mode = .powerFail) && !emBusy s (fun c => c == 0) && !s.ldg.pfDue) (fun t =>
    let t1 := if t.ldg.pfail then
        let a := (t.wr LDG_PF LDG_PF.PF_TIME_US (min durationUs 8191)).wr LDG_PF LDG_PF.PF_TIME_MS
          (min ((durationUs + 999) / 1000) 65535)
        a.wr LDG_PF LDG_PF.DONE 1
      else t
    let t2 := setLock false t1
    { t2 with pwr := { t2.pwr with mode := .shed }, ldg := { t2.ldg with pfail := false } }) s)

/-- Record why the engine restarts (R484, R510, R512): a trip in SHED, or while power failed, is recorded beside what led
to SHED. -/
def restartCause (s : State) : State :=
  let t := match s.pwr.shed with
    | .powerFail => s.setBit TOP_RESET_CAUSE 2
    | .thermal => s
    | .pll => (s.setBit TOP_RESET_CAUSE 4).setFault PWR_FAULT_STATUS 4
  if t.pwr.tripHold then (t.setBit TOP_RESET_CAUSE 3).setFault PWR_FAULT_STATUS 5 else t

/-- SHED_RESTART: the conditions of R484 hold, and the engine restarts with PD_AON untouched. -/
def execShedRestart (s : State) : Out :=
  done s (State.when (decide (s.pwr.mode = .shed) && s.pins.pwrfailN && !s.flag PWR_SUPPLY PWR_SUPPLY.ON_BKP && !s.pwr.refStopped
      && (List.range 16).all (fun i => decide (tempOf s i ≤ (s.rd PWR_TEMP_CFG PWR_TEMP_CFG.RESTART_C : Nat)))
      && (s.flag PWR_PF_CFG PWR_PF_CFG.AUTO_RESTART || s.flag PWR_SVC PWR_SVC.PRESSED)) (fun t =>
    let t1 := restartCause (mainUp (setLock true t))
    ctlUp { t1 with pwr := { t1.pwr with mode := .run, tripHold := false } }) s)

/-- SUPPLY_SWITCH_OVER: VAON_MAIN falls below 1.62 V and Breakwater runs from VAON_BKP (R480, R482). -/
def execSupplySwitchOver (s : State) : Out :=
  done s (State.when (!s.flag PWR_SUPPLY PWR_SUPPLY.ON_BKP && decide (s.pwr.mode ≠ .porst)) (fun t =>
    let t1 := (t.wr PWR_SUPPLY PWR_SUPPLY.ON_BKP 1).inc PWR_SUPPLY PWR_SUPPLY.SWITCHES
    let t2 := if t1.domOn 1 then t1.setBit PWR_IRQ_STATUS 5 else t1
    { t2 with pwr := { t2.pwr with vaonLow := true } }) s)

/-- SUPPLY_SWITCH_BACK: VAON_MAIN has stayed above 1.71 V for 10 ms (R480). -/
def execSupplySwitchBack (s : State) : Out :=
  done s (State.when (s.flag PWR_SUPPLY PWR_SUPPLY.ON_BKP) (fun t =>
    let t1 := t.wr PWR_SUPPLY PWR_SUPPLY.ON_BKP 0
    { t1 with pwr := { t1.pwr with vaonLow := false } }) s)

/-- VAON_MAIN_LOW: VAON_MAIN below 1.62 V for 1 ms while PWRFAIL_N is high starts the power-fail sequence (R482). -/
def execVaonMainLow (s : State) : Out :=
  done s (State.when (s.pwr.vaonLow && s.pins.pwrfailN && canFail s) (fun t =>
    powerFailRun .powerFail (t.setBit BW_IRQ_STATUS 5)) s)

/-! ## Sleep and wake (R500 to R503) -/

/-- The keep mask as a set of domains; bit 0 reads 1 (R500). -/
def keepMask (s : State) : Nat :=
  Nat.lor 1 ((s.reg PWR_SLEEP_KEEP_LO).toNat + s.rd PWR_SLEEP_KEEP_HI PWR_SLEEP_KEEP_HI.KEEP * 2 ^ 32)

/-- A keep mask keeps no absent domain, and every parent of what it keeps (R500). -/
def keepOk (v : Variant) (m : Nat) : Bool :=
  (List.range 40).all (fun n => !inSet m n || (domPresent v n && parentsIn v m n))

/-- SLEEP_GO: software requests sleep with the keep mask as it stands, or BAD_KEEP is reported (R500). -/
def execSleepGo (data : Word) (s : State) : Out :=
  done s (State.when (bitAt 0 data && s.domOn 1 && decide (s.pwr.mode = .run)) (fun t =>
    if keepOk t.fuse.variant (keepMask t) then { t with pwr := { t.pwr with sleepReq := true, keep := keepMask t } }
    else (t.wr PWR_SLEEP_CTL PWR_SLEEP_CTL.RESULT 3).setBit PWR_IRQ_STATUS 2) s)

/-- SLEEP_COMMIT: the wake arbiter commits sleep entry: domains not kept are shed, the main PLL stops where PD_CTL is
not kept and no commit runs, and messages outside the wake set are discarded (R469, R470, R493, R501). -/
def execSleepCommit (s : State) : Out :=
  done s (State.when (s.pwr.sleepReq && decide (s.pwr.mode = .run)) (fun t =>
    let m := t.pwr.keep
    let msgs := t.icu.msgs.filter (fun x => !x.2 && t.wakeNamed x.1)
    let t1 := shed (inSet m) t
    let t2 := { t1 with icu := { t1.icu with msgs := msgs } }
    let t3 := (t2.setReg BW_WAKE_LATCH_LO 0).setReg BW_WAKE_LATCH_HI 0
    let t4 := { t3 with pwr := { t3.pwr with mode := .asleep, sleepReq := false, wakeReq := false, causeSet := false } }
    if inSet m 1 || emBusy t4 (fun c => decide (c ≤ 1)) then t4 else setLock false t4) s)

/-- A wake event of Breakwater's own reaches the sleeping engine (R502). -/
def ownWake (source : Nat) (s : State) : State :=
  if s.pwr.mode ≠ .asleep then s
  else
    let t := { s with pwr := { s.pwr with wakeReq := true, causeSet := true } }
    if s.pwr.causeSet then t else t.setReg BW_WAKE_CAUSE (BitVec.ofNat 32 (source + 2 ^ 16))

/-- Entry `j` of the wake set is latched. -/
def wakeLatched (s : State) (j : Nat) : Bool :=
  bitAt (j % 32) (s.raw (if j < 32 then BW_WAKE_LATCH_LO else BW_WAKE_LATCH_HI))

/-- WAKE: domains 1 to 3 are on again, latched sources are delivered in ascending order of their entries, and
BW_IRQ_STATUS.WAKE sets (R469, R502). -/
def execWake (s : State) : Out :=
  done s (State.when (decide (s.pwr.mode = .asleep) && s.pwr.wakeReq) (fun t =>
    let held := ((List.range 64).filter (wakeLatched t)).map (fun j => (bitsOf 9 0 (t.raw (BW_WAKE_SRC j)), false))
    let t1 := mainUp (setLock (!t.pwr.refStopped) t)
    let t2 := (t1.setBit TOP_RESET_CAUSE 5).wr PWR_SLEEP_CTL PWR_SLEEP_CTL.RESULT 1
    let t3 := { t2 with pwr := { t2.pwr with mode := .run, wakeReq := false }
                        icu := { t2.icu with msgs := t2.icu.msgs ++ held } }
    ctlUp (t3.setBit BW_IRQ_STATUS 1)) s)

/-- BW_TIMER: the timer reaches zero (R502, R512). -/
def execBwTimer (s : State) : Out :=
  done s (State.when (s.rd BW_TIMER BW_TIMER.SECONDS != 0 && s.domOn 0) (fun t =>
    ownWake 22 ((t.setReg BW_TIMER 0).setBit BW_IRQ_STATUS 2)) s)

/-! ## Clocks and resets (R494 to R499) -/

/-- The main PLL loses lock (R494, R495). -/
def loseMainLock (s : State) : State :=
  if s.flag CLK_STATUS CLK_STATUS.MAIN_LOCK then (setLock false s).inc CLK_STATUS CLK_STATUS.UNLOCKS else s

/-- PLL_LOCK_LOSS: MAIN_LOCK has stayed clear for 10 µs with the main domains on: everything but PD_AON is shed with no
commit, and the engine is in SHED (R494). -/
def execPllLockLoss (s : State) : Out :=
  done s (State.when (canFail s && s.domOn 1) (fun t =>
    let t1 := if t.pwr.sleepReq then abandonSleep t else t
    let t2 := dropWrites (fun _ => true) (shed (fun _ => false) (loseMainLock t1))
    { t2 with pwr := { t2.pwr with mode := .shed, shed := .pll, wakeReq := false } }) s)

/-- REFCLK_STOP: CLK_AON changes to the oscillator, the main PLL loses lock, and a commit in progress is cut short
(R495). -/
def execRefclkStop (s : State) : Out :=
  done s (State.when (!s.pwr.refStopped && decide (s.pwr.mode ≠ .porst)) (fun t =>
    let t1 := loseMainLock (t.wr CLK_STATUS CLK_STATUS.AON_OSC 1)
    let cut := emBusy t1 (fun c => decide (c ≤ 1))
    let t2 := if cut then
        let u := dropWrites (fun w => decide (w.cls ≤ 1)) t1
        { u with ldg := { u.ldg with cmd := match u.ldg.cmd with
          | some w => if w.cls ≤ 1 then none else some w
          | none => none } }
      else t1
    let t3 := if t2.pwr.mode = .powerFail then
        { t2 with pwr := { t2.pwr with mode := .shed }, ldg := { t2.ldg with pfail := false, pfDue := false } } else t2
    { t3 with pwr := { t3.pwr with refStopped := true } }) s)

/-- REFCLK_RETURN: REFCLK has run for 1 ms (R495). -/
def execRefclkReturn (s : State) : Out :=
  done s (State.when s.pwr.refStopped (fun t =>
    let t1 := t.wr CLK_STATUS CLK_STATUS.AON_OSC 0
    { t1 with pwr := { t1.pwr with refStopped := false } }) s)

/-- PORST_N: held low for at least 10 µs: every domain is in reset, PD_AON included; DRAM and every store but the eMMC
device and the fuses are lost (R481, R496). -/
def execPorstN (s : State) : Out :=
  done s (State.when s.pins.porstN (fun t =>
    let f := clearSec t
    { State.reset with
      regs := []
      fuse := f.fuse
      pins := { t.pins with porstN := false }
      pwr := { State.reset.pwr with doms := 0, mode := .porst, vaonLow := t.pwr.vaonLow, refStopped := t.pwr.refStopped }
      tap := t.tap
      host := t.host
      hq := { State.reset.hq with seq := t.hq.seq }
      dec := { State.reset.dec with rotated := t.cyc }
      ldg := { State.reset.ldg with store := t.ldg.store }
      cyc := t.cyc
      free := f.free
      pending := t.pending }) s)

/-- PORST_N_RELEASE: the reset sequence of R496 runs: the fuses are read, the main PLL locks, and domains 1 to 3 are on. A
PWRFAIL_N that is low then starts the power-fail sequence (R483). -/
def execPorstNRelease (s : State) : Out :=
  done s (State.when (decide (s.pwr.mode = .porst)) (fun t =>
    let t1 := setLock (!t.pwr.refStopped) { t with
      pins := { t.pins with porstN := true }
      fuse := { t.fuse with lifeCycle := t.fuse.burnt }
      dec := { t.dec with rotated := t.cyc } }
    let t2 := { t1 with pwr := { t1.pwr with doms := 15, mode := .run } }
    let t3 := if t2.pwr.vaonLow then t2.wr PWR_SUPPLY PWR_SUPPLY.ON_BKP 1 else t2
    let t4 := if t3.pwr.refStopped then t3.wr CLK_STATUS CLK_STATUS.AON_OSC 1 else t3
    if t4.pins.pwrfailN then t4 else powerFailRun .powerFail (t4.setBit BW_IRQ_STATUS 5)) s)

/-- PERST_N: low holds PD_PCIE in reset; a rise resets the controller with the reach of R39 and sets BW_IRQ_STATUS.PERST
(R497). -/
def execPerstN (level : Bool) (s : State) : Out :=
  done s (State.when (s.pins.perstN != level) (fun t =>
    let t1 := clearPcie { t with pins := { t.pins with perstN := level } }
    if !level ∨ t1.pwr.mode = .porst then t1
    else
      let t2 := ownWake 24 (t1.setBit BW_IRQ_STATUS 4)
      if t2.domOn 1 then functionReset t2 else t2) s)

/-- TOP_RESET: a write of the key resets every domain but PD_AON and PD_PCIE (R498); any other value is ignored. -/
def execTopReset (data : Word) (s : State) : Out :=
  done s (State.when (data == 0x52535431 && s.domOn 1) (fun t =>
    let t1 := mainUp (shed (fun n => n == 3) t)
    let t2 := { t1 with pwr := { t1.pwr with sleepReq := false } }
    ctlUp (t2.setBit TOP_RESET_CAUSE 1)) s)

/-- TOP_SETUP_LOCK: a write of 1 locks the RW-L registers (R10, R499). -/
def execTopSetupLock (data : Word) (s : State) : Out :=
  done s (State.when (s.domOn 1) (fun t => t.hostWrite TOP_SETUP_LOCK data) s)

/-! ## The service key (R504) -/

/-- SVC_KEY: a press: SVC_KEY_N sampled low for 20 ms, where no press is under way; a key held since before PORST_N rose
is pressed once it has been sampled so long. -/
def execSvcKey (s : State) : Out :=
  done s (State.when (decide (s.pwr.mode = .porst) || !s.flag PWR_SVC PWR_SVC.PRESSED) (fun t =>
    let t1 := { t with pins := { t.pins with svcKeyN := false } }
    if t1.pwr.mode = .porst then t1
    else
      let t2 := ((t1.wr PWR_SVC PWR_SVC.PRESSED 1).inc PWR_SVC PWR_SVC.PRESSES).setBit BW_IRQ_STATUS 3
      let t3 := ownWake 23 t2
      if t3.domOn 1 then toggleIdentify t3
      else { t3 with pwr := { t3.pwr with identHeld := !t3.pwr.identHeld } }) s)

/-- SVC_KEY_RELEASE: the key is high for 20 ms. -/
def execSvcKeyRelease (s : State) : Out :=
  done s (State.when (!s.pins.svcKeyN) (fun t =>
    { t.wr PWR_SVC PWR_SVC.PRESSED 0 with pins := { t.pins with svcKeyN := true } }) s)

/-- IDENTIFY_TIMEOUT: IDENT_S seconds after Breakwater set IDENTIFY, it clears it. -/
def execIdentifyTimeout (s : State) : Out :=
  done s (State.when s.pwr.identCount (fun t =>
    let t1 := if t.domOn 1 then t.wr PLK_FRAME_CFG PLK_FRAME_CFG.IDENTIFY 0 else t
    { t1 with pwr := { t1.pwr with identCount := false } }) s)

/-! ## Temperature (R508 to R510) -/

/-- A sensor's reading, with its peak. -/
def takeReading (i : Nat) (c : Int) (s : State) : State :=
  let b := (BitVec.ofInt 8 c).toNat
  let peak := (BitVec.ofNat 8 (s.rd (PWR_TEMP i) PWR_TEMP.PEAK)).toInt
  let t := s.wr (PWR_TEMP i) PWR_TEMP.TEMP b
  if peak < (BitVec.ofInt 8 c).toInt then t.wr (PWR_TEMP i) PWR_TEMP.PEAK b else t

/-- TEMPERATURE_READ: Breakwater reads every sensor; 115 °C in two consecutive readings of a sensor trips the engine
(R508 to R510). Where the power-fail sequence runs already or has ended in SHED, the trip holds FAULT_N and records its
cause. -/
def execTemperatureRead (temps : List Int) (s : State) : Out :=
  done s (State.when (temps.length == 16 && decide (s.pwr.mode ≠ .porst)) (fun t =>
    let t1 := foldS (fun p u => takeReading p.1 p.2 u) ((List.range 16).zip temps) t
    let now := (((List.range 16).filter (fun i => decide (115 ≤ tempOf t1 i))).map (fun i => 2 ^ i)).sum
    let trip := Nat.land now t1.pwr.hot != 0
    let t2 := tempLevels { t1 with pwr := { t1.pwr with hot := now } }
    if trip then
      let t3 := t2.setBit TOP_RESET_CAUSE 3
      let t4 := if canFail t3 then powerFailRun .thermal t3 else t3
      { t4 with pwr := { t4.pwr with tripHold := true } }
    else t2) s)

/-- PWR_TEMP_PEAK_CLR: a write of 1 sets PEAK to TEMP (R512). -/
def execPwrTempPeakClr (sensor : Nat) (data : Word) (s : State) : Out :=
  done s (State.when (decide (sensor < 16) && bitAt 31 data && s.domOn 1) (fun t =>
    t.wr (PWR_TEMP sensor) PWR_TEMP.PEAK (t.rd (PWR_TEMP sensor) PWR_TEMP.TEMP)) s)

/-! ## The DRAM window test (R506) -/

/-- The test of window `w` is accepted. -/
def memtestOk (s : State) (w : Nat) : Bool :=
  !winEn s w && decide (winPhys s w + winPhysSize s w ≤ dramCapacity s)
    && (List.range 64).all (fun v => !winEn s v
      || !rangesOverlap (winPhys s w) (winPhysSize s w) (winPhys s v) (winPhysSize s v))

/-- MEMTEST_GO: a window test starts, or is refused with RESULT = BUSY (R506). A GO while a test runs is ignored. -/
def execMemtestGo (data : Word) (s : State) : Out :=
  done s (State.when (bitAt 8 data && s.domOn 1 && !s.flag TOP_MEMTEST_CTL TOP_MEMTEST_CTL.BUSY) (fun t =>
    let t1 := t.hostWrite TOP_MEMTEST_CTL data
    if memtestOk t1 (bitsOf 5 0 data) then t1.wr TOP_MEMTEST_CTL TOP_MEMTEST_CTL.BUSY 1
    else t1.wr TOP_MEMTEST_CTL TOP_MEMTEST_CTL.RESULT 3) s)

/-- MEMTEST_DONE: a test that passes leaves zero data with valid check bytes; one that fails names the first failing
word (R506). -/
def execMemtestDone (failAt : Option Nat) (s : State) : Out :=
  done s (State.when (s.flag TOP_MEMTEST_CTL TOP_MEMTEST_CTL.BUSY) (fun t =>
    let w := t.rd TOP_MEMTEST_CTL TOP_MEMTEST_CTL.WINDOW
    let a := winPhys t w
    let n := winPhysSize t w
    let t1 := (zeroPhys a n (t.wr TOP_MEMTEST_CTL TOP_MEMTEST_CTL.BUSY 0)).setBit PWR_IRQ_STATUS 6
    match failAt with
    | none => t1.wr TOP_MEMTEST_CTL TOP_MEMTEST_CTL.RESULT 1
    | some p =>
      State.when (decide (a ≤ p) && decide (p < a + n)) (fun _ =>
        (t1.wr TOP_MEMTEST_CTL TOP_MEMTEST_CTL.RESULT 2).setReg64 TOP_MEMTEST_FAIL_LO TOP_MEMTEST_FAIL_HI (p / 4 * 4)) t) s)

end Sys2Proof.Machine
end

