-- ==== Sys2Proof/Machine/HostRegs.lean ====
section
/-!
DEFINITION. The host's plain register accesses (R9 to R12, R34, R446): what a write of a register that has no behaviour
of its own leaves, and what a read of any register returns, with the registers that only show another part of the
state.
-/
namespace Sys2Proof.Machine

/-! ## Writes -/

/-- Offset `a` is word `o` of one of `n` units `st` apart from `b`. -/
def inArray (a b n st o : Nat) : Bool :=
  decide (b + o ≤ a) && decide (a < b + o + n * st) && (a - (b + o)) % st == 0

/-- Registers whose every write is a row of its own in the opcode table. -/
def ownRow (a : Nat) : Bool :=
  a == TOP_SETUP_LOCK || a == TOP_RESET || a == ICU_GLOBAL || a == HSQ_CS_SEL || a == CMP_CTL || a == CMP_WB_CFG
    || a == CMP_TOUCH_SPRITE_SIZE || a == LMP_MTX_CTL || a == PLK_FRAME_CFG || icuConfigReg a || isFaultInject a
    || [0, 4, 8].any (fun o => inArray a (HQ_SQ_BASE_LO 0) 512 16 o)
    || [0, 4, 8].any (fun o => inArray a (HQ_CQ_BASE_LO 0) 256 32 o)
    || inArray a (DS_CTL 0) 9 0x10000 0 || inArray a (SDI_IN_CFG 0) 8 0x100 0 || inArray a (CMP_GR_FORCED 0) 2 4 0
    || inArray a (CMP_GR_EXPECT 0) 64 16 0 || inArray a (PLK_LANE_LOOP 0) 64 0x400 0
    || inArray a (PLK_LANE_CFG 0) 64 0x400 0 || inArray a (BPM_POOL_CFG 0) 8 0x40 0
    || inArray a (ICU_SRC_CFG 0) 1024 4 0 || inArray a (DRC_WIN_CFG 0) 64 0x20 0 || inArray a (DRC_MAP_CH 0) 9 4 0 || inArray a (DRC_CH_ECC 0) 32 0x4000 0

/-- Registers some of whose writes are a row of its own: the bits that make them so. -/
def ownWrite (s : State) (a : Nat) (data : Word) : Bool :=
  (a == PWR_CMD && (bitAt 8 data || bitAt 9 data)) || (a == TOP_MEMTEST_CTL && bitAt 8 data)
    || (inArray a (DMA_CH_CTL 0) 16 0x100 0 && (bitAt 1 data || (bitAt 0 (s.reg a) && !bitAt 0 data)))
    || (a == DRC_CFG && bitAt 8 data) || (a == SEC_LC_CTL && bitAt 2 data)
    || (a == TOP_FAULT_PIN && (bitAt 0 data || bitAt 1 data))

/-- A register of a pool that takes writes only while the pool is disabled (R386), and the pool. -/
def poolSetup (a : Nat) : Option Nat :=
  (List.range 8).find? (fun p => [0, 4, 8, 0xC, 0x14, 0x18].any (fun o => a == BPM_POOL_BASE_LO p + o))

/-- A field of a DRAM window other than CFG (R421), and the window. -/
def windowSetup (a : Nat) : Option Nat :=
  (List.range 64).find? (fun w => [0, 4, 8, 0xC, 0x10].any (fun o => a == DRC_WIN_BASE_LO w + o))

/-- The word of the secure scratchpad that SEC_DATA shows at offset `a` (R446). -/
def secWord (a : Nat) : Option Nat :=
  if 0x1F10000 ≤ a ∧ a < 0x1F20000 ∧ a % 4 = 0 then some ((a - 0x1F10000) / 4) else none

/-- A write of SEC_DATA (R446, R449): ignored in RETURNED and while TAMPER_N is low. -/
def secDataWrite (k : Nat) (data : Word) (s : State) : State :=
  State.when (s.domOn 12 && s.pins.tamperN && s.fuse.lifeCycle != 3) (fun t =>
    let u := secPut t k data
    { u with sec := { u.sec with err := u.sec.err.filter (fun x => x != k) } }) s

/-- A FAULT_PIN_EN bit that changes from 0 to 1 over a FAULT_STATUS bit is a pin event (R474). -/
def pinEnWrite (a : Nat) (data : Word) (s : State) : State :=
  let t := s.hostWrite a data
  let up := (List.range 32).countP (fun b => bitAt b (t.raw a) && !bitAt b (s.raw a) && bitAt b (t.raw (a - 8)))
  { t with pinEvts := t.pinEvts + up }

/-- Status bits of a lane that set again after a write: ALERT while the FIFO holds one, LOOP_MISMATCH while the loop is wrong
(R12, R325, R354). -/
def lanePersists (n : Nat) (s : State) : State :=
  loopCheck n (if (laneOf s n).alerts.isEmpty then s else laneIrq n 4 s)

/-- CAPTURE of an input sets again while it has no run of entries (R12, R210). -/
def capturePersists (n : Nat) (s : State) : State :=
  if sdiFlag s n SDI_IN_STATUS.PPT_FAIL then s.setBit (SDI_IN_IRQ_STATUS n) 2 else s

/-- Status bits that set again after a write because their cause persists (R12, R210, R239, R325, R354, R389, R509), and LOW
as a new tidemark finds the pool below it. -/
def persists (a : Nat) (s : State) : State :=
  if a = PWR_IRQ_STATUS ∨ a = PWR_FAULT_STATUS ∨ a = PWR_TEMP_CFG then tempLevels s
  else if a = LMP_FAULT_STATUS then
    if s.lmp.damaged.isEmpty then s else s.setFault LMP_FAULT_STATUS 1
  else if a = CMP_FAULT_STATUS then
    if (List.range 64).any (regionForced s) then s.setFault CMP_FAULT_STATUS 3 else s
  else
    let t := match (List.range 64).find? (fun n => a == PLK_LANE_IRQ_STATUS n) with
      | some n => lanePersists n s
      | none => s
    let u := match (List.range 8).find? (fun n => a == SDI_IN_IRQ_STATUS n) with
      | some n => capturePersists n t
      | none => t
    match (List.range 8).find? (fun p => a == BPM_POOL_IRQ_STATUS p || a == BPM_POOL_TIDE p) with
      | some p => poolLow u p
      | none => u

/-- The MSI-X control word of a vector (R68, R461): unmasking it sends the message its pending bit holds. -/
def msixWordWrite (a : Nat) (data : Word) (s : State) : State :=
  let t := s.hostWrite a data
  let i := (a - HQ_MSIX_TABLE 0) / 4
  let v := i / 4
  State.when (i % 4 == 3 && !bitAt 0 (t.reg a) && bitAt (v % 32) (t.raw (HQ_MSIX_PBA (v / 32))))
    (fun u => msixSend v (u.clrBit (HQ_MSIX_PBA (v / 32)) (v % 32))) t

/-- A write of a register by its access code, with the conditions some registers put on writes. -/
def plainWrite (a : Nat) (data : Word) (s : State) : State :=
  match secWord a, poolSetup a, windowSetup a with
  | some k, _, _ => secDataWrite k data s
  | none, some p, _ => if poolEn s p then s else persists a (s.hostWrite a data)
  | none, none, some w =>
    if underTest s w then badWindow w s else if winEn s w then s else s.hostWrite a data
  | none, none, none =>
    if a = LMP_LEVEL then State.when (!s.flag LMP_HRM_CTL LMP_HRM_CTL.EN) (fun t => t.hostWrite a data) s
    else if a = LMP_HRM_CTL then
      let t := s.hostWrite a data
      if t.flag LMP_HRM_CTL LMP_HRM_CTL.EN && !s.flag LMP_HRM_CTL LMP_HRM_CTL.EN
      then { t with lmp := { t.lmp with minute := [0, 0, 0] } } else t
    else if a = TOP_MEMTEST_CTL then
      State.when (!s.flag TOP_MEMTEST_CTL TOP_MEMTEST_CTL.BUSY) (fun t => t.hostWrite a data) s
    else if a = PWR_SLEEP_KEEP_LO then (s.hostWrite a data).setBit a 0
    else if a = LDG_CFG && !s.domOn 32 then s.wr a LDG_CFG.COMMIT_S (fget LDG_CFG.COMMIT_S data)
    else if inArray a (HQ_MSIX_TABLE 0) 256 4 0 then msixWordWrite a data s
    else if isFaultInject (a + 4) then pinEnWrite a data s
    else persists a (s.hostWrite a data)

/-- REGISTER_WRITE: the host writes a register that has no behaviour of its own (R10, R11). A write that is a row of its
own in the table is not this command (assumption 2). The word is checked as it arrives at its block (R473, R541, assumption
25). -/
def execRegisterWrite (addr : Nat) (data : Word) (s : State) : Out :=
  done s (State.when (s.domOn 1 && !ownRow addr && !ownWrite s addr data) (fun t => (plainWrite addr data t).fabricWord addr) s)

/-! ## Reads (R10: fields marked RO) -/

/-- Bits as a number, bit 0 first. -/
def bitsNat (bs : List Bool) : Nat := bs.foldr (fun b n => b.toNat + 2 * n) 0

/-- FAULT_N is driven low by this engine (R474, R510). -/
def faultLow (s : State) : Bool :=
  s.flag TOP_FAULT_PIN TOP_FAULT_PIN.ASSERT || s.flag TOP_FAULT_PIN TOP_FAULT_PIN.PULSING || s.pwr.tripHold

/-- FAULT_N reads low: this engine or another driver of the board's net pulls it (R475). -/
def faultNetLow (s : State) : Bool := faultLow s || s.pins.faultOther

/-- The IRQ_STATUS registers with their FAULT_STATUS and their FAULT bit (R471). -/
def faultView (a : Nat) : Option (Nat × Nat) :=
  let at_ := fun (n st fs stride fb : Nat) => ((List.range n).find? (fun i => a == st + i * stride)).map (fun i => (fs + i * stride, fb))
  [at_ 1 PWR_IRQ_STATUS PWR_FAULT_STATUS 0 7, at_ 1 ICU_IRQ_STATUS ICU_FAULT_STATUS 0 0,
   at_ 16 (DMA_CH_IRQ_STATUS 0) (DMA_CH_FAULT_STATUS 0) 0x100 2, at_ 4 (HSQ_IRQ_STATUS 0) (HSQ_FAULT_STATUS 0) 0x1000 3,
   at_ 9 (DS_IRQ_STATUS 0) (DS_FAULT_STATUS 0) 0x10000 4, at_ 2 (EN_IRQ_STATUS 0) (EN_FAULT_STATUS 0) 0x10000 3,
   at_ 1 CMP_IRQ_STATUS CMP_FAULT_STATUS 0 7, at_ 1 LMP_IRQ_STATUS LMP_FAULT_STATUS 0 7,
   at_ 1 LDG_IRQ_STATUS LDG_FAULT_STATUS 0 7, at_ 64 (PLK_LANE_IRQ_STATUS 0) (PLK_LANE_FAULT_STATUS 0) 0x400 8,
   at_ 2 (IGR_PORT_IRQ_STATUS 0) (IGR_PORT_FAULT_STATUS 0) 0x1000 8,
   at_ 32 (DRC_CH_IRQ_STATUS 0) (DRC_CH_FAULT_STATUS 0) 0x4000 4, at_ 1 SPD_IRQ_STATUS SPD_FAULT_STATUS 0 1,
   at_ 1 SEC_IRQ_STATUS SEC_FAULT_STATUS 0 3].findSome? id

/-- SEC_DATA shows word `k` in this life-cycle state (R446). -/
def secShown (s : State) (k : Nat) : Bool :=
  let slot := decide (k < 4096)
  s.domOn 12 && match s.fuse.lifeCycle with
    | 0 => true
    | 1 => !(slot && decide (k % 16 < 8))
    | 2 => slot && decide (8 ≤ k % 16)
    | _ => false

/-- What SEC_DATA returns for word `k` (R446). -/
def secDataRead (s : State) (k : Nat) : Word := if secShown s k then secGet s k else 0

/-- The word SEC_DATA reads is checked: CORRECTED or UNCORRECTABLE set (R455, R473). -/
def secDataCheck (s : State) (k : Nat) : State :=
  if !secShown s k then s
  else
    match s.sramFault SEC_FAULT_STATUS 1 with
    | (_, t) => if t.sec.err.contains k then t.setFault SEC_FAULT_STATUS 1 else t

/-- The roster slot PLK_ROSTER_SEL names (R354). -/
def rosterShown (s : State) : Option RosterSlot :=
  slotAt s (s.rd PLK_ROSTER_SEL PLK_ROSTER_SEL.LANE * 1024 + s.rd PLK_ROSTER_SEL PLK_ROSTER_SEL.POS)

/-- The roster registers (R354). -/
def rosterRead (s : State) (a : Nat) : Word :=
  match rosterShown s with
  | none => 0
  | some r =>
    BitVec.ofNat 32 (
      if a = PLK_ROSTER_SERIAL 0 then r.serial else if a = PLK_ROSTER_SERIAL 1 then r.serial / 2 ^ 32
      else if a = PLK_ROSTER_INFO then
        r.wM1 % 1024 + r.hM1 % 1024 * 2 ^ 10 + 2 ^ 20 + r.homeB.toNat * 2 ^ 21 + r.temp % 256 * 2 ^ 22
      else if a = PLK_ROSTER_STAT then r.missed % 2 ^ 16 + r.result % 256 * 2 ^ 16
      else if a = PLK_ROSTER_FW then r.ctlSeq % 2 ^ 16 + r.fw % 2 ^ 16 * 2 ^ 16
      else r.lead)

/-- The tile the LMP_TM registers show (R272). -/
def tileRead (s : State) (a : Nat) : Word :=
  let t := s.rd LMP_TM_SEL LMP_TM_SEL.TILE
  let w := actTile s t
  if a < LMP_TM_REP 0 then wordAt w ((a - LMP_TM_DATA 0) / 4)
  else if a = LMP_TM_STATE then BitVec.ofNat 32 (tileState s t + (exhBit s t).toNat * 8)
  else
    let serial := match slotAt s (tPlace w) with | none => 0 | some r => r.serial
    BitVec.ofNat 32 (if a = LMP_TM_REP 0 then serial else serial / 2 ^ 32)

/-- The state codes of eight tiles (R272). -/
def statesRead (s : State) (k : Nat) : Word :=
  BitVec.ofNat 32 (((List.range 8).map (fun i => (tileState s (8 * k + i) + (exhBit s (8 * k + i)).toNat * 8) * 16 ^ i)).sum)

/-- The views of the TOP, PWR, BW and ICU windows. -/
def viewTop (s : State) (a : Nat) : Option Word :=
  if a = TOP_FAULT_PIN then some (fput TOP_FAULT_PIN.PIN (s.reg a) (!faultNetLow s).toNat)
  else if a = PWR_STATE_LO then some (BitVec.ofNat 32 s.pwr.doms)
  else if a = PWR_STATE_HI then some (BitVec.ofNat 32 (s.pwr.doms / 2 ^ 32 % 256))
  else if a = CLK_STATUS then
    let on := (List.range' 4 8).any s.domOn && s.rd DRC_CFG DRC_CFG.RATE != 0
    some (fput CLK_STATUS.PHY_LOCK (s.reg a) on.toNat)
  else if a = PWR_SUPPLY then some (fput PWR_SUPPLY.PWRFAIL (s.reg a) s.pins.pwrfailN.toNat)
  else if a = BW_IRQ_STATUS then
    let w := fput BW_IRQ_STATUS.FAULT_PIN (s.reg a) (s.rd TOP_FAULT_PIN TOP_FAULT_PIN.EVENT)
    some (fput BW_IRQ_STATUS.FAULT w (s.faultState BW_FAULT_STATUS).toNat)
  else if inArray a (ICU_PENDING 0) 32 4 0 then
    let k := (a - ICU_PENDING 0) / 4
    some (BitVec.ofNat 32 (bitsNat ((List.range 32).map (fun i => srcPending s (32 * k + i)))))
  else if inArray a (ICU_ACTIVE 0) 32 4 0 then
    let k := (a - ICU_ACTIVE 0) / 4
    some (BitVec.ofNat 32 (bitsNat ((List.range 32).map (fun i => srcActive s (32 * k + i)))))
  else none

/-- The views of the BPM and HQ windows. -/
def viewHost (s : State) (a : Nat) : Option Word :=
  if a = BPM_BST_DATA then some (bstGet s (s.rd BPM_BST_SEL BPM_BST_SEL.ENTRY))
  else if inArray a (BPM_POOL_STATUS 0) 8 0x40 0 then
    let p := (a - BPM_POOL_STATUS 0) / 0x40
    let w := fput BPM_POOL_STATUS.FREE (s.reg a) (poolFree s p)
    some (fput BPM_POOL_STATUS.CACHED w (poolCache s p).length)
  else if inArray a (BPM_POOL_IRQ_STATUS 0) 8 0x40 0 then
    let p := (a - BPM_POOL_IRQ_STATUS 0) / 0x40
    some (fput BPM_POOL_IRQ_STATUS.FAULT (s.reg a) (s.poolFault p).toNat)
  else if a = HQ_TAG_STATUS then some (fput HQ_TAG_STATUS.INFLIGHT (s.reg a) s.jobList.length)
  else if inArray a (HQ_SQ_STATUS 0) 512 16 0 then
    let n := (a - HQ_SQ_STATUS 0) / 16
    let w := fput HQ_SQ_STATUS.INFLIGHT (s.reg a) (sqInflight s n)
    some (fput HQ_SQ_STATUS.FENCED w (fenced s n).toNat)
  else if inArray a (HQ_CQ_RESV 0) 256 32 0 then
    let k := (a - HQ_CQ_RESV 0) / 32
    some (BitVec.ofNat 32 (cqReserved s k + cqBound s k * 2 ^ 16))
  else none

/-- The views of the HSQ, DS, CMP, LMP, PLK and IGR windows. -/
def viewUnits (s : State) (a : Nat) : Option Word :=
  if a = HSQ_CS_SEL then some (fput HSQ_CS_SEL.REFUSED (s.reg a) (csRefused s).toNat)
  else if inArray a (HSQ_CS_DATA 0) 6 4 0 then some (BitVec.ofNat 32 (csData s ((a - HSQ_CS_DATA 0) / 4)))
  else if a = HSQ_CS_PAR then some (BitVec.ofNat 32 (csParity s))
  else if inArray a (DS_BUSY_CYCLES 0) 9 0x10000 0 then
    some (BitVec.ofNat 32 ((sliceOf s ((a - DS_BUSY_CYCLES 0) / 0x10000)).busy * 4 / 5 / 1024))
  else if a = DS_ROT_STATUS then
    some (fput DS_ROT_STATUS.ELAPSED_MIN (s.reg a) (min 65535 ((s.cyc - s.dec.rotated) / 72000000000)))
  else if a = DS_SCHED_STATUS then
    let open_ := (tabKeys s.dec.ctxs).length
    let ready := ((tabKeys s.dec.ctxs).filter (ctxWaits s)).length
    some (BitVec.ofNat 32 (open_ + ready * 2 ^ 16 + s.dec.gather.isSome.toNat * 2 ^ 26))
  else if a = CMP_STATUS then some (fput CMP_STATUS.HOLD_DRC (s.reg a) (s.reg DRC_FROZEN != 0).toNat)
  else if decide (LMP_TM_DATA 0 ≤ a) && decide (a ≤ LMP_TM_STATE) && a % 4 == 0 then some (tileRead s a)
  else if inArray a (LMP_TSTATE 0) 8192 4 0 then some (statesRead s ((a - LMP_TSTATE 0) / 4))
  else if decide (PLK_ROSTER_SERIAL 0 ≤ a) && decide (a ≤ PLK_ROSTER_LEAD) && a % 4 == 0 then some (rosterRead s a)
  else if inArray a (PLK_LANE_CREDIT 0 0) 64 0x400 0 then
    some (BitVec.ofNat 32 ((laneOf s ((a - PLK_LANE_CREDIT 0 0) / 0x400)).credit1 / 256))
  else if inArray a (PLK_LANE_CREDIT 0 1) 64 0x400 0 then
    some (BitVec.ofNat 32 ((laneOf s ((a - PLK_LANE_CREDIT 0 1) / 0x400)).credit2 / 256))
  else if inArray a (IGR_FLOW_CNT 0) 8 4 0 then
    some (BitVec.ofNat 32 (((flowSt s (flowOf s (s.rd IGR_FLOW_SEL IGR_FLOW_SEL.INDEX))).cnt.getD ((a - IGR_FLOW_CNT 0) / 4) 0)))
  else if a = IGR_FLOW_STATE then
    let x := flowSt s (flowOf s (s.rd IGR_FLOW_SEL IGR_FLOW_SEL.INDEX))
    some (BitVec.ofNat 32 (x.next % 2 ^ 16 + x.synced.toNat * 2 ^ 16 + x.held.length * 2 ^ 17))
  else if a = IGR_FLOW_CMD then some (fput IGR_FLOW_CMD.BUSY (s.reg a) s.igr.late.isSome.toNat)
  else if inArray a (IGR_PORT_STATUS 0) 2 0x1000 0 then
    let fec := s.flag (IGR_PORT_CFG ((a - IGR_PORT_STATUS 0) / 0x1000)) IGR_PORT_CFG.FEC
    some (if fec then s.reg a else fput IGR_PORT_STATUS.FEC_LOCK (s.reg a) 0)
  else if a = SEC_LC_STATE then some (BitVec.ofNat 32 s.fuse.lifeCycle)
  else if a = SEC_TAMPER then some (fput SEC_TAMPER.PIN (s.reg a) s.pins.tamperN.toNat)
  else none

/-- What a register shows: its own bits, or the part of the state it reports. -/
def regView (s : State) (a : Nat) : Word :=
  match faultView a with
  | some (fs, fb) => fput ⟨fb, 1⟩ (s.reg a) (s.faultState fs).toNat
  | none =>
    match viewTop s a with
    | some w => w
    | none =>
      match viewHost s a with
      | some w => w
      | none => (viewUnits s a).getD (s.reg a)

/-- What a plain host read of BAR0 offset `a` returns: zero where no table lists it, its unit is absent or its domain is
off (R3, R11, R490). LDG_STATUS.SUM_VALID and LDG_CFG.COMMIT_S are Breakwater's and stand while PD_LMP is off (R302). -/
def State.hostRead (s : State) (a : Nat) : Word :=
  match secWord a with
  | some k => secDataRead s k
  | none =>
    if s.regLive a then regView s a
    else if a = LDG_STATUS then fput LDG_STATUS.SUM_VALID 0 (s.rd a LDG_STATUS.SUM_VALID)
    else if a = LDG_CFG then fput LDG_CFG.COMMIT_S 0 (s.rd a LDG_CFG.COMMIT_S)
    else 0

/-- What the read does to the engine: a word of the secure scratchpad is checked as it is read (R455); a read of any other
register has no effect (R10). -/
def State.hostReadChecked (s : State) (a : Nat) : Word × State :=
  (s.hostRead a, match secWord a with
    | some k => secDataCheck s k
    | none => s)

/-- What a host read of a word of queue page `k` in BAR4 returns: the stored tail or head; CLAIM is a command of its own,
and every other word reads zero (R40 to R42). -/
def State.pageRead (s : State) (k off : Nat) : Word :=
  if !s.domOn 1 then 0
  else if off = 0 then BitVec.ofNat 32 (storedTail s k)
  else if off = 4 ∧ k < 256 then BitVec.ofNat 32 (storedHead s k)
  else 0

/-! ## Time -/

/-- One CLK_PIX cycle with no command waiting: a slice that has a picture in progress counts it, and a flow-table write that a
port's arbiter still has to grant is granted (R116, R362; assumption 3), as are releases that no queued request of the
compositor holds back any more (R20). BUSY_CYCLES counts CLK_CODEC cycles, four for every
five of CLK_PIX (R16). -/
def State.tick (s : State) : State :=
  let t := foldS (fun n u =>
    if u.flag (DS_STATUS n) DS_STATUS.BUSY then setSlice n { sliceOf u n with busy := (sliceOf u n).busy + 1 } u else u)
    (List.range 9) (lateWrite (grantWaits s))
  { t with cyc := t.cyc + 1 }.irqSync

end Sys2Proof.Machine
end

