-- ==== Sys2Proof/Machine/Tap.lean ====
section
/-!
DEFINITION. The test access port (R517 to R520, R536): the controller of IEEE 1149.1, its instructions, the IDCODE register,
the boundary-scan register and the pulses of IEEE 1149.6. No row of the opcode table clocks it, and it reaches no register and no memory of the engine
(assumption 105).
-/
namespace Sys2Proof.Machine

/-! ## The boundary-scan register -/

/-- The ball at a row and column is a signal ball that has a cell (R517 to R520): a P ball of a high-speed pair, or any other
signal ball but RREF_* and TEST_EN. Rows are numbered 1 to 69 from row A. -/
def ballCell (row col : Nat) : Bool :=
  let within := fun (lo hi : Nat) => decide (lo ≤ col) && decide (col ≤ hi)
  let pairs := fun (lo hi : Nat) => within lo hi && col % 2 == 0
  if row = 2 ∨ row = 4 ∨ row = 66 ∨ row = 68 then pairs 4 66
  else if row = 6 then pairs 20 34 || pairs 38 40
  else if row = 8 then pairs 20 34 || pairs 38 52
  else if row = 60 then pairs 18 48 || col == 52
  else if row = 62 then pairs 18 48
  else if row = 57 then pairs 2 16 || pairs 54 68
  else if row = 58 then within 18 40
  else if 9 ≤ row ∧ row ≤ 56 ∧ (within 1 16 || within 54 69) = true then
    let k := if col ≤ 16 then col - 1 else 69 - col
    if (row - 9) % 3 = 0 then [0, 1, 3, 4, 5, 6, 8, 9, 10, 11, 12].contains k else k != 4 && k != 7 && k != 10
  else false

/-- The balls of the cells in ball-map order. -/
def boundaryBalls : List (Nat × Nat) :=
  (List.range' 1 69).flatMap (fun r => ((List.range' 1 69).filter (ballCell r)).map (fun c => (r, c)))

/-- The cell is that of an AC-coupled high-speed pair: a panel lane, an ingress port, SDI or PCI Express; REFCLK and the DRAM
balls are not (R534 to R536; assumption 144). -/
def acCell (b : Nat × Nat) : Bool := [2, 4, 6, 8, 60, 62, 66, 68].contains b.1 && b != (60, 52)

/-! ## The controller -/

/-- The next state of the controller at a rising edge of TCK. -/
def tapNext (c : TapCtl) (tms : Bool) : TapCtl :=
  match c, tms with
  | .testLogicReset, true => .testLogicReset
  | .testLogicReset, false => .runTestIdle
  | .runTestIdle, true => .selectDr
  | .runTestIdle, false => .runTestIdle
  | .selectDr, true => .selectIr
  | .selectDr, false => .captureDr
  | .captureDr, true => .exit1Dr
  | .captureDr, false => .shiftDr
  | .shiftDr, true => .exit1Dr
  | .shiftDr, false => .shiftDr
  | .exit1Dr, true => .updateDr
  | .exit1Dr, false => .pauseDr
  | .pauseDr, true => .exit2Dr
  | .pauseDr, false => .pauseDr
  | .exit2Dr, true => .updateDr
  | .exit2Dr, false => .shiftDr
  | .updateDr, true => .selectDr
  | .updateDr, false => .runTestIdle
  | .selectIr, true => .testLogicReset
  | .selectIr, false => .captureIr
  | .captureIr, true => .exit1Ir
  | .captureIr, false => .shiftIr
  | .shiftIr, true => .exit1Ir
  | .shiftIr, false => .shiftIr
  | .exit1Ir, true => .updateIr
  | .exit1Ir, false => .pauseIr
  | .pauseIr, true => .exit2Ir
  | .pauseIr, false => .pauseIr
  | .exit2Ir, true => .updateIr
  | .exit2Ir, false => .shiftIr
  | .updateIr, true => .selectDr
  | .updateIr, false => .runTestIdle

/-- The instruction a code selects: all ones is BYPASS, and a code without an instruction selects it too; the other codes are
not given (assumption 105). -/
def tapDecode (ir : List Bool) : TapInstr :=
  if ir.all id then .bypass
  else match Config.tapCode ir with
    | 0 => .idcode
    | 1 => .samplePreload
    | 2 => .extest
    | 3 => .extestPulse
    | 4 => .extestTrain
    | _ => .bypass

/-- The IDCODE register. -/
def tapIdcode (s : State) : Nat :=
  s.rd TOP_ID TOP_ID.STEPPING / 16 % 16 * 2 ^ 28 + s.rd TOP_ID TOP_ID.PART * 2 ^ 12 + 0x2B9 * 2 + 1

/-- What the selected data register captures, bit nearest TDO first: BYPASS one 0, IDCODE its word, the others the cells'
levels. -/
def tapCapture (s : State) (levels : List Bool) : List Bool :=
  match s.tap.instr with
  | .bypass => [false]
  | .idcode => (List.range 32).map (fun i => (tapIdcode s).testBit i)
  | _ => (List.range boundaryBalls.length).map (fun i => levels.getD i false)

/-- The instruction selects the boundary-scan register. -/
def TapInstr.scans : TapInstr → Bool
  | .bypass => false
  | .idcode => false
  | _ => true

/-- One bit is shifted in from TDI. -/
def shiftIn (tdi : Bool) (bits : List Bool) : List Bool := bits.drop 1 ++ [tdi]

/-- Whether the AC cells drive the inverse of their data as the controller enters `c` (R536; PRESUMED from IEEE 1149.6,
assumption 144): EXTEST_PULSE inverts them while it stays in Run-Test/Idle, EXTEST_TRAIN at every other TCK there. -/
def tapAc (p : TapSt) (c : TapCtl) : Bool :=
  match c, p.instr with
  | .runTestIdle, .extestPulse => true
  | .runTestIdle, .extestTrain => !p.ac
  | _, _ => false

/-- A rising edge of TCK: the state in force acts, the controller moves, and an update takes effect. `levels` are the levels
at the cells' balls. While TRST_N is low the port stays in reset (R524). -/
def tapClock (tms tdi : Bool) (levels : List Bool) (s : State) : State :=
  if !s.pins.trstN then s else
  let p := s.tap
  let p1 := match p.ctl with
    | .captureDr => { p with dr := tapCapture s levels }
    | .shiftDr => { p with dr := shiftIn tdi p.dr }
    | .captureIr => { p with ir := true :: List.replicate (Config.tapIrLen + 1) false }
    | .shiftIr => { p with ir := shiftIn tdi p.ir }
    | _ => p
  let c := tapNext p.ctl tms
  let p2 := match c with
    | .testLogicReset => { p1 with instr := .idcode }
    | .updateIr => { p1 with instr := tapDecode p1.ir }
    | .updateDr => if p1.instr.scans then { p1 with cells := p1.dr } else p1
    | _ => p1
  { s with tap := { p2 with ctl := c, ac := tapAc p2 c } }

/-- TRST_N takes a level; low holds the port in reset (R524). -/
def tapTrst (high : Bool) (s : State) : State :=
  let t := { s with pins := { s.pins with trstN := high } }
  if high then t else { t with tap := { t.tap with ctl := .testLogicReset, instr := .idcode, ac := false } }

/-- What TDO drives: the bit nearest it while a register shifts, high impedance otherwise and while PORST_N is low (R524). -/
def tapTdo (s : State) : Option Bool :=
  if s.pwr.mode = .porst then none
  else
    match s.tap.ctl with
    | .shiftDr => some (s.tap.dr.headD false)
    | .shiftIr => some (s.tap.ir.headD false)
    | _ => none

/-- The levels the cells put on the balls they drive, in ball-map order, while an EXTEST instruction is in force. A cell that
no scan has loaded holds 0 (DESIGN CHOICE, assumption 105). -/
def tapDrive (s : State) : Option (List Bool) :=
  let levels := (List.range boundaryBalls.length).zipWith (fun i b => (s.tap.cells.getD i false) != (s.tap.ac && acCell b)) boundaryBalls
  match s.tap.instr with
  | .extest | .extestPulse | .extestTrain => some levels
  | _ => none

end Sys2Proof.Machine
end

