-- ==== Sys2Proof/Machine/Dispatch.lean ====
section
/-!
DEFINITION. The one dispatch of the commands to their meanings: one arm per row of the opcode table.
-/
namespace Sys2Proof.Machine

/-- A command's effect on everything but the queue. -/
def exec (i : Instr) (s : State) : Host.Outcome State Fault Refusal :=
  match i with
  | .registerWrite addr data => Sys2Proof.Machine.execRegisterWrite addr data s
  | .badAccess bar offset => Sys2Proof.Machine.execBadAccess bar offset s
  | .sqTail k value => Sys2Proof.Machine.execSqTail k value s
  | .cqHead k value => Sys2Proof.Machine.execCqHead k value s
  | .scratchpadPlainWrite addr data be => Sys2Proof.Machine.execScratchpadPlainWrite addr data be s
  | .bitSetAliasWrite addr data be => Sys2Proof.Machine.execBitSetAliasWrite addr data be s
  | .bitClearAliasWrite addr data be => Sys2Proof.Machine.execBitClearAliasWrite addr data be s
  | .scratchpadBankGrant reqs => Sys2Proof.Machine.execScratchpadBankGrant reqs s
  | .spdCollClr data => Sys2Proof.Machine.execSpdCollClr data s
  | .hqSqCfgWrite n reg data => Sys2Proof.Machine.execHqSqCfgWrite n reg data s
  | .hqCqCfgWrite k reg data => Sys2Proof.Machine.execHqCqCfgWrite k reg data s
  | .peakClr data => Sys2Proof.Machine.execPeakClr data s
  | .submissionFetch n => Sys2Proof.Machine.execSubmissionFetch n s
  | .submissionEntryArrival n entries => Sys2Proof.Machine.execSubmissionEntryArrival n entries s
  | .fetchError n => Sys2Proof.Machine.execFetchError n s
  | .jobDispatch slot => Sys2Proof.Machine.execJobDispatch slot s
  | .completionCommit slot => Sys2Proof.Machine.execCompletionCommit slot s
  | .completionWrite slot => Sys2Proof.Machine.execCompletionWrite slot s
  | .coalTime k => Sys2Proof.Machine.execCoalTime k s
  | .uncorrectableTagEntry slot => Sys2Proof.Machine.execUncorrectableTagEntry slot s
  | .streamOpen slot => Sys2Proof.Machine.execStreamOpen slot s
  | .streamCloseDrain slot => Sys2Proof.Machine.execStreamCloseDrain slot s
  | .streamCloseDiscard slot => Sys2Proof.Machine.execStreamCloseDiscard slot s
  | .decodeUnit slot => Sys2Proof.Machine.execDecodeUnit slot s
  | .encodePicture slot => Sys2Proof.Machine.execEncodePicture slot s
  | .layerUpdate slot => Sys2Proof.Machine.execLayerUpdate slot s
  | .tilemapUpdate slot => Sys2Proof.Machine.execTilemapUpdate slot s
  | .ledgerOpStart slot => Sys2Proof.Machine.execLedgerOpStart slot s
  | .ledgerOpStop slot => Sys2Proof.Machine.execLedgerOpStop slot s
  | .ledgerOpSave slot => Sys2Proof.Machine.execLedgerOpSave slot s
  | .ledgerOpRebase slot => Sys2Proof.Machine.execLedgerOpRebase slot s
  | .ledgerOpReplace slot => Sys2Proof.Machine.execLedgerOpReplace slot s
  | .ledgerOpLoadClasses slot => Sys2Proof.Machine.execLedgerOpLoadClasses slot s
  | .ledgerOpFormat slot => Sys2Proof.Machine.execLedgerOpFormat slot s
  | .ledgerOpTest slot pass => Sys2Proof.Machine.execLedgerOpTest slot pass s
  | .dmaList slot => Sys2Proof.Machine.execDmaList slot s
  | .bufferOpAlloc slot => Sys2Proof.Machine.execBufferOpAlloc slot s
  | .bufferOpRetain slot => Sys2Proof.Machine.execBufferOpRetain slot s
  | .bufferOpRelease slot => Sys2Proof.Machine.execBufferOpRelease slot s
  | .bufferOpFree slot => Sys2Proof.Machine.execBufferOpFree slot s
  | .linkSend slot => Sys2Proof.Machine.execLinkSend slot s
  | .microcodeLoad slot => Sys2Proof.Machine.execMicrocodeLoad slot s
  | .fence slot => Sys2Proof.Machine.execFence slot s
  | .abortTag slot => Sys2Proof.Machine.execAbortTag slot s
  | .abortRing slot => Sys2Proof.Machine.execAbortRing slot s
  | .abortOpcodeContext slot => Sys2Proof.Machine.execAbortOpcodeContext slot s
  | .runningJobStop slot => Sys2Proof.Machine.execRunningJobStop slot s
  | .contextGrant slice => Sys2Proof.Machine.execContextGrant slice s
  | .gangGather slice => Sys2Proof.Machine.execGangGather slice s
  | .pictureStart slice => Sys2Proof.Machine.execPictureStart slice s
  | .pictureDescriptor slice pic => Sys2Proof.Machine.execPictureDescriptor slice pic s
  | .segmentDescriptor slice seg => Sys2Proof.Machine.execSegmentDescriptor slice seg s
  | .rowComplete slice bytes => Sys2Proof.Machine.execRowComplete slice bytes s
  | .pictureComplete slice bytes => Sys2Proof.Machine.execPictureComplete slice bytes s
  | .unitWait slice bytes => Sys2Proof.Machine.execUnitWait slice bytes s
  | .wdog slice => Sys2Proof.Machine.execWdog slice s
  | .rerunStart slice => Sys2Proof.Machine.execRerunStart slice s
  | .sliceResetDone slice => Sys2Proof.Machine.execSliceResetDone slice s
  | .now data => Sys2Proof.Machine.execNow data s
  | .drain slice data => Sys2Proof.Machine.execDrain slice data s
  | .drainedPictureDone slice => Sys2Proof.Machine.execDrainedPictureDone slice s
  | .bistStart slice data => Sys2Proof.Machine.execBistStart slice data s
  | .bistDone slice pass failGroup => Sys2Proof.Machine.execBistDone slice pass failGroup s
  | .parseUnitStart seq offset length last => Sys2Proof.Machine.execParseUnitStart seq offset length last s
  | .headerReq enc record => Sys2Proof.Machine.execHeaderReq enc record s
  | .aluNop seq => Sys2Proof.Machine.execAluNop seq s
  | .aluAdd seq => Sys2Proof.Machine.execAluAdd seq s
  | .aluSub seq => Sys2Proof.Machine.execAluSub seq s
  | .aluAnd seq => Sys2Proof.Machine.execAluAnd seq s
  | .aluOr seq => Sys2Proof.Machine.execAluOr seq s
  | .aluXor seq => Sys2Proof.Machine.execAluXor seq s
  | .aluShl seq => Sys2Proof.Machine.execAluShl seq s
  | .aluShr seq => Sys2Proof.Machine.execAluShr seq s
  | .aluAsr seq => Sys2Proof.Machine.execAluAsr seq s
  | .aluExt seq => Sys2Proof.Machine.execAluExt seq s
  | .aluMin seq => Sys2Proof.Machine.execAluMin seq s
  | .aluMax seq => Sys2Proof.Machine.execAluMax seq s
  | .aluClz seq => Sys2Proof.Machine.execAluClz seq s
  | .aluMul seq => Sys2Proof.Machine.execAluMul seq s
  | .aluCmp seq => Sys2Proof.Machine.execAluCmp seq s
  | .aluMov seq => Sys2Proof.Machine.execAluMov seq s
  | .aluTrap seq => Sys2Proof.Machine.execAluTrap seq s
  | .spNop seq => Sys2Proof.Machine.execSpNop seq s
  | .spU seq => Sys2Proof.Machine.execSpU seq s
  | .spPeek seq => Sys2Proof.Machine.execSpPeek seq s
  | .spSkip seq => Sys2Proof.Machine.execSpSkip seq s
  | .spUe seq => Sys2Proof.Machine.execSpUe seq s
  | .spSe seq => Sys2Proof.Machine.execSpSe seq s
  | .spSu seq => Sys2Proof.Machine.execSpSu seq s
  | .spNs seq => Sys2Proof.Machine.execSpNs seq s
  | .spLeb seq => Sys2Proof.Machine.execSpLeb seq s
  | .spAlign seq => Sys2Proof.Machine.execSpAlign seq s
  | .spPos seq => Sys2Proof.Machine.execSpPos seq s
  | .spWu seq => Sys2Proof.Machine.execSpWu seq s
  | .spWue seq => Sys2Proof.Machine.execSpWue seq s
  | .spWse seq => Sys2Proof.Machine.execSpWse seq s
  | .spWleb seq => Sys2Proof.Machine.execSpWleb seq s
  | .spWtrail seq => Sys2Proof.Machine.execSpWtrail seq s
  | .spTrap seq => Sys2Proof.Machine.execSpTrap seq s
  | .seqTrap seq => Sys2Proof.Machine.execSeqTrap seq s
  | .seqNext seq => Sys2Proof.Machine.execSeqNext seq s
  | .seqJump seq => Sys2Proof.Machine.execSeqJump seq s
  | .seqCall seq => Sys2Proof.Machine.execSeqCall seq s
  | .seqRet seq => Sys2Proof.Machine.execSeqRet seq s
  | .seqSwitch seq => Sys2Proof.Machine.execSeqSwitch seq s
  | .seqEnd seq => Sys2Proof.Machine.execSeqEnd seq s
  | .seqAbandon seq => Sys2Proof.Machine.execSeqAbandon seq s
  | .outNop seq => Sys2Proof.Machine.execOutNop seq s
  | .outDw seq => Sys2Proof.Machine.execOutDw seq s
  | .outDwi seq => Sys2Proof.Machine.execOutDwi seq s
  | .outSend seq => Sys2Proof.Machine.execOutSend seq s
  | .outCwr seq => Sys2Proof.Machine.execOutCwr seq s
  | .outCrd seq => Sys2Proof.Machine.execOutCrd seq s
  | .outTrap seq => Sys2Proof.Machine.execOutTrap seq s
  | .descriptorRelease seq => Sys2Proof.Machine.execDescriptorRelease seq s
  | .headerDone seq => Sys2Proof.Machine.execHeaderDone seq s
  | .machineCheck seq => Sys2Proof.Machine.execMachineCheck seq s
  | .mcReloadDone seq readBackOk => Sys2Proof.Machine.execMcReloadDone seq readBackOk s
  | .microcodeLoadDone slot parityOk => Sys2Proof.Machine.execMicrocodeLoadDone slot parityOk s
  | .bankSwitch seq => Sys2Proof.Machine.execBankSwitch seq s
  | .hsqCsSel data => Sys2Proof.Machine.execHsqCsSel data s
  | .encoderRow enc row => Sys2Proof.Machine.execEncoderRow enc row s
  | .encodeDone enc bytes recon => Sys2Proof.Machine.execEncodeDone enc bytes recon s
  | .rtpPacket enc length last => Sys2Proof.Machine.execRtpPacket enc length last s
  | .sourceLost enc => Sys2Proof.Machine.execSourceLost enc s
  | .sdiEn n data => Sys2Proof.Machine.execSdiEn n data s
  | .sdiFrameStart n => Sys2Proof.Machine.execSdiFrameStart n s
  | .sdiRows n => Sys2Proof.Machine.execSdiRows n s
  | .sdiFrameEnd n => Sys2Proof.Machine.execSdiFrameEnd n s
  | .sdiLine n crcOk overflow bytes chroma => Sys2Proof.Machine.execSdiLine n crcOk overflow bytes chroma s
  | .carrier n present => Sys2Proof.Machine.execCarrier n present s
  | .lock n raster => Sys2Proof.Machine.execLock n raster s
  | .previewFrameStart m => Sys2Proof.Machine.execPreviewFrameStart m s
  | .previewUnderrun line => Sys2Proof.Machine.execPreviewUnderrun line s
  | .holdQueueGrant pool => Sys2Proof.Machine.execHoldQueueGrant pool s
  | .hold data => Sys2Proof.Machine.execHold data s
  | .cmpWbCfgWrite data => Sys2Proof.Machine.execCmpWbCfgWrite data s
  | .guardCheck region => Sys2Proof.Machine.execGuardCheck region s
  | .cmpGrForced half data => Sys2Proof.Machine.execCmpGrForced half data s
  | .cmpGrnExpect region data => Sys2Proof.Machine.execCmpGrnExpect region data s
  | .xferLoad set data => Sys2Proof.Machine.execXferLoad set data s
  | .xferLoadDone set => Sys2Proof.Machine.execXferLoadDone set s
  | .touch mac pos contacts => Sys2Proof.Machine.execTouch mac pos contacts s
  | .touchSpriteLoad data => Sys2Proof.Machine.execTouchSpriteLoad data s
  | .serialWrite tile => Sys2Proof.Machine.execSerialWrite tile s
  | .lmpEotfLoad data => Sys2Proof.Machine.execLmpEotfLoad data s
  | .lmpMtxGo data => Sys2Proof.Machine.execLmpMtxGo data s
  | .emmcCommandDone ok => Sys2Proof.Machine.execEmmcCommandDone ok s
  | .calibUp mac arg last bytes => Sys2Proof.Machine.execCalibUp mac arg last bytes s
  | .rateAlternation lane => Sys2Proof.Machine.execRateAlternation lane s
  | .blockLock lane => Sys2Proof.Machine.execBlockLock lane s
  | .blockLockLoss lane => Sys2Proof.Machine.execBlockLockLoss lane s
  | .settlingEnd lane => Sys2Proof.Machine.execSettlingEnd lane s
  | .discover lane data => Sys2Proof.Machine.execDiscover lane data s
  | .discoveryWindow lane => Sys2Proof.Machine.execDiscoveryWindow lane s
  | .discoverReply mac reply => Sys2Proof.Machine.execDiscoverReply mac reply s
  | .status mac st => Sys2Proof.Machine.execStatus mac st s
  | .crcReport mac pos frame entries => Sys2Proof.Machine.execCrcReport mac pos frame entries s
  | .alert mac pos code detail => Sys2Proof.Machine.execAlert mac pos code detail s
  | .loopFrame mac srcLane => Sys2Proof.Machine.execLoopFrame mac srcLane s
  | .towpathDrop lane => Sys2Proof.Machine.execTowpathDrop lane s
  | .statusCheck frame => Sys2Proof.Machine.execStatusCheck frame s
  | .splitWrite lane data => Sys2Proof.Machine.execSplitWrite lane data s
  | .pixel tile => Sys2Proof.Machine.execPixel tile s
  | .laneEgressSelect lane => Sys2Proof.Machine.execLaneEgressSelect lane s
  | .creditRefill lane => Sys2Proof.Machine.execCreditRefill lane s
  | .linkSendDone lane => Sys2Proof.Machine.execLinkSendDone lane s
  | .laneBistStart lane data => Sys2Proof.Machine.execLaneBistStart lane data s
  | .laneBistDone lane pass => Sys2Proof.Machine.execLaneBistDone lane pass s
  | .eyeScan lane data => Sys2Proof.Machine.execEyeScan lane data s
  | .eyeScanDone lane width height => Sys2Proof.Machine.execEyeScanDone lane width height s
  | .pop lane data => Sys2Proof.Machine.execPop lane data s
  | .rate data => Sys2Proof.Machine.execRate data s
  | .ingressFrame port frame => Sys2Proof.Machine.execIngressFrame port frame s
  | .reorderTimeout flow => Sys2Proof.Machine.execReorderTimeout flow s
  | .igrFlowWrite wr => Sys2Proof.Machine.execIgrFlowWrite wr s
  | .igrFlowRead data => Sys2Proof.Machine.execIgrFlowRead data s
  | .igrLink port up fecLock => Sys2Proof.Machine.execIgrLink port up fecLock s
  | .alloc requester byPool arg spillUp share => Sys2Proof.Machine.execAlloc requester byPool arg spillUp share s
  | .retain requester handle => Sys2Proof.Machine.execRetain requester handle s
  | .release requester handle => Sys2Proof.Machine.execRelease requester handle s
  | .free requester handle => Sys2Proof.Machine.execFree requester handle s
  | .poolEn pool data => Sys2Proof.Machine.execPoolEn pool data s
  | .poolReady pool => Sys2Proof.Machine.execPoolReady pool s
  | .cacheRefill pool => Sys2Proof.Machine.execCacheRefill pool s
  | .cacheWriteBack pool => Sys2Proof.Machine.execCacheWriteBack pool s
  | .minFreeClr pool data => Sys2Proof.Machine.execMinFreeClr pool data s
  | .misuseClr data => Sys2Proof.Machine.execMisuseClr data s
  | .dmaGo channel data => Sys2Proof.Machine.execDmaGo channel data s
  | .dmaEnClear channel data => Sys2Proof.Machine.execDmaEnClear channel data s
  | .dmaEntry channel dst hostEntry => Sys2Proof.Machine.execDmaEntry channel dst hostEntry s
  | .dmaSegment channel hostData => Sys2Proof.Machine.execDmaSegment channel hostData s
  | .dmaListEnd channel => Sys2Proof.Machine.execDmaListEnd channel s
  | .drcInit data => Sys2Proof.Machine.execDrcInit data s
  | .drcWinEn window data => Sys2Proof.Machine.execDrcWinEn window data s
  | .windowZeroDone window => Sys2Proof.Machine.execWindowZeroDone window s
  | .drcMapWrite index data => Sys2Proof.Machine.execDrcMapWrite index data s
  | .channelSchedule channel arrivals ready => Sys2Proof.Machine.execChannelSchedule channel arrivals ready s
  | .urgencyRise channel => Sys2Proof.Machine.execUrgencyRise channel s
  | .selfRefresh channel => Sys2Proof.Machine.execSelfRefresh channel s
  | .selfRefreshExit channel => Sys2Proof.Machine.execSelfRefreshExit channel s
  | .retraining channel durationNs inRange => Sys2Proof.Machine.execRetraining channel durationNs inRange s
  | .freeze channel cmdPath engAddr syndrome => Sys2Proof.Machine.execFreeze channel cmdPath engAddr syndrome s
  | .freezeRelease channel data => Sys2Proof.Machine.execFreezeRelease channel data s
  | .eccWrite channel data => Sys2Proof.Machine.execEccWrite channel data s
  | .secLcArm data => Sys2Proof.Machine.execSecLcArm data s
  | .secLcGo data => Sys2Proof.Machine.execSecLcGo data s
  | .message source => Sys2Proof.Machine.execMessage source s
  | .icuDoorbell data => Sys2Proof.Machine.execIcuDoorbell data s
  | .notification context => Sys2Proof.Machine.execNotification context s
  | .claim context => Sys2Proof.Machine.execClaim context s
  | .complete context data => Sys2Proof.Machine.execComplete context data s
  | .icuConfigWrite addr data => Sys2Proof.Machine.execIcuConfigWrite addr data s
  | .deliverEn data => Sys2Proof.Machine.execDeliverEn data s
  | .mirrorWrite collided => Sys2Proof.Machine.execMirrorWrite collided s
  | .wakeLatch source => Sys2Proof.Machine.execWakeLatch source s
  | .faultInject addr data => Sys2Proof.Machine.execFaultInject addr data s
  | .assert data => Sys2Proof.Machine.execAssert data s
  | .faultPinRelease data => Sys2Proof.Machine.execFaultPinRelease data s
  | .pwrCmdOn data => Sys2Proof.Machine.execPwrCmdOn data s
  | .pwrCmdOff data => Sys2Proof.Machine.execPwrCmdOff data s
  | .powerFailCommitDone durationUs => Sys2Proof.Machine.execPowerFailCommitDone durationUs s
  | .sleepGo data => Sys2Proof.Machine.execSleepGo data s
  | .perstN level => Sys2Proof.Machine.execPerstN level s
  | .topReset data => Sys2Proof.Machine.execTopReset data s
  | .topSetupLock data => Sys2Proof.Machine.execTopSetupLock data s
  | .temperatureRead temps => Sys2Proof.Machine.execTemperatureRead temps s
  | .pwrTempPeakClr sensor data => Sys2Proof.Machine.execPwrTempPeakClr sensor data s
  | .memtestGo data => Sys2Proof.Machine.execMemtestGo data s
  | .memtestDone failAt => Sys2Proof.Machine.execMemtestDone failAt s
  | .laneEn lane data => Sys2Proof.Machine.execLaneEn lane data s
  | .msixUnmask vector => Sys2Proof.Machine.execMsixUnmask vector s
  | .functionLevelReset => Sys2Proof.Machine.execFunctionLevelReset s
  | .rotation => Sys2Proof.Machine.execRotation s
  | .rotationPeriod => Sys2Proof.Machine.execRotationPeriod s
  | .lockGate => Sys2Proof.Machine.execLockGate s
  | .canvasLineStart => Sys2Proof.Machine.execCanvasLineStart s
  | .lineComposed => Sys2Proof.Machine.execLineComposed s
  | .wbRows => Sys2Proof.Machine.execWbRows s
  | .wbDrop => Sys2Proof.Machine.execWbDrop s
  | .exhausted => Sys2Proof.Machine.execExhausted s
  | .headroomManager => Sys2Proof.Machine.execHeadroomManager s
  | .summaryCommit => Sys2Proof.Machine.execSummaryCommit s
  | .epoch => Sys2Proof.Machine.execEpoch s
  | .tileStep => Sys2Proof.Machine.execTileStep s
  | .generationDone => Sys2Proof.Machine.execGenerationDone s
  | .journalWrite => Sys2Proof.Machine.execJournalWrite s
  | .emmcCommand => Sys2Proof.Machine.execEmmcCommand s
  | .calibTimeout => Sys2Proof.Machine.execCalibTimeout s
  | .calibRecordComplete => Sys2Proof.Machine.execCalibRecordComplete s
  | .genlockEdge => Sys2Proof.Machine.execGenlockEdge s
  | .genlockLoss => Sys2Proof.Machine.execGenlockLoss s
  | .drcInitDone => Sys2Proof.Machine.execDrcInitDone s
  | .scrub => Sys2Proof.Machine.execScrub s
  | .tamper => Sys2Proof.Machine.execTamper s
  | .lcDone => Sys2Proof.Machine.execLcDone s
  | .pinEvent => Sys2Proof.Machine.execPinEvent s
  | .pulseEnd => Sys2Proof.Machine.execPulseEnd s
  | .domainSwitchDone => Sys2Proof.Machine.execDomainSwitchDone s
  | .powerFail => Sys2Proof.Machine.execPowerFail s
  | .shedRestart => Sys2Proof.Machine.execShedRestart s
  | .supplySwitchOver => Sys2Proof.Machine.execSupplySwitchOver s
  | .supplySwitchBack => Sys2Proof.Machine.execSupplySwitchBack s
  | .vaonMainLow => Sys2Proof.Machine.execVaonMainLow s
  | .sleepCommit => Sys2Proof.Machine.execSleepCommit s
  | .wake => Sys2Proof.Machine.execWake s
  | .bwTimer => Sys2Proof.Machine.execBwTimer s
  | .porstN => Sys2Proof.Machine.execPorstN s
  | .porstNRelease => Sys2Proof.Machine.execPorstNRelease s
  | .pllLockLoss => Sys2Proof.Machine.execPllLockLoss s
  | .refclkStop => Sys2Proof.Machine.execRefclkStop s
  | .svcKey => Sys2Proof.Machine.execSvcKey s
  | .identifyTimeout => Sys2Proof.Machine.execIdentifyTimeout s
  | .refclkReturn => Sys2Proof.Machine.execRefclkReturn s
  | .tamperNRise => Sys2Proof.Machine.execTamperNRise s
  | .svcKeyRelease => Sys2Proof.Machine.execSvcKeyRelease s
  | .pwrfailNRise => Sys2Proof.Machine.execPwrfailNRise s
  | .lmpEotfLoadDone => Sys2Proof.Machine.execLmpEotfLoadDone s
  | .lmpMtxLoadDone => Sys2Proof.Machine.execLmpMtxLoadDone s

end Sys2Proof.Machine
end

