-- ==== Sys2Proof/Safety.lean ====
section
/-!
DEFINITION. What counts as a safe state and a safe step, in the terms the statements use.
-/
namespace Sys2Proof.Machine

/-- Every message due has been sent: what the blocks have announced to the interrupt controller is exactly the set of
sources whose condition holds (R459). -/
def State.Inv (s : State) : Prop := s.icu.told = s.highSources

/-- The tables the host can address are in canonical form: registers, tag table, DRAM, scratchpad and host memory. -/
def State.tablesWf (s : State) : Bool :=
  tabWf (regReset s.fuse.variant) s.regs && tabWf (fun _ => Job.empty) s.hq.jobs
    && tabWf (fun _ => 0) s.drc.dram && tabWf (fun _ => 0) s.spd.mem && tabWf (fun _ => 0) s.sec.mem
    && tabWf (fun _ => 0) s.host.mem

/-- A step that ends in a next state. -/
def Completes (o : Out) : Prop := ∃ t, o = .next t

end Sys2Proof.Machine
end

