-- ==== Sys2Proof/Certificates/Slice0/Obligations.lean ====
section
/-!
DEFINITION. The statements for the provers. Most say, for one family of commands, what each command leaves: with no
access of the command held up (`drc.trip = none`), `exec` answers a next state, and that state is the one the rules
give, written with the model's named operations; whatever such a state does not name is as it was before, so each
equation is the command's frame as well. `irqSync` sends the interrupt messages whose conditions changed (R459).
-/
open Sys2Proof Sys2Proof.Machine

/-! ## The machine as a whole -/

/-- **A step runs the command at the front of the queue.** For every command and state, a step with the command in front
of the queue is the command's meaning on the state with the rest of the queue; with an empty queue a step is one cycle
of CLK_PIX (the model's choice, assumption 3). -/
def Obligations.StepRunsFrontCommand : Prop :=
  (∀ (c : Instr) (s : State), step { s with pending := c :: s.pending } = exec c s) ∧
  (∀ s : State, s.pending = [] → step s = .next s.tick)

/-- **Reset meets the invariants.** After reset no command waits and no access is held up, the messages announced are
those of the conditions that hold, and every table the host can address is in canonical form. -/
def Obligations.ResetMeetsInvariants : Prop :=
  State.reset.Inv ∧ State.reset.drc.trip = none ∧ State.reset.tablesWf = true ∧ State.reset.pending = []

/-- **Every step answers, and leaves the interrupt controller told of exactly the conditions that hold.** From any state,
whatever command is in front, a step answers a next state, in which the sources the blocks have announced are exactly
those whose condition holds; so from any state that meets the invariant a step leads to one that meets it. -/
def Obligations.EveryStepKeepsSourcesAnnounced : Prop :=
  ∀ s : State, ∃ t, step s = .next t ∧ t.Inv

/-- **Every command ends with nothing held up and the due messages sent.** From a state with no access held up every
command ends in such a state. A command one of whose accesses met a channel that does not serve it ends in the state it
began in but for messages, and a channel in self-refresh exits for it; one that met an uncorrectable word, or a queue word
of the channel that is lost, ends in the state it began in with that channel frozen and the access held there (the model's
choice, assumption 23). The messages due at a command's end change the interrupt controller alone: retract messages for the
sources whose condition ended, then set messages for those whose condition began (the model's order, assumption 14), while
PD_CTL is on and the engine is not asleep. -/
def Obligations.CommandsEndSettled : Prop :=
  (∀ (c : Instr) (s t : State), s.drc.trip = none → exec c s = .next t → t.drc.trip = none) ∧
  (∀ s t : State,
     (t.drc.trip = some .wait → done s t = .next s.irqSync ∧ s.irqSync = { s with icu := s.irqSync.icu }) ∧
     (∀ c, t.drc.trip = some (.exit c) → done s t = .next (leaveSelfRefresh c s).irqSync) ∧
     (∀ c p r, t.drc.trip = some (.freeze c 1 p r) →
       done s t = .next (freezeOn c 1 p s.fresh.1.toNat r s.fresh.2).irqSync) ∧
     (∀ c p r, t.drc.trip = some (.freeze c 2 p r) →
       let u := (s.sramCheck (DRC_CH_FAULT_STATUS c) 1 [0, 1]).2
       done s t = .next (freezeOn c 2 p u.fresh.1.toNat r u.fresh.2).irqSync)) ∧
  (∀ s : State, s.pwr.mode ≠ .asleep → s.domOn 1 = true →
     s.irqSync = { s with icu := { s.icu with
       told := s.highSources
       msgs := s.icu.msgs
         ++ (s.icu.told.filter (fun x => !s.highSources.contains x)).map (fun x => (x, true))
         ++ (s.highSources.filter (fun x => !s.icu.told.contains x)).map (fun x => (x, false)) } })

/-! ## Registers and the host's windows -/

/-- **A host write acts on each field by its access code.** In a register that a table lists, whose unit is present and
on, a write leaves in each RW field the written value, in each RW-L field the written value unless TOP_SETUP_LOCK is
set, in each bit of a W1C field the old bit cleared where a 1 is written, in each bit of a W1S field the old bit set
where a 1 is written, and RO and WO fields as they were; no other register changes. -/
def Obligations.HostWriteFollowsAccessCodes : Prop :=
  ∀ (s : State) (a : Nat) (data : Word) (r : RegDesc) (i j : Nat) (f : FldDesc),
    regFind a = some (r, i, j) → s.regLive a = true → f ∈ r.flds →
    let fl : Fld := ⟨f.lo, f.w⟩
    let new := (s.hostWrite a data).rd a fl
    (f.acc = .rw → new = fget fl data) ∧
    (f.acc = .rwl → new = if s.locked then s.rd a fl else fget fl data) ∧
    (f.acc = .w1c → ∀ b, new.testBit b = ((s.rd a fl).testBit b && !(fget fl data).testBit b)) ∧
    (f.acc = .w1s → ∀ b, new.testBit b = ((s.rd a fl).testBit b || (fget fl data).testBit b)) ∧
    (f.acc = .ro ∨ f.acc = .wo → new = s.rd a fl) ∧
    (∀ b, b ≠ a → (s.hostWrite a data).reg b = s.reg b)

/-- **A plain register write completes by its access codes; dead registers read zero and ignore writes.** At an offset
that no table lists, or whose unit is absent or whose domain is off, a host write by access codes changes nothing and
a host read returns zero, SEC_DATA and the two Breakwater fields of the ledger window aside, which have read rules of
their own. REGISTER_WRITE of an offset outside the registers with conditions of their own completes with the write by
access codes, with the status bits whose cause persists set again (R12), and with the word checked where it arrives at its
block (R473, R541; which words are fabric words is the model's reading, assumption 25), which for a block with no injected
access changes nothing. -/
def Obligations.PlainWritesAndDeadRegisters : Prop :=
  (∀ (s : State) (a : Nat) (data : Word), s.regLive a = false → secWord a = none →
     s.hostWrite a data = s ∧ (a ≠ LDG_STATUS → a ≠ LDG_CFG → s.hostRead a = 0)) ∧
  (∀ (s : State) (a : Nat) (data : Word), s.drc.trip = none → s.domOn 1 = true →
     ownRow a = false → ownWrite s a data = false →
     secWord a = none → poolSetup a = none → windowSetup a = none →
     a ∉ [LMP_LEVEL, LMP_HRM_CTL, TOP_MEMTEST_CTL, PWR_SLEEP_KEEP_LO, LDG_CFG] →
     inArray a (HQ_MSIX_TABLE 0) 256 4 0 = false → isFaultInject (a + 4) = false →
     exec (.registerWrite a data) s = .next ((persists a (s.hostWrite a data)).fabricWord a).irqSync) ∧
  (∀ (s : State) (a : Nat), (∀ fs, blockFault a = some fs → bitsOf 7 0 (s.raw (fs + 12)) = 0) → s.fabricWord a = s)

/-- **Doorbells store the index in range and report one out of range; a refused access is recorded.** SQ_TAIL and CQ_HEAD
store the low 16 bits where they are below the ring size, in their ring's doorbell and in no other, and a read of the
page then returns them; a value out of range is ignored but for its HQ_ERR_STATUS bit and HQ_ERR_INFO, which names the
ring and the value. A bad access of BAR0 or BAR4 sets BAD_ACCESS and records BAR and offset. Nothing else changes. -/
def Obligations.DoorbellsAndBadAccess : Prop :=
  ∀ s : State, s.drc.trip = none → s.domOn 1 = true →
    (∀ (k : Nat) (v : Word), k < 512 → bitsOf 15 0 v < sqSize s k → ∃ t, exec (.sqTail k v) s = .next t ∧
      t.pageRead k 0 = BitVec.ofNat 32 (bitsOf 15 0 v) ∧
      (∀ n, storedTail t n = if n = k then bitsOf 15 0 v else storedTail s n) ∧
      { t with hq := { t.hq with sqTail := s.hq.sqTail }, icu := s.icu } = s) ∧
    (∀ (k : Nat) (v : Word), k < 512 → sqSize s k ≤ bitsOf 15 0 v → exec (.sqTail k v) s =
      .next ((s.setBit HQ_ERR_STATUS 0).setReg HQ_ERR_INFO (BitVec.ofNat 32 (k + bitsOf 15 0 v * 2 ^ 16))).irqSync) ∧
    (∀ (k : Nat) (v : Word), k < 256 → bitsOf 15 0 v < cqSize s k → ∃ t, exec (.cqHead k v) s = .next t ∧
      t.pageRead k 4 = BitVec.ofNat 32 (bitsOf 15 0 v) ∧
      (∀ n, storedHead t n = if n = k then bitsOf 15 0 v else storedHead s n) ∧
      { t with hq := { t.hq with cqHead := s.hq.cqHead }, icu := s.icu } = s) ∧
    (∀ (k : Nat) (v : Word), k < 256 → cqSize s k ≤ bitsOf 15 0 v → exec (.cqHead k v) s =
      .next ((s.setBit HQ_ERR_STATUS 1).setReg HQ_ERR_INFO
        (BitVec.ofNat 32 (k + 2 ^ 9 + bitsOf 15 0 v * 2 ^ 16))).irqSync) ∧
    (∀ bar offset : Nat, bar = 0 ∨ bar = 4 →
      exec (.badAccess bar offset) s = .next ((s.setBit HQ_ERR_STATUS 4).setReg HQ_BAD_ACCESS
        (BitVec.ofNat 32 (offset % 2 ^ 26 + (if bar = 4 then 2 else 0) * 2 ^ 26))).irqSync)

/-- **The three scratchpad views write, set and clear bits of one word.** In a word with no recorded error and
none injected, the plain view replaces the enabled bytes, the bit-set view ORs and the bit-clear view removes the written
bits of the enabled bytes, bit by bit; every other word, and everything but the scratchpad, is as before. -/
def Obligations.ScratchpadViews : Prop :=
  ∀ (s : State) (addr : Nat) (data : Word) (be : BitVec 4), s.drc.trip = none → s.domOn 1 = true →
    addr < 0x400000 → addr % 4 = 0 → addr / 4 ∉ s.spd.err → bitsOf 7 0 (s.raw SPD_FAULT_INJECT) = 0 →
    let touches := fun (t : State) (f : Bool → Bool → Bool) =>
      (∀ b, b < 32 → (spdGet t (addr / 4)).toNat.testBit b =
        if be.toNat.testBit (b / 8) then f ((spdGet s (addr / 4)).toNat.testBit b) (data.toNat.testBit b)
        else (spdGet s (addr / 4)).toNat.testBit b) ∧
      (∀ k, k < 2 ^ 20 → k ≠ addr / 4 → spdGet t k = spdGet s k) ∧
      { t with spd := s.spd, icu := s.icu } = s
    (∃ t, exec (.scratchpadPlainWrite addr data be) s = .next t ∧ touches t (fun _ d => d)) ∧
    (∃ t, exec (.bitSetAliasWrite addr data be) s = .next t ∧ touches t (fun o d => o || d)) ∧
    (∃ t, exec (.bitClearAliasWrite addr data be) s = .next t ∧ touches t (fun o d => o && !d))

/-- **A bank grants the next port in turn; of colliding writes the lowest port's takes effect, and a read sees the word before
it.** SCRATCHPAD_BANK_GRANT with the requests of one bank, one a port, grants the word of the request that follows the last
granted port. A single write of the granted word is performed; of several, the lowest port's is performed and the collision
recorded. Every read of the word granted beside them returns the word as it was before the grant's write, and every port that
loses receives WRITE_COLLISION. A write of SPD_COLL_INFO.CLR clears OVERRUN. -/
def Obligations.ScratchpadBankGrant : Prop :=
  ∀ s : State, s.drc.trip = none → s.domOn 1 = true →
    (∀ (reqs : List SpdReq) (r : SpdReq), spdReqsOk reqs = true →
      spdPick (tabGet (fun _ => 3) s.spd.rr (r.addr / 4 % 16)) reqs = some r →
      let k := r.addr / 4
      let same := reqs.filter (fun x => x.addr == r.addr)
      let writers := (List.range 4).filter (fun p => same.any (fun x => x.port == p && spdIsWrite x.kind))
      let s0 := { s with spd := { s.spd with
        rr := tabSet (fun _ => 3) s.spd.rr (k % 16) r.port, answers := spdAnswers s k writers.tail same } }
      let s1 := if same.any (fun x => !spdIsWrite x.kind) then (spdRead s0 k).2.2 else s0
      (writers = [] → exec (.scratchpadBankGrant reqs) s = .next s1.irqSync) ∧
      (∀ (q : SpdReq) (w : Nat) (losers : List Nat), writers = w :: losers → same.find? (fun x => x.port == w) = some q →
        exec (.scratchpadBankGrant reqs) s =
          .next (spdCollision k w losers (spdPerform s1 k q.kind q.data q.be)).irqSync) ∧
      (∀ t, exec (.scratchpadBankGrant reqs) s = .next t →
        (∀ x ∈ same, spdIsWrite x.kind = false → ⟨x.port, spdGet s k, (spdCheck s k).1, false⟩ ∈ t.spd.answers) ∧
        (∀ p ∈ writers.tail, ⟨p, 0, false, true⟩ ∈ t.spd.answers))) ∧
    (∀ data : Word, bitAt 31 data = true →
      exec (.spdCollClr data) s = .next (s.wr SPD_COLL_INFO SPD_COLL_INFO.OVERRUN 0).irqSync)

/-! ## Host queues and jobs -/

/-- **Ring configuration is taken while the ring is quiet and refused as a whole otherwise.** A base word of a disabled
submission ring with nothing in flight is taken; enabling one whose completion ring is enabled and whose size is legal
starts it at head and tail 0, and an older read no longer moves its head (the model's choice, assumption 111); a base
word of a ring in use is refused: HQ_ERR_STATUS bit 3 and the ring are recorded and nothing else changes. A completion
ring with no reservation and no bound ring is configured, and started at head and tail 0 with phase 1; a write of one
in use is refused in the same way. PEAK_CLR sets PEAK to the entries in use. -/
def Obligations.RingConfiguration : Prop :=
  ∀ s : State, s.drc.trip = none → s.domOn 1 = true →
    (∀ (n reg : Nat) (data : Word), n < 512 → reg < 2 → sqEn s n = false → sqInflight s n = 0 →
      exec (.hqSqCfgWrite n reg data) s =
        .next (s.setReg (HQ_SQ_BASE_LO n + 4 * reg) (hostValue s (HQ_SQ_BASE_LO n + 4 * reg) data)).irqSync) ∧
    (∀ (n reg : Nat) (data : Word), n < 512 → reg < 2 → sqEn s n = true ∨ sqInflight s n ≠ 0 →
      exec (.hqSqCfgWrite n reg data) s = .next (hqError 3 n false 0 s).irqSync) ∧
    (∀ (n : Nat) (data : Word), n < 512 → sqEn s n = false → sqInflight s n = 0 →
      let new := hostValue s (HQ_SQ_BASE_LO n + 4 * 2) data
      bitAt 0 new = true → 4 ≤ fget HQ_SQ_CFG.SIZE_LOG2 new → cqEn s (fget HQ_SQ_CFG.CQ_ID new) = true →
      let t := (setStoredTail n 0 (s.setReg (HQ_SQ_BASE_LO n + 4 * 2) new)).setReg (HQ_SQ_STATUS n) 0
      exec (.hqSqCfgWrite n 2 data) s = .next ({ t with hq := { t.hq with
        fetches := t.hq.fetches.map (fun f => if f.sq = n then { f with live := false } else f) } } : State).irqSync) ∧
    (∀ (k reg : Nat) (data : Word), k < 256 → reg < 2 → cqReserved s k = 0 → cqBound s k = 0 →
      exec (.hqCqCfgWrite k reg data) s =
        .next (s.setReg (HQ_CQ_BASE_LO k + 4 * reg) (hostValue s (HQ_CQ_BASE_LO k + 4 * reg) data)).irqSync) ∧
    (∀ (k : Nat) (data : Word), k < 256 → cqReserved s k = 0 → cqBound s k = 0 → cqEn s k = false →
      let new := hostValue s (HQ_CQ_BASE_LO k + 4 * 2) data
      bitAt 0 new = true → 4 ≤ fget HQ_CQ_CFG.SIZE_LOG2 new →
      exec (.hqCqCfgWrite k 2 data) s = .next ((setStoredHead k 0
        (s.setReg (HQ_CQ_BASE_LO k + 4 * 2) new)).setReg (HQ_CQ_STATUS k) 0x10000).irqSync) ∧
    (∀ (k reg : Nat) (data : Word), k < 256 → reg < 3 → cqReserved s k ≠ 0 ∨ cqBound s k ≠ 0 →
      exec (.hqCqCfgWrite k reg data) s = .next (hqError 3 k true 0 s).irqSync) ∧
    (∀ data : Word, bitAt 31 data = true →
      exec (.peakClr data) s = .next (s.wr HQ_TAG_STATUS HQ_TAG_STATUS.PEAK s.jobList.length).irqSync)

/-- **A fetch reserves one free tag for each entry it reads.** With fetching enabled and the link up, the visit to the ring
whose turn it is reserves the lowest free slots, as many as the burst, the stored tail, the end of the ring, the
completion slots and the longest read allow, numbers them in order of admission, and notes one outstanding read from the
ring's head. That the lowest free slots are taken is the model's choice (assumption 30), the bound by the maximum read
request is presumed (assumption 110). Every
other tag-table entry and every register but HQ_TAG_STATUS is as before. -/
def Obligations.FetchReservesTags : Prop :=
  ∀ (s : State) (n : Nat), s.drc.trip = none → s.domOn 1 = true → s.linkUp = true → bitAt 0 (s.reg HQ_CTL) = true →
    nextRing s = some n →
    let slots := (freeTags s (bitAt 1 (s.reg (HQ_SQ_CFG n)))).take (fetchCount s n)
    fetchCount s n ≤ s.rd (HQ_SQ_CFG n) HQ_SQ_CFG.BURST + 1 ∧
    fetchCount s n ≤ (storedTail s n + sqSize s n - sqHead s n) % sqSize s n ∧
    fetchCount s n ≤ sqSize s n - sqHead s n ∧ 64 * fetchCount s n ≤ maxReadBytes s ∧
    fetchCount s n ≤ freeSlots s (s.rd (HQ_SQ_CFG n) HQ_SQ_CFG.CQ_ID) ∧
    ∃ t, exec (.submissionFetch n) s = .next t ∧
      t.hq.fetches = s.hq.fetches ++ [⟨n, sqHead s n, slots, true⟩] ∧ t.hq.rr = n ∧
      t.hq.seq = s.hq.seq + slots.length ∧
      (∀ x, t.job x = if x ∈ slots then { Job.empty with
          st := .fetching, sq := n, cq := s.rd (HQ_SQ_CFG n) HQ_SQ_CFG.CQ_ID, seq := s.hq.seq + slots.idxOf x }
        else s.job x) ∧
      (∀ a, a ≠ HQ_TAG_STATUS → t.reg a = s.reg a) ∧
      { t with regs := s.regs, hq := s.hq, icu := s.icu } = s

/-- **Entries that arrive become QUEUED jobs, and nothing behind a FENCE is admitted.** With no access injected, the oldest
read of a ring returns one entry for each slot it reserved; with no FENCE among them every slot holds its entry QUEUED, numbered in order, and
the head passes them all. Admission stops behind a FENCE: it is QUEUED with the jobs of its scope then QUEUED or RUNNING
as its snapshot, the slots after it are FREE and the head stands behind it. -/
def Obligations.ArrivalAdmitsEntries : Prop :=
  (∀ (s : State) (n : Nat) (entries : List (List Word)) (f : Fetch) (rest : List Fetch), s.drc.trip = none →
    takeFetch n s.hq.fetches = some (f, rest) → entries.length = f.slots.length →
    (∀ e ∈ entries, e.length = 16) → f.live = true →
    bitsOf 7 0 (s.raw HQ_FAULT_INJECT) = 0 →
    let a := admitJobs (f.slots.zip entries) 0 { s with hq := { s.hq with fetches := rest } }
    exec (.submissionEntryArrival n entries) s =
      .next (a.2.wr (HQ_SQ_STATUS n) HQ_SQ_STATUS.HEAD ((f.first + a.1) % sqSize a.2 n)).irqSync) ∧
  (∀ (s : State) (xs : List (Nat × List Word)) (k : Nat), (xs.map Prod.fst).Nodup →
    (∀ x ∈ xs, bitsOf 7 0 (wordAt x.2 0) ≠ opFence) →
    (admitJobs xs k s).1 = k + xs.length ∧
    (∀ x ws, (x, ws) ∈ xs → (admitJobs xs k s).2.job x =
      { s.job x with st := .queued, words := ws, seq := s.hq.seq + (xs.map Prod.fst).idxOf x }) ∧
    (∀ y, y ∉ xs.map Prod.fst → (admitJobs xs k s).2.job y = s.job y)) ∧
  (∀ (s : State) (x : Nat) (ws : List Word) (rest : List (Nat × List Word)) (k : Nat),
    x ∉ rest.map Prod.fst → bitsOf 7 0 (wordAt ws 0) = opFence →
    let a := admitJobs ((x, ws) :: rest) k s
    a.1 = k + 1 ∧ (a.2.job x).st = .queued ∧ (a.2.job x).words = ws ∧
    (a.2.job x).snap = fenceSnapshot s (s.job x).sq (bitAt 0 (wordAt ws 2)) ∧
    (∀ y ∈ rest.map Prod.fst, a.2.job y = Job.empty))

/-- **A failed fetch, a commit, a coalescing time-out and a lost tag entry.** FETCH_ERROR frees the slots of the failed
read, stops the ring (HQ_SQn_STATUS bit 30) and records ring and head. COMPLETION_COMMIT commits the status and results
presented where no earlier job of the ring, OPCODE and CONTEXT is QUEUED or RUNNING undamaged (that a damaged one bars none
is the model's choice, assumption 109), and passes over the
FENCEs that waited. COAL_TIME, which is not 0, raises the ring's source once, by one set message (assumption 37), and
restarts its count and its timer. An
uncorrectable tag entry sets UNCORRECTABLE, clears FETCH_EN and marks the job, whose completion is never written. -/
def Obligations.HostQueueEvents : Prop :=
  ∀ s : State, s.drc.trip = none →
    (∀ (n : Nat) (f : Fetch) (rest : List Fetch), takeFetch n s.hq.fetches = some (f, rest) →
      let t := foldS freeSlot f.slots { s with hq := { s.hq with fetches := rest } }
      exec (.fetchError n) s = .next (hqError 2 n false f.first (t.setBit (HQ_SQ_STATUS n) 30)).irqSync ∧
      (∀ x, t.job x = if x ∈ f.slots then Job.empty else s.job x)) ∧
    (∀ slot : Nat, (s.job slot).st = .running → (s.job slot).record = true →
      (s.job slot).damaged = false →
      earlierSame s (s.job slot) (fun e => (decide (e.st = .running) || decide (e.st = .queued)) && !e.damaged) = false →
      let t := commitWith slot (s.job slot).status (s.job slot).results s
      exec (.completionCommit slot) s = .next (settleFences t).irqSync ∧
      t.job slot = { s.job slot with st := .committed, record := false, stop := false,
                                     head := if (s.job slot).sq < 512 then sqHead s (s.job slot).sq else 0 } ∧
      (∀ x, x ≠ slot → t.job x = s.job x) ∧ { t with hq := s.hq } = s) ∧
    (∀ k : Nat, k < 256 → (coalOf s k).running = true → s.rd (HQ_CQ_COAL k) HQ_CQ_COAL.COAL_TIME ≠ 0 →
      ∃ t, exec (.coalTime k) s = .next t.irqSync ∧ coalOf t k = ⟨0, false⟩ ∧ (∀ c, c ≠ k → coalOf t c = coalOf s c) ∧
        t.icu.msgs = s.icu.msgs ++ [(256 + k, false)] ∧
        { t with hq := { t.hq with coal := s.hq.coal }, icu := { t.icu with msgs := s.icu.msgs } } = s) ∧
    (∀ slot : Nat, slot < 1024 → (s.job slot).st ≠ .free →
      let t := (s.setFault HQ_FAULT_STATUS 1).wr HQ_CTL HQ_CTL.FETCH_EN 0
      exec (.uncorrectableTagEntry slot) s = .next (t.setJob slot { t.job slot with damaged := true }).irqSync) ∧
    (∀ slot : Nat, (s.job slot).damaged = true → exec (.completionWrite slot) s = .next s.irqSync)

/-- **A completion entry is 32 bytes at BASE + 32 × TAIL with the phase of the pass.** COMPLETION_WRITE of a committed job
writes tag, status, opcode, ring, fetch head, five result words and the phase, little-endian, at the tail; every other
byte of host memory is as before, and the write never relaxes ordering. The tail advances, and wraps with the phase inverted. The slot is FREE. -/
def Obligations.CompletionEntryWritten : Prop :=
  ∀ (s : State) (slot : Nat), s.drc.trip = none → (s.job slot).st = .committed → (s.job slot).damaged = false →
    s.linkUp = true →
    let j := s.job slot
    let at_ := s.reg64 (HQ_CQ_BASE_LO j.cq) (HQ_CQ_BASE_HI j.cq) + 32 * cqTail s j.cq
    let ph := s.rd (HQ_CQ_STATUS j.cq) HQ_CQ_STATUS.PHASE
    let entry := wordsBytes ([BitVec.ofNat 32 (j.tag + j.status % 256 * 2 ^ 16 + j.opcode * 2 ^ 24),
      BitVec.ofNat 32 (j.sq + j.head * 2 ^ 16), wordAt j.results 0, wordAt j.results 1, wordAt j.results 2,
      wordAt j.results 3, wordAt j.results 4, BitVec.ofNat 32 ph])
    ∃ t, exec (.completionWrite slot) s = .next t ∧
      entry.length = 32 ∧ tabGetRange (fun _ => 0) t.host.mem at_ 32 = entry ∧
      (∀ a, a < at_ ∨ at_ + 32 ≤ a → tabGet (fun _ => 0) t.host.mem a = tabGet (fun _ => 0) s.host.mem a) ∧
      t.job slot = Job.empty ∧ (∀ x, x ≠ slot → t.job x = s.job x) ∧
      (cqTail s j.cq + 1 < cqSize s j.cq → cqTail t j.cq = (cqTail s j.cq + 1) % 2 ^ 16 ∧
        t.rd (HQ_CQ_STATUS j.cq) HQ_CQ_STATUS.PHASE = ph) ∧
      (cqSize s j.cq ≤ cqTail s j.cq + 1 → cqTail t j.cq = 0 ∧
        t.rd (HQ_CQ_STATUS j.cq) HQ_CQ_STATUS.PHASE = (1 - ph) % 2) ∧
      (∀ a, a ≠ HQ_CQ_STATUS j.cq → t.reg a = s.reg a) ∧
      t.host.relaxed = false ∧
      { t with
        regs := s.regs
        hq := s.hq
        host := { t.host with mem := s.host.mem, relaxed := s.host.relaxed }
        icu := s.icu } = s

/-- **Dispatch, FENCE, ABORT and stopping.** A QUEUED job, neither FENCE, DECODE_UNIT nor BUFFER_OP, that its rules let
start, that is not refused and that its unit accepts becomes RUNNING, an ENCODE_PICTURE at the end of the encoders'
order; one refused becomes RUNNING with a record of INTERNAL (the model's choice, assumption 32), a refused BUFFER_OP completes at
once. A FENCE that is
next settles the FENCEs whose wait has ended. A legal ABORT of each mode stops the jobs it matches, presents its own
record, and closes the contexts whose closing waited for the units it ended: of one matched job, QUEUED it is
committed with ABORTED and no results, RUNNING it is marked to stop and its record is dropped, COMMITTED it is left as
it is, and every other tag-table entry is as before. A RUNNING job an ABORT has reached ends its unit's work and
completes with ABORTED, at once or, where an earlier job of its ring, OPCODE and CONTEXT has not completed, as
COMPLETION_COMMIT comes to its record, without results but for a DECODE_UNIT of a picture in progress, which reports the count of damaged
CTUs at the abort (assumption 134). -/
def Obligations.DispatchFenceAndAbort : Prop :=
  (∀ s : State, s.drc.trip = none →
     (∀ slot : Nat, mayStart s (s.job slot) = true → s.domOn 1 = true →
       bitsOf 7 0 (s.raw (HQ_FAULT_STATUS + 12)) = 0 →
       let t := s.setJob slot { s.job slot with st := .running }
       ((s.job slot).opcode ∉ [opFence, opDecodeUnit, opBufferOp] →
         refusedJob s (s.job slot) = false → unitAccepts s (s.job slot) = true →
         exec (.jobDispatch slot) s = .next (if (s.job slot).opcode = opEncodePicture
           then { t with enc := { t.enc with order := t.enc.order ++ [t.jobRef slot] } } else t : State).irqSync) ∧
       ((s.job slot).opcode ∉ [opFence, opDecodeUnit, opBufferOp] → refusedJob s (s.job slot) = true →
         exec (.jobDispatch slot) s = .next (fail slot stInternal (noteRefusal (s.job slot) t)).irqSync) ∧
       ((s.job slot).opcode = opBufferOp → refusedJob s (s.job slot) = true →
         exec (.jobDispatch slot) s = .next (completeNow slot stInternal (bufferEcho (s.job slot)) s).irqSync)) ∧
     (∀ slot : Nat, (s.job slot).st = .queued → (s.job slot).opcode = opFence → (s.job slot).damaged = false →
       exec (.fence slot) s = .next (settleFences s).irqSync)) ∧
  (∀ s : State,
     (∀ (slot : Nat) (t : State), s.startable slot opAbort = true → abortOk (s.job slot) = true →
       t = closeReady (runAbort slot s) → t.drc.trip = none →
       (bitsOf 26 25 ((s.job slot).w 2) = 0 → exec (.abortTag slot) s = .next t.irqSync) ∧
       (bitsOf 26 25 ((s.job slot).w 2) = 1 → exec (.abortRing slot) s = .next t.irqSync) ∧
       (bitsOf 26 25 ((s.job slot).w 2) = 2 → exec (.abortOpcodeContext slot) s = .next t.irqSync)) ∧
     (∀ (slot : Nat) (t : State), (s.job slot).st = .running → (s.job slot).stop = true → (s.job slot).record = false →
       let u := stopWork (s.job slot) (s.jobRef slot) s
       let results := stopResults (s.job slot) (s.jobRef slot) s
       t = (if commitsNow u (u.job slot) then completeNow slot stAborted results u
            else u.setJob slot { u.job slot with record := true, status := stAborted, results := results }) →
       t.drc.trip = none →
       exec (.runningJobStop slot) s = .next t.irqSync)) ∧
  (∀ (s : State) (j : Job) (r : JobRef),
     (j.opcode ≠ opDecodeUnit → stopResults j r s = []) ∧
     (∀ p, j.opcode = opDecodeUnit → picOf s j.context = some p → p.damage.length < 2 ^ 20 → (∃ k ∈ p.jobs, k.ref = r) →
       stopResults j r s = [0, 0, 0, 0, BitVec.ofNat 32 p.damage.length])) ∧
  (∀ (s : State) (x : Nat),
     ((s.job x).st = .queued → ((abortOne x s).job x).st = .committed ∧ ((abortOne x s).job x).status = stAborted ∧
       ((abortOne x s).job x).results = []) ∧
     ((s.job x).st = .running → (abortOne x s).job x = { s.job x with stop := true, record := false }) ∧
     ((s.job x).st = .committed → abortOne x s = s) ∧
     (∀ y, y ≠ x → (abortOne x s).job y = s.job y))

/-- **A Function Level Reset clears the host interface and nothing else.** No job, doorbell, read or coalescing count is
left in the tag table, every register of the HQ window and of the ICU below offset 0x8000 is at its reset value except
PENDING, which is kept, and every other register and unit is as it was. A job dispatched and not yet begun runs on
outside the table under its number (DEDUCED, assumption 33); the ENCODE_PICTURE jobs keep their order. A context whose closing only waited for
units of the table then closes. -/
def Obligations.FunctionLevelReset : Prop :=
  ∀ s : State, s.domOn 1 = true →
    ((functionReset s).drc.trip = none → exec .functionLevelReset s = .next (functionReset s).irqSync) ∧
    functionReset s = closeReady (flrReach s) ∧
    (tabWf (regReset s.fuse.variant) s.regs = true →
      let t := flrReach s
      t.jobList = [] ∧ t.hq.sqTail = [] ∧ t.hq.cqHead = [] ∧ t.hq.fetches = [] ∧ t.hq.coal = [] ∧
      (∀ a, 0x500000 ≤ a ∧ a < 0x600000 → t.reg a = regReset s.fuse.variant a) ∧
      (∀ a, 0x200000 ≤ a ∧ a < 0x208000 → ¬(0x201000 ≤ a ∧ a < 0x202000) → t.reg a = regReset s.fuse.variant a) ∧
      (∀ src, 0 < src → src < 992 → srcPending t src = srcPending s src ∧ srcActive t src = false) ∧
      (∀ a, a < 0x200000 ∨ 0x208000 ≤ a ∧ a < 0x500000 ∨ 0x600000 ≤ a → t.reg a = s.reg a) ∧
      (∀ x j, s.hq.jobs = [(x, j)] → x < 1024 → t.hq.jobs = if unbegun j then [(1024 + j.seq, j)] else []) ∧
      t.enc.order = orphanOrder s ∧
      { t with regs := s.regs, hq := s.hq, enc := { t.enc with order := s.enc.order }, icu := s.icu } = s)

/-! ## Buffer pools and DMA -/

/-- **ALLOC hands out the oldest cached handle of its pool.** From a ready pool whose cache is not empty, with no access
injected and no request of the compositor waiting, ALLOC by pool answers OK and a handle with the next generation; its
table entry is allocated to the requester with one reference, shared where an engine unit asks (R397) or SHARE is set, ALLOCATED counts it, the handle leaves the cache, and
every other table entry, every register outside the pool's own and every other unit is as before. -/
def Obligations.AllocTakesOldestHandle : Prop :=
  ∀ (s : State) (req p i : Nat) (rest : List Nat) (spill share : Bool), s.drc.trip = none → usedRequester req = true → p < 8 →
    s.domOn 1 = true → holdWaiting s p = false → poolReady s p = true → poolCache s p = i :: rest →
    bitsOf 7 0 (s.raw BPM_FAULT_INJECT) = 0 →
    let e := poolFirst s p + i
    let g := if bGen (bstGet s e) = 255 then 1 else bGen (bstGet s e) + 1
    ∃ t, exec (.alloc req true p spill share) s = .next t ∧
      t.bpm.answer = (stOk, mkHandle p g i) ∧ bstGet t e = mkEntry true (share || req != 0) req 1 g p ∧
      (∀ x, x ≠ e → bstGet t x = bstGet s x) ∧ poolCache t p = rest ∧
      (∀ q, q ≠ p → poolCache t q = poolCache s q) ∧ poolRingLen t p = poolRingLen s p ∧
      t.rd (BPM_POOL_ALLOCATED p) BPM_POOL_ALLOCATED.ALLOCATED =
        (s.rd (BPM_POOL_ALLOCATED p) BPM_POOL_ALLOCATED.ALLOCATED + 1) % 2 ^ 21 ∧
      (∀ a, a ≠ BPM_POOL_ALLOCATED p → a ≠ BPM_POOL_MIN_FREE p → a ≠ BPM_POOL_IRQ_STATUS p → t.reg a = s.reg a) ∧
      { t with regs := s.regs, bpm := s.bpm, icu := s.icu } = s

/-- **RETAIN, RELEASE and FREE count references, and misuse is answered and recorded.** On a current handle of a
requester that may hold it, with no access injected: RETAIN adds a reference below the limit of 1,023; RELEASE takes
one away, and the last one frees the buffer; FREE by the owner frees it whatever its references. RETAIN at the limit
answers INTERNAL whoever asks. A freed buffer's entry keeps its generation, its index is the newest of the pool's cache
(one that holds 32 is written back first), and ALLOCATED counts down. Every other table entry is as before. RETAIN of a handle that is not current answers STALE_HANDLE; RELEASE and FREE of one whose buffer
is already free answer DOUBLE_FREE; FREE by another than the owner of a current handle answers NOT_OWNER; each records
requester, operation, code and handle. -/
def Obligations.ReferencesAreCounted : Prop :=
  (∀ (s : State) (req e : Nat) (h : Word), s.drc.trip = none → usedRequester req = true → s.domOn 1 = true →
     holdWaiting s (hPool h) = false → bitsOf 7 0 (s.raw BPM_FAULT_INJECT) = 0 →
     classify s h = .current → handleEntry s h = some e →
     let w := bstGet s e
     let kept := fun (t : State) (refs : Nat) => t.bpm.answer = (stOk, h) ∧
       bstGet t e = mkEntry true (bShare w) (bOwner w) refs (bGen w) (hPool h) ∧
       (∀ x, x ≠ e → bstGet t x = bstGet s x) ∧ poolCache t (hPool h) = poolCache s (hPool h) ∧
       { t with bpm := s.bpm, icu := s.icu } = s
     let freed := fun (t : State) => t.bpm.answer = (stOk, h) ∧
       bstGet t e = mkEntry false (bShare w) (bOwner w) 0 (bGen w) (hPool h) ∧
       (∀ x, x ≠ e → bstGet t x = bstGet s x) ∧ poolCache t (hPool h) = poolCache s (hPool h) ++ [hIndex h] ∧
       t.rd (BPM_POOL_ALLOCATED (hPool h)) BPM_POOL_ALLOCATED.ALLOCATED =
         (s.rd (BPM_POOL_ALLOCATED (hPool h)) BPM_POOL_ALLOCATED.ALLOCATED - 1) ∧
       { t with regs := s.regs, bpm := s.bpm, icu := s.icu } = s
     (mayHold s req h = true → bRefs w < 1023 → ∃ t, exec (.retain req h) s = .next t ∧ kept t (bRefs w + 1)) ∧
     (mayHold s req h = true → 1 < bRefs w → ∃ t, exec (.release req h) s = .next t ∧ kept t (bRefs w - 1)) ∧
     (bRefs w = 1023 →
       exec (.retain req h) s = .next (answer (stInternal, h) (noteGrant s (hPool h) req)).irqSync) ∧
     ((poolCache s (hPool h)).length < 32 →
       (mayHold s req h = true → bRefs w ≤ 1 → ∃ t, exec (.release req h) s = .next t ∧ freed t) ∧
       (bOwner w = req → ∃ t, exec (.free req h) s = .next t ∧ freed t)) ∧
     (∀ t : State, 32 ≤ (poolCache s (hPool h)).length →
       t = giveBack (bstPut (noteGrant s (hPool h) req) e (mkEntry false (bShare w) (bOwner w) 0 (bGen w) (hPool h)))
         (hPool h) (hIndex h) → t.drc.trip = none →
       poolCache t (hPool h) = (poolCache s (hPool h)).take ((poolCache s (hPool h)).length - 16) ++ [hIndex h] ∧
       (mayHold s req h = true → bRefs w ≤ 1 → exec (.release req h) s = .next (answer (stOk, h) t).irqSync) ∧
       (bOwner w = req → exec (.free req h) s = .next (answer (stOk, h) t).irqSync))) ∧
  (∀ (s : State) (req : Nat) (h : Word), s.drc.trip = none → usedRequester req = true → s.domOn 1 = true →
     holdWaiting s (hPool h) = false → bitsOf 7 0 (s.raw BPM_FAULT_INJECT) = 0 →
     let s0 := noteGrant s (hPool h) req
     (classify s h ≠ .current → exec (.retain req h) s =
       .next (answer (stStaleHandle, h) (misuse s0 req 1 stStaleHandle h)).irqSync) ∧
     (classify s h = .freed → exec (.release req h) s =
       .next (answer (stDoubleFree, h) (misuse s0 req 2 stDoubleFree h)).irqSync) ∧
     (classify s h = .freed → exec (.free req h) s =
       .next (answer (stDoubleFree, h) (misuse s0 req 3 stDoubleFree h)).irqSync) ∧
     (∀ e, classify s h = .current → handleEntry s h = some e → bOwner (bstGet s e) ≠ req →
       exec (.free req h) s = .next (answer (stNotOwner, h) (misuse s0 req 3 stNotOwner h)).irqSync))

/-- **A BUFFER_OP job is carried out and completed in one grant.** A BUFFER_OP that may leave QUEUED, with legal words and
no access injected into the tag table, performs its operation as requester 0 and commits with the operation's status
and the handle as its result word. -/
def Obligations.BufferOpCompletes : Prop :=
  ∀ (s : State) (slot : Nat), s.domOn 1 = true → (s.job slot).opcode = opBufferOp →
    mayStart s (s.job slot) = true → bitsOf 7 0 (s.raw HQ_FAULT_INJECT) = 0 →
    headerBad s (s.job slot) = false → bitsOf 31 6 ((s.job slot).w 3) = 0 →
    let j := s.job slot
    let h := j.w 2
    let p := hPool h
    (∀ t arg, j.context = 0 → (bitAt 3 (j.w 3) = true → h = 0) →
      arg = (if bitAt 3 (j.w 3) then bitsOf 2 0 (j.w 3) else h.toNat) →
      poolFreeToGrant (allocPool (bitAt 3 (j.w 3)) arg s) s = true →
      t = (let r := allocFor 0 (bitAt 3 (j.w 3)) arg (bitAt 4 (j.w 3)) (bitAt 5 (j.w 3)) s
           completeNow slot r.1 [r.2.1] r.2.2) → t.drc.trip = none →
      exec (.bufferOpAlloc slot) s = .next t.irqSync) ∧
    (∀ t, j.context = 1 → holdWaiting s p = false →
      t = (let r := bpmRetain (noteGrant s p 0) 0 h; completeNow slot r.1 [h] r.2) → t.drc.trip = none →
      exec (.bufferOpRetain slot) s = .next t.irqSync) ∧
    (∀ t, j.context = 2 → holdWaiting s p = false →
      t = (let r := bpmRelease (noteGrant s p 0) 0 h; completeNow slot r.1 [h] r.2) → t.drc.trip = none →
      exec (.bufferOpRelease slot) s = .next t.irqSync) ∧
    (∀ t, j.context = 3 → holdWaiting s p = false →
      t = (let r := bpmFree (noteGrant s p 0) 0 h; completeNow slot r.1 [h] r.2) → t.drc.trip = none →
      exec (.bufferOpFree slot) s = .next t.irqSync)

/-- **Pools are enabled, filled, refilled and written back.** Enabling a legal disabled pool sets COUNT and EN and starts
its initialisation with an empty cache and ring, MIN_FREE and LOW following; disabling one with buffers allocated is
refused. When initialisation ends the pool's entries are blank, its ring holds every index ascending, and READY sets. A
cache below 8 takes at most 16 handles from the ring's head as its newest, one above 24 returns its 16 newest to the
ring. MIN_FREE_CLR takes the current FREE and MISUSE_CLR clears OVERRUN. -/
def Obligations.PoolsAndCaches : Prop :=
  ∀ s : State,
    (s.drc.trip = none → s.domOn 1 = true → ∀ (p : Nat) (data : Word), p < 8 → poolEn s p = false → bitAt 31 data = true →
      let n := bitsOf 20 0 data
      let f := poolFirst s p
      n ≠ 0 → f + n ≤ 1048576 → poolOverlap s p f n = false → bitAt 0 (s.raw (BPM_POOL_RING_LO p)) = true →
      bitAt 0 (s.raw (BPM_POOL_BASE_LO p)) = true →
      let t := setRing (setCache (s.setReg (BPM_POOL_CFG p) (BitVec.ofNat 32 (n + 2 ^ 31))) p []) p 0 0
      exec (.poolEn p data) s = .next (poolFreeChanged { t with bpm := { t.bpm with
        withdrawn := t.bpm.withdrawn.filter (fun e => decide (e < f) || decide (f + n ≤ e))
        initing := p :: t.bpm.initing } } p).irqSync) ∧
    (s.drc.trip = none → s.domOn 1 = true → ∀ (p : Nat) (data : Word), p < 8 → poolEn s p = true → bitAt 31 data = false →
      (s.raw (BPM_POOL_ALLOCATED p)).toNat ≠ 0 → exec (.poolEn p data) s = .next (poolRefuse p s).irqSync) ∧
    (∀ (p : Nat) (t : State), p ∈ s.bpm.initing →
      t = (let n := poolCount s p
           let t1 : State := { s with bpm := { s.bpm with
             bst := tabSetRange (fun _ => 0) s.bpm.bst (poolFirst s p) (List.replicate n (mkEntry false false 0 0 0 p))
             initing := s.bpm.initing.filter (fun q => q != p) } }
           let t2 := dramWrWords bpmPort t1 (poolRing s p) ((List.range n).map (fun i => BitVec.ofNat 32 i))
           poolLow ((setRing t2 p 0 n).setBit (BPM_POOL_STATUS p) 21) p) → t.drc.trip = none →
      exec (.poolReady p) s = .next t.irqSync) ∧
    (∀ p : Nat, poolReady s p = true → (poolCache s p).length < 8 → 0 < poolRingLen s p →
      (refill s p).drc.trip = none → exec (.cacheRefill p) s = .next (refill s p).irqSync ∧
      ∃ xs, xs.length ≤ 16 ∧ poolCache (refill s p) p = poolCache s p ++ xs) ∧
    (∀ p : Nat, poolReady s p = true → 24 < (poolCache s p).length → (writeBack s p).drc.trip = none →
      exec (.cacheWriteBack p) s = .next (writeBack s p).irqSync ∧
      poolCache (writeBack s p) p = (poolCache s p).take ((poolCache s p).length - 16) ∧
      poolRingLen (writeBack s p) p = poolRingLen s p + 16) ∧
    (s.drc.trip = none → s.domOn 1 = true → ∀ (p : Nat) (data : Word), p < 8 → bitAt 31 data = true →
      exec (.minFreeClr p data) s =
        .next (s.wr (BPM_POOL_MIN_FREE p) BPM_POOL_MIN_FREE.MIN_FREE (poolFree s p)).irqSync) ∧
    (s.drc.trip = none → s.domOn 1 = true → ∀ data : Word, bitAt 31 data = true →
      exec (.misuseClr data) s = .next (s.wr BPM_MISUSE_INFO BPM_MISUSE_INFO.OVERRUN 0).irqSync)

/-- **A DMA list starts, takes its entries, moves its bytes, stops and ends.** A legal DMA_LIST of an enabled idle channel and a
GO that leaves EN set on an idle channel start the list with BUSY set and its first entries next; a GO on a busy channel
is counted. The next entry of a stream with none current is read: where it is of that stream, passes the checks, has a
length and does not overlap the other stream's it becomes current; one of the other stream is passed over. With an entry
of each stream current and no error, the 64 bytes read at the source's position are written at the destination's (64 bytes
a command is the model's choice, assumption 19), a scratchpad word that another port wrote in the same cycle and won holding
that port's value, both positions and the byte count advance by 64, the CRC runs over the bytes, and an entry that is used up
is current no longer; a write of 64 bytes to host memory leaves every other byte as before. Once an ABORT has reached the
list's job the channel moves nothing more. A list both of whose streams are used up ends with
OK, its CRC and its bytes. Clearing EN stops the channel: no list runs on it, and where one ran BUSY is clear and RESULT
reads ABORTED. -/
def Obligations.DmaListsRun : Prop :=
  (∀ s : State,
     (s.drc.trip = none → ∀ slot : Nat, s.startable slot opDmaList = true → dmaRun s (s.job slot).context = none →
       bitAt 0 (s.reg (DMA_CH_CTL (s.job slot).context)) = true →
       let j := s.job slot
       bitsOf 31 21 (j.w 4) = 0 → (j.w 5).toNat ≤ 1 → bitsOf 3 0 (j.w 2) = 0 → bitsOf 20 0 (j.w 4) ≠ 0 →
       bitsOf 20 0 (j.w 4) ≤ 1048576 →
       let t := (beginJob slot s).wr (DMA_CH_STATUS j.context) DMA_CH_STATUS.BY_GO 0
       exec (.dmaList slot) s = .next (setDmaRun j.context
         (some ⟨some (s.jobRef slot), (j.w 2).toNat + (j.w 3).toNat * 2 ^ 32, bitAt 0 (j.w 5), bitsOf 20 0 (j.w 4), 0, 0,
           none, none, 0, 0, 0xFFFFFFFF, 0, 0, none⟩) (t.wr (DMA_CH_STATUS j.context) DMA_CH_STATUS.BUSY 1)).irqSync) ∧
     (s.drc.trip = none → s.domOn 1 = true → ∀ (c : Nat) (data : Word), c < 16 → bitAt 1 data = true → bitAt 0 data = true →
       let t := s.hostWrite (DMA_CH_CTL c) data
       let n := t.rd (DMA_CH_COUNT c) DMA_CH_COUNT.COUNT
       (t.flag (DMA_CH_STATUS c) DMA_CH_STATUS.BUSY = false → 0 < n → n ≤ 1048576 →
         exec (.dmaGo c data) s = .next (setDmaRun c (some ⟨none, t.reg64 (DMA_CH_LIST_LO c) (DMA_CH_LIST_HI c),
           bitAt 2 data, n, 0, 0, none, none, 0, 0, 0xFFFFFFFF, 0, 0, none⟩)
           ((t.wr (DMA_CH_STATUS c) DMA_CH_STATUS.BY_GO 1).wr (DMA_CH_STATUS c) DMA_CH_STATUS.BUSY 1)).irqSync) ∧
       (t.flag (DMA_CH_STATUS c) DMA_CH_STATUS.BUSY = true →
         exec (.dmaGo c data) s = .next (t.inc (DMA_CH_STATUS c) DMA_CH_STATUS.GO_IGNORED).irqSync)) ∧
     (∀ (c : Nat) (dst : Bool) (given : Option (List Word)) (r : DmaRun) (ws : List Word) (t : State), dmaRun s c = some r →
       r.failed = none → (if dst then r.dst else r.src) = none →
       let i := if dst then r.nextDst else r.nextSrc
       i < r.count → dmaHalted s r = false → arriveEntry c (readEntry r i given s) = (some ws, t) → t.drc.trip = none →
       let e := entryOf i ws
       let read : DmaRun := if dst then { r with nextDst := i + 1 } else { r with nextSrc := i + 1 }
       (e.dst ≠ dst → exec (.dmaEntry c dst given) s = .next (setDmaRun c (some read) t).irqSync) ∧
       (e.dst = dst → entryCheck123 t e = none → e.len ≠ 0 →
         (∀ o, (if dst then r.src else r.dst) = some o → entriesOverlap t e o = false) →
         exec (.dmaEntry c dst given) s = .next (setDmaRun c (some (if dst
           then { read with dst := some e, dstOff := 0, segDst := 0 }
           else { read with src := some e, srcOff := 0, segDst := r.dstOff })) t).irqSync)) ∧
     (s.drc.trip = none → ∀ (c : Nat) (r : DmaRun), dmaRun s c = some r → r.failed = none → r.src = none → r.dst = none →
       r.nextSrc = r.count → r.nextDst = r.count → dmaHalted s r = false →
       exec (.dmaListEnd c) s = .next (dmaFinish c r.slot stOk (runCrc r) r.bytes noFail s).irqSync) ∧
     (s.drc.trip = none → ∀ (c : Nat) (r : DmaRun), dmaRun s c = some r → dmaHalted s r = true →
       (∀ dst given, exec (.dmaEntry c dst given) s = .next s.irqSync) ∧
       (∀ facts, exec (.dmaSegment c facts) s = .next s.irqSync) ∧ exec (.dmaListEnd c) s = .next s.irqSync) ∧
     (∀ (c : Nat) (data : Word) (t : State), c < 16 → bitAt 0 data = false → bitAt 1 data = false → s.domOn 1 = true →
       s.flag (DMA_CH_CTL c) DMA_CH_CTL.EN = true →
       t = dmaStop c (s.hostWrite (DMA_CH_CTL c) data) → t.drc.trip = none →
       exec (.dmaEnClear c data) s = .next t.irqSync ∧ dmaRun t c = none ∧
       (dmaRun s c ≠ none → t.flag (DMA_CH_STATUS c) DMA_CH_STATUS.BUSY = false ∧
         t.rd (DMA_CH_STATUS c) DMA_CH_STATUS.RESULT = stAborted))) ∧
  ((∀ (s u t : State) (c : Nat) (r : DmaRun) (se de : DmaEnt) (bs : List Byte) (facts : DmaFacts),
     dmaRun s c = some r → r.failed = none → r.src = some se → r.dst = some de → dmaHalted s r = false →
     placeRead (entryPlace s se).1 ((entryPlace s se).2 + r.srcOff) facts.host s = (bs, false, u) →
     burstCheck c u = (false, u) →
     let place := (entryPlace s de).2 + r.dstOff
     let put := placeWrite (entryPlace s de).1 place bs u
     t = setDmaRun c (some { r with
           src := if se.len ≤ r.srcOff + 64 then none else some se
           dst := if de.len ≤ r.dstOff + 64 then none else some de
           srcOff := if se.len ≤ r.srcOff + 64 then 0 else r.srcOff + 64
           dstOff := if de.len ≤ r.dstOff + 64 then 0 else r.dstOff + 64
           segDst := if de.len ≤ r.dstOff + 64 then 0 else if se.len ≤ r.srcOff + 64 then r.dstOff + 64 else r.segDst
           crc := crc32cRun r.crc bs
           bytes := r.bytes + 64 })
         (if (entryPlace s de).1 = 2 then lostWords place facts.lost put else put) → t.drc.trip = none →
     exec (.dmaSegment c facts) s = .next t.irqSync) ∧
   (∀ (s : State) (a : Nat) (bs : List Byte), bs.length = 64 →
     tabGetRange (fun _ => 0) (placeWrite 1 a bs s).host.mem a 64 = bs ∧
     (∀ b, b < a ∨ a + 64 ≤ b → tabGet (fun _ => 0) (placeWrite 1 a bs s).host.mem b = tabGet (fun _ => 0) s.host.mem b) ∧
     { placeWrite 1 a bs s with
       host := { (placeWrite 1 a bs s).host with mem := s.host.mem, relaxed := s.host.relaxed } } = s))

/-! ## Memory -/

/-- **DRAM reads back what was written.** A write of bytes of one burst, through a port whose request the channel serves and
with no access injected, stores them at the window's physical place; a read of the same bytes by the same port returns them
with no error. In a protected window the words written are then free of error, where those replaced in part were; no other
word's mark, no other byte of DRAM, and nothing else but the channels' command history is changed. A burst outside every
window writes nothing, is recorded, and a read of it returns an uncorrectable response. On a frozen channel, or in a window
being zeroed, both wait; one that is in self-refresh exits. -/
def Obligations.DramReadsBack : Prop :=
  (∀ (s : State) (port a w : Nat) (bs : List Byte), winFor s a = some w → a % 64 + bs.length ≤ 64 →
    let q := requestAt s port w a true bs.length []
    let r := requestAt s port w a false bs.length bs
    let p := physOf s w a
    let u := dramWrBurst port s a bs
    reqDead s q = false → accessStop s w q = none → accessStop s w r = none →
    (∀ b ∈ s.drc.returned, ¬(b.port = port ∧ b.burst = p / 64)) →
    bitsOf 7 0 (s.raw (DRC_CH_FAULT_STATUS (chanOf s (p / 64 * 64)) + 12)) = 0 →
    (winProt s w = true → ∀ k ∈ partWords p bs.length, tabGet (fun _ => 0) s.drc.err k = 0) →
    (dramRdBurst port u a bs.length).1 = bs ∧ (dramRdBurst port u a bs.length).2.1 = false ∧
    (let v := (dramRdBurst port u a bs.length).2.2
     { v with drc := { v.drc with chans := u.drc.chans } } = u) ∧
    (∀ x, x < p ∨ p + bs.length ≤ x → tabGet dramDefault u.drc.dram x = tabGet dramDefault s.drc.dram x) ∧
    (∀ k, tabGet (fun _ => 0) u.drc.err k =
      if winProt s w = true ∧ p / 4 ≤ k ∧ k < p / 4 + (p % 4 + bs.length + 3) / 4 then 0
      else tabGet (fun _ => 0) s.drc.err k) ∧
    { u with drc := { u.drc with dram := s.drc.dram, err := s.drc.err, chans := s.drc.chans } } = s) ∧
  (∀ (s : State) (port a n : Nat) (bs : List Byte), winFor s a = none →
    dramWrBurst port s a bs = unmapped s a ∧ (unmapped s a).reg DRC_ERR_ADDR_LO = BitVec.ofNat 32 (a % 2 ^ 40) ∧
    (dramRdBurst port s a n).1.length = n ∧ (dramRdBurst port s a n).2.1 = true ∧
    { (dramRdBurst port s a n).2.2 with free := s.free } = unmapped s a) ∧
  (∀ (s : State) (port a w n : Nat) (bs : List Byte), winFor s a = some w →
    let q := requestAt s port w a true n []
    reqDead s q = false →
    ((∃ c ∈ reqChans s q, chanFrozen s c = true) ∨ w ∈ s.drc.zeroing →
      (dramRdBurst port s a n).2.2 = s.trip .wait ∧ dramWrBurst port s a bs = s.trip .wait) ∧
    ((∀ c ∈ reqChans s q, chanFrozen s c = false) → w ∉ s.drc.zeroing → queueWaits (dramChan s (reqChan s q)) q = false →
      chanState s (reqChan s q) = 2 → (dramRdBurst port s a n).2.2 = s.trip (.exit (reqChan s q))))

/-- **DRAM initialisation, windows and address masks.** INIT with a legal rate and density starts initialisation, whose end
sets READY and starts the channels. Enabling a legal disabled window keeps its kind and, unless it zero fills, makes it
ready at once; with a zero fill its range reads zero and READY waits for the end of the fill. A refused window write, and
any write of the window under a memory test, is recorded; that it leaves the whole register as it was is the model's choice
(assumption 42). A mask that selects its own home bit and no other is taken, any other is refused. -/
def Obligations.DramSetUp : Prop :=
  ∀ s : State, s.drc.trip = none →
    (∀ data : Word, s.domOn 1 = true → bitAt 8 data = true →
      let t := s.hostWrite DRC_CFG data
      t.flag DRC_CFG DRC_CFG.READY = false → t.rd DRC_CFG DRC_CFG.RATE ≠ 3 → t.rd DRC_CFG DRC_CFG.DENSITY ≠ 3 →
      exec (.drcInit data) s = .next ({ t with drc := { t.drc with initing := true } } : State).irqSync) ∧
    (s.drc.initing = true → exec .drcInitDone s = .next (startChannels
      (({ s with drc := { s.drc with initing := false } } : State).wr DRC_CFG DRC_CFG.READY 1)).irqSync) ∧
    (∀ (w : Nat) (data : Word), w < 64 → s.domOn 1 = true → s.locked = false → underTest s w = false → winEn s w = false →
      bitAt 0 data = true →
      let t := (s.wr (DRC_WIN_CFG w) DRC_WIN_CFG.PROTECTED (bitsOf 1 1 data)).wr (DRC_WIN_CFG w) DRC_WIN_CFG.ZERO
        (bitsOf 2 2 data)
      (windowRefused t w = true → exec (.drcWinEn w data) s = .next (badWindow w s).irqSync) ∧
      (windowRefused t w = false → (bitAt 1 data && bitAt 2 data) = false →
        exec (.drcWinEn w data) s = .next ((t.setBit (DRC_WIN_CFG w) 0).setBit (DRC_WIN_CFG w) 3).irqSync) ∧
      (windowRefused t w = false → (bitAt 1 data && bitAt 2 data) = true →
        let u := t.setBit (DRC_WIN_CFG w) 0
        let z := zeroPhys (winPhys u w) (winPhysSize u w) u
        exec (.drcWinEn w data) s =
          .next ({ z with drc := { z.drc with zeroing := w :: z.drc.zeroing } } : State).irqSync)) ∧
    (∀ (w : Nat) (data : Word), w < 64 → s.domOn 1 = true → underTest s w = true →
      exec (.drcWinEn w data) s = .next (badWindow w s).irqSync) ∧
    (∀ w : Nat, w ∈ s.drc.zeroing → exec (.windowZeroDone w) s = .next ({ s.setBit (DRC_WIN_CFG w) 3 with
      drc := { s.drc with zeroing := s.drc.zeroing.filter (fun v => v != w) } } : State).irqSync) ∧
    (∀ (i : Nat) (data : Word), i < 9 → s.domOn 1 = true → s.locked = false → ¬(s.fuse.variant = .lzw4430 ∧ i = 4) →
      (maskOk s.fuse.variant i (bitsOf 30 0 data) = true → exec (.drcMapWrite i data) s =
        .next (s.setReg (DRC_MAP_CH i) (BitVec.ofNat 32 (bitsOf 30 0 data))).irqSync) ∧
      (maskOk s.fuse.variant i (bitsOf 30 0 data) = false →
        exec (.drcMapWrite i data) s = .next (s.setBit DRC_ERR 1).irqSync))

/-- **A channel schedules by urgency, kind and age, refreshes itself, retrains and is scrubbed.** The request the
scheduler picks is one of the candidates, none of the candidates goes before it, and with any candidate it picks one.
An ACTIVE channel takes its arrivals in the fabric's order and, in a slot no bank command takes, issues the request that
R431 picks; requests of one port to one burst go in issue order. In an unprotected window with no access injected, a read
issued returns its bytes, with its port's older queued writes laid over them, and a write issued is stored. Past thresholds
of their port's target requests rise in urgency. An idle channel that nothing keeps awake enters
self-refresh, and a request makes it exit into retraining, which ends ACTIVE. Background retraining takes the channel whose
turn has come. A scrub reads the next granule of the protected windows. Which banks are ready and which bank commands the
history holds are operands, and the retraining channel's turn is kept as a position: the model's choices (assumption 104). -/
def Obligations.ChannelsScheduleAndMaintain : Prop :=
  (∀ (drain : Bool) (l : List DramReq),
     (∀ r, pickReq drain l = some r → r ∈ l ∧ ∀ q ∈ l, reqBefore drain q r = false) ∧
     (l ≠ [] → (pickReq drain l).isSome = true)) ∧
  (∀ (s : State) (c : Nat) (r : DramReq), reqChan s r = c → r.chk = none → r.unit = false →
     bitsOf 7 0 (s.raw (DRC_CH_FAULT_STATUS c + 12)) = 0 →
     let ch := dramChan s c
     let u := issueReq c r s
     (dramChan u c).rq = ch.rq.filter (fun q => q.seq != r.seq) ∧ (dramChan u c).wq = ch.wq.filter (fun q => q.seq != r.seq) ∧
     (dramChan u c).hist = (cmdWord s (if r.isRead then 2 else 3) r.port r.burst :: ch.hist).take 16 ∧
     (dramChan u c).answers = (if r.isRead then ch.answers ++ [⟨r.port, r.burst, false,
       (ch.wq.filter (fun q => sameBurst r q && decide (q.seq < r.seq))).foldl (overlay (reqPhys r))
         (tabGetRange dramDefault s.drc.dram (reqPhys r) r.len)⟩] else ch.answers) ∧
     u.drc.dram = (if r.isRead then s.drc.dram else tabSetRange dramDefault s.drc.dram (reqPhys r) r.data) ∧
     u.drc.trip = s.drc.trip) ∧
  (∀ (s : State) (c : Nat), c < numChannels s.fuse.variant → chanOn s c = true →
     (∀ (arrivals : List DrcArrival) (slot : SlotFacts) (t u : State) (r : DramReq),
       let s0 := setDramChan c { dramChan s c with answers := [] } s
       t = foldS (arrive c) (fabricOrder arrivals.length (dramChan s0 c).last arrivals) s0 →
       t.domOn (4 + c / 4) = true → chanState t c = 1 → slot.bank = none →
       let ch := dramChan t c
       pickReq (drainNext ch) ((ch.rq ++ ch.wq).filter (fun q => slot.ready.contains q.seq && (ch.rq ++ ch.wq).all (fun x =>
         !(x.port == q.port && x.burst == q.burst && decide (x.seq < q.seq))))) = some r →
       u = issueReq c r (setDramChan c { ch with drain := drainNext ch } t) → u.drc.trip = none →
       exec (.channelSchedule c arrivals slot) s = .next u.irqSync) ∧
     (s.drc.trip = none →
       let up := fun (r : DramReq) =>
         { r with urg := max r.urg (urgencyAt (s.rd (DRC_PORT_QOS r.port) DRC_PORT_QOS.TARGET) (s.cyc - r.since)) }
       exec (.urgencyRise c) s = .next (setDramChan c
         { dramChan s c with rq := (dramChan s c).rq.map up, wq := (dramChan s c).wq.map up } s).irqSync) ∧
     (s.drc.trip = none → s.rd (DRC_CH_STATUS c) DRC_CH_STATUS.STATE = 1 → keptAwake s = false →
       (dramChan s c).rq = [] → (dramChan s c).wq = [] →
       exec (.selfRefresh c) s =
         .next (putDramChan c (noteCmd 8 (dramChan s c)) (s.wr (DRC_CH_STATUS c) DRC_CH_STATUS.STATE 2)).irqSync) ∧
     (s.drc.trip = none → s.rd (DRC_CH_STATUS c) DRC_CH_STATUS.STATE = 2 →
       (dramChan s c).rq ≠ [] ∨ (dramChan s c).wq ≠ [] →
       exec (.selfRefreshExit c) s = .next
         ((putDramChan c (noteCmd 9 (dramChan s c)) s).wr (DRC_CH_STATUS c) DRC_CH_STATUS.STATE 3).irqSync) ∧
     (s.drc.trip = none → ∀ (ns : Nat) (ok : Bool), ns ≤ 2000 →
       let t := (s.wr (DRC_CH_TRAIN c) DRC_CH_TRAIN.LAST_NS ns).inc (DRC_CH_TRAIN c) DRC_CH_TRAIN.RUNS
       let u := (if ok then t else t.setBit (DRC_CH_IRQ_STATUS c) 2).wr (DRC_CH_STATUS c) DRC_CH_STATUS.STATE 1
       (s.rd (DRC_CH_STATUS c) DRC_CH_STATUS.STATE = 3 → exec (.retraining c ns ok) s = .next u.irqSync) ∧
       (s.rd (DRC_CH_STATUS c) DRC_CH_STATUS.STATE = 1 → s.flag DRC_TRAIN_CFG DRC_TRAIN_CFG.EN = true →
         nextTrain s = some c → exec (.retraining c ns ok) s = .next ({ u with drc := { u.drc with
           trainPos := (c + 1) % numChannels s.fuse.variant } } : State).irqSync)) ∧
     (∀ (a w : Nat) (t : State), s.flag DRC_SCRUB DRC_SCRUB.EN = true → s.flag TOP_MEMTEST_CTL TOP_MEMTEST_CTL.BUSY = false →
       s.domOn 1 = true → granuleFrom s s.drc.scrubPos = some a → winFor s a = some w →
       t = foldS (fun i u => scrubWord w (a + 4 * i) u) (List.range 64)
         (if reqDead s (requestAt s scrubPort w a true 4 []) then s else noteBurst 2 scrubPort (checkBurst s w a) s) →
       t.drc.trip = none →
       exec .scrub s = .next ({ t with drc := { t.drc with scrubPos := a + 256 } } : State).irqSync))

/-- **A check error freezes its channel with the failing request at its queue's head, and FREEZE_RELEASE resumes it.** An
uncorrectable word of a protected window freezes the channel with cause 1 and the word marked, an error on the command path
with cause 2; the failing request stands at the head of its queue. Releasing a frozen channel clears FROZEN, makes it ACTIVE
and takes the held request from its queue: a queued read that met an uncorrectable word is answered with its bytes as
uncorrectable, one that failed on the command path is discarded and counted, and a unit's access is handed back for its
command to meet (the model's choices, assumptions 23 and 104). A write of DRC_CH_ECC zeroes CE_COUNT. -/
def Obligations.FreezeAndRelease : Prop :=
  ∀ (s : State) (c : Nat), s.drc.trip = none → c < 32 → chanOn s c = true →
    (∀ (w a : Nat) (facts : FreezeFacts), c < numChannels s.fuse.variant → chanFrozen s c = false →
      s.rd (DRC_CH_STATUS c) DRC_CH_STATUS.STATE ≠ 0 → winFor s a = some w →
      let q := requestAt s facts.port w a facts.isRead 4 []
      let p := physOf s w a / 4 * 4
      let r := failingReq (dramChan s c) q
      let u := setDramChan c (if r.unit then dramChan s c else dropReq r.seq (dramChan s c)) s
      reqChan s q = c →
      exec (.freeze c true a facts) s = .next (freezeOn c 2 p facts.syndrome r u).irqSync ∧
      (winProt s w = true → facts.isRead = true → exec (.freeze c false a facts) s = .next (freezeOn c 1 p facts.syndrome r
        { u with drc := { u.drc with err := tabSet (fun _ => 0) u.drc.err (p / 4) 2 } }).irqSync)) ∧
    (∀ (cause p syn : Nat) (r : DramReq),
      let t := freezeOn c cause p syn r s
      t.flag (DRC_CH_FREEZE c) DRC_CH_FREEZE.FROZEN = true ∧ t.rd (DRC_CH_STATUS c) DRC_CH_STATUS.STATE = 4 ∧
      (if r.isRead then (dramChan t c).rq else (dramChan t c).wq).head? = some { r with seq := (dramChan s c).seq } ∧
      tabGet (fun _ => 0) t.drc.held c = (dramChan s c).seq + 1) ∧
    (∀ (data : Word) (h : Nat) (r : DramReq), bitAt 16 data = true → chanFrozen s c = true →
      tabGet (fun _ => 0) s.drc.held c = h + 1 →
      ((dramChan s c).rq ++ (dramChan s c).wq).find? (fun q => q.seq == h) = some r →
      let cause := s.rd (DRC_CH_FREEZE c) DRC_CH_FREEZE.CAUSE
      (cause = 1 → r.unit = true ∨ r.isRead = true) →
      ∃ t, exec (.freezeRelease c data) s = .next t ∧ t.rd (DRC_CH_FREEZE c) DRC_CH_FREEZE.FROZEN = 0 ∧
        t.rd (DRC_CH_STATUS c) DRC_CH_STATUS.STATE = 1 ∧ bitAt c (t.reg DRC_FROZEN) = false ∧
        (cause = 2 → t.rd (DRC_CH_FREEZE c) DRC_CH_FREEZE.DISCARDED =
          (s.rd (DRC_CH_FREEZE c) DRC_CH_FREEZE.DISCARDED + 1) % 2 ^ DRC_CH_FREEZE.DISCARDED.w) ∧
        (dramChan t c).rq = (dramChan s c).rq.filter (fun q => q.seq != h) ∧
        (dramChan t c).wq = (dramChan s c).wq.filter (fun q => q.seq != h) ∧
        (dramChan t c).answers = (if r.unit = false ∧ cause = 1
          then [⟨r.port, r.burst, true, tabGetRange dramDefault s.drc.dram (reqPhys r) r.len⟩] else []) ∧
        t.drc.returned = (if r.unit then s.drc.returned ++ [⟨r.port, r.burst, r.isRead, cause⟩] else s.drc.returned) ∧
        t.drc.dram = s.drc.dram ∧ { t with regs := s.regs, drc := s.drc, icu := s.icu } = s) ∧
    (∀ data : Word, s.regLive (DRC_CH_ECC c) = true →
      exec (.eccWrite c data) s =
        .next ((s.hostWrite (DRC_CH_ECC c) data).wr (DRC_CH_ECC c) DRC_CH_ECC.CE_COUNT 0).irqSync)

/-- **The secure store is wiped before every life-cycle transition and on tamper.** An armed code is held with its time, the
model's count of cycles (assumption 43). An authorised GO wipes the store and starts the transition, whose end writes the
fuses, shows the new state and RESULT 1; one not authorised
ends with RESULT 2 and disarms. TAMPER_N low counts an event and wipes a powered store. TAMPER_N high is seen. -/
def Obligations.SecureStoreAndLifeCycle : Prop :=
  ∀ s : State, s.drc.trip = none →
    (∀ data : Word, s.domOn 12 = true → exec (.secLcArm data) s =
      .next ({ s with sec := { s.sec with arm := some data, armAt := s.cyc } } : State).irqSync) ∧
    (∀ data : Word, s.domOn 12 = true → bitAt 2 data = true → s.sec.target = none →
      let t := s.hostWrite SEC_LC_CTL data
      (lcAuthorised t (bitsOf 1 0 data) = true → ∃ u, exec (.secLcGo data) s = .next u ∧
        u.sec.mem = [] ∧ u.sec.target = some (bitsOf 1 0 data) ∧ u.rd SEC_LC_CTL SEC_LC_CTL.BUSY = 1 ∧
        u.fuse = s.fuse ∧ { u with regs := s.regs, sec := s.sec, icu := s.icu } = s) ∧
      (lcAuthorised t (bitsOf 1 0 data) = false → ∃ u, exec (.secLcGo data) s = .next u ∧
        u.sec.mem = s.sec.mem ∧ u.sec.arm = none ∧ u.rd SEC_LC_CTL SEC_LC_CTL.RESULT = 2 ∧
        { u with regs := s.regs, sec := s.sec, icu := s.icu } = s)) ∧
    (∀ g : Nat, s.sec.target = some g → ∃ u, exec .lcDone s = .next u ∧ u.fuse.lifeCycle = g ∧ u.fuse.burnt = g ∧
      u.sec.target = none ∧ u.rd SEC_LC_CTL SEC_LC_CTL.BUSY = 0 ∧ u.rd SEC_LC_CTL SEC_LC_CTL.RESULT = 1 ∧
      u.sec.mem = s.sec.mem ∧ { u with regs := s.regs, fuse := s.fuse, sec := s.sec, icu := s.icu } = s) ∧
    (s.pins.tamperN = true → s.domOn 0 = true → ∃ u, exec .tamper s = .next u ∧ u.pins.tamperN = false ∧
      u.rd SEC_TAMPER SEC_TAMPER.EVENTS = (s.rd SEC_TAMPER SEC_TAMPER.EVENTS + 1) % 2 ^ SEC_TAMPER.EVENTS.w ∧
      u.sec.mem = (if s.domOn 12 then [] else s.sec.mem) ∧
      { u with regs := s.regs, pins := s.pins, sec := s.sec, icu := s.icu } = s) ∧
    (exec .tamperNRise s = .next ({ s with pins := { s.pins with tamperN := true } } : State).irqSync)

/-! ## Interrupts and faults -/

/-- **The SDI block's sources follow its status, enable and fault bits.** Source 960 + 3n + b is pending while bit b of input n's
status and enable registers are both 1, source 984 + m while output m's UNDERRUN and its enable are, source 986 while some
bit of SDI_FAULT_STATUS is set that its mask leaves, and sources 987 to 991 never. -/
def Obligations.SdiSourcesFollowTheirBits : Prop :=
  ∀ s : State,
    (∀ n b : Nat, n < 8 → b < 3 → (960 + 3 * n + b ∈ s.highSources ↔
      bitAt b (s.raw (SDI_IN_IRQ_STATUS n)) = true ∧ bitAt b (s.reg (SDI_IN_IRQ_EN n)) = true)) ∧
    (∀ m : Nat, m < 2 → (984 + m ∈ s.highSources ↔
      bitAt 0 (s.raw (SDI_OUT_IRQ_STATUS m)) = true ∧ bitAt 0 (s.reg (SDI_OUT_IRQ_EN m)) = true)) ∧
    (986 ∈ s.highSources ↔
      ∃ b, b < 32 ∧ bitAt b (s.raw SDI_FAULT_STATUS) = true ∧ bitAt b (s.reg (SDI_FAULT_STATUS + 4)) = false) ∧
    (∀ x, 987 ≤ x → x ∉ s.highSources)

/-- **A claim takes the eligible source of highest PRIORITY, the lowest number on a tie.** With no access injected, a claim
of a context with eligible sources returns one that no eligible source exceeds in PRIORITY and none of equal PRIORITY
precedes; it becomes ACTIVE in that context and no longer PENDING, N clears and CLAIMS counts. With none eligible the
claim returns 1023 and SPURIOUS counts where N was set; where N was clear it returns 0 and the context's counts stay. -/
def Obligations.ClaimTakesHighestPriority : Prop :=
  ∀ (s : State) (k : Nat), s.drc.trip = none → k < 64 → s.domOn 1 = true → bitsOf 7 0 (s.raw ICU_FAULT_INJECT) = 0 →
    let prio := fun x => bitsOf 3 0 (s.raw (ICU_SRC_CFG x))
    (eligibleSources s k ≠ [] → ∃ x t, exec (.claim k) s = .next t ∧ x ∈ eligibleSources s k ∧
      (∀ y ∈ eligibleSources s k, prio y < prio x ∨ prio y = prio x ∧ x ≤ y) ∧
      t.host.lastRead = BitVec.ofNat 32 x ∧ srcPending t x = false ∧ srcActive t x = true ∧
      t.rd (ICU_SRC_CFG x) ICU_SRC_CFG.ACT_CTX = k ∧ t.rd (ICU_CTX_CFG k) ICU_CTX_CFG.NOTIFIED = 0 ∧
      t.rd (ICU_CTX_COUNT k) ICU_CTX_COUNT.CLAIMS = (s.rd (ICU_CTX_COUNT k) ICU_CTX_COUNT.CLAIMS + 1) % 2 ^ 16 ∧
      (∀ a, a ≠ ICU_SRC_CFG x → a ≠ ICU_CTX_CFG k → a ≠ ICU_CTX_COUNT k → t.reg a = s.reg a) ∧
      { t with regs := s.regs, host := s.host, icu := s.icu } = s) ∧
    (eligibleSources s k = [] → ∃ t, exec (.claim k) s = .next t ∧
      t.host.lastRead = (if s.flag (ICU_CTX_CFG k) ICU_CTX_CFG.NOTIFIED then 1023 else 0) ∧
      t.rd (ICU_CTX_CFG k) ICU_CTX_CFG.NOTIFIED = 0 ∧
      (s.flag (ICU_CTX_CFG k) ICU_CTX_CFG.NOTIFIED = true →
        t.rd (ICU_CTX_COUNT k) ICU_CTX_COUNT.SPURIOUS =
          (s.rd (ICU_CTX_COUNT k) ICU_CTX_COUNT.SPURIOUS + 1) % 2 ^ ICU_CTX_COUNT.SPURIOUS.w ∧
        t.rd (ICU_CTX_COUNT k) ICU_CTX_COUNT.CLAIMS = s.rd (ICU_CTX_COUNT k) ICU_CTX_COUNT.CLAIMS) ∧
      (s.flag (ICU_CTX_CFG k) ICU_CTX_CFG.NOTIFIED = false → t.reg (ICU_CTX_COUNT k) = s.reg (ICU_CTX_COUNT k)) ∧
      (∀ a, a ≠ ICU_CTX_CFG k → a ≠ ICU_CTX_COUNT k → t.reg a = s.reg a) ∧
      { t with regs := s.regs, host := s.host, icu := s.icu } = s)

/-- **Messages, doorbells, notifications, configuration, the mirror, the wake set and FAULT_N.** The oldest message in
flight of a sender (which sources share a sender is the model's reading, assumption 14), and a host doorbell with no reserved
bit set, set or clear PENDING of a source that can become pending (assumption 143), with no access injected and no sleep
requested. A
notifiable context sends its vector once and sets N. A completion of a source that is ACTIVE in the page's context clears
ACTIVE and has the source sampled again (ACT_CTX keeps its value, the model's choice, assumption 39); any other, of a source
not ACTIVE or ACTIVE in another context, is counted as stray. Source and context words, ICU_GLOBAL and the FAULT_INJECT
registers take a write by access codes. Unmasking a vector with a pending bit sends it. The oldest mirror write sets
or clears its scratchpad bit when it does not collide. In sleep a set message of a wake-set source is latched and
wakes the engine; before the commit it abandons the entry. ASSERT and RELEASE drive the pin's latch; a pin event pulses and counts; the pulse ends. -/
def Obligations.InterruptsAndFaultPin : Prop :=
  (∀ s : State, s.drc.trip = none → s.domOn 1 = true → bitsOf 7 0 (s.raw ICU_FAULT_INJECT) = 0 →
     (∀ (src : Nat) (r : Bool) (rest : List (Nat × Bool)), s.pwr.mode ≠ .asleep → s.pwr.sleepReq = false →
       nextMessage src s.icu.msgs = some (r, rest) →
       deadSource src = false → absentSource s.fuse.variant src = false → unusedSource src = false →
       exec (.message src) s =
         .next (setPending src (!r) { s with icu := { s.icu with msgs := rest } }).irqSync) ∧
     (∀ data : Word, s.pwr.mode ≠ .asleep → s.pwr.sleepReq = false → bitsOf 30 10 data = 0 →
       deadSource (bitsOf 9 0 data) = false → absentSource s.fuse.variant (bitsOf 9 0 data) = false →
       unusedSource (bitsOf 9 0 data) = false →
       exec (.icuDoorbell data) s = .next (setPending (bitsOf 9 0 data) (!bitAt 31 data) s).irqSync) ∧
     (∀ k : Nat, k < 64 → s.linkUp = true → notifiable s k = true →
       exec (.notification k) s = .next ((msixSend (s.rd (ICU_CTX_CFG k) ICU_CTX_CFG.VECTOR) s).wr (ICU_CTX_CFG k)
         ICU_CTX_CFG.NOTIFIED 1).irqSync) ∧
     (∀ (k : Nat) (data : Word), k < 64 →
       let x := bitsOf 9 0 data
       let w := s.raw (ICU_SRC_CFG x)
       (bitAt 25 w = true → bitsOf 31 26 w = k → exec (.complete k data) s =
         .next ((s.wr (ICU_SRC_CFG x) ICU_SRC_CFG.ACTIVE 0).resampleOne x).irqSync) ∧
       (bitAt 25 w = false ∨ bitsOf 31 26 w ≠ k → exec (.complete k data) s = .next (((s.inc ICU_STRAY_COMPLETE ICU_STRAY_COMPLETE.COUNT).setReg
         ICU_STRAY_LAST (BitVec.ofNat 32 (x + k * 2 ^ 16))).setBit ICU_IRQ_STATUS 1).irqSync))) ∧
  (∀ s : State, s.drc.trip = none →
     (∀ (a : Nat) (data : Word), icuConfigReg a = true → exec (.icuConfigWrite a data) s = .next (s.hostWrite a data).irqSync) ∧
     (∀ data : Word, exec (.deliverEn data) s = .next (s.hostWrite ICU_GLOBAL data).irqSync) ∧
     (∀ (a : Nat) (data : Word), isFaultInject a = true → exec (.faultInject a data) s = .next (s.hostWrite a data).irqSync) ∧
     (∀ v : Nat, v < 64 → s.domOn 1 = true →
       let t := s.clrBit (HQ_MSIX_TABLE (4 * v + 3)) 0
       exec (.msixUnmask v) s = .next (if bitAt (v % 32) (t.raw (HQ_MSIX_PBA (v / 32)))
         then msixSend v (t.clrBit (HQ_MSIX_PBA (v / 32)) (v % 32)) else t).irqSync) ∧
     (∀ (src : Nat) (v : Bool) (rest : List (Nat × Bool)), s.domOn 1 = true → s.icu.mirror = (src, v) :: rest →
       s.flag ICU_GLOBAL ICU_GLOBAL.MIRROR_EN = true →
       let t := spdPerform s (s.rd ICU_MIRROR ICU_MIRROR.ADDR * 32 + src / 32) (if v then .set else .clear)
         (BitVec.ofNat 32 (2 ^ (src % 32))) 15
       exec (.mirrorWrite false) s = .next ({ t with icu := { t.icu with mirror := rest, collide := 0 } } : State).irqSync) ∧
     (∀ (src : Nat) (rest : List (Nat × Bool)), s.wakeNamed src = true → nextMessage src s.icu.msgs = some (false, rest) →
       bitsOf 7 0 (s.raw BW_FAULT_INJECT) = 0 →
       (s.pwr.mode = .asleep → ∃ t, exec (.wakeLatch src) s = .next t ∧ t.pwr.wakeReq = true ∧
         (∀ j, j < 64 → bitAt 31 (s.raw (BW_WAKE_SRC j)) = true → bitsOf 9 0 (s.raw (BW_WAKE_SRC j)) = src →
           bitAt (j % 32) (t.reg (if j < 32 then BW_WAKE_LATCH_LO else BW_WAKE_LATCH_HI)) = true)) ∧
       (s.pwr.mode ≠ .asleep → s.pwr.sleepReq = true →
         exec (.wakeLatch src) s = .next (abandonSleep s).irqSync)) ∧
     (∀ data : Word, bitAt 0 data = true → bitAt 1 data = false →
       exec (.assert data) s = .next (s.hostWrite TOP_FAULT_PIN data).irqSync) ∧
     (∀ data : Word, bitAt 1 data = true → bitAt 0 data = false → exec (.faultPinRelease data) s =
       .next ((s.hostWrite TOP_FAULT_PIN data).wr TOP_FAULT_PIN TOP_FAULT_PIN.ASSERT 0).irqSync) ∧
     (0 < s.pinEvts → ∃ t, exec .pinEvent s = .next t ∧ t.pinEvts = s.pinEvts - 1 ∧
       t.flag TOP_FAULT_PIN TOP_FAULT_PIN.PULSING = true ∧ t.flag TOP_FAULT_PIN TOP_FAULT_PIN.EVENT = true ∧
       t.rd TOP_FAULT_PIN TOP_FAULT_PIN.EVENTS =
         (s.rd TOP_FAULT_PIN TOP_FAULT_PIN.EVENTS + 1) % 2 ^ TOP_FAULT_PIN.EVENTS.w ∧
       (s.flag TOP_FAULT_PIN TOP_FAULT_PIN.LATCH_EN = true → t.flag TOP_FAULT_PIN TOP_FAULT_PIN.ASSERT = true)) ∧
     (s.flag TOP_FAULT_PIN TOP_FAULT_PIN.PULSING = true →
       exec .pulseEnd s = .next (s.wr TOP_FAULT_PIN TOP_FAULT_PIN.PULSING 0).irqSync))

/-! ## Streams and decode slices -/

/-- **A stream opens in a free context with the lowest free run, and closes by draining or discarding.** STREAM_OPEN
with legal words, in a context that is closed, within the limits, takes the lowest free aligned run of entries (that it is
the lowest is the model's choice, assumption 45), opens the context with nothing published and returns the run's base; an open context gives CONTEXT_STATE, an exhausted table
PPT_FULL. The run found starts at a multiple of its length, lies in the 512 entries, holds only free entries, and no
lower aligned run is free; where none is found, every aligned run has an entry in use. STREAM_CLOSE draining marks the
context closing and closes it once nothing waits; discarding ends waiting units and the picture in progress ABORTED, its jobs
with its damage count, and closes at once; STREAM_ERR is set where a job of the picture had ended so. -/
def Obligations.StreamsOpenAndClose : Prop :=
  (∀ (s : State) (slot : Nat),
     let j := s.job slot
     let c := j.context
     (s.drc.trip = none → s.startable slot opStreamOpen = true → openWordsOk s j = true →
       let gang := bitsOf 3 2 (j.w 4)
       let codec := bitsOf 3 0 (j.w 2)
       let n := 2 ^ bitsOf 7 6 (j.w 4)
       (∀ x, ctxOf s c = some x → exec (.streamOpen slot) s = .next (fail slot stContextState s).irqSync) ∧
       (ctxOf s c = none →
         openLimits codec (bitsOf 7 4 (j.w 2)) (bitsOf 15 8 (j.w 2)) (bitsOf 15 0 (j.w 3)) (bitsOf 31 16 (j.w 3)) gang = true →
         (gang = 0 ∨ codec ≠ 2 ∧ 2 ^ gang ≤ gangLimit s.fuse.variant) →
         (freeRun s n = none → exec (.streamOpen slot) s = .next (fail slot stPptFull s).irqSync) ∧
         (∀ b, freeRun s n = some b → exec (.streamOpen slot) s = .next (present slot stOk [BitVec.ofNat 32 b]
           (setCtx c (some ⟨j.words, b, 0, [], [], none, []⟩) (takeRun b n c s))).irqSync))) ∧
     (∀ (x : Ctx) (t : State), s.startable slot opStreamClose = true → closeWordsOk j = true → ctxOf s c = some x →
       x.closing = none → bitAt 0 (j.w 2) = false →
       t = tryClose c (setCtx c (some { x with closing := some (s.jobRef slot) }) (beginJob slot s)) → t.drc.trip = none →
       exec (.streamCloseDrain slot) s = .next t.irqSync) ∧
     (∀ (x : Ctx) (t : State), s.startable slot opStreamClose = true → closeWordsOk j = true → ctxOf s c = some x →
       x.closing = none → bitAt 0 (j.w 2) = true →
       t = (let mine := match picOf s c with | none => [] | some p => p.jobs.map (fun k => k.ref)
            let count := match picOf s c with | none => 0 | some p => p.damage.length
            let t0 := match picOf s c with | none => s | some p => streamErrBits p.errs p.members s
            let t1 := foldS (fun u v => refuseRef u.ref stAborted v) (waitingOf s x) (abandonPic c t0)
            present slot stOk [BitVec.ofNat 32 (x.slots.countP (fun f => f.output && !f.published) % 32)]
              (closeCtx c (foldS (fun r v => presentRef r stAborted (unitResults none count) v) mine t1))) → t.drc.trip = none →
       exec (.streamCloseDiscard slot) s = .next t.irqSync)) ∧
  (∀ (s : State) (n : Nat), 0 < n →
     (∀ b, freeRun s n = some b → b % n = 0 ∧ b + n ≤ 512 ∧ (∀ i, i < n → entryFree s (b + i) = true) ∧
       ∀ a, a % n = 0 → a < b → ∃ i, i < n ∧ entryFree s (a + i) = false) ∧
     (freeRun s n = none → ∀ a, a % n = 0 → a + n ≤ 512 → ∃ i, i < n ∧ entryFree s (a + i) = false))

/-- **A DECODE_UNIT waits for its context, and ready contexts are granted by class.** As the scheduler sees the next
unit of an open context it waits with its words, and its job stays QUEUED; a unit the rules refuse is accepted and its
record presents the status; a FLUSH of length 0 with nothing before it discards the reference marks with DISCONTINUITY,
publishes the next pending picture and reports it, and with RELEASE_BITSTREAM releases the buffer it names. The context the scheduler picks is ready and no ready context has a higher priority class; with a ready context of
a legal class it picks one. The sequencer it picks is allowed and eligible, and no allowed eligible one has served
fewer units. -/
def Obligations.UnitsAndContexts : Prop :=
  (∀ (s : State) (slot : Nat), maySee s (s.job slot) = true → s.domOn 1 = true → bitsOf 7 0 (s.raw HQ_FAULT_INJECT) = 0 →
     let j := s.job slot
     let r := s.jobRef slot
     (∀ x, s.drc.trip = none → unitRefusal s j = none → ctxOf s j.context = some x → duLength j.words ≠ 0 →
       exec (.decodeUnit slot) s = .next (setCtx j.context (some { x with waiting := waitingOf s x ++ [⟨r, j.words⟩] })
         (s.setJob slot { j with begun := true })).irqSync) ∧
     (∀ st, s.drc.trip = none → unitRefusal s j = some st →
       exec (.decodeUnit slot) s = .next (presentRef r st [] (acceptRef r s)).irqSync) ∧
     (∀ x t, unitRefusal s j = none → ctxOf s j.context = some x → duLength j.words = 0 → waitingOf s x = [] →
       picOf s j.context = none →
       t = (let t0 := acceptRef r s
            let o := publishNext j.context (if duDisc j.words then discontinuity j.context t0 else t0)
            presentRef r stOk (unitResults (o.1.map (fun p => (wordAt p.1.words 0, p.2.1, p.2.2, p.1.stamp))) 0)
              (if duRelease j.words && duHandle j.words != 0 then releaseS 8 (duHandle j.words) o.2 else o.2)) →
       t.drc.trip = none → exec (.decodeUnit slot) s = .next t.irqSync)) ∧
  (∀ s : State,
     (∀ c, pickCtx s = some c → c < 512 ∧ ctxReady s c = true ∧ ∃ x, ctxOf s c = some x ∧
       ∀ d y, d < 512 → ctxOf s d = some y → ctxReady s d = true → y.prio ≤ x.prio) ∧
     (∀ d y, d < 512 → ctxOf s d = some y → ctxReady s d = true → (pickCtx s).isSome = true) ∧
     (∀ mask q, pickSeq s mask = some q → hsqAllowed mask q = true ∧ hsqEligible s q = true ∧
       ∀ p, p < 4 → hsqAllowed mask p = true → hsqEligible s p = true → (hsqOf s q).served ≤ (hsqOf s p).served))

/-- **A picture is granted, described, started, decoded and ended.** A slice that can take one is granted the context
picked, alone for a context of one slice, and is gathered into a gang for a wider one (its members in the order of
assumption 48); where another slice left a grant it takes that one. The first PICTURE descriptor of
a picture, with a tile grid that fits it, gives it its format and, substitutes first (assumption 46), its reference marks. A
picture that has one, with a slot and
a buffer to be had, starts on its slices, each free to begin it, with its frame buffers taken, and is published where
everything before it in output order is. A slice decodes the data of
the segment due, in a rerun by what it held before (R112), and completes the jobs before the segment's; of a lost picture it
drops the segment. A
row all of whose blocks are covered is finished in memory and in the entry, or is final already (R112); a picture whose units have all been parsed and
taken ends; and one whose next unit does not come ends with CONCEALED and UNIT_WAIT. -/
def Obligations.PicturesRun : Prop :=
  (∀ (s : State) (n : Nat),
     (s.drc.trip = none → canTake s n = true → ∀ m, grantLeft s n = some m →
       exec (.contextGrant n) s = .next (handGrant m n s).irqSync) ∧
     (s.drc.trip = none → canTake s n = true → grantLeft s n = none → s.dec.gather = none → ∀ c, pickCtx s = some c →
       ctxWidth s c = 1 →
       exec (.contextGrant n) s = .next (grantPicture c [n] s).irqSync) ∧
     (s.drc.trip = none → canTake s n = true → grantLeft s n = none → s.dec.gather = none → ∀ c, pickCtx s = some c →
       1 < ctxWidth s c →
       exec (.gangGather n) s = .next ({ s with dec := { s.dec with gather := some (c, [n]) } } : State).irqSync) ∧
     (s.drc.trip = none → canTake s n = true → grantLeft s n = none → ∀ c got, s.dec.gather = some (c, got) →
       ctxReady s c = true → n ∉ got →
       exec (.gangGather n) s = .next (if ctxWidth s c ≤ (got ++ [n]).length
         then grantPicture c (gangMembers (match ctxOf s c with | none => [] | some x => x.gang) (got ++ [n]) (ctxWidth s c))
           { s with dec := { s.dec with gather := none } }
         else { s with dec := { s.dec with gather := some (c, got ++ [n]) } } : State).irqSync) ∧
     (∀ (d : Desc) (x : Ctx) (p : DecPic) (f : PicFacts) (t : State), descDue s n = some d →
       ctxOf s d.ctx = some x → picOf s d.ctx = some p → d.cls = 0 → p.info = none → p.lost = none →
       factsFit d.words (pictureInfo d.words f) = true →
       t = (let i := withSubstitutes x (pictureInfo d.words f)
            let t1 := setPic d.ctx (some { p with info := some i }) (popDesc n d.ctx s)
            let t2 := if i.missing != 0 then t1.inc DS_REFMISS_PICS DS_REFMISS_PICS.PICTURES else t1
            let t3 := applyMarks d.ctx i.refHandle (bitsOf 15 0 (wordAt d.words 5)) t2
            match descriptorLoss t3 x i (bitsOf 15 8 (wordAt d.words 4) * bitsOf 23 16 (wordAt d.words 4)) with
            | some st => setLost d.ctx st t3
            | none => t3) → t.drc.trip = none →
       exec (.pictureDescriptor n f) s = .next t.irqSync) ∧
     (∀ (c : Nat) (x : Ctx) (p : DecPic) (i : PicInfo) (h g : Word) (t1 t : State), (sliceOf s n).next = some c →
       ctxOf s c = some x → picOf s c = some p → p.info = some i → p.lost = none → p.started = false →
       holdWaiting s x.pool = false → (∀ m ∈ p.members, mayBegin s c m = true) →
       x.slots.length + (if i.grain then 2 else 1) ≤ x.fbMax →
       pictureBytes i.width i.height i.chroma i.bits10 ≤ poolSize x.pool →
       allocFrames n x i.grain s = (stOk, h, g, t1) →
       t = (let out := !neverPublished p i
            let slots := if i.grain
              then [newSlot c p i h h false false, newSlot c p i g g out true] else [newSlot c p i h h out false]
            let t2 := setCtx c (some { x with slots := x.slots ++ slots }) t1
            let e := if out && orderDue x i then publish c (if i.grain then g else h) peDecoding t2 else (none, t2)
            foldS (fun mn u => sliceStarts c p.members.length mn.2 mn.1 u) p.members.zipIdx
              (setPic c (some { p with started := true, fb := h, disp := g, entry := e.1 }) e.2)) → t.drc.trip = none →
       exec (.pictureStart n) s = .next t.irqSync)) ∧
  (∀ (s : State) (n c : Nat) (x : Ctx) (p : DecPic), ctxOf s c = some x → picOf s c = some p →
     (∀ (i : PicInfo) (d : Desc) (f : SegFacts) (data : Option (List Byte)) (u t : State), p.info = some i →
       p.lost = none → descDue s n = some d → d.ctx = c → d.cls = 1 → p.started = true → (sliceOf s n).cur = some c →
       (sliceOf s n).segs = p.segs →
       (let t0 := popDesc n c s
        segmentData n d (setSlice n { sliceOf t0 n with segs := p.segs + 1 } t0) = (data, u)) →
       t = finishBefore c d.ref (setPic c (some (decodeSegment x p i d
         (p.walks.getD p.segs (segmentFacts x.codec i d data f)))) u) →
       t.drc.trip = none → exec (.segmentDescriptor n f) s = .next t.irqSync) ∧
     (∀ (d : Desc) (f : SegFacts), s.drc.trip = none → p.lost.isSome = true → descDue s n = some d → d.ctx = c → d.cls = 1 →
       exec (.segmentDescriptor n f) s = .next (popDesc n c s).irqSync) ∧
     (∀ (i : PicInfo) (bytes : List (List Byte)) (t : State), p.info = some i → (sliceOf s n).cur = some c →
       p.members.length = 1 → p.started = true → (sliceOf s n).parts < i.rowCount →
       (sliceOf s n).parts < p.rows ∨ linesFit i (sliceOf s n).parts ((sliceOf s n).parts + 1) bytes = true →
       bitsOf 7 0 (s.raw (DS_FAULT_STATUS n + 12)) = 0 → rowCovered i p.covered (sliceOf s n).parts = true →
       t = (let r := (sliceOf s n).parts
            let t2 := setSlice n { sliceOf s n with parts := r + 1 } (setPic c (some p) s)
            if r < p.rows then t2 else finishRows c r (r + 1) bytes t2) →
       t.drc.trip = none → exec (.rowComplete n bytes) s = .next t.irqSync) ∧
     (∀ (bytes : List (List Byte)) (t : State), sliceCtx s n = some c → p.ended = true →
       p.lost.isSome = true ∨ consumed s c p = true → t = tryEnd n c bytes [] s → t.drc.trip = none →
       exec (.pictureComplete n bytes) s = .next t.irqSync) ∧
     (∀ (bytes : List (List Byte)) (u : State), sliceCtx s n = some c → p.ended = false →
       p.jobs.all (fun k => k.parsed) = true → waitingOf s x = [] → consumed s c p = true →
       p.started = true ∨ p.info = none ∨ p.lost.isSome = true →
       u = tryEnd n c bytes (if p.started then [stConcealed] else []) s → picOf u c = none →
       (foldS (fun m v => v.setBit (DS_IRQ_STATUS m) 5) p.members u).drc.trip = none →
       exec (.unitWait n bytes) s = .next (foldS (fun m v => v.setBit (DS_IRQ_STATUS m) 5) p.members u).irqSync))

/-- **The slipway rotates, slices drain, test themselves and are reset, and a lost picture runs again.** A requested
rotation that can be made is committed; NOW asks for one and commits it at once where it can; the period asks for one.
Draining an ACTIVE slice makes it DRAINING and the slipway ACTIVE, which takes the grant it has not begun. A drained slice
goes to BIST by rotation and OFFLINE by DRAIN, and becomes ACTIVE where a rerun waits for it. BIST starts in a SLIPWAY,
OFFLINE or RETIRED slice, its domain on for the run where it is off, is refused as BUSY in an ACTIVE one and where the
domain's parents are off, and ends with the slice SLIPWAY or OFFLINE on a pass and RETIRED with its domain off on a failure.
An ACTIVE or DRAINING slice whose
watchdog fires becomes RESETTING with the fault and the event recorded, and its picture, with the grant it has not begun,
goes to the slice that takes reruns, or its picture stays where there is none; a rotation that could be committed is
cancelled. The rerun starts the picture on its slice, its final rows kept. When the reset ends the slice goes to BIST, or
ACTIVE where it kept its picture. The model's choices in this: assumption 49 (OFFLINE on a pass where a slipway exists or
the domain is off), 101 (the domain on for a run, BUSY where its parents are off), 117 (who takes the grant not begun), 119
(a DRAINING slice resets too; which slice takes the rerun). -/
def Obligations.SliceRolesAndReruns : Prop :=
  (∀ s : State, s.drc.trip = none →
     (s.dec.rotate = true → canRotate s = true → exec .rotation s = .next (commitRotation s).irqSync) ∧
     (s.domOn 1 = true → s.rd DS_ROT_CFG DS_ROT_CFG.PERIOD_H ≠ 0 →
       exec .rotationPeriod s = .next ({ s with dec := { s.dec with rotate := true } } : State).irqSync) ∧
     (∀ data : Word, s.domOn 1 = true → bitAt 0 data = true →
       let t : State := { s with dec := { s.dec with rotate := true } }
       exec (.now data) s = .next (if canRotate s then commitRotation t else t).irqSync) ∧
     (∀ (n sl : Nat) (data : Word) (rest : List Nat), n < numSlices s.fuse.variant → s.domOn 1 = true →
       bitAt 1 data = false → bitAt 0 data = true → s.flag (DS_CTL n) DS_CTL.DRAIN = false → roleOf s n = roActive →
       let t := setRole n roDraining (setSlice n { sliceOf s n with rot := false } (s.wr (DS_CTL n) DS_CTL.DRAIN 1))
       inRole t roSlipway = sl :: rest →
       exec (.drain n data) s = .next (passGrant n (some sl) (setRole sl roActive t)).irqSync) ∧
     (∀ n : Nat, n < numSlices s.fuse.variant → roleOf s n = roDraining → (sliceOf s n).cur = none →
       ((sliceOf s n).rerun ≠ [] → exec (.drainedPictureDone n) s =
         .next (setRole n roActive (setSlice n { sliceOf s n with rot := false } s)).irqSync) ∧
       ((sliceOf s n).rerun = [] →
         (s.flag (DS_CTL n) DS_CTL.DRAIN = true → exec (.drainedPictureDone n) s = .next (setRole n roOffline s).irqSync) ∧
         (s.flag (DS_CTL n) DS_CTL.DRAIN = false → (sliceOf s n).rot = true →
           exec (.drainedPictureDone n) s = .next (beginBist n true s).irqSync))) ∧
     (∀ (n : Nat) (data : Word), n < numSlices s.fuse.variant → s.domOn 1 = true → bitAt 1 data = true →
       let t := writeDrain n (bitAt 0 data) s
       (roleOf t n = roSlipway ∨ roleOf t n = roOffline ∧ t.domOn (15 + n) = true →
         exec (.bistStart n data) s = .next (beginBist n false t).irqSync) ∧
       (roleOf t n = roRetired ∨ roleOf t n = roOffline ∧ t.domOn (15 + n) = false →
         parentsIn s.fuse.variant s.pwr.doms (15 + n) = true → exec (.bistStart n data) s =
         .next (beginBist n false (sliceDomain n true (setSlice n { sliceOf t n with powered := true } t))).irqSync) ∧
       (roleOf t n = roRetired ∨ roleOf t n = roOffline ∧ t.domOn (15 + n) = false →
         parentsIn s.fuse.variant s.pwr.doms (15 + n) = false →
         exec (.bistStart n data) s = .next (t.wr (DS_BIST n) DS_BIST.RESULT 3).irqSync) ∧
       (roleOf t n = roActive → exec (.bistStart n data) s = .next (t.wr (DS_BIST n) DS_BIST.RESULT 3).irqSync)) ∧
     (∀ (n fg : Nat), n < numSlices s.fuse.variant → roleOf s n = roBist →
       let t0 := endPowered n (s.inc (DS_BIST n) DS_BIST.RUNS)
       let ok := ((t0.wr (DS_BIST n) DS_BIST.RESULT 1).wr (DS_BIST n) DS_BIST.FAIL_GROUP 0).setBit (DS_IRQ_STATUS n) 1
       let bad := ((t0.wr (DS_BIST n) DS_BIST.RESULT 2).wr (DS_BIST n) DS_BIST.FAIL_GROUP fg).setBit (DS_IRQ_STATUS n) 2
       exec (.bistDone n true fg) s = .next (setRole n
         (if ok.flag (DS_CTL n) DS_CTL.DRAIN || !ok.domOn (15 + n) || !(inRole ok roSlipway).isEmpty then roOffline
          else roSlipway) ok).irqSync ∧
       exec (.bistDone n false fg) s = .next (sliceDomain n false (setRole n roRetired bad)).irqSync)) ∧
  (∀ (s : State) (n : Nat), s.drc.trip = none →
     (∀ (c : Nat) (p : DecPic), n < numSlices s.fuse.variant → s.flag (DS_WDOG n) DS_WDOG.EN = true →
       roleOf s n = roActive ∨ roleOf s n = roDraining → (sliceOf s n).cur = some c → picOf s c = some p →
       let t0 : State := if canRotate s then { s with dec := { s.dec with rotate := false } } else s
       let t1 := ((setRole n roResetting t0).setBit (DS_IRQ_STATUS n) 0).incSat (DS_WDOG n) DS_WDOG.FIRED_COUNT
       let t2 := (t1.setFault (DS_FAULT_STATUS n) 3).wr (DS_STATUS n) DS_STATUS.BUSY 0
       (∀ m, rerunSlice t2 n = some m →
         exec (.wdog n) s = .next (passGrant n (some m) (assignRerun c n m p t2)).irqSync) ∧
       (rerunSlice t2 n = none → exec (.wdog n) s = .next (rerunHere c n p t2).irqSync)) ∧
     (∀ (c : Nat) (rest : List Nat) (p : DecPic), (sliceOf s n).cur = none → roleOf s n = roActive →
       (sliceOf s n).rerun = c :: rest → picOf s c = some p →
       let q := if p.members.length = 1 then restarted p else p
       exec (.rerunStart n) s = .next (sliceStarts c p.members.length (p.members.findIdx (fun k => k == n)) n
         (setPic c (some q) s)).irqSync) ∧
     (n < numSlices s.fuse.variant → roleOf s n = roResetting →
       ((sliceOf s n).handed = true → exec (.sliceResetDone n) s =
         .next (beginBist n false (setSlice n { sliceOf s n with handed := false } s)).irqSync) ∧
       ((sliceOf s n).handed = false → exec (.sliceResetDone n) s = .next (setRole n roActive s).irqSync)))

/-! ## Header sequencers -/

/-- **Each ALU operation writes its result and flags and nothing else.** With the ALU field of a good microword due on a
sequencer, each of the operations 1 to 13 writes the result of A, B and the shift to its register, sets Z and N from it,
and C as ADD's carry or SUB's borrow (free for the others); CMP sets the flags of A − B and no register; MOV copies B and
touches no flag; NOP does nothing; a code above 15 traps. EXT takes the low B[5:0] bits of A shifted.
Every other register, flag and sequencer, and all else, is as before, and the stream-port field is due next (that a word's
four fields act one after the other, and that C is free where no rule gives it, are the model's choices, assumption 18). -/
def Obligations.AluOperations : Prop :=
  ∀ (s : State) (q : Nat), s.drc.trip = none → mayAct s q 0 = true →
    let w := curWord s q
    let h := hsqOf s q
    let a := aluA w h
    let b := aluB w h
    let k := aluShift w
    let next := fun (c : Instr) (reg : Option Word) (flagsFrom : Option Word) (carry : Option Bool) => ∃ t, exec c s = .next t ∧
      (∀ r, tabGet (fun _ => 0) (hsqOf t q).regs r = match reg with
        | some v => if r = mw w 6 6 then v else tabGet (fun _ => 0) h.regs r
        | none => tabGet (fun _ => 0) h.regs r) ∧
      (∀ v, flagsFrom = some v → flagOf (hsqOf t q).flags fZ = (v == 0) ∧ flagOf (hsqOf t q).flags fN = v.msb) ∧
      (flagsFrom = none → (hsqOf t q).flags = h.flags) ∧
      (∀ x, carry = some x → flagOf (hsqOf t q).flags fC = x) ∧
      (∀ i, 3 ≤ i → i < 6 → flagOf (hsqOf t q).flags i = flagOf h.flags i) ∧ (hsqOf t q).phase = 1 ∧
      { hsqOf t q with regs := h.regs, flags := h.flags, phase := 0 } = h ∧ (∀ p, p ≠ q → hsqOf t p = hsqOf s p) ∧
      { t with hsq := s.hsq, free := s.free, icu := s.icu } = s
    let res := fun (c : Instr) (v : Word) (carry : Option Bool) => next c (some v) (some v) carry
    (aluOp w = 0 → next (.aluNop q) none none none) ∧
    (aluOp w = 1 → res (.aluAdd q) (a + b) (some (decide (2 ^ 32 ≤ a.toNat + b.toNat)))) ∧
    (aluOp w = 2 → res (.aluSub q) (a - b) (some (decide (a.toNat < b.toNat)))) ∧
    (aluOp w = 3 → res (.aluAnd q) (a &&& b) none) ∧ (aluOp w = 4 → res (.aluOr q) (a ||| b) none) ∧
    (aluOp w = 5 → res (.aluXor q) (a ^^^ b) none) ∧ (aluOp w = 6 → res (.aluShl q) (a <<< k) none) ∧
    (aluOp w = 7 → res (.aluShr q) (a >>> k) none) ∧ (aluOp w = 8 → res (.aluAsr q) (a.sshiftRight k) none) ∧
    (aluOp w = 9 →
      res (.aluExt q) (BitVec.ofNat 32 (a.toNat / 2 ^ k % 2 ^ (b.toNat % 64))) none) ∧
    (aluOp w = 10 → res (.aluMin q) (BitVec.ofNat 32 (min a.toNat b.toNat)) none) ∧
    (aluOp w = 11 → res (.aluMax q) (BitVec.ofNat 32 (max a.toNat b.toNat)) none) ∧
    (aluOp w = 12 → ∃ z, z ≤ 32 ∧ (∀ i, i < z → a.getLsbD (31 - i) = false) ∧ (z < 32 → a.getLsbD (31 - z) = true) ∧
      res (.aluClz q) (BitVec.ofNat 32 z) none) ∧
    (aluOp w = 13 → res (.aluMul q) (a * b) none) ∧
    (aluOp w = 14 → next (.aluCmp q) none (some (a - b)) (some (decide (a.toNat < b.toNat)))) ∧
    (aluOp w = 15 → next (.aluMov q) (some b) none none) ∧
    (16 ≤ aluOp w → exec (.aluTrap q) s = .next (trapUnit q s).irqSync)

/-- **Each stream-port read and write, and the output field.** In a decode unit with the stream-port field due: U,
PEEK, SU and SKIP take n bits for a legal n; UE and SE an Exp-Golomb code of at most 31 leading zeros; NS and LEB
their codes; ALIGN goes to the next byte boundary and POS gives the position; EOU tells whether the read passed the
unit's end. In a header request each write puts its bits at the port while the header fits its capacity, and WTRAIL ends
a NAL unit there. DW and DWI
stage a descriptor word while staging has room; SEND closes the staged descriptor with its class; CWR logs a parse-
area word while the log has room, and CRD reads one, or in a header request a word of its descriptor, with no access
injected. NOP does nothing and a reserved code traps. The model's choices in this: the fields' order (assumption 18), SKIP
and PEEK as reads for EOU and POS in a header request (50), the end of a NAL unit (120), what CRD reads there (139). -/
def Obligations.StreamPortAndOutput : Prop :=
  (∀ (h : HsqSt) (e : Nat), flagOf (h.readTo e).flags fEou = decide (h.unitBits < e) ∧ (h.readTo e).pos = e) ∧
  (∀ (s : State) (q : Nat), s.drc.trip = none → mayAct s q 1 = true → (hsqOf s q).isHeader = false →
     let w := curWord s q
     let h := hsqOf s q
     let leaves := fun (c : Instr) (x : HsqSt) => exec c s = .next (setHsq q { x with phase := 2 } s).irqSync
     (spOp w = 0 → leaves (.spNop q) h) ∧
     (∀ n, spCount w h = some n →
       (spOp w = 1 → leaves (.spU q) ((h.setG (spReg w) (BitVec.ofNat 32 (h.bitsAt h.pos0 n))).readTo (h.pos0 + n))) ∧
       (spOp w = 2 → leaves (.spPeek q) { (h.setG (spReg w) (BitVec.ofNat 32 (h.bitsAt h.pos0 n))).readTo (h.pos0 + n) with
         pos := h.pos0 }) ∧
       (spOp w = 3 → leaves (.spSkip q) (h.readTo (h.pos0 + n))) ∧
       (spOp w = 6 → leaves (.spSu q) ((h.setG (spReg w) (BitVec.ofInt 32
         (if 2 ^ (n - 1) ≤ h.bitsAt h.pos0 n then (h.bitsAt h.pos0 n : Int) - 2 ^ n else h.bitsAt h.pos0 n))).readTo
           (h.pos0 + n)))) ∧
     (h.zeros h.pos0 ≤ 31 →
       let z := h.zeros h.pos0
       let code := 2 ^ z - 1 + h.bitsAt (h.pos0 + z + 1) z
       let x := h.readTo (h.pos0 + 2 * z + 1)
       (spOp w = 4 → leaves (.spUe q) (x.setG (spReg w) (BitVec.ofNat 32 code))) ∧
       (spOp w = 5 → leaves (.spSe q) (x.setG (spReg w) (BitVec.ofInt 32 (seValue code))))) ∧
     (spOp w = 7 → 0 < (h.g (mw w 49 6)).toNat →
       let n := (h.g (mw w 49 6)).toNat
       let k := bitLen n
       let v := h.bitsAt h.pos0 (k - 1)
       leaves (.spNs q) (if v < 2 ^ k - n then (h.setG (spReg w) (BitVec.ofNat 32 v)).readTo (h.pos0 + (k - 1))
         else (h.setG (spReg w) (BitVec.ofNat 32 (2 * v - (2 ^ k - n) + (h.bit (h.pos0 + (k - 1))).toNat))).readTo
           (h.pos0 + k))) ∧
     (spOp w = 8 → h.lebLen ≤ 8 → h.lebVal h.lebLen < 2 ^ 32 → leaves (.spLeb q)
       ((h.readTo (h.pos0 + 8 * h.lebLen)).setG (spReg w) (BitVec.ofNat 32 (h.lebVal h.lebLen)))) ∧
     (spOp w = 9 → leaves (.spAlign q) { h with pos := (h.pos0 + 7) / 8 * 8 }) ∧
     (spOp w = 10 → leaves (.spPos q) (h.setG (spReg w) (BitVec.ofNat 32 h.pos0))) ∧
     (11 ≤ spOp w ∧ spOp w ≤ 15 ∨ 21 ≤ spOp w → exec (.spTrap q) s = .next (trapUnit q s).irqSync)) ∧
  (∀ (s : State) (q : Nat), s.drc.trip = none →
     let w := curWord s q
     let h := hsqOf s q
     (mayAct s q 1 = true → h.isHeader = true → ∀ u, h.unit = some u →
       let fits := fun (bits : List Bool) => (headerStream u.codec (h.out ++ bits) h.cuts).length ≤ u.cap
       let puts := fun (c : Instr) (bits : List Bool) => fits bits → exec c s = .next (setHsq q { h with
         out := h.out ++ bits, pos := (h.out ++ bits).length, phase := 2 } s).irqSync
       (∀ n, spOp w = 16 → spCount w h = some n → puts (.spWu q) (bitsOfNat n (h.g (spReg w)).toNat)) ∧
       (spOp w = 17 → puts (.spWue q) (ueBits (h.g (spReg w)).toNat)) ∧
       (spOp w = 18 → puts (.spWse q) (ueBits (seCode (h.g (spReg w)).toInt))) ∧
       (spOp w = 19 → puts (.spWleb q) (lebBits 5 (h.g (spReg w)).toNat)) ∧
       (spOp w = 20 → let bits := true :: List.replicate ((7 - h.out.length % 8) % 8) false
         fits bits → exec (.spWtrail q) s = .next (setHsq q { h with
           out := h.out ++ bits, pos := (h.out ++ bits).length, cuts := h.cuts ++ [(h.out ++ bits).length], phase := 2 }
             s).irqSync)) ∧
     (mayAct s q 2 = true →
       let leaves := fun (c : Instr) (x : HsqSt) => exec c s = .next (setHsq q { x with phase := 3 } s).irqSync
       let room := (h.closed.map (fun d => d.2.length)).sum + max h.curLen (outIndex w + 1) ≤ 1024
       let staged := fun (v : Word) =>
         { h with cur := tabSet (fun _ => 0) h.cur (outIndex w) v, curLen := max h.curLen (outIndex w + 1) }
       (outOp w = 0 → leaves (.outNop q) h) ∧
       (outOp w = 1 → room → leaves (.outDw q) (staged (h.g (mw w 100 6)))) ∧
       (outOp w = 2 → room → leaves (.outDwi q) (staged (BitVec.ofNat 32 (mw w 128 32)))) ∧
       (outOp w = 3 → leaves (.outSend q) { h with
         closed := h.closed ++ [(mw w 118 3, tabGetRange (fun _ => 0) h.cur 0 h.curLen)], cur := [], curLen := 0 }) ∧
       (outOp w = 4 → h.isHeader = false → h.log.length < 256 →
         leaves (.outCwr q) { h with log := h.log ++ [(areaWord w h, h.g (mw w 100 6))] }) ∧
       (outOp w = 5 → h.isHeader = false → bitsOf 7 0 (s.raw (HSQ_FAULT_STATUS q + 12)) = 0 →
         leaves (.outCrd q) (h.setG (mw w 100 6) (h.area (areaWord w h)))) ∧
       (∀ u, outOp w = 5 → h.unit = some u → u.header = true → areaWord w h < u.req.length →
         bitsOf 7 0 (s.raw (HSQ_FAULT_STATUS q + 12)) = 0 → exec (.outCrd q) s =
         .next (setHsq q { h.setG (mw w 100 6) (u.req.getD (areaWord w h) 0) with phase := 3 } s.fresh.2).irqSync) ∧
       (6 ≤ outOp w → exec (.outTrap q) s = .next (trapUnit q s).irqSync)))

/-- **What the port writes as ue(v) it reads back.** Where the bits at the port are those WUE writes for a number, UE reads
that number and moves past exactly those bits; and the signed code of WSE is the one SE undoes. -/
def Obligations.ExpGolombRoundTrip : Prop :=
  (∀ (h : HsqSt) (v : Nat), v + 1 < 2 ^ 32 →
    (∀ i, i < (ueBits v).length → h.bit (h.pos0 + i) = (ueBits v).getD i false) →
    h.ue = some (v, h.readTo (h.pos0 + (ueBits v).length))) ∧
  (∀ x : Int, seValue (seCode x) = x)

/-- **Sequencing.** With the sequencing field due, NEXT, JUMP, CALL, RET and SWITCH choose the next address as their
condition and the stack say, and the next word reads what this one wrote; a call too deep, a return from an empty stack
and a reserved code trap; END ends the unit with its status, and ABANDON discards what it staged. -/
def Obligations.SequencingOperations : Prop :=
  ∀ (s : State) (q : Nat), mayAct s q 3 = true →
    let w := curWord s q
    let h := hsqOf s q
    let pc := hsqPc s q
    let goes := fun (c : Instr) (a : Nat) (stack : List Nat) => exec c s = .next (setPc q (a % 16384) (setHsq q { h with
      phase := 0, snap := h.regs, flags0 := h.flags, pos0 := h.pos, stack := stack } s)).irqSync
    (s.drc.trip = none →
      (seqOp w = 1 → goes (.seqNext q) (pc + 1) h.stack) ∧
      (seqOp w = 2 → goes (.seqJump q) (if seqHolds w h then seqTarget w else pc + 1) h.stack) ∧
      (seqOp w = 3 → seqHolds w h = false → goes (.seqCall q) (pc + 1) h.stack) ∧
      (seqOp w = 3 → seqHolds w h = true → h.stack.length < 8 →
        goes (.seqCall q) (seqTarget w) ((pc + 1) % 16384 :: h.stack)) ∧
      (seqOp w = 3 → seqHolds w h = true → 8 ≤ h.stack.length → exec (.seqCall q) s = .next (trapUnit q s).irqSync) ∧
      (∀ a rest, seqOp w = 4 → h.stack = a :: rest → goes (.seqRet q) a rest) ∧
      (seqOp w = 4 → h.stack = [] → exec (.seqRet q) s = .next (trapUnit q s).irqSync) ∧
      (seqOp w = 5 → goes (.seqSwitch q) (seqTarget w + Nat.land (h.g (mw w 88 6)).toNat (mw w 128 8)) h.stack) ∧
      (seqOp w = 7 → exec (.seqAbandon q) s = .next (abandonUnit q (mw w 128 8) s).irqSync) ∧
      (seqOp w = 0 ∨ 8 ≤ seqOp w → exec (.seqTrap q) s = .next (trapUnit q s).irqSync)) ∧
    (seqOp w = 6 → (endUnit q (mw w 128 8) s).drc.trip = none →
      exec (.seqEnd q) s = .next (endUnit q (mw w 128 8) s).irqSync)

/-- **Units, headers, machine checks and microcode.** At a boundary a sequencer with no failed unit to repeat takes the
next decode unit of its first context, which the command names by its place in the job, or serves the header request that
waits, whose record holds the session's words that R180 and R196 name (assumption 115). A unit at END is released, its
descriptors in the queues of its picture's slices, once each has room. A header that ended by END and that the cap
admits reaches the output buffer and coding begins with the input stage. A fetch that fails parity stops the sequencer
for a reload, which starts the unit again. A legal load marks its bank LOADING; one that passes makes it VALID, where
the image of a full load can be retained; a pending switch takes effect at a boundary. -/
def Obligations.SequencerUnitsAndMicrocode : Prop :=
  ∀ (s : State) (q : Nat), q < 4 →
    (∀ c : Nat, hsqRunnable s q = true → atBoundary s q = true → headerWaits s q = false →
      s.flag (HSQ_STATUS q) HSQ_STATUS.SWITCH_PENDING = false → (hsqOf s q).redo = [] → nextContext s q = some c →
      (startDecode q c s).drc.trip = none →
      ∀ (offset length : Nat) (last : Bool), unitDue q s = (offset, length, last) →
      exec (.parseUnitStart q offset length last) s = .next (startDecode q c s).irqSync) ∧
    (∀ (enc : Nat) (j : EncJob) (elems : List HeaderElem), s.drc.trip = none → encJobOf s enc = some j →
      let record := elems.filterMap (elemWord j.sess.words)
      headerServer s enc = q → j.phase = .needHeader → recordHolds j elems = true → enc < numEncoders s.fuse.variant →
      record.length ≤ 1016 → hsqRunnable s q = true → atBoundary s q = true → s.flag (HSQ_STATUS q) HSQ_STATUS.SWITCH_PENDING = false →
      let cap := min 4096 (poolSize (hPool (wordAt j.words 9)))
      let u : HsqUnit := ⟨true, enc, recCodec j.sess.words, j.ref, [4, BitVec.ofNat 32 (4 * record.length),
        BitVec.ofNat 32 (j.session + recCodec j.sess.words * 512), 0], true, headerRequest j cap record, [], cap, 0⟩
      let t := setHsq q { hsqOf s q with served := (hsqOf s q).served + 1, checked := [] } s
      exec (.headerReq enc elems) s = .next (enterUnit q u (setEncJob enc (some { j with phase := .header }) t)).irqSync) ∧
    (∀ (u : HsqUnit) (st : Nat) (t : State), (hsqOf s q).unit = some u → (hsqOf s q).ending = some st → hsqState s q = 1 →
      let ds := stagedDescs u (hsqOf s q)
      (∀ m ∈ picMembers s u.ctx, queueWords (sliceOf s m) + (ds.map (fun e => e.words.length)).sum ≤ 4096) →
      t = releaseUnit q st u (queueDescs u.ctx ds s) → t.drc.trip = none →
      exec (.descriptorRelease q) s = .next t.irqSync) ∧
    (∀ (c m : Nat) (ds : List Desc), (picMembers s c).Nodup → m ∈ picMembers s c →
      (sliceOf (queueDescs c ds s) m).queue = (sliceOf s m).queue ++ ds) ∧
    (∀ (d : HdrDone) (j : EncJob) (v : State), (hsqOf s q).header = some d → encJobOf s d.enc = some j → j.ref = d.ref →
      j.phase = .header → d.ok = true → cMin j.sess.words j.coded (8 * d.bytes.length) ≤ j.c →
      let t := unitOver q (setHsq q { hsqOf s q with header := none } s)
      v = encInput d.enc (setEncJob d.enc
        (some { j with phase := .coding, hdrBytes := d.bytes.length, bits := 8 * d.bytes.length })
        (dramWr hsqPort t (bufAddr t (ejOutput j.words)) d.bytes)) → v.drc.trip = none →
      exec (.headerDone q) s = .next v.irqSync) ∧
    (s.drc.trip = none → s.domOn (13 + q / 2) = true → hsqState s q = 1 → (hsqOf s q).unit.isSome = true →
      (hsqOf s q).ending = none → (hsqOf s q).phase = 0 → fetchInjected s q = false →
      storeParity s q (activeBank s q) (hsqPc s q) ≠ 0 →
      hsqPc s q ∉ (hsqOf s q).checked → ∃ t, exec (.machineCheck q) s = .next t ∧ hsqState t q = 2 ∧
        t.rd (HSQ_MC q) HSQ_MC.ADDR = hsqPc s q ∧ (hsqOf t q).unit = (hsqOf s q).unit ∧ (hsqOf t q).closed = [] ∧
        (hsqOf t q).log = [] ∧ (hsqOf t q).checked = (hsqOf s q).checked ++ [hsqPc s q] ∧
        (hsqOf t q).store = (hsqOf s q).store ∧ { t with regs := s.regs, hsq := s.hsq, pinEvts := s.pinEvts, icu := s.icu } = s) ∧
    (∀ (u : HsqUnit) (bs : List Byte) (t v : State), s.domOn (13 + q / 2) = true → hsqState s q = 2 →
      let a := s.rd (HSQ_MC q) HSQ_MC.ADDR
      let b := activeBank s q
      a < goldenCount s q b →
      dramRdFor (HSQ_FAULT_STATUS q) hsqPort s
        (bufAddr s (s.raw (HSQ_BANK_HANDLE q b)) + (s.raw (HSQ_BANK_OFFSET q b)).toNat + 64 + 24 * a) 24 = (bs, false, t) →
      v = enterUnit q u (putWord q b a (microwordOf bs) t) → (hsqOf t q).unit = some u →
      v.drc.trip = none → exec (.mcReloadDone q true) s = .next v.irqSync) ∧
    (∀ (slot : Nat) (hd : List Word) (t : State), s.startable slot opMicrocodeLoad = true → (s.job slot).context = q →
      let j := s.job slot
      let b := bitsOf 0 0 (j.w 2)
      loadWordsOk j = true → bitsOf 14 0 (j.w 6) ≠ 0 → isCurrent s (j.w 3) = true → mayHold s (2 + q) (j.w 3) = true →
      b ≠ activeBank s q ∨ bankState s q b = 0 → s.flag (HSQ_STATUS q) HSQ_STATUS.SWITCH_PENDING = false →
      (hsqOf s q).load = none → (j.w 4).toNat + 64 ≤ poolSize (hPool (j.w 3)) →
      dramRdWordsFor (HSQ_FAULT_STATUS q) hsqPort s (bufAddr s (j.w 3) + (j.w 4).toNat) 16 = (hd, false, t) → t.drc.trip = none → imageBad t j q b hd = false →
      exec (.microcodeLoad slot) s = .next (setHsq q { hsqOf t q with load := some ⟨t.jobRef slot, b, j.w 3, (j.w 4).toNat,
        bitsOf 13 0 (j.w 5), bitsOf 14 0 (j.w 6), bitAt 1 (j.w 2),
        decide (bitsOf 13 0 (j.w 5) = 0 ∧ bitsOf 14 0 (j.w 6) = bitsOf 14 0 (wordAt hd 2))⟩ }
          (setBank q b 1 (beginJob slot t))).irqSync ∧ bankState (setBank q b 1 (beginJob slot t)) q b = 1) ∧
    (∀ (slot : Nat) (ld : HsqLoad) (hd : List Word) (bs : List Byte) (t1 t2 v : State),
      loadOf s slot = some (q, ld) → s.domOn (13 + q / 2) = true →
      dramRdWordsFor (HSQ_FAULT_STATUS q) hsqPort s (bufAddr s ld.image + ld.offset) 16 = (hd, false, t1) →
      dramRdFor (HSQ_FAULT_STATUS q) hsqPort t1 (bufAddr s ld.image + ld.offset + 64 + 24 * ld.first) (24 * ld.count)
        = (bs, false, t2) →
      let t4 := (writeBank q ld bs (setHsq q { hsqOf t2 q with load := none } t2)).setBit (HSQ_IRQ_STATUS q) 2
      let crc := crc32c (readBack t4 q ld.bank ld.first ld.count)
      (if ld.full then crc = wordAt hd 5
        else crc32c (readBack t4 q ld.bank 0 (goldenCount t4 q ld.bank)) = BitVec.ofNat 32 (goldenCrc t4 q ld.bank)) →
      v = loadPassed q ld hd crc t4 → v.drc.trip = none →
      exec (.microcodeLoadDone slot true) s = .next v.irqSync ∧
      (ld.bank < 2 → ld.full = false ∨ (bpmRetain t4 (2 + q) ld.image).1 = stOk → bankState v q ld.bank = 2)) ∧
    (∀ (r : JobRef) (b : Nat) (rs : List Word), s.drc.trip = none → (hsqOf s q).switch = some (r, b, rs) →
      s.domOn (13 + q / 2) = true → atBoundary s q = true ∨ hsqState s q = 3 →
      exec (.bankSwitch q) s = .next (switchBank q b r rs s).irqSync) ∧
    (∀ data : Word, s.drc.trip = none → exec (.hsqCsSel data) s = .next (s.hostWrite HSQ_CS_SEL data).irqSync)

/-! ## Encoders and SDI -/

/-- **An encoder takes its job, codes its rows and ends.** An ENCODE_PICTURE whose turn has come on its idle encoder, and
that passes every check, makes the encoder BUSY under its session, with its references and with its target and cap as
the rate control gives them, and goes for its source; a START runs under a fresh session of its record. A row with no
access injected spends the bits of its CTUs, each as coded or by the last resort, and adds its QP and, for AV1, its qindex.
Coded data that fits is written behind the headers with its filler, the reconstruction is stored, the session follows, and the job commits,
or, with egress, its packets begin. A packet that fits the MTU and is due goes to its port with the next RTP sequence
number; the last one commits. A waiting job whose input is lost ends SOURCE_LOST. The model's choices in this: assumption 56
(the corners of rate control), 123 (filler bytes, OBU elements, what a frame costs under PACE_MBPS). -/
def Obligations.EncodersRun : Prop :=
  (∀ (s : State) (n : Nat) (j : EncJob), encJobOf s n = some j → encStopped s j = false →
     (∀ row : RowFacts, s.drc.trip = none → j.phase = .coding → j.row < (encRows j.sess.words).length →
       rowAllowed j row = true → bitsOf 7 0 (s.raw (EN_FAULT_STATUS n + 12)) = 0 →
       let ebb := j.ebb || decide (j.c ≤ j.bits + reserveFrom j.sess.words j.coded j.row)
       let q' := fun (q : Nat) => if recCodec j.sess.words = 0 then q else min 255 (5 * q)
       let qs := if ebb then (51, s) else rowQp j s
       let r := rowResult j row
       ∃ t k, exec (.encoderRow n row) s = .next t ∧ encJobOf t n = some k ∧ k.row = j.row + 1 ∧
         k.bits = r.1 ∧ k.forced = j.forced + r.2 ∧ k.ebb = (ebb || decide (0 < r.2)) ∧
         k.qpSum = j.qpSum + ((encRows j.sess.words).getD j.row 0 - r.2) * qs.1 + r.2 * 51 ∧
         k.quant = j.quant ++ [q' qs.1] ∧ k.sess = j.sess ∧ (∀ m, m ≠ n → encJobOf t m = encJobOf s m)) ∧
     (∀ (bytes fill out : List Byte) (recon : List (List Byte)) (x : EncSess) (fl : Nat) (cut : Bool) (qb : Nat)
         (t1 t2 t5 t10 u v : State),
       j.phase = .coding → j.row = (encRows j.sess.words).length → codedAllowed j bytes = true →
       recon.length = (reconLines j.sess.words).length →
       (∀ l ∈ recon, l.length = lineBytes (recWidth j.sess.words) (recBits10 j.sess.words)) →
       let ws := j.sess.words
       let hevc := recCodec ws == 0
       let bits := 8 * (j.hdrBytes + bytes.length)
       hrdFill ws s = ((hrdFill ws s).1, t1) → afterPicture j bits (hrdFill ws s).1 = (x, fl, cut) →
       fillerBytes hevc (fl / 8) t1 = (fill, t2) →
       let t3 := dramWr (encPort n) t2 (bufAddr s (ejOutput j.words) + j.hdrBytes) (bytes ++ fill)
       let t4 := foldS (fun (l : Nat × List Byte) w => dramWr (encPort n) w (bufAddr t3 j.recon + l.1) l.2)
         ((reconLines ws).zip recon) t3
       (if recMode ws = 0 then (0, t4) else nextQpBase j j.qpMean (bits + fl) t4) = (qb, t5) →
       let t6 := t5.inc (EN_PIC_COUNT n) EN_PIC_COUNT.PICTURES
       let t7 := if 0 < j.ebbRows then t6.inc (EN_EBB_COUNT n) EN_EBB_COUNT.EBB_PICS else t6
       let t8 := if 0 < j.forced then t7.inc (EN_EBB_COUNT n) EN_EBB_COUNT.FORCED_PICS else t7
       let t9 := if cut then t8.inc (EN_HRD_SHORT n) EN_HRD_SHORT.PICTURES else t8
       let send := ejEgress j.words && bitAt 0 (wordAt ws 16)
       (if send then dramRdFor (EN_FAULT_STATUS n) (encPort n) t9 (bufAddr s (ejOutput j.words)) ((bits + fl) / 8)
         else ([], false, t9)) = (out, false, t10) →
       u = setEncJob n (some { j with
           sess := if recMode ws = 0 then x else x.setQpBase j.coded qb, src := 0, phase := .egress
           units := egressUnits hevc out
           results := [BitVec.ofNat 32 (bits + fl), BitVec.ofNat 32 (j.ebbRows % 65536 + j.forced % 65536 * 2 ^ 16),
             BitVec.ofNat 32 j.qpMean, BitVec.ofNat 32 ((bits + fl) / 8),
             BitVec.ofNat 32 (j.coded + j.fallback.toNat * 4 + ejOrder j.words * 2 ^ 16)] })
         (releaseNZ (17 + n) j.src t10) →
       v = (if send && !(egressUnits hevc out).isEmpty then u.wr (EN_STATUS n) EN_STATUS.WAITING 1 else encCommit n u) →
       v.drc.trip = none → exec (.encodeDone n bytes recon) s = .next v.irqSync) ∧
     (∀ (take : Nat) (t v : State) (ts : Word), j.phase = .egress →
       let ws := j.sess.words
       let hevc := recCodec ws == 0
       let port := bitsOf 1 1 (wordAt ws 16)
       let p := (nextPiece j take).1
       let last := (nextPiece j take).2
       let hd := rtpHeader ws j.sess.rtpSeq last ts
       let payload := if hevc then hevcPayload p else av1Payload (decide (j.coded = 0) && !j.begun) p
       let frame := egressFrame s port ws ((hd.map (fun w => beBytes 4 w.toNat)).flatten ++ payload)
       pieceOk hevc p = true → frame.length ≤ 14 + bitsOf 31 16 (wordAt ws 16) → j.sess.paceAt ≤ s.cyc →
       port < numPorts s.fuse.variant → s.domOn (37 + port) = true → rtpStamp j s = (ts, t) →
       let t1 := t.inc (IGR_PORT_TX_FRAMES port) IGR_PORT_TX_FRAMES.COUNT
       let k := setEncJob n (some { j with
           sess := { j.sess with
             rtpSeq := (j.sess.rtpSeq + 1) % 65536
             lastRtp := hd
             paceAt := s.cyc + paceCycles ws frame.length }
           begun := true
           units := if p.ends then j.units.drop 1 else j.units
           sent := if p.ends then 0 else j.sent + p.take })
         { t1 with enc := { t1.enc with wire := tabSet (fun _ => []) t1.enc.wire port frame } }
       v = (if last then encCommit n k else k) → v.drc.trip = none → exec (.rtpPacket n take last) s = .next v.irqSync) ∧
     (∀ v : State, j.phase = .waiting → j.lost = true → v = encEnd n stSourceLost s → v.drc.trip = none →
       exec (.sourceLost n) s = .next v.irqSync)) ∧
  (∀ (s : State) (slot : Nat) (ws : List Word) (t1 : State), s.startable slot opEncodePicture = true →
     encTurn s (s.jobRef slot) = true →
     let j := s.job slot
     let jw := j.words
     let k := j.context
     let t0 := encTaken (s.jobRef slot) s
     let n := bitsOf 0 0 (wordAt ws 0)
     encHeld s (jobRecord s j) (sourceHandle s jw) = false → encodeInternal s j = false → encOff s j = false →
     (if ejStart jw then dramRdWordsFor (EN_FAULT_STATUS (jobEncoder t0 j)) (encPort (jobEncoder t0 j)) t0 (sessRecord t0 k) 64
       else ((sessOf t0 k).words, false, t0)) = (ws, false, t1) →
     (ejKind jw = 0 → isCurrent t1 (wordAt jw 2) = true ∧ mayHold t1 (17 + n) (wordAt jw 2) = true) →
     isCurrent t1 (ejOutput jw) = true →
     (if ejStart jw then recordBad t1 ws = false else (sessOf t1 k).started = true) → sessionExceeds ws = false →
     let x := if ejStart jw then freshSession ws (ejOrder jw) else sessOf t1 k
     let refs := if ejType jw = 0 then [] else x.refs
     let leaving := if ejType jw = 0 then (sessOf t1 k).refs.map (fun e => e.2) else []
     let ty := codedType (ejType jw) (ejOrder jw) refs
     ∀ (tt tEff carry c : Nat) (t2 v : State), acceptRate jw x t1 = (tt, tEff, carry, c, t2) →
       v = encSource n (setEncJob n (some
           { ref := s.jobRef slot, words := jw, session := k, sess := { x with carry := carry, refs := refs }
             phase := .waiting, gates := 0, lost := false, src := 0, source := ⟨0, 0, 0, 0, 0, false⟩, input := ⟨[], [], []⟩
             recon := 0, lists := refLists ty.1 (ejOrder jw) refs, leaving := leaving, coded := ty.1, fallback := ty.2
             t := tt, tEff := tEff, c := c, hdrBytes := 0, row := 0, bits := 0, qpSum := 0, quant := [], ebbRows := 0, forced := 0
             ebb := false, units := [], sent := 0, begun := false, results := [] })
         (beginJob slot ((t2.wr (EN_STATUS n) EN_STATUS.BUSY 1).wr (EN_STATUS n) EN_STATUS.SESSION k))) →
       v.drc.trip = none → exec (.encodePicture slot) s = .next v.irqSync)

/-- **SDI inputs capture frames and preview outputs take pictures.** Setting EN takes a free run of four entries. A
capturing input, behind the compositor's queue and with a buffer to be had, publishes a new picture DECODING; a line of
the right length is written, a PsF frame's woven, one that failed its CRC is written and counted as damage, one the FIFO
lost repeats the line above (in a PsF frame's first segment the one before, assumption 141); sixteen lines advance ROWS_DONE; the end of the last line makes the picture COMPLETE. Carrier changes and
lock are recorded; with lock lost the frame in progress is filled black and the status fields clear. A preview output
that is due takes the newest complete write-back picture, one that is off lets its picture go, and a line it repeats is
counted. -/
def Obligations.SdiInputsAndOutputs : Prop :=
  ∀ s : State,
    (∀ n : Nat, sdiInLive s n = true →
      let a := SDI_IN_STATUS n
      (∀ (data : Word) (b : Nat), s.drc.trip = none → s.flag (SDI_IN_CFG n) SDI_IN_CFG.EN = false → bitAt 0 data = true →
        freeRun (s.hostWrite (SDI_IN_CFG n) data) 4 = some b → exec (.sdiEn n data) s =
          .next ((takeRun b 4 (512 + 1 + n) (s.hostWrite (SDI_IN_CFG n) data)).wr a SDI_IN_STATUS.PPT_BASE b).irqSync) ∧
      (∀ (hd : Word) (t1 t2 : State), sdiCapturing s n = true → (sdiIn s n).cur = none →
        holdWaiting s (s.rd (SDI_IN_CFG n) SDI_IN_CFG.POOL) = false →
        let wh := rasterSize (s.rd a SDI_IN_STATUS.RASTER)
        let c420 := s.flag (SDI_IN_CFG n) SDI_IN_CFG.CHROMA420
        let chroma := if c420 then 1 else 2
        allocAt s 24 (s.rd (SDI_IN_CFG n) SDI_IN_CFG.POOL) (s.flag (SDI_IN_CFG n) SDI_IN_CFG.SPILL_UP) true true
          = (stOk, hd, t1) →
        pictureBytes wh.1 wh.2 chroma true ≤ poolSize (hPool hd) →
        let x := sdiIn t1 n
        let e := sdiBase t1 n + x.seq % 4
        t2 = setSdiIn n { x with seq := (x.seq + 1) % 65536, cur := some ⟨hd, e, wh.1, wh.2, c420, 0, [], [], x.psf, []⟩
                                 named := tabSet (fun _ => 0) x.named (x.seq % 4) hd }
          (gateHold 24 (tabGet (fun _ => 0) x.named (x.seq % 4)) (pptPut e [hd,
            BitVec.ofNat 32 ((wh.2 + 15) / 16 * 2 ^ 16), BitVec.ofNat 32 (peDecoding + 4 * 2 ^ 6), BitVec.ofNat 32 x.seq,
            BitVec.ofNat 32 (wh.1 + wh.2 * 2 ^ 16), BitVec.ofNat 32 (strideOf wh.1 true + chroma * 2 ^ 16 + 2 ^ 18), 0,
            BitVec.ofNat 32 (sdiMicros t1)] t1)) → t2.drc.trip = none →
        exec (.sdiFrameStart n) s = .next t2.irqSync) ∧
      (∀ p : SdiPic, (sdiIn s n).cur = some p →
        (∀ (bytes chroma : List Byte), p.lines < p.height → bytes.length = lineBytes p.width true →
          chroma.length = lineBytes p.width true → bitsOf 7 0 (s.raw SDI_FAULT_INJECT) = 0 →
          let hurt := fun (f : Fld) => pptDamaged p.entry ((s.inc (SDI_IN_ERRORS n) f).setBit (SDI_IN_IRQ_STATUS n) 2)
          let leads := fun (crcOk overflow : Bool) (t : State) => t.drc.trip = none →
            exec (.sdiLine n crcOk overflow bytes chroma) s = .next t.irqSync
          leads true false (writeSdiLine n p bytes chroma s) ∧
          leads false false (writeSdiLine n p bytes chroma (hurt SDI_IN_ERRORS.CRC_LINES)) ∧
          (∀ ok, 0 < p.lines → leads ok true (writeSdiLine n p p.above.1 p.above.2 (hurt SDI_IN_ERRORS.FIFO_LINES)))) ∧
        (s.drc.trip = none → 16 * (pptRowsDone s p.entry + 1) ≤ p.top →
          exec (.sdiRows n) s = .next (pptRows p.entry (pptRowsDone s p.entry + 1) s).irqSync) ∧
        (p.lines = p.height → encBehind 1 n p.handle s = false → (sdiComplete n p s).drc.trip = none →
          exec (.sdiFrameEnd n) s = .next (sdiComplete n p s).irqSync)) ∧
      (∀ b : Bool, s.drc.trip = none → sdiFlag s n SDI_IN_STATUS.CARRIER ≠ b → exec (.carrier n b) s = .next
        ((s.wr a SDI_IN_STATUS.CARRIER b.toNat).setBit (SDI_IN_IRQ_STATUS n) 0).irqSync) ∧
      (let shows := fun (r : SdiRaster) (u : State) =>
         let t := ((((u.wr a SDI_IN_STATUS.LOCKED r.locked.toNat).wr a SDI_IN_STATUS.SUPPORTED (sdiSupported r).toNat).wr a
           SDI_IN_STATUS.LINK r.link).wr a SDI_IN_STATUS.RASTER r.raster).wr a SDI_IN_STATUS.RATE r.rate
         (setSdiIn n { sdiIn t n with odd := r.odd, psf := r.psf } t).setBit (SDI_IN_IRQ_STATUS n) 1
       (∀ r : SdiRaster, s.drc.trip = none → sdiFlag s n SDI_IN_STATUS.LOCKED = false → r.locked = true →
         exec (.lock n r) s = .next (shows r s).irqSync) ∧
       (∀ (r : SdiRaster) (v : State), sdiFlag s n SDI_IN_STATUS.LOCKED = true → r.locked = false →
         v = shows ⟨false, true, 0, 0, 0, false⟩ (sdiBlack n (encInputLost 1 n s)) → v.drc.trip = none →
         exec (.lock n r) s = .next v.irqSync))) ∧
    (∀ m : Nat, sdiOutLive s m = true →
      (∀ (e : Nat) (t u : State), s.flag (SDI_OUT_CFG m) SDI_OUT_CFG.EN = true →
        sdiOutOk (s.rd (SDI_OUT_CFG m) SDI_OUT_CFG.RASTER) (s.rd (SDI_OUT_CFG m) SDI_OUT_CFG.RATE) = true →
        s.cmp.wb.run = true → newestComplete s (s.rd CMP_WB_STATUS CMP_WB_STATUS.PPT_BASE) = some e →
        previewDue s m = true → holdWaiting s (hPool (ppt s e 0)) = false →
        t = releaseNZ 24 (sdiOut s m).handle s → bpmRetain t 24 (ppt t e 0) = (stOk, u) → u.drc.trip = none →
        let free := previewRatio u m (rateHz (rateNow u)).1 (rateHz (rateNow u)).2 == 0
        exec (.previewFrameStart m) s = .next ((setSdiOut m ⟨some (entrySource t e),
            tabGet (fun _ => 0) t.cmp.wb.fmts (e - s.rd CMP_WB_STATUS CMP_WB_STATUS.PPT_BASE),
            bitsOf 15 0 (u.reg (SDI_OUT_WIN m)), bitsOf 31 16 (u.reg (SDI_OUT_WIN m)),
            if free then none else some (u.rd CMP_STATUS CMP_STATUS.FRAME), []⟩ u).wr (SDI_OUT_STATUS m) SDI_OUT_STATUS.FREE
              free.toNat).irqSync) ∧
      (∀ t : State, s.flag (SDI_OUT_CFG m) SDI_OUT_CFG.EN = false → t = releaseNZ 24 (sdiOut s m).handle s →
        t.drc.trip = none → exec (.previewFrameStart m) s = .next ((setSdiOut m ⟨none, 0,
            bitsOf 15 0 (t.reg (SDI_OUT_WIN m)), bitsOf 31 16 (t.reg (SDI_OUT_WIN m)), none, []⟩ t).wr (SDI_OUT_STATUS m)
              SDI_OUT_STATUS.FREE 0).irqSync) ∧
      (∀ line : Nat, s.drc.trip = none → exec (.previewUnderrun ⟨m, line⟩) s = .next
        (((setSdiOut m { sdiOut s m with repeated := line :: (sdiOut s m).repeated } s).inc (SDI_OUT_STATUS m)
          SDI_OUT_STATUS.UNDERRUN_LINES).setBit (SDI_OUT_IRQ_STATUS m) 0).irqSync))

/-! ## Composition -/

/-- **The compositor's multiply is the operation R222 defines, and blending keeps to its ranges.** With t = x·y exactly it is
(t + 512 + ((t + 512) >> 10)) >> 10, which for 10-bit x and y is x·y/1023 to the nearest integer and for 12-bit x within
515/1023 of it; times 1023 it is the identity and times 0 it is 0. A sample of alpha 1023 replaces what lies under it, one of all zeros leaves it, and no
component or alpha leaves its range. -/
def Obligations.CompositionArithmetic : Prop :=
  (∀ x y : Nat, mul1023 x y = (x * y + 512 + ((x * y + 512) >>> 10)) >>> 10) ∧
  (∀ x y : Nat, x ≤ 1023 → y ≤ 1023 → x * y ≤ 1023 * mul1023 x y + 511 ∧ 1023 * mul1023 x y ≤ x * y + 511) ∧
  (∀ x y : Nat, x ≤ 4095 → y ≤ 1023 → x * y ≤ 1023 * mul1023 x y + 515 ∧ 1023 * mul1023 x y ≤ x * y + 515) ∧
  (∀ x : Nat, x ≤ 4095 → mul1023 x 1023 = x ∧ mul1023 x 0 = 0) ∧
  (∀ p d : Pix, p.1 ≤ 4095 → p.2.1 ≤ 4095 → p.2.2.1 ≤ 4095 → p.2.2.2 = 1023 → blend p d = p) ∧
  (∀ d : Pix, d.1 ≤ 4095 → d.2.1 ≤ 4095 → d.2.2.1 ≤ 4095 → d.2.2.2 ≤ 1023 → blend (0, 0, 0, 0) d = d) ∧
  (∀ p d : Pix, (blend p d).1 ≤ 4095 ∧ (blend p d).2.1 ≤ 4095 ∧ (blend p d).2.2.1 ≤ 4095 ∧ (blend p d).2.2.2 ≤ 1023)

/-- **A LAYER_UPDATE writes its layer's shadow or is refused.** Where the merged words break a rule, the job ends with
INTERNAL and CMP_UPD_ERR takes the lowest cause; else the words named by the mask are written, ARMED is set or cleared as
the job says, and the job completes with the next COMMIT_GEN, or with GUARD_WAIT goes on to wait for its guarded regions.
A write of CMP_CTL with HOLD set enters HOLD. -/
def Obligations.LayerUpdates : Prop :=
  (∀ (s : State) (slot : Nat), s.drc.trip = none → s.startable slot opLayerUpdate = true →
    let j := s.job slot
    let i := j.context % 64
    let ws := mergeShadow s j i
    (updCause s i (j.w 2) ws ≠ 0 →
      exec (.layerUpdate slot) s = .next (fail slot stInternal (updErr i (updCause s i (j.w 2) ws) s)).irqSync) ∧
    (updCause s i (j.w 2) ws = 0 → ∀ t1 t2 t3 : State,
      t1 = foldS (fun k u => u.setReg (CMP_L_SHD i k) (wordAt ws k)) (List.range 13) s →
      t2 = (if bitAt 16 (j.w 2) then t1.wr (CMP_L_STATE i) CMP_L_STATE.ARMED 1
        else if bitAt 17 (j.w 2) then t1.wr (CMP_L_STATE i) CMP_L_STATE.ARMED 0 else t1) →
      t3 = (if bitAt 12 (j.w 2) then setLayer i { layerOf t2 i with setting := bitAt 6 (lw ws 15) } t2 else t2) →
      let gen := [BitVec.ofNat 32 ((t3.rd (CMP_L_STATE i) CMP_L_STATE.COMMIT_GEN + 1) % 65536)]
      (bitAt 18 (j.w 2) = false → exec (.layerUpdate slot) s = .next (present slot stOk gen t3).irqSync) ∧
      (bitAt 18 (j.w 2) = true →
        let u := t3.setJob slot { t3.job slot with begun := true, results := gen }
        exec (.layerUpdate slot) s = .next ({ u with cmp := { u.cmp with
          waits := u.cmp.waits ++ [⟨t3.jobRef slot, i, false, [], false, 0⟩] } } : State).irqSync))) ∧
  (∀ (s : State) (data : Word), s.drc.trip = none → s.domOn 26 = true →
    (bitAt 0 data = true → exec (.hold data) s = .next (enterHold (s.hostWrite CMP_CTL data)).irqSync) ∧
    (bitAt 0 data = false → exec (.hold data) s = .next (s.hostWrite CMP_CTL data).irqSync))

/-- **A guarded region's check compares its CRC with the expectation of its frame.** GUARD_CHECK shows the CRC of the check
that is due; a match clears MISS_RUN, a mismatch counts, sets GUARD and, at a MISS_RUN of 2 or more with FORCE_EN in force,
lists the region to be forced; waiting jobs whose copy that frame was composed with take the outcome. A write of the FORCED
bits lists those forced regions to be released, and one of a region's expectation is kept aside. -/
def Obligations.GuardedRegions : Prop :=
  ∀ s : State, s.domOn 26 = true →
    (∀ (n : Nat) (d : GuardDue) (v : State), s.cmp.due.find? (fun x => x.region == n) = some d →
      (let t := ({ s with cmp := { s.cmp with due := s.cmp.due.erase d } } : State).setReg (CMP_GR_CRC n) (BitVec.ofNat 32 d.crc)
       (BitVec.ofNat 32 d.crc = d.expect → v = waitsTake n d.frame false (t.wr (CMP_GR_CFG n) CMP_GR_CFG.MISS_RUN 0)) ∧
       (BitVec.ofNat 32 d.crc ≠ d.expect → ∃ u : State,
         u = ((t.inc (CMP_GR_CFG n) CMP_GR_CFG.MISS_COUNT).incSat (CMP_GR_CFG n) CMP_GR_CFG.MISS_RUN).setBit CMP_IRQ_STATUS 1 ∧
         v = waitsTake n d.frame true (if 2 ≤ u.rd (CMP_GR_CFG n) CMP_GR_CFG.MISS_RUN
             ∧ bitAt 2 (cmpIn u (CMP_GR_CFG n)) = true ∧ n ∉ u.cmp.toForce
           then { u with cmp := { u.cmp with toForce := u.cmp.toForce ++ [n] } } else u))) →
      v.drc.trip = none → exec (.guardCheck n) s = .next v.irqSync) ∧
    (∀ (half : Nat) (data : Word), s.drc.trip = none → half < 2 → ∃ t, exec (.cmpGrForced half data) s = .next t ∧
      (∀ n, n ∈ t.cmp.toFree ↔ n ∈ s.cmp.toFree ∨ (n / 32 = half ∧ bitAt (n % 32) data = true
        ∧ s.flag (CMP_GR_CFG n) CMP_GR_CFG.FORCED = true)) ∧
      { t with cmp := { t.cmp with toFree := s.cmp.toFree }, icu := s.icu } = s) ∧
    (∀ (n : Nat) (data : Word), s.drc.trip = none → n < 64 → ∃ t, exec (.cmpGrnExpect n data) s = .next t ∧
      (∀ m, tabGet (fun _ => none) t.cmp.expect m = if m = n then some data else tabGet (fun _ => none) s.cmp.expect m) ∧
      { t with cmp := { t.cmp with expect := s.cmp.expect }, icu := s.icu } = s)

/-- **Conversion sets, the sprite, the EOTF table and the matrices are loaded from DRAM.** A load command starts the load at
the address its registers give (at once, the model's choice, assumption 128); that of the sprite waits for a lock gate, which
reads it by the values then in force. When the load of a conversion set or of the EOTF table ends well, its
image is in the idle copy and PENDING is set, and an uncorrectable conversion set sets ERROR. In HOLD no conversion set ends
its load. A matrix load of entries outside the store sets ERROR and starts nothing; one that ends
has loaded its entries. -/
def Obligations.ImagesAreLoaded : Prop :=
  ∀ s : State,
    (∀ (k : Nat) (data : Word), s.drc.trip = none → k < 4 → bitAt 0 data = true → s.domOn 26 = true →
      let a := s.rd (CMP_XFER_SRC_LO k) CMP_XFER_SRC_LO.ADDR_LO * 64 + (s.reg (CMP_XFER_SRC_HI k)).toNat * 2 ^ 32
      exec (.xferLoad k data) s = .next (setXfer k { xferOf s k with loading := some a, idle := none }
        (s.wr (CMP_XFER_CTL k) CMP_XFER_CTL.PENDING 0)).irqSync) ∧
    (∀ (k a : Nat) (bs : List Byte) (t : State), (xferOf s k).loading = some a → inHold s = false →
      dramRdFor CMP_FAULT_STATUS cmpPort s a 4226 = (bs, false, t) →
      t.drc.trip = none → exec (.xferLoadDone k) s = .next (setXfer k { xferOf t k with loading := none, idle := some (readXfer bs) }
        ((t.wr (CMP_XFER_CTL k) CMP_XFER_CTL.PENDING 1).wr (CMP_XFER_CTL k) CMP_XFER_CTL.ERROR 0)).irqSync) ∧
    (∀ (k a : Nat) (bs : List Byte) (t : State), (xferOf s k).loading = some a → inHold s = false →
      dramRdFor CMP_FAULT_STATUS cmpPort s a 4226 = (bs, true, t) →
      t.drc.trip = none → exec (.xferLoadDone k) s = .next (setXfer k { xferOf t k with loading := none }
        (t.wr (CMP_XFER_CTL k) CMP_XFER_CTL.ERROR 1)).irqSync) ∧
    (∀ k : Nat, inHold s = true → s.drc.trip = none → exec (.xferLoadDone k) s = .next s.irqSync) ∧
    (∀ data : Word, s.domOn 26 = true → bitAt 31 data = true → s.drc.trip = none →
      let u := s.hostWrite CMP_TOUCH_SPRITE_SIZE data
      exec (.touchSpriteLoad data) s = .next ({ u with cmp := { u.cmp with spriteDue := true } } : State).irqSync) ∧
    (∀ (ws : List Word) (t : State), s.cmp.spriteDue = true →
      (let u : State := { s with cmp := { s.cmp with spriteDue := false } }
       let size := cmpIn s CMP_TOUCH_SPRITE_SIZE
       dramRdWordsFor CMP_FAULT_STATUS cmpPort u (bufAddr u (cmpIn s CMP_TOUCH_SPRITE)) (bitsOf 6 0 size * bitsOf 14 8 size)
         = (ws, false, t)) →
      spriteGate s = { t with cmp := { t.cmp with sprite := ws } }) ∧
    (∀ data : Word, s.drc.trip = none → bitAt 0 data = true → s.domOn 32 = true → ∃ t, exec (.lmpEotfLoad data) s = .next t ∧
      t.lmp.eotfAt = some (s.rd LMP_EOTF_SRC_LO LMP_EOTF_SRC_LO.ADDR_LO * 64 + (s.reg LMP_EOTF_SRC_HI).toNat * 2 ^ 32) ∧
      t.flag LMP_EOTF_CTL LMP_EOTF_CTL.PENDING = false ∧ (∀ b, b ≠ LMP_EOTF_CTL → t.reg b = s.reg b) ∧
      { t with lmp := { t.lmp with eotfAt := s.lmp.eotfAt }, regs := s.regs, icu := s.icu } = s) ∧
    (∀ (a : Nat) (ws : List Word) (t : State), s.lmp.eotfAt = some a →
      dramRdWordsFor LMP_FAULT_STATUS lampPort s a 4096 = (ws, false, t) →
      t.drc.trip = none → ∃ u, exec .lmpEotfLoadDone s = .next u ∧ u.lmp.eotfAt = none ∧
        (∀ v, v < ws.length → tabGet (fun _ => 0) u.lmp.idle v = bitsOf 19 0 (wordAt ws v)) ∧
        u.flag LMP_EOTF_CTL LMP_EOTF_CTL.PENDING = true ∧ u.flag LMP_EOTF_CTL LMP_EOTF_CTL.ERROR = false ∧
        (∀ b, b ≠ LMP_EOTF_CTL → u.reg b = t.reg b) ∧
        { u with lmp := { u.lmp with eotfAt := t.lmp.eotfAt, idle := t.lmp.idle }, regs := t.regs, icu := t.icu } = t) ∧
    (∀ (data : Word) (t : State), s.drc.trip = none → s.domOn 32 = true → bitAt 31 data = true → t = s.hostWrite LMP_MTX_CTL data →
      t.flag LMP_MTX_CTL LMP_MTX_CTL.BUSY = false →
      let first := t.rd LMP_MTX_CTL LMP_MTX_CTL.FIRST
      let count := t.rd LMP_MTX_COUNT LMP_MTX_COUNT.COUNT
      (65536 < first + count → exec (.lmpMtxGo data) s = .next (t.wr LMP_MTX_CTL LMP_MTX_CTL.ERROR 1).irqSync) ∧
      (first + count ≤ 65536 →
        let u := (t.wr LMP_MTX_CTL LMP_MTX_CTL.BUSY 1).wr LMP_MTX_CTL LMP_MTX_CTL.ERROR 0
        let a := t.rd LMP_MTX_SRC_LO LMP_MTX_SRC_LO.ADDR_LO * 32 + (t.reg LMP_MTX_SRC_HI).toNat * 2 ^ 32
        exec (.lmpMtxGo data) s =
          .next ({ u with lmp := { u.lmp with mtxLoad := some (a, first, count) } } : State).irqSync)) ∧
    (∀ (a first count : Nat) (t : State), s.lmp.mtxLoad = some (a, first, count) →
      t = loadMatrices count a first (s.wr LMP_MTX_CTL LMP_MTX_CTL.BUSY 0) → t.drc.trip = none →
      exec .lmpMtxLoadDone s = .next ({ t with lmp := { t.lmp with mtxLoad := none } } : State).irqSync)

/-- **The hold queue and the write-back tap.** Outside HOLD the oldest request for a pool is granted: a layer's retain or release takes
effect, a refused retain leaves the layer with its fill, and the tap's allocation publishes its picture or loses the frame;
once the queue is empty what waited for the retains is released, and a release of another unit that waited behind the
requests of its pool is granted. In HOLD nothing is granted (assumption 128). Sixteen more lines in DRAM
advance ROWS_DONE, the last line completes the picture, a full FIFO drops the frame, and EN takes an aligned run of four
entries or sets PPT_FAIL. -/
def Obligations.WriteBackAndHoldQueue : Prop :=
  ∀ s : State,
    (∀ pool : Nat, inHold s = true → s.drc.trip = none → exec (.holdQueueGrant pool) s = .next s.irqSync) ∧
    (∀ (pool : Nat) (r : HoldReq) (t v : State), inHold s = false → s.cmp.hold.find? (fun x => x.pool == pool) = some r →
      (let u : State := { s with cmp := { s.cmp with hold := s.cmp.hold.erase r } }
       (r.kind = .retain → ∀ (st : Nat) (x : State), bpmRetain u 19 r.handle = (st, x) →
         t = if st = stOk then x else retainRefused r.layer r.handle x) ∧
       (r.kind = .release → t = releaseS 19 r.handle u) ∧
       (r.kind = .alloc → ∀ (st : Nat) (h : Word) (x : State),
         allocAt u 19 pool (wbIn u CMP_WB_CFG.SPILL_UP == 1) true false = (st, h, x) → t = wbGranted st h x)) →
      v = grantWaits (if t.cmp.hold.isEmpty then releasePassed t else t) → v.drc.trip = none →
      exec (.holdQueueGrant pool) s = .next v.irqSync) ∧
    (∀ p : WbPic, s.cmp.wb.cur = some p →
      (s.drc.trip = none → 16 * (pptRowsDone s p.entry + 1) < p.height → 16 * (pptRowsDone s p.entry + 1) ≤ p.lines →
        exec .wbRows s = .next (pptRows p.entry (pptRowsDone s p.entry + 1) s).irqSync) ∧
      (∀ t v : State, p.height ≤ 16 * (pptRowsDone s p.entry + 1) → p.lines = p.height → encBehind 2 0 p.handle s = false →
        t = pptSetState p.entry peComplete (pptRows p.entry (pptRowsDone s p.entry + 1) s) →
        v = encCaptured 2 0 p.entry { t with cmp := { t.cmp with wb := { t.cmp.wb with cur := none } } } → v.drc.trip = none →
        exec .wbRows s = .next v.irqSync) ∧
      (∀ v : State, v = ((wbAbandon s).inc CMP_WB_STATUS CMP_WB_STATUS.DROPS).setBit CMP_IRQ_STATUS 5 → v.drc.trip = none →
        exec .wbDrop s = .next v.irqSync)) ∧
    (∀ (data : Word) (t : State), s.domOn 26 = true → t = s.hostWrite CMP_WB_CFG data → s.drc.trip = none →
      (s.flag CMP_WB_CFG CMP_WB_CFG.EN = false → bitAt 0 data = true →
        (freeRun t 4 = none → exec (.cmpWbCfgWrite data) s = .next (t.wr CMP_WB_STATUS CMP_WB_STATUS.PPT_FAIL 1).irqSync) ∧
        (∀ (b : Nat) (u : State), freeRun t 4 = some b → u = (takeRun b 4 600 t).wr CMP_WB_STATUS CMP_WB_STATUS.PPT_BASE b →
          u.drc.trip = none →
          exec (.cmpWbCfgWrite data) s = .next ({ u with cmp := { u.cmp with wb := { u.cmp.wb with run := true } } } : State).irqSync)) ∧
      (s.flag CMP_WB_CFG CMP_WB_CFG.EN = bitAt 0 data → exec (.cmpWbCfgWrite data) s = .next t.irqSync))

/-- **Frames are composed line by line between lock gates.** A line starts once its gate's retains are granted: with
composed positions its chasing layers are checked, else scanout moves on. A line composed goes to the guarded regions, the
write-back tap and, with lamp correction on, each tile it crosses. A lock gate, which waits for nothing (what the hold queue still holds is granted first, assumption 66), ends the frame in
progress, decides HOLD, opens the next frame and, in HOLD or in full, does the rest of its work. The contacts of a valid
TOUCH frame of a driven tile are mapped, hit-tested and tracked one by one. -/
def Obligations.FramesAndGates : Prop :=
  ∀ s : State, s.domOn 26 = true →
    (∀ v : State, s.cmp.scan.active = true → s.cmp.scan.started = false → s.cmp.hold = [] →
      v = (if lineUsed s s.cmp.scan.line
        then foldS (chase s.cmp.scan.line) (List.range 64) (setScan { s.cmp.scan with started := true } s) else nextLine s) →
      v.drc.trip = none → exec .canvasLineStart s = .next v.irqSync) ∧
    (∀ (line : List (Nat × Nat × Nat)) (t u v : State), s.cmp.scan.active = true → s.cmp.scan.started = true →
      composeLine s.cmp.scan.line s = (line, t) →
      u = wbLine s.cmp.scan.line line (guardLine s.cmp.scan.line line t) →
      v = nextLine (if lampsOn u then foldS (lampLine s.cmp.scan.line line) (enTiles u.lmp.active) u else u) →
      v.drc.trip = none → exec .lineComposed s = .next v.irqSync) ∧
    (∀ (changed : Bool) (t0 t1 t u v : State), t0 = gateHolds (closeFrame s) →
      t1 = (if inHold t0 then t0 else drainHold t0) → gateOpens t1 = (changed, t) →
      u = (if changed then disableToFit (allowance (rateNow t)) t else t) →
      v = showCoverage (if inHold u then holdGate u
        else fullGate ((List.range 64).map (fun i => (layerOf t1 i).leaving)) (spriteGate u)) →
      v.drc.trip = none → exec .lockGate s = .next v.irqSync) ∧
    (∀ (pos place i : Nat) (mac : MacFacts) (contacts : List Contact) (t v : State), macTaken mac = true →
      mac.fcsOk = true →
      let lane := mac.lane
      laneLive s lane = true → lsSettling ≤ laneState s lane →
      bitsOf 7 0 (s.raw (PLK_LANE_FAULT_INJECT lane)) = 0 →
      t = s.inc (PLK_LANE_RX_FRAMES lane) PLK_LANE_RX_FRAMES.COUNT → placeOf t lane pos = some place →
      (enTiles t.lmp.active).find? (fun k => tPlace (actTile t k) == place) = some i → t.domOn 26 = true →
      bitAt 0 (cmpIn t CMP_TOUCH_CFG) = true → drivenState (tileState t i) = true →
      v = foldS (touchOne i) contacts t → v.drc.trip = none → exec (.touch mac pos contacts) s = .next v.irqSync)

/-! ## Lamp correction -/

/-- **The tile map, the exhausted lamps and the headroom manager.** A TILEMAP_UPDATE whose merged map passes every check
writes its entries into the shadow map and completes with the next frame number; one that fails is refused with the first
failing tile and its lowest cause (which tile that is: assumption 68). A serial write sets the serial of the entry that still names its place, whose tile is
noted as owing a replacement until the gate sees the serial (assumption 79), and is counted where no entry does; an update
clears the damage of its entries (assumption 70). A frame's exhausted tiles are shown at its end. The headroom manager moves LEVEL by one step towards its
target (AT_FLOOR by step, assumption 69). -/
def Obligations.LampCommands : Prop :=
  ∀ s : State,
    (∀ slot : Nat, s.startable slot opTilemapUpdate = true →
      let j := s.job slot
      let first := j.context
      let count := bitsOf 16 0 (j.w 2)
      let ofs := (j.w 4).toNat
      bitsOf 31 16 (j.w 1) = 0 → bitsOf 31 17 (j.w 2) = 0 → isCurrent s (j.w 3) = true → 0 < count → ofs % 32 = 0 →
      ofs + 32 * count ≤ poolSize (hPool (j.w 3)) →
      ∀ (ws : List Word) (t : State) (m : Tab (List Word)),
      dramRdWordsFor LMP_FAULT_STATUS lampPort s (bufAddr s (j.w 3) + ofs) (8 * count) = (ws, false, t) →
      m = (List.range count).foldl (fun a i => tabSet (fun _ => []) a (first + i) ((ws.drop (8 * i)).take 8)) t.lmp.shadow →
      t.drc.trip = none →
      (mapCheck t m first count = none → exec (.tilemapUpdate slot) s =
        .next (present slot stOk [BitVec.ofNat 32 ((frameNo t + 1) % 2 ^ 24)] { t with lmp := { t.lmp with
          shadow := m, damaged := t.lmp.damaged.filter (fun x => !(decide (first ≤ x) && decide (x < first + count))) } }).irqSync) ∧
      (∀ tile cause : Nat, mapCheck t m first count = some (tile, cause) →
        exec (.tilemapUpdate slot) s = .next (fail slot stInternal (tmErr tile cause t)).irqSync)) ∧
    (∀ (tile : Nat) (x : SerialWr) (t : State), s.drc.trip = none → s.lmp.serials.find? (fun y => y.tile == tile) = some x →
      t = ({ s with lmp := { s.lmp with serials := s.lmp.serials.erase x } } : State) →
      let w := shdTile s tile
      (w ≠ [] → tPlace w = x.lane * 1024 + x.pos → exec (.serialWrite tile) s = .next ({ t with lmp := { t.lmp with
        shadow := tabSet (fun _ => []) s.lmp.shadow tile (w.take 4
          ++ [BitVec.ofNat 32 x.serial, BitVec.ofNat 32 (x.serial / 2 ^ 32)] ++ w.drop 6)
        owed := if tile ∈ s.lmp.owed then s.lmp.owed else s.lmp.owed ++ [tile] } } : State).irqSync) ∧
      (w = [] ∨ tPlace w ≠ x.lane * 1024 + x.pos →
        exec (.serialWrite tile) s = .next (t.inc LMP_TM_ERR LMP_TM_ERR.COUNT).irqSync)) ∧
    (∀ v : State, s.lmp.exhDue = true → v = endExhausted s → v.drc.trip = none → exec .exhausted s = .next v.irqSync) ∧
    (s.drc.trip = none → s.domOn 32 = true → s.flag LMP_HRM_CTL LMP_HRM_CTL.EN = true → ∃ t, exec .headroomManager s = .next t ∧
      let level := min 8388608 (s.rd LMP_LEVEL LMP_LEVEL.LEVEL)
      let low := s.rd LMP_LEVEL_MIN LMP_LEVEL_MIN.LEVEL_MIN
      let step := max 1 (level * 5 / 60000)
      let target := t.rd LMP_HRM_STATUS LMP_HRM_STATUS.TARGET
      let need := fun (k : Nat) => s.lmp.minute.getD k 0
      target ≤ 8388608 ∧ target ≤ s.rd LMP_LEVEL_MAX LMP_LEVEL_MAX.LEVEL_MAX ∧
      (∀ k, k < 3 → 0 < need k → target ≤ level * headroom s k / need k) ∧
      (target = 8388608 ∨ target = s.rd LMP_LEVEL_MAX LMP_LEVEL_MAX.LEVEL_MAX
        ∨ ∃ k, k < 3 ∧ 0 < need k ∧ target = level * headroom s k / need k) ∧
      (∀ l, t.lmp.level = some l →
        (target < level → l = max (max target (level - step)) low) ∧
        (level ≤ target → l = min target (level + step))) ∧
      (t.flag LMP_HRM_STATUS LMP_HRM_STATUS.AT_FLOOR = true ↔ target < low ∧ t.lmp.level = some low) ∧
      (∀ a, a ≠ LMP_HRM_STATUS → a ≠ LMP_IRQ_STATUS → t.reg a = s.reg a) ∧
      t.lmp.level.isSome = true ∧ t.lmp.minute = [0, 0, 0] ∧
      { t with regs := s.regs, icu := s.icu, lmp := { t.lmp with minute := s.lmp.minute, level := s.lmp.level } } = s)

/-! ## The aging ledger -/

/-- **Each LEDGER_OP does its work in the states that accept it.** With no reserved bit set and in a state of R276 that
accepts it: START adopts DRAM's tables or has the label and each
generation read, STOP waits for its commit, SAVE for an epoch, REBASE and
REPLACE begin their operation on a tile in the state it needs, LOAD_CLASSES reads a class image, FORMAT writes the label and
invalidates the rest (the label last, the model's choice, assumption 81), and TEST runs in OFF. In any other state the job
ends with LEDGER_STATE, where no earlier check of R280 fails it, and TEST with BUSY. -/
def Obligations.LedgerJobs : Prop :=
  ∀ (s : State) (slot : Nat), s.startable slot opLedgerOp = true →
    let j := s.job slot
    let op := bitsOf 7 0 (j.w 2)
    let ref := s.jobRef slot
    let t := beginJob slot s
    let st := ldgState s
    let leads := fun (c : Instr) (v : State) => v.drc.trip = none → exec c s = .next v.irqSync
    bitsOf 31 8 (j.w 2) = 0 →
    (op = 0 → j.context = 0 → st = lgOff ∨ st = lgStopped →
      (bitAt 0 (j.w 3) = false → leads (.ledgerOpStart slot) (adopt ref t)) ∧
      (bitAt 0 (j.w 3) = true →
        let u := queueWrites [⟨3, 0, [], true, itemRead⟩, ⟨3, emGenAddr 0, [], true, itemRead + 1⟩,
          ⟨3, emGenAddr 1, [], true, itemRead + 2⟩] (t.wr LDG_STATUS LDG_STATUS.STATE lgRestoring)
        leads (.ledgerOpStart slot) { u with ldg := { u.ldg with restore := some ⟨ref, 0, 2, none, [], 0, 0, 0⟩ } })) ∧
    (op = 1 → j.context = 0 → st = lgRunning →
      leads (.ledgerOpStop slot) (serveStops { t with ldg := { t.ldg with stops := t.ldg.stops ++ [(ref, 0)] } })) ∧
    (op = 2 → j.context = 0 → st = lgRunning →
      leads (.ledgerOpSave slot) { t with ldg := { t.ldg with saves := t.ldg.saves ++ [ref] } }) ∧
    (op = 3 → st = lgRunning → imagePre (4 * tLamps (actTile s j.context)) j s = stOk → opOn s j.context = false →
      tileState s j.context ∈ [tsLit, tsAwaited, tsSilent] →
      leads (.ledgerOpRebase slot) (beginOp ⟨some ref, 3, j.context, .asking, j.w 3, (j.w 4).toNat, bitsOf 0 0 (j.w 5),
        0, 0, 0, 0, 0, [], false⟩ t)) ∧
    (op = 4 → st = lgRunning → tileState s j.context = tsReplaced → opOn s j.context = false →
      leads (.ledgerOpReplace slot) (beginReplace (some ref) j.context t)) ∧
    (op = 5 → j.context = 0 → st = lgOff ∨ st = lgRunning ∨ st = lgStopped → imagePre 131072 j s = stOk →
      ∀ (bs : List Byte) (u : State),
        dramRdFor LDG_FAULT_STATUS ledgerPort s (bufAddr s (j.w 3) + (j.w 4).toNat) 131072 = (bs, false, u) →
      let img := tabSetRange (fun _ => 0) [] 0 bs
      leads (.ledgerOpLoadClasses slot) (present slot stOk [64] (if ldgState u = lgRunning
        then { u with ldg := { u.ldg with idle := img, idleNew := true, loaded := true } }
        else { u with ldg := { u.ldg with classes := img, idleNew := false, loaded := true } }))) ∧
    (op = 6 → j.context = 0 → st = lgOff ∨ st = lgStopped → j.w 3 = 0x464D5431 → s.drc.trip = none → ∃ v, exec (.ledgerOpFormat slot) s = .next v ∧
      v.ldg.formats = s.ldg.formats ++ [ref] ∧ (∃ ws, v.ldg.writes = s.ldg.writes ++ ws ∧
        (∀ w ∈ ws, w.cls = 3 ∧ w.item = itemFormat) ∧
        ws.getLast? = some ⟨3, 0, headerSector [magicLabel, 1] [], true, itemFormat⟩ ∧
        (∀ a ∈ [emGenAddr 0, emGenAddr 1, emCommitAddr 0, emCommitAddr 1],
          (⟨3, a, List.replicate 512 0, false, itemFormat⟩ : EmWrite) ∈ ws)) ∧
      { v with
        ldg := { v.ldg with writes := s.ldg.writes, formats := s.ldg.formats }
        hq := { v.hq with jobs := s.hq.jobs }
        icu := s.icu } = s) ∧
    (∀ pass : Bool, op = 7 → j.context = 0 →
      (st = lgOff → let u := s.wr LDG_STATUS LDG_STATUS.SUM_VALID 0
        leads (.ledgerOpTest slot pass) (present slot stOk [BitVec.ofNat 32 pass.toNat]
          { u with ldg := { u.ldg with sums := [], rsd := [], lost := [] } })) ∧
      (st ∈ [lgRestoring, lgRunning, lgStopped] → leads (.ledgerOpTest slot pass) (fail slot stBusy s))) ∧
    (j.context = 0 → (op = 1 ∨ op = 2 → st ≠ lgRunning →
      leads (if op = 1 then .ledgerOpStop slot else .ledgerOpSave slot) (fail slot stLedgerState s)) ∧
      (op = 0 → st = lgRestoring ∨ st = lgRunning → leads (.ledgerOpStart slot) (fail slot stLedgerState s)) ∧
      (op = 5 → imagePre 131072 j s = stOk → st = lgRestoring →
        leads (.ledgerOpLoadClasses slot) (fail slot stLedgerState s)) ∧
      (op = 6 → j.w 3 = 0x464D5431 → st = lgRestoring ∨ st = lgRunning →
        leads (.ledgerOpFormat slot) (fail slot stLedgerState s))) ∧
    (op = 3 → imagePre (4 * tLamps (actTile s j.context)) j s = stOk → st ≠ lgRunning →
      leads (.ledgerOpRebase slot) (fail slot stLedgerState s)) ∧
    (op = 4 → st ≠ lgRunning → leads (.ledgerOpReplace slot) (fail slot stLedgerState s))

/-- **The ledger's steps, records and store commands.** In a frame that is not sampled a granted step serves a restore, else
a ready operation, else the pass (an order the model chose, assumption 80), its class-store words checked first (131). A
replacement steps only a tile still REPLACED. A durable journal entry ends its operation. A fragment of the record asked for is written where
it belongs, and LAST completes the record where its fragments are contiguous (83); a record that checks waits for its tile step, one that does not or is late ends its operation. The store takes
one command at a time by class; one that succeeds is written, one that fails is issued twice more, and a power-fail commit
that waited for it then begins (84). Commits, in sleep and SHED too, epochs and the end of a pass follow R285, R289 and R290. -/
def Obligations.LedgerStore : Prop :=
  ∀ s : State,
    let leads := fun (c : Instr) (v : State) => v.drc.trip = none → exec c s = .next v.irqSync
    (s.domOn 32 = true → s.ldg.sampled = false → s.ldg.stops = [] → ∀ t : State, t = classRead s →
      (∀ r, t.ldg.restore = some r → r.newer < 2 → leads .tileStep (restoreTile r t)) ∧
      (t.ldg.restore = none → ldgState t = lgRunning →
        (∀ o, readyOp t = some o → leads .tileStep (if o.kind = 3 then stepRebase o t else if tileState t o.tile = tsReplaced then stepReplace o t
          else promoteOps (endOp o stTileState [] t))) ∧
        (∀ p, readyOp t = none → t.ldg.pass = some p → p.closing = false → leads .tileStep (stepPass p t)))) ∧
    (∀ o, s.ldg.ops.find? (fun x => decide (x.stage = .durable)) = some o →
      let t := endOp o stOk o.results s
      leads .journalWrite (if o.kind = 4 ∧ (o.auto = true ∨ t.flag LMP_CTL LMP_CTL.AUTO_ACCEPT = true)
        then { t with lmp := { t.lmp with serials := t.lmp.serials ++ [⟨o.tile, o.lane, o.pos, o.serial⟩] } } else t)) ∧
    (∀ (arg : Nat) (mac : MacFacts) (last : Bool) (bytes : List Byte) (o : LdgOp) (t : State), macTaken mac = true →
      mac.fcsOk = true →
      let lane := mac.lane
      laneLive s lane = true → lsSettling ≤ laneState s lane → bitsOf 7 0 (s.raw (PLK_LANE_FAULT_INJECT lane)) = 0 →
      t = s.inc (PLK_LANE_RX_FRAMES lane) PLK_LANE_RX_FRAMES.COUNT → receiving t = some o →
      lane ∈ endsOf t (ownerOf t o.lane) → bytes.length ≤ 8192 → arg + bytes.length ≤ 2 ^ 26 →
      let got := if arg = o.got then o.got + bytes.length else o.got
      leads (.calibUp mac arg last bytes) (putOp { o with
        got := got, stage := if last ∧ arg + bytes.length = got then .complete else .receiving }
        (dramWr ledgerPort t (stageAddr t arg) bytes))) ∧
    (∀ o, receiving s = some o → leads .calibTimeout (promoteOps (endOp o stCalibTimeout [] s))) ∧
    (∀ (o : LdgOp) (hw lw : List Word) (bad1 bad2 : Bool) (t u : State),
      s.ldg.ops.find? (fun x => decide (x.stage = .complete)) = some o →
      dramRdWords ledgerPort s (stageAddr s 0) 8 = (hw, bad1, t) →
      dramRdWords ledgerPort t (stageAddr t 32) (4 * tLamps (actTile t o.tile)) = (lw, bad2, u) →
      leads .calibRecordComplete (if bad1 = false ∧ bad2 = false ∧ calibOk u o hw lw = true
        then seekSpace (putOp { o with stage := .ready } u) else promoteOps (endOp o stCalibBad [] u))) ∧
    (s.drc.trip = none → s.ldg.cmd = none → s.pwr.mode ≠ .porst → ∀ (c : Nat) (w : EmWrite), w ∈ s.ldg.writes → w.cls = c → c < 4 →
      (∀ x ∈ s.ldg.writes, c ≤ x.cls) → s.ldg.writes.find? (fun x => x.cls == c) = some w →
      exec .emmcCommand s = .next ({ s with ldg := { s.ldg with
        cmd := some w, tries := 0, writes := s.ldg.writes.erase w } } : State).irqSync) ∧
    (∀ w, s.ldg.cmd = some w → leads (.emmcCommandDone true) (powerFailCommit (emmcOk w s)) ∧
      leads (.emmcCommandDone false) (powerFailCommit (emmcFails w s)) ∧
      (s.drc.trip = none → s.ldg.tries < 2 → exec (.emmcCommandDone false) s =
        .next ({ s with ldg := { s.ldg with tries := s.ldg.tries + 1 } } : State).irqSync)) ∧
    (sumValid s = true → ldgState s ≠ lgRestoring → s.ldg.pfail = false → emBusy s (fun c => decide (c ≤ 1)) = false →
      s.pwr.mode ≠ .porst → s.pwr.refStopped = false →
      leads .summaryCommit (startCommit false (s.wr CLK_STATUS CLK_STATUS.MAIN_LOCK 1))) ∧
    (s.domOn 32 = true → ldgState s = lgRunning → s.ldg.stops = [] →
      (s.ldg.pass = none → leads .epoch (startPass s)) ∧
      (s.ldg.pass ≠ none → let t := s.setBit LDG_IRQ_STATUS 5
        leads .epoch { t with ldg := { t.ldg with due := true } })) ∧
    (∀ p, s.ldg.pass = some p → p.closing = true → emBusy s (fun c => c == 3) = false → ∀ t : State,
      t = (s.setReg LDG_EPOCH (BitVec.ofNat 32 p.epoch)).setBit LDG_IRQ_STATUS 0 →
      leads .generationDone (seekSpace (endPass (freeEntries (foldS (fun r u => presentRef r stOk [BitVec.ofNat 32 p.epoch] u)
        p.saves { t with ldg := { t.ldg with badGen := t.ldg.badGen.filter (fun g => g != p.slot) } })))))

/-- **A summary commit reads back.** Once the commands of a commit have all been written in their order, the store's newest
commit is the slot they went to, its sequence is one above the newest before, and each summary word it holds is the
ledger's. -/
def Obligations.SummaryCommitReadsBack : Prop :=
  ∀ (s : State) (pf : Bool), s.ldg.hi ≤ 65536 → s.ldg.writes = [] →
    (∀ c, newestCommit s.ldg.store = some c → commitSeq s.ldg.store c + 1 < 2 ^ 32) →
    (∀ i, tabGet (fun _ => 0) s.ldg.sums i < 2 ^ 32) →
    let m := (startCommit pf s).ldg.writes.foldl (fun m w => emPut m w.addr w.data) s.ldg.store
    let slot := match newestCommit s.ldg.store with | some c => 1 - c | none => 0
    newestCommit m = some slot ∧
    commitSeq m slot = (match newestCommit s.ldg.store with | some c => commitSeq s.ldg.store c + 1 | none => 1) ∧
    (∀ t k, t < s.ldg.hi → k < 3 → committedSum m t k = sumOf s t k)

/-! ## Panel links -/

/-- **Lanes come up, find their receivers and go down.** Enabling a lane makes it DOWN; without lock it tries the other rate;
block lock makes it SETTLING with SEQ, credits and deficits restarted; 20 ms later it discovers; the window's end empties
the slots that sent no reply and makes it UP; a valid reply within the window fills its empty slot; a request discovers
again; loss of lock or disabling ends what the lane held. BIST takes a lane that carries nothing, goes on where it runs, or
is refused BUSY, and an eye scan gives its measure. The model's choices in this: assumption 71 (a loop's owner has one window for its two
lanes, which lane states and rates bar what) and 77 (a BIST under way is not started again). -/
def Obligations.LanesComeUpAndGoDown : Prop :=
  ∀ (s : State) (n : Nat), laneLive s n = true →
    let l := laneOf s n
    let st := laneState s n
    let leads := fun (c : Instr) (v : State) => v.drc.trip = none → exec c s = .next v.irqSync
    (∀ (data : Word) (t : State), t = s.hostWrite (PLK_LANE_CFG n) data → (laneOf t n).bist = false →
      let was := s.flag (PLK_LANE_CFG n) PLK_LANE_CFG.EN
      let en := t.flag (PLK_LANE_CFG n) PLK_LANE_CFG.EN
      (was = false → en = true → leads (.laneEn n data) (setLaneState n lsDown (setLane n { laneOf t n with rate := 2 } t))) ∧
      (was = true → en = false → leads (.laneEn n data) (laneLeave n lsDisabled t)) ∧
      (was = en → laneState t n ≤ lsDown → leads (.laneEn n data) t)) ∧
    (st = lsDown → s.rd (PLK_LANE_CFG n) PLK_LANE_CFG.RATE = 0 →
      leads (.rateAlternation n) (setLane n { l with rate := if l.rate = 2 then 1 else 2 } s)) ∧
    (st = lsDown → let r := laneRate s n
      let up := { l with lock := true, rate := r, seq := 0, credit1 := 0, credit2 := 0, deficit := [0, 0, 0, 0], looped := false }
      leads (.blockLock n) (setLaneState n lsSettling ((setLane n up s).wr (PLK_LANE_STATUS n) PLK_LANE_STATUS.SPEED r))) ∧
    (lsSettling ≤ st → leads (.blockLockLoss n) (laneLeave n lsDown s)) ∧
    (st = lsSettling → leads (.settlingEnd n) (discover n (setLaneState n lsDiscovering s))) ∧
    (∀ data : Word, bitAt 0 data = true → lsDiscovering ≤ st → leads (.discover n data) (discover n s)) ∧
    (∀ (ps : List (Nat × Nat)) (t u : State), (laneOf s (ownerOf s n)).replies = some ps →
      t = foldS (fun k v => if ps.any (fun r => r.2 == k % 1024) then v else emptySlot k v) (filledOf s (ownerOf s n)) s →
      u = setLane (ownerOf s n) { laneOf t (ownerOf s n) with replies := none } t →
      leads (.discoveryWindow n) (foldS (fun m v => comeUp m (v.wr (PLK_LANE_STATUS m) PLK_LANE_STATUS.REDISCOVER 0))
        (endsOf u (ownerOf s n)) u)) ∧
    (∀ (r : ReplyFacts) (mac : MacFacts) (ps : List (Nat × Nat)) (k : Nat) (t u : State), macTaken mac = true → mac.fcsOk = true →
      lsSettling ≤ st →
      bitsOf 7 0 (s.raw (PLK_LANE_FAULT_INJECT n)) = 0 → t = s.inc (PLK_LANE_RX_FRAMES n) PLK_LANE_RX_FRAMES.COUNT →
      (laneOf t (ownerOf t n)).replies = some ps →
      placeOf t n r.pos = some k →
      u = setLane (ownerOf t n) { laneOf t (ownerOf t n) with
        replies := some (if (n, k % 1024) ∈ ps then ps else ps ++ [(n, k % 1024)]) } t →
      slotAt u k = none → leads (.discoverReply { mac with lane := n } r) (laneIrq (ownerOf t n) 1
        (putSlot k (some ⟨r.serial, r.wM1, r.hM1, r.caps, r.leadNs, r.fw, 0, false, 0, 0, 0, none, 0,
          r.maker, r.calib⟩) u))) ∧
    (∀ data : Word, bitAt 1 data = true →
      let idle := s.flag (PLK_LANE_CFG n) PLK_LANE_CFG.EN = false
        ∨ ((partnerOf s n).isSome = true ∧ s.rd (PLK_LANE_LOOP n) PLK_LANE_LOOP.SPLIT = 0)
        ∨ ∃ p, primaryOf s n = some p ∧ s.rd (PLK_LANE_LOOP p) PLK_LANE_LOOP.SPLIT = loopLen s p
      (idle → l.bist = true → leads (.laneBistStart n data) s) ∧
      (idle → l.bist = false → let t := laneLeave n lsDisabled s
        leads (.laneBistStart n data) (setLane n { laneOf t n with bist := true } t)) ∧
      (¬ idle → leads (.laneBistStart n data) (s.wr (PLK_LANE_BIST n) PLK_LANE_BIST.RESULT 3))) ∧
    (∀ (pass : Bool) (t : State), l.bist = true →
      t = ((setLane n { l with bist := false, rate := 2 } s).wr (PLK_LANE_BIST n) PLK_LANE_BIST.RESULT
        (if pass then 1 else 2)).inc (PLK_LANE_BIST n) PLK_LANE_BIST.RUNS →
      leads (.laneBistDone n pass) (if t.flag (PLK_LANE_CFG n) PLK_LANE_CFG.EN then setLaneState n lsDown t else t)) ∧
    (∀ data : Word, bitAt 2 data = true →
      leads (.eyeScan n data) (setLane n { l with scan := true } (s.wr (PLK_LANE_EYE n) PLK_LANE_EYE.DONE 0))) ∧
    (∀ w h : Nat, l.scan = true → leads (.eyeScanDone n w h) ((((setLane n { l with scan := false } s).wr (PLK_LANE_EYE n)
      PLK_LANE_EYE.WIDTH w).wr (PLK_LANE_EYE n) PLK_LANE_EYE.HEIGHT h).wr (PLK_LANE_EYE n) PLK_LANE_EYE.DONE 1))

/-- **What arrives on a lane, its checks, and the frame clock.** A STATUS is recorded and kept with its slot; a STATUS check
covers every live lane's roster; an alert joins its lane's FIFO of 16 or is lost, and POP removes the oldest; a forward
frame that comes back is recorded and its lane's loop checked; a full FIFO counts a drop; far-end CRCs are compared. A write
of an enabled loop that keeps it enabled changes SPLIT alone; one that sets a loop empties its partner's own slots. A RATE
that cannot be served is refused, another waits for a gate; a genlock edge is timed and GENLOCK_LOSS clears LOCKED. The model's
choices in this: assumption 71 (which loops are loops, whose slots a split empties, when LOOP_MISMATCH sets), 76 (a refused
write of RATE changes no bit, another ends the identify count) and 17 (the edge is stamped two cycles after its command). -/
def Obligations.TowpathAndFrameClock : Prop :=
  ∀ s : State,
    let leads := fun (c : Instr) (v : State) => v.drc.trip = none → exec c s = .next v.irqSync
    (∀ mac : MacFacts, macTaken mac = true → mac.fcsOk = true →
      let n := mac.lane
      laneLive s n = true → lsSettling ≤ laneState s n →
      bitsOf 7 0 (s.raw (PLK_LANE_FAULT_INJECT n)) = 0 →
      let t := s.inc (PLK_LANE_RX_FRAMES n) PLK_LANE_RX_FRAMES.COUNT
      let l := laneOf t n
      (∀ (x : StatusFacts) (u : State) (k : Nat) (r : RosterSlot),
        u = (if x.frame ∈ t.plk.frames ∧ (x.frame, n, x.pos) ∉ t.plk.status
          then { t with plk := { t.plk with status := t.plk.status ++ [(x.frame, n, x.pos)] } } else t) →
        placeOf u n x.pos = some k → slotAt u k = some r →
        leads (.status mac x) (putSlot k (some { r with temp := x.temp % 256, homeB := x.homeB, missed := x.missed % 65536,
                                                          ctlSeq := x.ctlSeq % 65536, result := x.ctlResult % 256,
                                                          heard := some s.cyc }) u)) ∧
      (∀ (pos code : Nat) (d : List Word), code % 256 ≠ 3 →
        (l.alerts.length < 16 → leads (.alert mac pos code d) (showAlert n (setLane n { l with alerts := l.alerts ++ [(pos, code, d)] } t))) ∧
        (16 ≤ l.alerts.length → leads (.alert mac pos code d) (t.inc (PLK_LANE_ALERT_LOST n) PLK_LANE_ALERT_LOST.COUNT))) ∧
      (∀ (src : Nat) (u : State), u = (t.wr (PLK_LANE_STATUS n) PLK_LANE_STATUS.LOOP_SEEN 1).wr (PLK_LANE_STATUS n)
          PLK_LANE_STATUS.LOOP_FROM src →
        leads (.loopFrame mac src) (loopCheck n (setLane n { laneOf u n with looped := true } u))) ∧
      leads (.towpathDrop n) (laneIrq n 6 (s.inc (PLK_LANE_RX_DROP n) PLK_LANE_RX_DROP.COUNT)) ∧
      (∀ (pos frame k : Nat) (es : List (Nat × Nat × Word)), placeOf t n pos = some k →
        leads (.crcReport mac pos frame es) (foldS (farReport k frame) es t))) ∧
    (∀ frame : Nat, frame ∈ s.plk.frames → leads (.statusCheck frame)
      (foldS (fun n u => if laneLive u n then checkRoster frame n u else u) (List.range 64) s)) ∧
    (∀ (n : Nat) (data : Word), laneLive s n = true →
      (bitAt 0 data = true → let l := laneOf s n
        leads (.pop n data) (showAlert n (setLane n { l with alerts := l.alerts.drop 1 } s))) ∧
      (loopEn s n = true → bitAt 0 data = true →
        leads (.splitWrite n data) (s.wr (PLK_LANE_LOOP n) PLK_LANE_LOOP.SPLIT (fget PLK_LANE_LOOP.SPLIT data))) ∧
      (loopEn s n = false ∨ bitAt 0 data = false → ∀ t : State, t = s.hostWrite (PLK_LANE_LOOP n) data →
        (partnerOf t n = none → leads (.splitWrite n data) t) ∧
        (∀ q, partnerOf t n = some q → leads (.splitWrite n data) (foldS emptySlot (filledOf t q) t)))) ∧
    (∀ data : Word, s.domOn 1 = true →
      let c := bitsOf 3 0 data
      let fits := lampsFit s.fuse.variant (s.rd LMP_LAMPS LMP_LAMPS.LAMPS) c
      (14 ≤ c ∨ fits = false → leads (.rate data) (s.wr PLK_FRAME_STATUS PLK_FRAME_STATUS.RATE_REFUSED 1)) ∧
      (c < 14 → fits = true → ∀ t : State, t = s.hostWrite PLK_FRAME_CFG data → leads (.rate data) { t with
        pwr := { t.pwr with identCount := false }
        plk := { t.plk with newRate := if c = rateNow t then none else some c } })) ∧
    (s.domOn 1 = true → s.flag PLK_FRAME_CFG PLK_FRAME_CFG.GENLOCK_EN = true →
      leads .genlockEdge { s with plk := { s.plk with edge := some (s.cyc + 2) } }) ∧
    (s.domOn 1 = true → s.flag PLK_FRAME_STATUS PLK_FRAME_STATUS.LOCKED = true → leads .genlockLoss (loseLock s))

/-- **PIXEL and LINK_SEND frames are queued, and each lane sends by its scheduler.** The next whole rows of a driven tile
become a PIXEL frame on the lane that serves it. A LINK_SEND that passes its checks, its lanes having room, is read and
queued on them; its last byte sent leaves its lane. A refill latches the shaping values and adds credit up to the burst. A free wire takes the
scheduler's frame with the lane's next SEQ, waiting control frames take the room left, and the counters move. That the engine's own
control frames wait for room in the order they arose is the model's choice (assumption 77). -/
def Obligations.EgressQueuesAndSends : Prop :=
  ∀ s : State,
    let leads := fun (c : Instr) (v : State) => v.drc.trip = none → exec c s = .next v.irqSync
    (∀ (key place serial fw fh : Nat) (d12 : Bool), pixelTarget s key = some (place, serial, fw, fh, d12) →
      let x := pixOf s key
      let r := min ((if d12 then 2036 else 1527) / fw) (fh - x.start)
      let lane := (routeOf s place).1
      lampsOn s = true → 0 < r → r ≤ x.rows.length → laneUp s lane = true → x.frame = frameNo s →
      let f : LinkFrame := ⟨1, 0, 0x02, if x.start + r = fh then 2 else 0, (routeOf s place).2, x.frame, d12.toNat, x.start, r, 0,
        serial, drivePayload d12 (x.rows.take r), none, false, 0⟩
      let pix := tabSet (fun _ => ⟨0, 0, []⟩) s.lmp.pix key { x with start := x.start + r, rows := x.rows.drop r }
      leads (.pixel key) (enqueue lane f { s with lmp := { s.lmp with pix := pix } })) ∧
    (∀ (slot : Nat) (pre data : List Byte) (t1 t2 : State), s.startable slot opLinkSend = true → lkRoom s (s.job slot) = true →
      let j := s.job slot
      let ofs := (j.w 4).toNat
      let len := lkLength j
      let size := poolSize (hPool (j.w 3))
      bitsOf 31 21 (j.w 2) = 0 → bitsOf 31 14 (j.w 5) = 0 → ofs % 16 = 0 → isCurrent s (j.w 3) = true →
      ofs + 16 + len ≤ size → len ≤ 9166 →
      dramRdFor (PLK_LANE_FAULT_STATUS j.context) lanePort s (bufAddr s (j.w 3) + ofs) 16 = (pre, false, t1) →
      dramRdFor (PLK_LANE_FAULT_STATUS j.context) lanePort t1 (bufAddr t1 (j.w 3) + ofs + 16) len = (data, false, t2) →
      let arg := bytesNat (pre.take 4)
      lkType j = 0x11 ∨ lkType j = 0x30 →
      primaryOf t2 j.context = none → ((partnerOf t2 j.context).isSome = true → lkPos j < loopLen t2 j.context) →
      (∀ r ∈ lkRoutes t2 j, (laneOf t2 r.1).bist = false ∧ laneUp t2 r.1 = true) →
      let f : LinkFrame := ⟨lkClass j, j.sq % 4, lkType j, (lkBcast j).toNat + (bitAt 19 (j.w 2)).toNat * 2
        + (bitAt 20 (j.w 2)).toNat * 4, 0, 0, 0, 0, 0, arg, bytesNat ((pre.drop 4).take 8), data, some (s.jobRef slot),
        decide ((lkRoutes t2 j).length = 2), 0⟩
      leads (.linkSend slot) (foldS (fun r u => enqueue r.1 { f with pos := r.2 } u) (lkRoutes t2 j) (beginJob slot t2))) ∧
    (∀ (n : Nat) (f : LinkFrame), (laneOf s n).wire = some f →
      leads (.linkSendDone n) (frameLeft n f (setLane n { laneOf s n with wire := none } s))) ∧
    (∀ n : Nat, s.drc.trip = none → laneLive s n = true → ∃ t, exec (.creditRefill n) s = .next t ∧
      let l := laneOf s n
      let m := laneOf t n
      let slow := fun (r : Nat) => if l.rate = 1 then r * 2 / 5 else r
      let cap := fun (b : Nat) => max b (9216 + s.rd (PLK_LANE_SHAPE n) PLK_LANE_SHAPE.OVERHEAD) * 256
      m.shape = shapeRegs s n ∧
      m.credit1 = min (l.credit1 + slow (s.rd (PLK_LANE_PIX_RATE n) PLK_LANE_PIX_RATE.RATE))
        (cap (s.rd (PLK_LANE_PIX_BURST n) PLK_LANE_PIX_BURST.BURST)) ∧
      m.credit2 = min (l.credit2 + slow (s.rd (PLK_LANE_CTL_RATE n) PLK_LANE_CTL_RATE.RATE))
        (cap (s.rd (PLK_LANE_CTL_BURST n) PLK_LANE_CTL_BURST.BURST)) ∧
      { m with shape := l.shape, credit1 := l.credit1, credit2 := l.credit2 } = l ∧
      (∀ k, k ≠ n → laneOf t k = laneOf s k) ∧
      { t with plk := { t.plk with lanes := s.plk.lanes }, icu := s.icu } = s) ∧
    (∀ (n : Nat) (f0 : LinkFrame) (l0 l : LaneSt), laneLive s n = true → lsSettling ≤ laneState s n →
      (∀ f, (laneOf s n).wire = some f → f.job = none) → bitsOf 7 0 (s.raw (PLK_LANE_FAULT_INJECT n)) = 0 →
      selectFrame (laneState s n == lsUp) { laneOf s n with wire := none } = some (f0, l0) → l = l0.takeRoom →
      let f := stampSync n s { f0 with seq := l.seq }
      let b := l.rest.getD f.cls 0 + countedLen l f
      leads (.laneEgressSelect n) (((setLane n { l with wire := some f, seq := (l.seq + 1) % 65536, rest := l.rest.set f.cls (b % 64) }
        s).addTo (PLK_LANE_CLASS_BYTES n f.cls) PLK_LANE_CLASS_BYTES.BYTES64 (b / 64)).inc (PLK_LANE_TX_FRAMES n)
          PLK_LANE_TX_FRAMES.COUNT))

/-! ## Ingress -/

/-- **Ingress takes frames through its stages, and software writes its flows.** A good datagram for the port whose key an
entry holds goes through the RTP check, the meter and the reorder stage of that flow; a damaged frame counts BAD_FRAME, one
of another kind or with no entry UNMATCHED. A flow's oldest held packet that has waited too long is delivered, the numbers
before it lost. A flow entry that passes R361 is written, where its entry moves from one port's copy to the other's in both,
and one that does not is refused with its lowest cause; a read loads the staging words; LINK_UP and FEC_LOCK follow the
link. The model's choices in this: assumption 86 (what RX_FRAMES, BAD_FRAME and YELLOW count) and 133 (the span of a move
between ports, and that a frame whose requests must wait behind the compositor's waits with them). -/
def Obligations.IngressAndFlows : Prop :=
  ∀ s : State,
    let leads := fun (c : Instr) (v : State) => v.drc.trip = none → exec c s = .next v.irqSync
    (∀ (p : Nat) (f : NetFrame), p < numPorts s.fuse.variant → s.domOn (37 + p) = true →
      s.flag (IGR_PORT_CFG p) IGR_PORT_CFG.EN = true → s.flag (IGR_PORT_STATUS p) IGR_PORT_STATUS.LINK_UP = true →
      let t := s.inc (IGR_PORT_RX_FRAMES p) IGR_PORT_RX_FRAMES.COUNT
      let mac := t.rd (IGR_PORT_MAC_HI p) IGR_PORT_MAC_HI.MAC_0_1 * 2 ^ 32 + (t.reg (IGR_PORT_MAC_LO p)).toNat
      (f.fcsOk = false ∨ 9216 < f.bytes.length + 4 ∨ f.bytes.length < 14 →
        leads (.ingressFrame p f) (t.inc (IGR_PORT_BAD_FRAME p) IGR_PORT_BAD_FRAME.COUNT)) ∧
      (f.fcsOk = true → 14 ≤ f.bytes.length → f.bytes.length + 4 ≤ 9216 → frameTags f.bytes < 2 → frameType f.bytes ≠ 0x8808 →
        macMine mac (t.flag (IGR_PORT_CFG p) IGR_PORT_CFG.ACCEPT_MCAST) f.bytes = true → f.fifoRoom = true →
        (parseFrame f.bytes = .bad → leads (.ingressFrame p f) (t.inc (IGR_PORT_BAD_FRAME p) IGR_PORT_BAD_FRAME.COUNT)) ∧
        (parseFrame f.bytes = .other → leads (.ingressFrame p f) (t.inc (IGR_PORT_UNMATCHED p) IGR_PORT_UNMATCHED.COUNT)) ∧
        (∀ (v6 : Bool) (ip dport len : Nat) (data : List Byte), parseFrame f.bytes = .udp v6 ip dport len data →
          s.igr.late = none → bitsOf 7 0 (t.raw (IGR_PORT_FAULT_STATUS p + 12)) = 0 →
          (∀ k, findFlow t p (flowKey p v6 ip dport) = some k → igrAwaits s k = false →
            leads (.ingressFrame p f) (flowPacket k f.bytes (parseRtp len data) t)) ∧
          (findFlow t p (flowKey p v6 ip dport) = none →
            leads (.ingressFrame p f) (t.inc (IGR_PORT_UNMATCHED p) IGR_PORT_UNMATCHED.COUNT))))) ∧
    (∀ (k : Nat) (e : HeldPacket), (flowSt s k).held.head? = some e → s.domOn (37 + k / 4096) = true → igrAwaits s k = false →
      leads (.reorderTimeout k) (deliverHeld k (passGap ((e.seq + 65536 - (flowSt s k).next) % 65536) k s))) ∧
    (∀ (data : Word) (late : Option Nat), s.domOn 1 = true → bitAt 0 data = true → s.igr.late = none →
      let i := s.rd IGR_FLOW_SEL IGR_FLOW_SEL.INDEX
      let w := (List.range 12).map (fun j => s.reg (IGR_FLOW_W j))
      let c := flowCause s i w
      let old := flowOf s i / 4096
      let stays := old = fPort w ∨ flowWords s (flowOf s i) = []
      (c = 0 → (stays → leads (.igrFlowWrite ⟨data, late⟩) (putEntry (fPort w) i w s)) ∧
        (¬ stays → late = none → leads (.igrFlowWrite ⟨data, late⟩) (putEntry (fPort w) i w (putEntry old i [] s)))) ∧
      (c ≠ 0 → ∀ t : State, t = ((s.wr IGR_FLOW_ERR IGR_FLOW_ERR.INDEX i).wr IGR_FLOW_ERR IGR_FLOW_ERR.CAUSE c).inc IGR_FLOW_ERR
          IGR_FLOW_ERR.COUNT →
        leads (.igrFlowWrite ⟨data, late⟩) (if t.domOn (37 + fPort w) then igrIrq (fPort w) 9 t else t))) ∧
    (∀ data : Word, s.drc.trip = none → s.domOn 1 = true → bitAt 1 data = true → s.igr.late = none →
      ∃ t, exec (.igrFlowRead data) s = .next t ∧
      (∀ j, j < 12 → t.reg (IGR_FLOW_W j) = wordAt (flowWords s (flowOf s (s.rd IGR_FLOW_SEL IGR_FLOW_SEL.INDEX))) j) ∧
      (∀ a, (∀ j, j < 12 → a ≠ IGR_FLOW_W j) → t.reg a = s.reg a) ∧ { t with regs := s.regs, icu := s.icu } = s) ∧
    (∀ (p : Nat) (up fec : Bool), s.drc.trip = none → p < numPorts s.fuse.variant → s.domOn (37 + p) = true →
      let t := (s.wr (IGR_PORT_STATUS p) IGR_PORT_STATUS.LINK_UP up.toNat).wr (IGR_PORT_STATUS p) IGR_PORT_STATUS.FEC_LOCK
        (fec && s.flag (IGR_PORT_CFG p) IGR_PORT_CFG.FEC).toNat
      exec (.igrLink p up fec) s = .next (if s.flag (IGR_PORT_STATUS p) IGR_PORT_STATUS.LINK_UP = up then t
        else t.setBit (IGR_PORT_IRQ_STATUS p) 0).irqSync)

/-- **The meter marks by the two buckets and never overfills them.** A packet is red where the peak bucket does not hold its
counted bytes, yellow where only the committed one does not, else green; a red packet takes nothing, a yellow one takes
its bytes from the peak bucket, a green one from both; neither bucket ends above its burst. -/
def Obligations.MeterMarksPackets : Prop :=
  ∀ (w : List Word) (overhead now len : Nat) (x : FlowSt),
    let b := (len + overhead) * 9600000
    let tc := min (x.tc + (now - x.last) * fCir w) (fCbs w * 9600000)
    let tp := min (x.tp + (now - x.last) * fPir w) (fPbs w * 9600000)
    let r := meter w overhead now len x
    (r.1 = .red ↔ tp < b) ∧ (r.1 = .yellow ↔ b ≤ tp ∧ tc < b) ∧ (r.1 = .green ↔ b ≤ tp ∧ b ≤ tc) ∧
    r.2.tc + (if r.1 = .green then b else 0) = tc ∧ r.2.tp + (if r.1 = .red then 0 else b) = tp ∧
    r.2.tc ≤ fCbs w * 9600000 ∧ r.2.tp ≤ fPbs w * 9600000 ∧ { r.2 with tc := x.tc, tp := x.tp, last := x.last } = x

/-! ## Power, clocks, resets and the service functions -/

/-- **Software switches domains.** A PWR_CMD that breaks no condition makes BUSY 1; off, the domain's units lose what they
hold and its registers return to reset at once; the switch's end clears BUSY and brings the domain on. One that names the
domain's present state does nothing more, and one that breaks a condition is recorded with its cause. That
the units are absent from the decision on and the domain on at the switch's end is assumption 90 (DESIGN CHOICE). -/
def Obligations.DomainsAreSwitched : Prop :=
  ∀ s : State,
    let leads := fun (c : Instr) (v : State) => v.drc.trip = none → exec c s = .next v.irqSync
    (∀ (data : Word) (t : State), s.domOn 1 = true → t = s.hostWrite PWR_CMD data →
      let n := bitsOf 5 0 data
      let begins := fun (up : Bool) => ({ t.wr PWR_CMD PWR_CMD.BUSY 1 with pwr := { t.pwr with cmd := some (n, up) } } : State)
      (bitAt 8 data = true →
        (pwrTest s n true (bitAt 9 data) = none → bitsOf 7 0 (t.raw (PWR_FAULT_STATUS + 12)) = 0 →
          leads (.pwrCmdOn data) (begins true)) ∧
        (pwrTest s n true (bitAt 9 data) = some 0 → leads (.pwrCmdOn data) t) ∧
        (∀ c, c ≠ 0 → pwrTest s n true (bitAt 9 data) = some c → leads (.pwrCmdOn data) (pwrRefuse n c t))) ∧
      (bitAt 8 data = false → bitAt 9 data = true →
        (pwrTest s n false false = none → bitsOf 7 0 (t.raw (PWR_FAULT_STATUS + 12)) = 0 →
          leads (.pwrCmdOff data) (domainDown n (begins false))) ∧
        (pwrTest s n false false = some 0 → leads (.pwrCmdOff data) t) ∧
        (∀ c, c ≠ 0 → pwrTest s n false false = some c → leads (.pwrCmdOff data) (pwrRefuse n c t)))) ∧
    (∀ (n : Nat) (up : Bool) (t : State), s.pwr.cmd = some (n, up) →
      t = (let u := (s.wr PWR_CMD PWR_CMD.BUSY 0).setBit PWR_IRQ_STATUS 0
           { u with pwr := { u.pwr with cmd := none } }) →
      leads .domainSwitchDone (if up then domainUp n t else t))

/-- **Supplies and clocks fail and return.** PWRFAIL_N low, or a low VAON_MAIN, starts the power-fail sequence in an engine
that runs or sleeps; the commit's end shows how long it took and leaves the engine in SHED, from which it restarts under
the conditions of R484. Lost PLL lock sheds without a commit; a stopped REFCLK changes CLK_AON and cuts a commit short.
The return of each supply, pin and clock is recorded. The model's choices in this: assumption 94 (what a power fail and a
cut leave of waiting store commands), 95 (PWRFAIL sets on a rise too and on VAON_MAIN low, a restart needs REFCLK) and 98
(without REFCLK a power failure goes to SHED at once). -/
def Obligations.SuppliesAndClocks : Prop :=
  ∀ s : State,
    let leads := fun (c : Instr) (v : State) => v.drc.trip = none → exec c s = .next v.irqSync
    let runs := s.pwr.mode = .run ∨ s.pwr.mode = .asleep
    (s.pins.pwrfailN = true → runs → leads .powerFail (powerFailRun .powerFail
      (({ s with pins := { s.pins with pwrfailN := false } } : State).setBit BW_IRQ_STATUS 5))) ∧
    (s.pins.pwrfailN = false → s.pwr.mode ≠ .porst → leads .pwrfailNRise
      (({ s with pins := { s.pins with pwrfailN := true } } : State).setBit BW_IRQ_STATUS 5)) ∧
    (s.pwr.vaonLow = true → s.pins.pwrfailN = true → runs → leads .vaonMainLow (powerFailRun .powerFail (s.setBit BW_IRQ_STATUS 5))) ∧
    (∀ us : Nat, s.drc.trip = none → s.pwr.mode = .powerFail → emBusy s (fun c => c == 0) = false →
      s.ldg.pfDue = false → s.ldg.pfail = true →
      ∃ t, exec (.powerFailCommitDone us) s = .next t ∧ t.pwr.mode = .shed ∧ t.ldg.pfail = false ∧
        t.flag LDG_PF LDG_PF.DONE = true ∧ t.rd LDG_PF LDG_PF.PF_TIME_US = min us 8191 ∧
        t.rd LDG_PF LDG_PF.PF_TIME_MS = min ((us + 999) / 1000) 65535 ∧ t.flag CLK_STATUS CLK_STATUS.MAIN_LOCK = false ∧
        (∀ a, a ≠ LDG_PF → a ≠ CLK_STATUS → t.reg a = s.reg a) ∧
        { t with regs := s.regs, icu := s.icu, pwr := { t.pwr with mode := s.pwr.mode }, ldg := { t.ldg with pfail := s.ldg.pfail } } = s) ∧
    (s.pwr.mode = .shed → s.pins.pwrfailN = true → s.flag PWR_SUPPLY PWR_SUPPLY.ON_BKP = false → s.pwr.refStopped = false →
      (∀ i, i < 16 → tempOf s i ≤ (s.rd PWR_TEMP_CFG PWR_TEMP_CFG.RESTART_C : Nat)) →
      s.flag PWR_PF_CFG PWR_PF_CFG.AUTO_RESTART = true ∨ s.flag PWR_SVC PWR_SVC.PRESSED = true →
      let t := restartCause (mainUp (s.wr CLK_STATUS CLK_STATUS.MAIN_LOCK 1))
      leads .shedRestart (ctlUp { t with pwr := { t.pwr with mode := .run, tripHold := false } })) ∧
    (s.flag PWR_SUPPLY PWR_SUPPLY.ON_BKP = false → s.pwr.mode ≠ .porst →
      let t := (s.wr PWR_SUPPLY PWR_SUPPLY.ON_BKP 1).inc PWR_SUPPLY PWR_SUPPLY.SWITCHES
      let u := if t.domOn 1 then t.setBit PWR_IRQ_STATUS 5 else t
      leads .supplySwitchOver { u with pwr := { u.pwr with vaonLow := true } }) ∧
    (s.flag PWR_SUPPLY PWR_SUPPLY.ON_BKP = true →
      leads .supplySwitchBack { s.wr PWR_SUPPLY PWR_SUPPLY.ON_BKP 0 with pwr := { s.pwr with vaonLow := false } }) ∧
    (runs → s.domOn 1 = true →
      let t := dropWrites (fun _ => true) (shed (fun _ => false) (loseMainLock (if s.pwr.sleepReq then abandonSleep s else s)))
      leads .pllLockLoss { t with pwr := { t.pwr with mode := .shed, shed := .pll, wakeReq := false } }) ∧
    (s.pwr.refStopped = false → s.pwr.mode = .run → emBusy s (fun c => decide (c ≤ 1)) = false →
      let t := loseMainLock (s.wr CLK_STATUS CLK_STATUS.AON_OSC 1)
      leads .refclkStop { t with pwr := { t.pwr with refStopped := true } }) ∧
    (s.pwr.refStopped = true →
      leads .refclkReturn { s.wr CLK_STATUS CLK_STATUS.AON_OSC 0 with pwr := { s.pwr with refStopped := false } })

/-- **Sleep, wake and the resets.** A request with a legal keep mask is taken, another gives BAD_KEEP; the commit sheds the
domains not kept; an event wakes the engine, which delivers the latched sources. PORST_N low resets everything but the
eMMC store, the fuses, the test port and the host's memory, and its release reads the fuses and brings domains 1 to 3 up, from which a low PWRFAIL_N starts the power-fail sequence; PERST_N resets the
configuration space, and its rise the host interface; the key resets every domain but PD_AON and PD_PCIE; a write of 1 locks the set-up registers.
The model's choices in this: assumption 95 (the wake latches clear at the commit, which wake causes are recorded) and 97
(what PORST_N keeps that is not the engine's). -/
def Obligations.SleepAndResets : Prop :=
  ∀ s : State,
    let leads := fun (c : Instr) (v : State) => v.drc.trip = none → exec c s = .next v.irqSync
    (∀ data : Word, bitAt 0 data = true → s.domOn 1 = true → s.pwr.mode = .run →
      (keepOk s.fuse.variant (keepMask s) = true → leads (.sleepGo data)
        { s with pwr := { s.pwr with sleepReq := true, keep := keepMask s } }) ∧
      (keepOk s.fuse.variant (keepMask s) = false →
        leads (.sleepGo data) ((s.wr PWR_SLEEP_CTL PWR_SLEEP_CTL.RESULT 3).setBit PWR_IRQ_STATUS 2))) ∧
    (s.pwr.sleepReq = true → s.pwr.mode = .run → ∀ t u : State, t = shed (inSet s.pwr.keep) s →
      u = (({ t with icu := { t.icu with msgs := s.icu.msgs.filter (fun x => !x.2 && s.wakeNamed x.1) } } : State).setReg
        BW_WAKE_LATCH_LO 0).setReg BW_WAKE_LATCH_HI 0 →
      let v : State := { u with pwr := { u.pwr with mode := .asleep, sleepReq := false, wakeReq := false, causeSet := false } }
      leads .sleepCommit (if inSet s.pwr.keep 1 = true ∨ emBusy v (fun c => decide (c ≤ 1)) = true then v
        else v.wr CLK_STATUS CLK_STATUS.MAIN_LOCK 0)) ∧
    (s.pwr.mode = .asleep → s.pwr.wakeReq = true → s.pwr.refStopped = false → ∀ t : State,
      t = ((mainUp (s.wr CLK_STATUS CLK_STATUS.MAIN_LOCK 1)).setBit TOP_RESET_CAUSE 5).wr PWR_SLEEP_CTL PWR_SLEEP_CTL.RESULT 1 →
      let held := ((List.range 64).filter (wakeLatched s)).map (fun j => (bitsOf 9 0 (s.raw (BW_WAKE_SRC j)), false))
      leads .wake (ctlUp (({ t with
        pwr := { t.pwr with mode := .run, wakeReq := false }
        icu := { t.icu with msgs := t.icu.msgs ++ held } } : State).setBit BW_IRQ_STATUS 1))) ∧
    (s.rd BW_TIMER BW_TIMER.SECONDS ≠ 0 → s.domOn 0 = true →
      leads .bwTimer (ownWake 22 ((s.setReg BW_TIMER 0).setBit BW_IRQ_STATUS 2))) ∧
    (s.pins.porstN = true → ∃ t, exec .porstN s = .next t ∧ t.regs = [] ∧ t.pwr.doms = 0 ∧ t.pwr.mode = .porst ∧ t.pins.porstN = false ∧
      t.ldg.store = s.ldg.store ∧ t.host = s.host ∧ t.tap = s.tap ∧ t.pcie = State.reset.pcie ∧ t.fuse.variant = s.fuse.variant ∧
      (s.sec.target = none → t.fuse = s.fuse) ∧ t.pending = s.pending ∧ t.drc = State.reset.drc ∧ t.spd = State.reset.spd ∧
      t.bpm = State.reset.bpm ∧ t.sec = State.reset.sec ∧ t.lmp = State.reset.lmp ∧ t.cmp = State.reset.cmp ∧
      t.dec = { State.reset.dec with rotated := s.cyc }) ∧
    (s.pwr.mode = .porst → s.pwr.vaonLow = false → s.pwr.refStopped = false →
      let t := s.wr CLK_STATUS CLK_STATUS.MAIN_LOCK 1
      let u : State := { t with
        pins := { t.pins with porstN := true }
        fuse := { t.fuse with lifeCycle := t.fuse.burnt }
        dec := { t.dec with rotated := t.cyc }
        pwr := { t.pwr with doms := 15, mode := .run } }
      leads .porstNRelease (if s.pins.pwrfailN then u else powerFailRun .powerFail (u.setBit BW_IRQ_STATUS 5))) ∧
    (s.pins.perstN = true → leads (.perstN false) (clearPcie { s with pins := { s.pins with perstN := false } })) ∧
    (s.pins.perstN = false → s.pwr.mode ≠ .porst → ∀ t : State,
      t = ownWake 24 ((clearPcie { s with pins := { s.pins with perstN := true } }).setBit BW_IRQ_STATUS 4) →
      leads (.perstN true) (if t.domOn 1 then functionReset t else t)) ∧
    (s.domOn 1 = true →
      (∀ t : State, t = mainUp (shed (fun n => n == 3) s) →
        leads (.topReset 0x52535431) (ctlUp (({ t with pwr := { t.pwr with sleepReq := false } } : State).setBit TOP_RESET_CAUSE 1))) ∧
      (∀ data : Word, data ≠ 0x52535431 → leads (.topReset data) s) ∧
      (∀ data : Word, leads (.topSetupLock data) (s.hostWrite TOP_SETUP_LOCK data)))

/-- **The service key, the sensors and the window test.** A press counts, wakes a sleeping engine and toggles IDENTIFY, or
keeps the toggle while PD_CTL is off; the count's end clears IDENTIFY. Breakwater's readings move TEMP and PEAK, set the
warnings, and 115 °C twice in a row at one sensor trips the engine, which after a power failure holds FAULT_N alone. A window test that may run makes BUSY 1, another gives
the result BUSY; its end gives zero contents and PASS, or FAIL with the failing word. The model's choices in this:
assumption 93 (a trip records THERMAL at once, a held toggle inverts once) and 96 (what a failed test leaves of its window). -/
def Obligations.ServiceSensorsAndMemoryTest : Prop :=
  ∀ s : State,
    let leads := fun (c : Instr) (v : State) => v.drc.trip = none → exec c s = .next v.irqSync
    (s.flag PWR_SVC PWR_SVC.PRESSED = false → s.pwr.mode ≠ .porst → ∀ t : State,
      t = ownWake 23 (((({ s with pins := { s.pins with svcKeyN := false } } : State).wr PWR_SVC PWR_SVC.PRESSED 1).inc PWR_SVC
        PWR_SVC.PRESSES).setBit BW_IRQ_STATUS 3) →
      (t.domOn 1 = true → leads .svcKey (toggleIdentify t)) ∧
      (t.domOn 1 = false → leads .svcKey { t with pwr := { t.pwr with identHeld := !t.pwr.identHeld } })) ∧
    (s.pins.svcKeyN = false →
      leads .svcKeyRelease { s.wr PWR_SVC PWR_SVC.PRESSED 0 with pins := { s.pins with svcKeyN := true } }) ∧
    (s.pwr.identCount = true → s.domOn 1 = true →
      leads .identifyTimeout { s.wr PLK_FRAME_CFG PLK_FRAME_CFG.IDENTIFY 0 with pwr := { s.pwr with identCount := false } }) ∧
    (∀ (ts : List Int) (t u : State), ts.length = 16 → s.pwr.mode ≠ .porst →
      t = foldS (fun p x => takeReading p.1 p.2 x) ((List.range 16).zip ts) s →
      let now := (((List.range 16).filter (fun i => decide (115 ≤ tempOf t i))).map (fun i => 2 ^ i)).sum
      u = tempLevels { t with pwr := { t.pwr with hot := now } } →
      (Nat.land now s.pwr.hot = 0 → leads (.temperatureRead ts) u) ∧
      (Nat.land now s.pwr.hot ≠ 0 → s.pwr.mode = .run ∨ s.pwr.mode = .asleep →
        let v := powerFailRun .thermal (u.setBit TOP_RESET_CAUSE 3)
        leads (.temperatureRead ts) { v with pwr := { v.pwr with tripHold := true } }) ∧
      (Nat.land now s.pwr.hot ≠ 0 → s.pwr.mode = .powerFail ∨ s.pwr.mode = .shed →
        let v := u.setBit TOP_RESET_CAUSE 3
        leads (.temperatureRead ts) { v with pwr := { v.pwr with tripHold := true } })) ∧
    (∀ (i : Nat) (data : Word), i < 16 → bitAt 31 data = true → s.domOn 1 = true →
      leads (.pwrTempPeakClr i data) (s.wr (PWR_TEMP i) PWR_TEMP.PEAK (s.rd (PWR_TEMP i) PWR_TEMP.TEMP))) ∧
    (∀ (data : Word) (t : State), bitAt 8 data = true → s.domOn 1 = true → s.flag TOP_MEMTEST_CTL TOP_MEMTEST_CTL.BUSY = false →
      t = s.hostWrite TOP_MEMTEST_CTL data →
      leads (.memtestGo data) (if memtestOk t (bitsOf 5 0 data) then t.wr TOP_MEMTEST_CTL TOP_MEMTEST_CTL.BUSY 1
        else t.wr TOP_MEMTEST_CTL TOP_MEMTEST_CTL.RESULT 3)) ∧
    (s.flag TOP_MEMTEST_CTL TOP_MEMTEST_CTL.BUSY = true →
      let w := s.rd TOP_MEMTEST_CTL TOP_MEMTEST_CTL.WINDOW
      let t := s.wr TOP_MEMTEST_CTL TOP_MEMTEST_CTL.BUSY 0
      let ended := fun (r : Nat) => ((zeroPhys (winPhys s w) (winPhysSize s w) t).setBit PWR_IRQ_STATUS 6).wr TOP_MEMTEST_CTL
        TOP_MEMTEST_CTL.RESULT r
      leads (.memtestDone none) (ended 1) ∧
      (∀ p : Nat, winPhys s w ≤ p → p < winPhys s w + winPhysSize s w →
        leads (.memtestDone (some p)) ((ended 2).setReg64 TOP_MEMTEST_FAIL_LO TOP_MEMTEST_FAIL_HI (p / 4 * 4))))

/-- **A domain that goes off leaves its registers at reset and no other domain changed.** After one of the domains 4 to 39,
PD_LMP aside (two fields of its window are Breakwater's), goes down, it is off, every other domain is as it was, and each
register of a table that lies in it holds its reset value and is not live: the host reads it as zero and cannot write it. -/
def Obligations.DomainDownResetsItsRegisters : Prop :=
  ∀ (s : State) (n : Nat), 4 ≤ n → n < 40 → n ≠ 32 →
    (domainDown n s).domOn n = false ∧ (∀ m, m ≠ n → (domainDown n s).domOn m = s.domOn m) ∧
    (∀ (a i j : Nat) (r : RegDesc), regFind a = some (r, i, j) → regDomain r.dom i = n →
      (domainDown n s).reg a = regReset s.fuse.variant a ∧ (domainDown n s).regLive a = false)
end

