-- ==== Sys2Proof/Laws/Tab.lean ====
section
/-!
SUPPORT. The laws of tables: a read after a write gives the value written, a write leaves every other key alone, and
every operation keeps the canonical form.
-/
namespace Sys2Proof.Machine

variable {α : Type} [DecidableEq α]

theorem tabGet_tabSet (d : Nat → α) (t : Tab α) (a b : Nat) (v : α) :
    tabGet d (tabSet d t a v) b = if b = a then v else tabGet d t b := by
  induction t with
  | nil => by_cases h : v = d a <;> by_cases hb : b = a <;> simp [tabSet, tabGet, h, hb]
  | cons e t ih =>
    obtain ⟨k, w⟩ := e
    simp only [tabSet]
    by_cases hak : a = k
    · subst hak
      by_cases hv : v = d a
      · rw [if_pos rfl, if_pos hv, ih]
        by_cases hb : b = a <;> simp [tabGet, hb]
      · rw [if_pos rfl, if_neg hv]
        by_cases hb : b = a <;> simp [tabGet, hb]
    · rw [if_neg hak]
      by_cases hc : a < k ∧ v ≠ d a
      · rw [if_pos hc]
        by_cases hb : b = a <;> simp [tabGet, hb]
      · rw [if_neg hc]
        by_cases hbk : b = k
        · subst hbk; simp [tabGet, Ne.symm hak]
        · simp [tabGet, hbk, ih]

@[simp] theorem tabGet_tabSet_same (d : Nat → α) (t : Tab α) (a : Nat) (v : α) :
    tabGet d (tabSet d t a v) a = v := by simp [tabGet_tabSet]

theorem tabGet_tabSet_ne (d : Nat → α) (t : Tab α) {a b : Nat} (v : α) (h : b ≠ a) :
    tabGet d (tabSet d t a v) b = tabGet d t b := by simp [tabGet_tabSet, h]

theorem tabGet_tabSetRange_out (d : Nat → α) (vs : List α) : ∀ (t : Tab α) (a b : Nat),
    b < a ∨ a + vs.length ≤ b → tabGet d (tabSetRange d t a vs) b = tabGet d t b := by
  induction vs with
  | nil => intro t a b _; rfl
  | cons v vs ih =>
    intro t a b h
    simp only [List.length_cons] at h
    rw [tabSetRange, ih _ _ _ (by omega), tabGet_tabSet_ne]
    omega

theorem tabGet_tabSetRange_in (d : Nat → α) (vs : List α) : ∀ (t : Tab α) (a i : Nat) (h : i < vs.length),
    tabGet d (tabSetRange d t a vs) (a + i) = vs[i] := by
  induction vs with
  | nil => intro t a i h; exact absurd h (Nat.not_lt_zero _)
  | cons v vs ih =>
    intro t a i h
    rw [tabSetRange]
    cases i with
    | zero => rw [tabGet_tabSetRange_out _ _ _ _ _ (by omega)]; simp
    | succ j =>
      have := ih (tabSet d t a v) (a + 1) j (by simpa using h)
      rw [show a + 1 + j = a + (j + 1) by omega] at this
      simpa using this

/-- Reading back a range just written. -/
theorem tabGetRange_tabSetRange (d : Nat → α) (vs : List α) (t : Tab α) (a : Nat) :
    tabGetRange d (tabSetRange d t a vs) a vs.length = vs := by
  apply List.ext_getElem
  · simp [tabGetRange]
  · intro i h1 h2
    simp [tabGetRange, tabGet_tabSetRange_in d vs t a i h2]

/-! ## The canonical form -/

/-- Writing the default of a key below every listed one changes nothing. -/
theorem tabSet_default_below (d : Nat → α) (u : Tab α) : ∀ (l a : Nat), a ≤ l → tabWfFrom d (some l) u = true →
    tabSet d u a (d a) = u := by
  induction u with
  | nil => intro l a _ _; simp [tabSet]
  | cons e u ih =>
    intro l a hl hu
    obtain ⟨k, w⟩ := e
    simp only [tabWfFrom, Bool.and_eq_true, decide_eq_true_eq] at hu
    have h1 : a ≠ k := by omega
    have h2 := ih k a (by omega) hu.2
    simp [tabSet, h1, h2]

theorem tabWfFrom_weaken (d : Nat → α) (t : Tab α) (k : Nat) (lo : Option Nat) (h : tabWfFrom d (some k) t = true)
    (hk : ∀ l, lo = some l → l ≤ k) : tabWfFrom d lo t = true := by
  cases t with
  | nil => rfl
  | cons e t =>
    obtain ⟨k', w⟩ := e
    simp only [tabWfFrom, Bool.and_eq_true, decide_eq_true_eq] at h ⊢
    refine ⟨⟨?_, h.1.2⟩, h.2⟩
    cases lo with
    | none => rfl
    | some l => have := hk l rfl; simp only [decide_eq_true_eq]; omega

theorem tabWfFrom_tabSet (d : Nat → α) (t : Tab α) : ∀ (lo : Option Nat) (a : Nat) (v : α),
    tabWfFrom d lo t = true → (∀ l, lo = some l → l < a) → tabWfFrom d lo (tabSet d t a v) = true := by
  induction t with
  | nil =>
    intro lo a v _ hlo
    by_cases hv : v = d a
    · simp [tabSet, hv, tabWfFrom]
    · cases lo with
      | none => simp [tabSet, tabWfFrom, hv]
      | some l => simp [tabSet, tabWfFrom, hv, hlo l rfl]
  | cons e t ih =>
    intro lo a v h hlo
    obtain ⟨k, w⟩ := e
    have h0 := h
    simp only [tabWfFrom, Bool.and_eq_true, decide_eq_true_eq] at h
    obtain ⟨⟨hk, hw⟩, ht⟩ := h
    have hlk : ∀ l, lo = some l → l ≤ k := by
      intro l hl; subst hl; simp only [decide_eq_true_eq] at hk; omega
    by_cases hak : a = k
    · subst hak
      by_cases hv : v = d a
      · subst hv
        rw [tabSet, if_pos rfl, if_pos rfl, tabSet_default_below d t a a (Nat.le_refl _) ht]
        exact tabWfFrom_weaken d t a lo ht hlk
      · rw [tabSet, if_pos rfl, if_neg hv]
        simp only [tabWfFrom, Bool.and_eq_true, decide_eq_true_eq]
        exact ⟨⟨hk, hv⟩, ht⟩
    · by_cases hc : a < k ∧ v ≠ d a
      · rw [tabSet, if_neg hak, if_pos hc]
        simp only [tabWfFrom, Bool.and_eq_true, decide_eq_true_eq]
        refine ⟨⟨?_, hc.2⟩, ⟨hc.1, hw⟩, ht⟩
        cases lo with
        | none => rfl
        | some l => simp [hlo l rfl]
      · rw [tabSet, if_neg hak, if_neg hc]
        simp only [tabWfFrom, Bool.and_eq_true, decide_eq_true_eq]
        refine ⟨⟨hk, hw⟩, ?_⟩
        by_cases hlt : k < a
        · exact ih (some k) a v ht (by intro l hl; cases hl; exact hlt)
        · have hv : v = d a := Classical.byContradiction fun hv => hc ⟨by omega, hv⟩
          subst hv
          rw [tabSet_default_below d t k a (by omega) ht]
          exact ht

/-- A write keeps the canonical form. -/
theorem tabWf_tabSet (d : Nat → α) (t : Tab α) (a : Nat) (v : α) (h : tabWf d t = true) :
    tabWf d (tabSet d t a v) = true := tabWfFrom_tabSet d t none a v h (by intro l hl; cases hl)

/-- Writing a range keeps the canonical form. -/
theorem tabWf_tabSetRange (d : Nat → α) (vs : List α) : ∀ (t : Tab α) (a : Nat), tabWf d t = true →
    tabWf d (tabSetRange d t a vs) = true := by
  induction vs with
  | nil => intro t a h; exact h
  | cons v vs ih => intro t a h; exact ih _ _ (tabWf_tabSet d t a v h)

/-- Dropping entries keeps the canonical form. -/
theorem tabWf_tabDrop (d : Nat → α) (p : Nat → Bool) (t : Tab α) (h : tabWf d t = true) : tabWf d (tabDrop p t) = true := by
  have key : ∀ (t : Tab α) (lo : Option Nat), tabWfFrom d lo t = true → tabWfFrom d lo (tabDrop p t) = true := by
    intro t
    induction t with
    | nil => intro lo _; rfl
    | cons e t ih =>
      intro lo h
      obtain ⟨k, w⟩ := e
      have h0 := h
      simp only [tabWfFrom, Bool.and_eq_true, decide_eq_true_eq] at h
      unfold tabDrop
      rw [List.filter_cons]
      split
      · simp only [tabWfFrom, Bool.and_eq_true, decide_eq_true_eq]
        exact ⟨h.1, ih _ h.2⟩
      · apply ih
        refine tabWfFrom_weaken d t k lo h.2 ?_
        intro l hl
        subst hl
        have := h.1.1
        simp only [decide_eq_true_eq] at this
        omega
  exact key t none h

end Sys2Proof.Machine
end

