-- ==== Sys2Proof/Laws/State.lean ====
section
/-!
SUPPORT. The state under its named updates: which fields each one leaves as they were, what a register reads after a
write, and what a field reads after its own write.
-/
namespace Sys2Proof.Machine

/-! ## One lemma per field per update -/

@[simp] theorem State.setReg_fuse (s : State) (a : Nat) (w : Word) : (s.setReg a w).fuse = s.fuse := rfl
@[simp] theorem State.setReg_pins (s : State) (a : Nat) (w : Word) : (s.setReg a w).pins = s.pins := rfl
@[simp] theorem State.setReg_pwr (s : State) (a : Nat) (w : Word) : (s.setReg a w).pwr = s.pwr := rfl
@[simp] theorem State.setReg_tap (s : State) (a : Nat) (w : Word) : (s.setReg a w).tap = s.tap := rfl
@[simp] theorem State.setReg_pcie (s : State) (a : Nat) (w : Word) : (s.setReg a w).pcie = s.pcie := rfl
@[simp] theorem State.setReg_host (s : State) (a : Nat) (w : Word) : (s.setReg a w).host = s.host := rfl
@[simp] theorem State.setReg_hq (s : State) (a : Nat) (w : Word) : (s.setReg a w).hq = s.hq := rfl
@[simp] theorem State.setReg_icu (s : State) (a : Nat) (w : Word) : (s.setReg a w).icu = s.icu := rfl
@[simp] theorem State.setReg_bpm (s : State) (a : Nat) (w : Word) : (s.setReg a w).bpm = s.bpm := rfl
@[simp] theorem State.setReg_dma (s : State) (a : Nat) (w : Word) : (s.setReg a w).dma = s.dma := rfl
@[simp] theorem State.setReg_drc (s : State) (a : Nat) (w : Word) : (s.setReg a w).drc = s.drc := rfl
@[simp] theorem State.setReg_spd (s : State) (a : Nat) (w : Word) : (s.setReg a w).spd = s.spd := rfl
@[simp] theorem State.setReg_sec (s : State) (a : Nat) (w : Word) : (s.setReg a w).sec = s.sec := rfl
@[simp] theorem State.setReg_dec (s : State) (a : Nat) (w : Word) : (s.setReg a w).dec = s.dec := rfl
@[simp] theorem State.setReg_hsq (s : State) (a : Nat) (w : Word) : (s.setReg a w).hsq = s.hsq := rfl
@[simp] theorem State.setReg_enc (s : State) (a : Nat) (w : Word) : (s.setReg a w).enc = s.enc := rfl
@[simp] theorem State.setReg_sdi (s : State) (a : Nat) (w : Word) : (s.setReg a w).sdi = s.sdi := rfl
@[simp] theorem State.setReg_cmp (s : State) (a : Nat) (w : Word) : (s.setReg a w).cmp = s.cmp := rfl
@[simp] theorem State.setReg_lmp (s : State) (a : Nat) (w : Word) : (s.setReg a w).lmp = s.lmp := rfl
@[simp] theorem State.setReg_ldg (s : State) (a : Nat) (w : Word) : (s.setReg a w).ldg = s.ldg := rfl
@[simp] theorem State.setReg_plk (s : State) (a : Nat) (w : Word) : (s.setReg a w).plk = s.plk := rfl
@[simp] theorem State.setReg_igr (s : State) (a : Nat) (w : Word) : (s.setReg a w).igr = s.igr := rfl
@[simp] theorem State.setReg_pinEvts (s : State) (a : Nat) (w : Word) : (s.setReg a w).pinEvts = s.pinEvts := rfl
@[simp] theorem State.setReg_cyc (s : State) (a : Nat) (w : Word) : (s.setReg a w).cyc = s.cyc := rfl
@[simp] theorem State.setReg_free (s : State) (a : Nat) (w : Word) : (s.setReg a w).free = s.free := rfl
@[simp] theorem State.setReg_pending (s : State) (a : Nat) (w : Word) : (s.setReg a w).pending = s.pending := rfl

@[simp] theorem State.wr_fuse (s : State) (a : Nat) (f : Fld) (v : Nat) : (s.wr a f v).fuse = s.fuse := rfl
@[simp] theorem State.wr_pins (s : State) (a : Nat) (f : Fld) (v : Nat) : (s.wr a f v).pins = s.pins := rfl
@[simp] theorem State.wr_pwr (s : State) (a : Nat) (f : Fld) (v : Nat) : (s.wr a f v).pwr = s.pwr := rfl
@[simp] theorem State.wr_tap (s : State) (a : Nat) (f : Fld) (v : Nat) : (s.wr a f v).tap = s.tap := rfl
@[simp] theorem State.wr_pcie (s : State) (a : Nat) (f : Fld) (v : Nat) : (s.wr a f v).pcie = s.pcie := rfl
@[simp] theorem State.wr_host (s : State) (a : Nat) (f : Fld) (v : Nat) : (s.wr a f v).host = s.host := rfl
@[simp] theorem State.wr_hq (s : State) (a : Nat) (f : Fld) (v : Nat) : (s.wr a f v).hq = s.hq := rfl
@[simp] theorem State.wr_icu (s : State) (a : Nat) (f : Fld) (v : Nat) : (s.wr a f v).icu = s.icu := rfl
@[simp] theorem State.wr_bpm (s : State) (a : Nat) (f : Fld) (v : Nat) : (s.wr a f v).bpm = s.bpm := rfl
@[simp] theorem State.wr_dma (s : State) (a : Nat) (f : Fld) (v : Nat) : (s.wr a f v).dma = s.dma := rfl
@[simp] theorem State.wr_drc (s : State) (a : Nat) (f : Fld) (v : Nat) : (s.wr a f v).drc = s.drc := rfl
@[simp] theorem State.wr_spd (s : State) (a : Nat) (f : Fld) (v : Nat) : (s.wr a f v).spd = s.spd := rfl
@[simp] theorem State.wr_sec (s : State) (a : Nat) (f : Fld) (v : Nat) : (s.wr a f v).sec = s.sec := rfl
@[simp] theorem State.wr_dec (s : State) (a : Nat) (f : Fld) (v : Nat) : (s.wr a f v).dec = s.dec := rfl
@[simp] theorem State.wr_hsq (s : State) (a : Nat) (f : Fld) (v : Nat) : (s.wr a f v).hsq = s.hsq := rfl
@[simp] theorem State.wr_enc (s : State) (a : Nat) (f : Fld) (v : Nat) : (s.wr a f v).enc = s.enc := rfl
@[simp] theorem State.wr_sdi (s : State) (a : Nat) (f : Fld) (v : Nat) : (s.wr a f v).sdi = s.sdi := rfl
@[simp] theorem State.wr_cmp (s : State) (a : Nat) (f : Fld) (v : Nat) : (s.wr a f v).cmp = s.cmp := rfl
@[simp] theorem State.wr_lmp (s : State) (a : Nat) (f : Fld) (v : Nat) : (s.wr a f v).lmp = s.lmp := rfl
@[simp] theorem State.wr_ldg (s : State) (a : Nat) (f : Fld) (v : Nat) : (s.wr a f v).ldg = s.ldg := rfl
@[simp] theorem State.wr_plk (s : State) (a : Nat) (f : Fld) (v : Nat) : (s.wr a f v).plk = s.plk := rfl
@[simp] theorem State.wr_igr (s : State) (a : Nat) (f : Fld) (v : Nat) : (s.wr a f v).igr = s.igr := rfl
@[simp] theorem State.wr_pinEvts (s : State) (a : Nat) (f : Fld) (v : Nat) : (s.wr a f v).pinEvts = s.pinEvts := rfl
@[simp] theorem State.wr_cyc (s : State) (a : Nat) (f : Fld) (v : Nat) : (s.wr a f v).cyc = s.cyc := rfl
@[simp] theorem State.wr_free (s : State) (a : Nat) (f : Fld) (v : Nat) : (s.wr a f v).free = s.free := rfl
@[simp] theorem State.wr_pending (s : State) (a : Nat) (f : Fld) (v : Nat) : (s.wr a f v).pending = s.pending := rfl

@[simp] theorem State.inc_fuse (s : State) (a : Nat) (f : Fld) : (s.inc a f).fuse = s.fuse := rfl
@[simp] theorem State.inc_pins (s : State) (a : Nat) (f : Fld) : (s.inc a f).pins = s.pins := rfl
@[simp] theorem State.inc_pwr (s : State) (a : Nat) (f : Fld) : (s.inc a f).pwr = s.pwr := rfl
@[simp] theorem State.inc_tap (s : State) (a : Nat) (f : Fld) : (s.inc a f).tap = s.tap := rfl
@[simp] theorem State.inc_pcie (s : State) (a : Nat) (f : Fld) : (s.inc a f).pcie = s.pcie := rfl
@[simp] theorem State.inc_host (s : State) (a : Nat) (f : Fld) : (s.inc a f).host = s.host := rfl
@[simp] theorem State.inc_hq (s : State) (a : Nat) (f : Fld) : (s.inc a f).hq = s.hq := rfl
@[simp] theorem State.inc_icu (s : State) (a : Nat) (f : Fld) : (s.inc a f).icu = s.icu := rfl
@[simp] theorem State.inc_bpm (s : State) (a : Nat) (f : Fld) : (s.inc a f).bpm = s.bpm := rfl
@[simp] theorem State.inc_dma (s : State) (a : Nat) (f : Fld) : (s.inc a f).dma = s.dma := rfl
@[simp] theorem State.inc_drc (s : State) (a : Nat) (f : Fld) : (s.inc a f).drc = s.drc := rfl
@[simp] theorem State.inc_spd (s : State) (a : Nat) (f : Fld) : (s.inc a f).spd = s.spd := rfl
@[simp] theorem State.inc_sec (s : State) (a : Nat) (f : Fld) : (s.inc a f).sec = s.sec := rfl
@[simp] theorem State.inc_dec (s : State) (a : Nat) (f : Fld) : (s.inc a f).dec = s.dec := rfl
@[simp] theorem State.inc_hsq (s : State) (a : Nat) (f : Fld) : (s.inc a f).hsq = s.hsq := rfl
@[simp] theorem State.inc_enc (s : State) (a : Nat) (f : Fld) : (s.inc a f).enc = s.enc := rfl
@[simp] theorem State.inc_sdi (s : State) (a : Nat) (f : Fld) : (s.inc a f).sdi = s.sdi := rfl
@[simp] theorem State.inc_cmp (s : State) (a : Nat) (f : Fld) : (s.inc a f).cmp = s.cmp := rfl
@[simp] theorem State.inc_lmp (s : State) (a : Nat) (f : Fld) : (s.inc a f).lmp = s.lmp := rfl
@[simp] theorem State.inc_ldg (s : State) (a : Nat) (f : Fld) : (s.inc a f).ldg = s.ldg := rfl
@[simp] theorem State.inc_plk (s : State) (a : Nat) (f : Fld) : (s.inc a f).plk = s.plk := rfl
@[simp] theorem State.inc_igr (s : State) (a : Nat) (f : Fld) : (s.inc a f).igr = s.igr := rfl
@[simp] theorem State.inc_pinEvts (s : State) (a : Nat) (f : Fld) : (s.inc a f).pinEvts = s.pinEvts := rfl
@[simp] theorem State.inc_cyc (s : State) (a : Nat) (f : Fld) : (s.inc a f).cyc = s.cyc := rfl
@[simp] theorem State.inc_free (s : State) (a : Nat) (f : Fld) : (s.inc a f).free = s.free := rfl
@[simp] theorem State.inc_pending (s : State) (a : Nat) (f : Fld) : (s.inc a f).pending = s.pending := rfl

@[simp] theorem State.addTo_fuse (s : State) (a : Nat) (f : Fld) (n : Nat) : (s.addTo a f n).fuse = s.fuse := rfl
@[simp] theorem State.addTo_pins (s : State) (a : Nat) (f : Fld) (n : Nat) : (s.addTo a f n).pins = s.pins := rfl
@[simp] theorem State.addTo_pwr (s : State) (a : Nat) (f : Fld) (n : Nat) : (s.addTo a f n).pwr = s.pwr := rfl
@[simp] theorem State.addTo_tap (s : State) (a : Nat) (f : Fld) (n : Nat) : (s.addTo a f n).tap = s.tap := rfl
@[simp] theorem State.addTo_pcie (s : State) (a : Nat) (f : Fld) (n : Nat) : (s.addTo a f n).pcie = s.pcie := rfl
@[simp] theorem State.addTo_host (s : State) (a : Nat) (f : Fld) (n : Nat) : (s.addTo a f n).host = s.host := rfl
@[simp] theorem State.addTo_hq (s : State) (a : Nat) (f : Fld) (n : Nat) : (s.addTo a f n).hq = s.hq := rfl
@[simp] theorem State.addTo_icu (s : State) (a : Nat) (f : Fld) (n : Nat) : (s.addTo a f n).icu = s.icu := rfl
@[simp] theorem State.addTo_bpm (s : State) (a : Nat) (f : Fld) (n : Nat) : (s.addTo a f n).bpm = s.bpm := rfl
@[simp] theorem State.addTo_dma (s : State) (a : Nat) (f : Fld) (n : Nat) : (s.addTo a f n).dma = s.dma := rfl
@[simp] theorem State.addTo_drc (s : State) (a : Nat) (f : Fld) (n : Nat) : (s.addTo a f n).drc = s.drc := rfl
@[simp] theorem State.addTo_spd (s : State) (a : Nat) (f : Fld) (n : Nat) : (s.addTo a f n).spd = s.spd := rfl
@[simp] theorem State.addTo_sec (s : State) (a : Nat) (f : Fld) (n : Nat) : (s.addTo a f n).sec = s.sec := rfl
@[simp] theorem State.addTo_dec (s : State) (a : Nat) (f : Fld) (n : Nat) : (s.addTo a f n).dec = s.dec := rfl
@[simp] theorem State.addTo_hsq (s : State) (a : Nat) (f : Fld) (n : Nat) : (s.addTo a f n).hsq = s.hsq := rfl
@[simp] theorem State.addTo_enc (s : State) (a : Nat) (f : Fld) (n : Nat) : (s.addTo a f n).enc = s.enc := rfl
@[simp] theorem State.addTo_sdi (s : State) (a : Nat) (f : Fld) (n : Nat) : (s.addTo a f n).sdi = s.sdi := rfl
@[simp] theorem State.addTo_cmp (s : State) (a : Nat) (f : Fld) (n : Nat) : (s.addTo a f n).cmp = s.cmp := rfl
@[simp] theorem State.addTo_lmp (s : State) (a : Nat) (f : Fld) (n : Nat) : (s.addTo a f n).lmp = s.lmp := rfl
@[simp] theorem State.addTo_ldg (s : State) (a : Nat) (f : Fld) (n : Nat) : (s.addTo a f n).ldg = s.ldg := rfl
@[simp] theorem State.addTo_plk (s : State) (a : Nat) (f : Fld) (n : Nat) : (s.addTo a f n).plk = s.plk := rfl
@[simp] theorem State.addTo_igr (s : State) (a : Nat) (f : Fld) (n : Nat) : (s.addTo a f n).igr = s.igr := rfl
@[simp] theorem State.addTo_pinEvts (s : State) (a : Nat) (f : Fld) (n : Nat) : (s.addTo a f n).pinEvts = s.pinEvts := rfl
@[simp] theorem State.addTo_cyc (s : State) (a : Nat) (f : Fld) (n : Nat) : (s.addTo a f n).cyc = s.cyc := rfl
@[simp] theorem State.addTo_free (s : State) (a : Nat) (f : Fld) (n : Nat) : (s.addTo a f n).free = s.free := rfl
@[simp] theorem State.addTo_pending (s : State) (a : Nat) (f : Fld) (n : Nat) : (s.addTo a f n).pending = s.pending := rfl

@[simp] theorem State.setBit_fuse (s : State) (a b : Nat) : (s.setBit a b).fuse = s.fuse := rfl
@[simp] theorem State.setBit_pins (s : State) (a b : Nat) : (s.setBit a b).pins = s.pins := rfl
@[simp] theorem State.setBit_pwr (s : State) (a b : Nat) : (s.setBit a b).pwr = s.pwr := rfl
@[simp] theorem State.setBit_tap (s : State) (a b : Nat) : (s.setBit a b).tap = s.tap := rfl
@[simp] theorem State.setBit_pcie (s : State) (a b : Nat) : (s.setBit a b).pcie = s.pcie := rfl
@[simp] theorem State.setBit_host (s : State) (a b : Nat) : (s.setBit a b).host = s.host := rfl
@[simp] theorem State.setBit_hq (s : State) (a b : Nat) : (s.setBit a b).hq = s.hq := rfl
@[simp] theorem State.setBit_icu (s : State) (a b : Nat) : (s.setBit a b).icu = s.icu := rfl
@[simp] theorem State.setBit_bpm (s : State) (a b : Nat) : (s.setBit a b).bpm = s.bpm := rfl
@[simp] theorem State.setBit_dma (s : State) (a b : Nat) : (s.setBit a b).dma = s.dma := rfl
@[simp] theorem State.setBit_drc (s : State) (a b : Nat) : (s.setBit a b).drc = s.drc := rfl
@[simp] theorem State.setBit_spd (s : State) (a b : Nat) : (s.setBit a b).spd = s.spd := rfl
@[simp] theorem State.setBit_sec (s : State) (a b : Nat) : (s.setBit a b).sec = s.sec := rfl
@[simp] theorem State.setBit_dec (s : State) (a b : Nat) : (s.setBit a b).dec = s.dec := rfl
@[simp] theorem State.setBit_hsq (s : State) (a b : Nat) : (s.setBit a b).hsq = s.hsq := rfl
@[simp] theorem State.setBit_enc (s : State) (a b : Nat) : (s.setBit a b).enc = s.enc := rfl
@[simp] theorem State.setBit_sdi (s : State) (a b : Nat) : (s.setBit a b).sdi = s.sdi := rfl
@[simp] theorem State.setBit_cmp (s : State) (a b : Nat) : (s.setBit a b).cmp = s.cmp := rfl
@[simp] theorem State.setBit_lmp (s : State) (a b : Nat) : (s.setBit a b).lmp = s.lmp := rfl
@[simp] theorem State.setBit_ldg (s : State) (a b : Nat) : (s.setBit a b).ldg = s.ldg := rfl
@[simp] theorem State.setBit_plk (s : State) (a b : Nat) : (s.setBit a b).plk = s.plk := rfl
@[simp] theorem State.setBit_igr (s : State) (a b : Nat) : (s.setBit a b).igr = s.igr := rfl
@[simp] theorem State.setBit_pinEvts (s : State) (a b : Nat) : (s.setBit a b).pinEvts = s.pinEvts := rfl
@[simp] theorem State.setBit_cyc (s : State) (a b : Nat) : (s.setBit a b).cyc = s.cyc := rfl
@[simp] theorem State.setBit_free (s : State) (a b : Nat) : (s.setBit a b).free = s.free := rfl
@[simp] theorem State.setBit_pending (s : State) (a b : Nat) : (s.setBit a b).pending = s.pending := rfl

@[simp] theorem State.clrBit_fuse (s : State) (a b : Nat) : (s.clrBit a b).fuse = s.fuse := rfl
@[simp] theorem State.clrBit_pins (s : State) (a b : Nat) : (s.clrBit a b).pins = s.pins := rfl
@[simp] theorem State.clrBit_pwr (s : State) (a b : Nat) : (s.clrBit a b).pwr = s.pwr := rfl
@[simp] theorem State.clrBit_tap (s : State) (a b : Nat) : (s.clrBit a b).tap = s.tap := rfl
@[simp] theorem State.clrBit_pcie (s : State) (a b : Nat) : (s.clrBit a b).pcie = s.pcie := rfl
@[simp] theorem State.clrBit_host (s : State) (a b : Nat) : (s.clrBit a b).host = s.host := rfl
@[simp] theorem State.clrBit_hq (s : State) (a b : Nat) : (s.clrBit a b).hq = s.hq := rfl
@[simp] theorem State.clrBit_icu (s : State) (a b : Nat) : (s.clrBit a b).icu = s.icu := rfl
@[simp] theorem State.clrBit_bpm (s : State) (a b : Nat) : (s.clrBit a b).bpm = s.bpm := rfl
@[simp] theorem State.clrBit_dma (s : State) (a b : Nat) : (s.clrBit a b).dma = s.dma := rfl
@[simp] theorem State.clrBit_drc (s : State) (a b : Nat) : (s.clrBit a b).drc = s.drc := rfl
@[simp] theorem State.clrBit_spd (s : State) (a b : Nat) : (s.clrBit a b).spd = s.spd := rfl
@[simp] theorem State.clrBit_sec (s : State) (a b : Nat) : (s.clrBit a b).sec = s.sec := rfl
@[simp] theorem State.clrBit_dec (s : State) (a b : Nat) : (s.clrBit a b).dec = s.dec := rfl
@[simp] theorem State.clrBit_hsq (s : State) (a b : Nat) : (s.clrBit a b).hsq = s.hsq := rfl
@[simp] theorem State.clrBit_enc (s : State) (a b : Nat) : (s.clrBit a b).enc = s.enc := rfl
@[simp] theorem State.clrBit_sdi (s : State) (a b : Nat) : (s.clrBit a b).sdi = s.sdi := rfl
@[simp] theorem State.clrBit_cmp (s : State) (a b : Nat) : (s.clrBit a b).cmp = s.cmp := rfl
@[simp] theorem State.clrBit_lmp (s : State) (a b : Nat) : (s.clrBit a b).lmp = s.lmp := rfl
@[simp] theorem State.clrBit_ldg (s : State) (a b : Nat) : (s.clrBit a b).ldg = s.ldg := rfl
@[simp] theorem State.clrBit_plk (s : State) (a b : Nat) : (s.clrBit a b).plk = s.plk := rfl
@[simp] theorem State.clrBit_igr (s : State) (a b : Nat) : (s.clrBit a b).igr = s.igr := rfl
@[simp] theorem State.clrBit_pinEvts (s : State) (a b : Nat) : (s.clrBit a b).pinEvts = s.pinEvts := rfl
@[simp] theorem State.clrBit_cyc (s : State) (a b : Nat) : (s.clrBit a b).cyc = s.cyc := rfl
@[simp] theorem State.clrBit_free (s : State) (a b : Nat) : (s.clrBit a b).free = s.free := rfl
@[simp] theorem State.clrBit_pending (s : State) (a b : Nat) : (s.clrBit a b).pending = s.pending := rfl

@[simp] theorem State.setReg64_fuse (s : State) (lo hi v : Nat) : (s.setReg64 lo hi v).fuse = s.fuse := rfl
@[simp] theorem State.setReg64_pins (s : State) (lo hi v : Nat) : (s.setReg64 lo hi v).pins = s.pins := rfl
@[simp] theorem State.setReg64_pwr (s : State) (lo hi v : Nat) : (s.setReg64 lo hi v).pwr = s.pwr := rfl
@[simp] theorem State.setReg64_tap (s : State) (lo hi v : Nat) : (s.setReg64 lo hi v).tap = s.tap := rfl
@[simp] theorem State.setReg64_pcie (s : State) (lo hi v : Nat) : (s.setReg64 lo hi v).pcie = s.pcie := rfl
@[simp] theorem State.setReg64_host (s : State) (lo hi v : Nat) : (s.setReg64 lo hi v).host = s.host := rfl
@[simp] theorem State.setReg64_hq (s : State) (lo hi v : Nat) : (s.setReg64 lo hi v).hq = s.hq := rfl
@[simp] theorem State.setReg64_icu (s : State) (lo hi v : Nat) : (s.setReg64 lo hi v).icu = s.icu := rfl
@[simp] theorem State.setReg64_bpm (s : State) (lo hi v : Nat) : (s.setReg64 lo hi v).bpm = s.bpm := rfl
@[simp] theorem State.setReg64_dma (s : State) (lo hi v : Nat) : (s.setReg64 lo hi v).dma = s.dma := rfl
@[simp] theorem State.setReg64_drc (s : State) (lo hi v : Nat) : (s.setReg64 lo hi v).drc = s.drc := rfl
@[simp] theorem State.setReg64_spd (s : State) (lo hi v : Nat) : (s.setReg64 lo hi v).spd = s.spd := rfl
@[simp] theorem State.setReg64_sec (s : State) (lo hi v : Nat) : (s.setReg64 lo hi v).sec = s.sec := rfl
@[simp] theorem State.setReg64_dec (s : State) (lo hi v : Nat) : (s.setReg64 lo hi v).dec = s.dec := rfl
@[simp] theorem State.setReg64_hsq (s : State) (lo hi v : Nat) : (s.setReg64 lo hi v).hsq = s.hsq := rfl
@[simp] theorem State.setReg64_enc (s : State) (lo hi v : Nat) : (s.setReg64 lo hi v).enc = s.enc := rfl
@[simp] theorem State.setReg64_sdi (s : State) (lo hi v : Nat) : (s.setReg64 lo hi v).sdi = s.sdi := rfl
@[simp] theorem State.setReg64_cmp (s : State) (lo hi v : Nat) : (s.setReg64 lo hi v).cmp = s.cmp := rfl
@[simp] theorem State.setReg64_lmp (s : State) (lo hi v : Nat) : (s.setReg64 lo hi v).lmp = s.lmp := rfl
@[simp] theorem State.setReg64_ldg (s : State) (lo hi v : Nat) : (s.setReg64 lo hi v).ldg = s.ldg := rfl
@[simp] theorem State.setReg64_plk (s : State) (lo hi v : Nat) : (s.setReg64 lo hi v).plk = s.plk := rfl
@[simp] theorem State.setReg64_igr (s : State) (lo hi v : Nat) : (s.setReg64 lo hi v).igr = s.igr := rfl
@[simp] theorem State.setReg64_pinEvts (s : State) (lo hi v : Nat) : (s.setReg64 lo hi v).pinEvts = s.pinEvts := rfl
@[simp] theorem State.setReg64_cyc (s : State) (lo hi v : Nat) : (s.setReg64 lo hi v).cyc = s.cyc := rfl
@[simp] theorem State.setReg64_free (s : State) (lo hi v : Nat) : (s.setReg64 lo hi v).free = s.free := rfl
@[simp] theorem State.setReg64_pending (s : State) (lo hi v : Nat) : (s.setReg64 lo hi v).pending = s.pending := rfl

@[simp] theorem State.resetDomainRegs_fuse (s : State) (n : Nat) : (s.resetDomainRegs n).fuse = s.fuse := rfl
@[simp] theorem State.resetDomainRegs_pins (s : State) (n : Nat) : (s.resetDomainRegs n).pins = s.pins := rfl
@[simp] theorem State.resetDomainRegs_pwr (s : State) (n : Nat) : (s.resetDomainRegs n).pwr = s.pwr := rfl
@[simp] theorem State.resetDomainRegs_tap (s : State) (n : Nat) : (s.resetDomainRegs n).tap = s.tap := rfl
@[simp] theorem State.resetDomainRegs_pcie (s : State) (n : Nat) : (s.resetDomainRegs n).pcie = s.pcie := rfl
@[simp] theorem State.resetDomainRegs_host (s : State) (n : Nat) : (s.resetDomainRegs n).host = s.host := rfl
@[simp] theorem State.resetDomainRegs_hq (s : State) (n : Nat) : (s.resetDomainRegs n).hq = s.hq := rfl
@[simp] theorem State.resetDomainRegs_icu (s : State) (n : Nat) : (s.resetDomainRegs n).icu = s.icu := rfl
@[simp] theorem State.resetDomainRegs_bpm (s : State) (n : Nat) : (s.resetDomainRegs n).bpm = s.bpm := rfl
@[simp] theorem State.resetDomainRegs_dma (s : State) (n : Nat) : (s.resetDomainRegs n).dma = s.dma := rfl
@[simp] theorem State.resetDomainRegs_drc (s : State) (n : Nat) : (s.resetDomainRegs n).drc = s.drc := rfl
@[simp] theorem State.resetDomainRegs_spd (s : State) (n : Nat) : (s.resetDomainRegs n).spd = s.spd := rfl
@[simp] theorem State.resetDomainRegs_sec (s : State) (n : Nat) : (s.resetDomainRegs n).sec = s.sec := rfl
@[simp] theorem State.resetDomainRegs_dec (s : State) (n : Nat) : (s.resetDomainRegs n).dec = s.dec := rfl
@[simp] theorem State.resetDomainRegs_hsq (s : State) (n : Nat) : (s.resetDomainRegs n).hsq = s.hsq := rfl
@[simp] theorem State.resetDomainRegs_enc (s : State) (n : Nat) : (s.resetDomainRegs n).enc = s.enc := rfl
@[simp] theorem State.resetDomainRegs_sdi (s : State) (n : Nat) : (s.resetDomainRegs n).sdi = s.sdi := rfl
@[simp] theorem State.resetDomainRegs_cmp (s : State) (n : Nat) : (s.resetDomainRegs n).cmp = s.cmp := rfl
@[simp] theorem State.resetDomainRegs_lmp (s : State) (n : Nat) : (s.resetDomainRegs n).lmp = s.lmp := rfl
@[simp] theorem State.resetDomainRegs_ldg (s : State) (n : Nat) : (s.resetDomainRegs n).ldg = s.ldg := rfl
@[simp] theorem State.resetDomainRegs_plk (s : State) (n : Nat) : (s.resetDomainRegs n).plk = s.plk := rfl
@[simp] theorem State.resetDomainRegs_igr (s : State) (n : Nat) : (s.resetDomainRegs n).igr = s.igr := rfl
@[simp] theorem State.resetDomainRegs_pinEvts (s : State) (n : Nat) : (s.resetDomainRegs n).pinEvts = s.pinEvts := rfl
@[simp] theorem State.resetDomainRegs_cyc (s : State) (n : Nat) : (s.resetDomainRegs n).cyc = s.cyc := rfl
@[simp] theorem State.resetDomainRegs_free (s : State) (n : Nat) : (s.resetDomainRegs n).free = s.free := rfl
@[simp] theorem State.resetDomainRegs_pending (s : State) (n : Nat) : (s.resetDomainRegs n).pending = s.pending := rfl

@[simp] theorem State.setJob_regs (s : State) (x : Nat) (j : Job) : (s.setJob x j).regs = s.regs := rfl
@[simp] theorem State.setJob_fuse (s : State) (x : Nat) (j : Job) : (s.setJob x j).fuse = s.fuse := rfl
@[simp] theorem State.setJob_pins (s : State) (x : Nat) (j : Job) : (s.setJob x j).pins = s.pins := rfl
@[simp] theorem State.setJob_pwr (s : State) (x : Nat) (j : Job) : (s.setJob x j).pwr = s.pwr := rfl
@[simp] theorem State.setJob_tap (s : State) (x : Nat) (j : Job) : (s.setJob x j).tap = s.tap := rfl
@[simp] theorem State.setJob_pcie (s : State) (x : Nat) (j : Job) : (s.setJob x j).pcie = s.pcie := rfl
@[simp] theorem State.setJob_host (s : State) (x : Nat) (j : Job) : (s.setJob x j).host = s.host := rfl
@[simp] theorem State.setJob_icu (s : State) (x : Nat) (j : Job) : (s.setJob x j).icu = s.icu := rfl
@[simp] theorem State.setJob_bpm (s : State) (x : Nat) (j : Job) : (s.setJob x j).bpm = s.bpm := rfl
@[simp] theorem State.setJob_dma (s : State) (x : Nat) (j : Job) : (s.setJob x j).dma = s.dma := rfl
@[simp] theorem State.setJob_drc (s : State) (x : Nat) (j : Job) : (s.setJob x j).drc = s.drc := rfl
@[simp] theorem State.setJob_spd (s : State) (x : Nat) (j : Job) : (s.setJob x j).spd = s.spd := rfl
@[simp] theorem State.setJob_sec (s : State) (x : Nat) (j : Job) : (s.setJob x j).sec = s.sec := rfl
@[simp] theorem State.setJob_dec (s : State) (x : Nat) (j : Job) : (s.setJob x j).dec = s.dec := rfl
@[simp] theorem State.setJob_hsq (s : State) (x : Nat) (j : Job) : (s.setJob x j).hsq = s.hsq := rfl
@[simp] theorem State.setJob_enc (s : State) (x : Nat) (j : Job) : (s.setJob x j).enc = s.enc := rfl
@[simp] theorem State.setJob_sdi (s : State) (x : Nat) (j : Job) : (s.setJob x j).sdi = s.sdi := rfl
@[simp] theorem State.setJob_cmp (s : State) (x : Nat) (j : Job) : (s.setJob x j).cmp = s.cmp := rfl
@[simp] theorem State.setJob_lmp (s : State) (x : Nat) (j : Job) : (s.setJob x j).lmp = s.lmp := rfl
@[simp] theorem State.setJob_ldg (s : State) (x : Nat) (j : Job) : (s.setJob x j).ldg = s.ldg := rfl
@[simp] theorem State.setJob_plk (s : State) (x : Nat) (j : Job) : (s.setJob x j).plk = s.plk := rfl
@[simp] theorem State.setJob_igr (s : State) (x : Nat) (j : Job) : (s.setJob x j).igr = s.igr := rfl
@[simp] theorem State.setJob_pinEvts (s : State) (x : Nat) (j : Job) : (s.setJob x j).pinEvts = s.pinEvts := rfl
@[simp] theorem State.setJob_cyc (s : State) (x : Nat) (j : Job) : (s.setJob x j).cyc = s.cyc := rfl
@[simp] theorem State.setJob_free (s : State) (x : Nat) (j : Job) : (s.setJob x j).free = s.free := rfl
@[simp] theorem State.setJob_pending (s : State) (x : Nat) (j : Job) : (s.setJob x j).pending = s.pending := rfl

@[simp] theorem State.irqSync_regs (s : State) : s.irqSync.regs = s.regs := by unfold State.irqSync; rfl
@[simp] theorem State.irqSync_fuse (s : State) : s.irqSync.fuse = s.fuse := by unfold State.irqSync; rfl
@[simp] theorem State.irqSync_pins (s : State) : s.irqSync.pins = s.pins := by unfold State.irqSync; rfl
@[simp] theorem State.irqSync_pwr (s : State) : s.irqSync.pwr = s.pwr := by unfold State.irqSync; rfl
@[simp] theorem State.irqSync_tap (s : State) : s.irqSync.tap = s.tap := by unfold State.irqSync; rfl
@[simp] theorem State.irqSync_pcie (s : State) : s.irqSync.pcie = s.pcie := by unfold State.irqSync; rfl
@[simp] theorem State.irqSync_host (s : State) : s.irqSync.host = s.host := by unfold State.irqSync; rfl
@[simp] theorem State.irqSync_hq (s : State) : s.irqSync.hq = s.hq := by unfold State.irqSync; rfl
@[simp] theorem State.irqSync_bpm (s : State) : s.irqSync.bpm = s.bpm := by unfold State.irqSync; rfl
@[simp] theorem State.irqSync_dma (s : State) : s.irqSync.dma = s.dma := by unfold State.irqSync; rfl
@[simp] theorem State.irqSync_drc (s : State) : s.irqSync.drc = s.drc := by unfold State.irqSync; rfl
@[simp] theorem State.irqSync_spd (s : State) : s.irqSync.spd = s.spd := by unfold State.irqSync; rfl
@[simp] theorem State.irqSync_sec (s : State) : s.irqSync.sec = s.sec := by unfold State.irqSync; rfl
@[simp] theorem State.irqSync_dec (s : State) : s.irqSync.dec = s.dec := by unfold State.irqSync; rfl
@[simp] theorem State.irqSync_hsq (s : State) : s.irqSync.hsq = s.hsq := by unfold State.irqSync; rfl
@[simp] theorem State.irqSync_enc (s : State) : s.irqSync.enc = s.enc := by unfold State.irqSync; rfl
@[simp] theorem State.irqSync_sdi (s : State) : s.irqSync.sdi = s.sdi := by unfold State.irqSync; rfl
@[simp] theorem State.irqSync_cmp (s : State) : s.irqSync.cmp = s.cmp := by unfold State.irqSync; rfl
@[simp] theorem State.irqSync_lmp (s : State) : s.irqSync.lmp = s.lmp := by unfold State.irqSync; rfl
@[simp] theorem State.irqSync_ldg (s : State) : s.irqSync.ldg = s.ldg := by unfold State.irqSync; rfl
@[simp] theorem State.irqSync_plk (s : State) : s.irqSync.plk = s.plk := by unfold State.irqSync; rfl
@[simp] theorem State.irqSync_igr (s : State) : s.irqSync.igr = s.igr := by unfold State.irqSync; rfl
@[simp] theorem State.irqSync_pinEvts (s : State) : s.irqSync.pinEvts = s.pinEvts := by unfold State.irqSync; rfl
@[simp] theorem State.irqSync_cyc (s : State) : s.irqSync.cyc = s.cyc := by unfold State.irqSync; rfl
@[simp] theorem State.irqSync_free (s : State) : s.irqSync.free = s.free := by unfold State.irqSync; rfl
@[simp] theorem State.irqSync_pending (s : State) : s.irqSync.pending = s.pending := by unfold State.irqSync; rfl

@[simp] theorem State.fresh_regs (s : State) : s.fresh.2.regs = s.regs := rfl
@[simp] theorem State.fresh_fuse (s : State) : s.fresh.2.fuse = s.fuse := rfl
@[simp] theorem State.fresh_pins (s : State) : s.fresh.2.pins = s.pins := rfl
@[simp] theorem State.fresh_pwr (s : State) : s.fresh.2.pwr = s.pwr := rfl
@[simp] theorem State.fresh_tap (s : State) : s.fresh.2.tap = s.tap := rfl
@[simp] theorem State.fresh_pcie (s : State) : s.fresh.2.pcie = s.pcie := rfl
@[simp] theorem State.fresh_host (s : State) : s.fresh.2.host = s.host := rfl
@[simp] theorem State.fresh_hq (s : State) : s.fresh.2.hq = s.hq := rfl
@[simp] theorem State.fresh_icu (s : State) : s.fresh.2.icu = s.icu := rfl
@[simp] theorem State.fresh_bpm (s : State) : s.fresh.2.bpm = s.bpm := rfl
@[simp] theorem State.fresh_dma (s : State) : s.fresh.2.dma = s.dma := rfl
@[simp] theorem State.fresh_drc (s : State) : s.fresh.2.drc = s.drc := rfl
@[simp] theorem State.fresh_spd (s : State) : s.fresh.2.spd = s.spd := rfl
@[simp] theorem State.fresh_sec (s : State) : s.fresh.2.sec = s.sec := rfl
@[simp] theorem State.fresh_dec (s : State) : s.fresh.2.dec = s.dec := rfl
@[simp] theorem State.fresh_hsq (s : State) : s.fresh.2.hsq = s.hsq := rfl
@[simp] theorem State.fresh_enc (s : State) : s.fresh.2.enc = s.enc := rfl
@[simp] theorem State.fresh_sdi (s : State) : s.fresh.2.sdi = s.sdi := rfl
@[simp] theorem State.fresh_cmp (s : State) : s.fresh.2.cmp = s.cmp := rfl
@[simp] theorem State.fresh_lmp (s : State) : s.fresh.2.lmp = s.lmp := rfl
@[simp] theorem State.fresh_ldg (s : State) : s.fresh.2.ldg = s.ldg := rfl
@[simp] theorem State.fresh_plk (s : State) : s.fresh.2.plk = s.plk := rfl
@[simp] theorem State.fresh_igr (s : State) : s.fresh.2.igr = s.igr := rfl
@[simp] theorem State.fresh_pinEvts (s : State) : s.fresh.2.pinEvts = s.pinEvts := rfl
@[simp] theorem State.fresh_cyc (s : State) : s.fresh.2.cyc = s.cyc := rfl
@[simp] theorem State.fresh_pending (s : State) : s.fresh.2.pending = s.pending := rfl
@[simp] theorem State.fresh_free (s : State) : s.fresh.2.free = s.free + 1 := rfl

@[simp] theorem hostMemWr_regs (s : State) (a : Nat) (bs : List Byte) : (hostMemWr s a bs).regs = s.regs := rfl
@[simp] theorem hostMemWr_fuse (s : State) (a : Nat) (bs : List Byte) : (hostMemWr s a bs).fuse = s.fuse := rfl
@[simp] theorem hostMemWr_pins (s : State) (a : Nat) (bs : List Byte) : (hostMemWr s a bs).pins = s.pins := rfl
@[simp] theorem hostMemWr_pwr (s : State) (a : Nat) (bs : List Byte) : (hostMemWr s a bs).pwr = s.pwr := rfl
@[simp] theorem hostMemWr_tap (s : State) (a : Nat) (bs : List Byte) : (hostMemWr s a bs).tap = s.tap := rfl
@[simp] theorem hostMemWr_pcie (s : State) (a : Nat) (bs : List Byte) : (hostMemWr s a bs).pcie = s.pcie := rfl
@[simp] theorem hostMemWr_hq (s : State) (a : Nat) (bs : List Byte) : (hostMemWr s a bs).hq = s.hq := rfl
@[simp] theorem hostMemWr_icu (s : State) (a : Nat) (bs : List Byte) : (hostMemWr s a bs).icu = s.icu := rfl
@[simp] theorem hostMemWr_bpm (s : State) (a : Nat) (bs : List Byte) : (hostMemWr s a bs).bpm = s.bpm := rfl
@[simp] theorem hostMemWr_dma (s : State) (a : Nat) (bs : List Byte) : (hostMemWr s a bs).dma = s.dma := rfl
@[simp] theorem hostMemWr_drc (s : State) (a : Nat) (bs : List Byte) : (hostMemWr s a bs).drc = s.drc := rfl
@[simp] theorem hostMemWr_spd (s : State) (a : Nat) (bs : List Byte) : (hostMemWr s a bs).spd = s.spd := rfl
@[simp] theorem hostMemWr_sec (s : State) (a : Nat) (bs : List Byte) : (hostMemWr s a bs).sec = s.sec := rfl
@[simp] theorem hostMemWr_dec (s : State) (a : Nat) (bs : List Byte) : (hostMemWr s a bs).dec = s.dec := rfl
@[simp] theorem hostMemWr_hsq (s : State) (a : Nat) (bs : List Byte) : (hostMemWr s a bs).hsq = s.hsq := rfl
@[simp] theorem hostMemWr_enc (s : State) (a : Nat) (bs : List Byte) : (hostMemWr s a bs).enc = s.enc := rfl
@[simp] theorem hostMemWr_sdi (s : State) (a : Nat) (bs : List Byte) : (hostMemWr s a bs).sdi = s.sdi := rfl
@[simp] theorem hostMemWr_cmp (s : State) (a : Nat) (bs : List Byte) : (hostMemWr s a bs).cmp = s.cmp := rfl
@[simp] theorem hostMemWr_lmp (s : State) (a : Nat) (bs : List Byte) : (hostMemWr s a bs).lmp = s.lmp := rfl
@[simp] theorem hostMemWr_ldg (s : State) (a : Nat) (bs : List Byte) : (hostMemWr s a bs).ldg = s.ldg := rfl
@[simp] theorem hostMemWr_plk (s : State) (a : Nat) (bs : List Byte) : (hostMemWr s a bs).plk = s.plk := rfl
@[simp] theorem hostMemWr_igr (s : State) (a : Nat) (bs : List Byte) : (hostMemWr s a bs).igr = s.igr := rfl
@[simp] theorem hostMemWr_pinEvts (s : State) (a : Nat) (bs : List Byte) : (hostMemWr s a bs).pinEvts = s.pinEvts := rfl
@[simp] theorem hostMemWr_cyc (s : State) (a : Nat) (bs : List Byte) : (hostMemWr s a bs).cyc = s.cyc := rfl
@[simp] theorem hostMemWr_free (s : State) (a : Nat) (bs : List Byte) : (hostMemWr s a bs).free = s.free := rfl
@[simp] theorem hostMemWr_pending (s : State) (a : Nat) (bs : List Byte) : (hostMemWr s a bs).pending = s.pending := rfl

@[simp] theorem spdPut_regs (s : State) (k : Nat) (w : Word) : (spdPut s k w).regs = s.regs := rfl
@[simp] theorem spdPut_fuse (s : State) (k : Nat) (w : Word) : (spdPut s k w).fuse = s.fuse := rfl
@[simp] theorem spdPut_pins (s : State) (k : Nat) (w : Word) : (spdPut s k w).pins = s.pins := rfl
@[simp] theorem spdPut_pwr (s : State) (k : Nat) (w : Word) : (spdPut s k w).pwr = s.pwr := rfl
@[simp] theorem spdPut_tap (s : State) (k : Nat) (w : Word) : (spdPut s k w).tap = s.tap := rfl
@[simp] theorem spdPut_pcie (s : State) (k : Nat) (w : Word) : (spdPut s k w).pcie = s.pcie := rfl
@[simp] theorem spdPut_host (s : State) (k : Nat) (w : Word) : (spdPut s k w).host = s.host := rfl
@[simp] theorem spdPut_hq (s : State) (k : Nat) (w : Word) : (spdPut s k w).hq = s.hq := rfl
@[simp] theorem spdPut_icu (s : State) (k : Nat) (w : Word) : (spdPut s k w).icu = s.icu := rfl
@[simp] theorem spdPut_bpm (s : State) (k : Nat) (w : Word) : (spdPut s k w).bpm = s.bpm := rfl
@[simp] theorem spdPut_dma (s : State) (k : Nat) (w : Word) : (spdPut s k w).dma = s.dma := rfl
@[simp] theorem spdPut_drc (s : State) (k : Nat) (w : Word) : (spdPut s k w).drc = s.drc := rfl
@[simp] theorem spdPut_sec (s : State) (k : Nat) (w : Word) : (spdPut s k w).sec = s.sec := rfl
@[simp] theorem spdPut_dec (s : State) (k : Nat) (w : Word) : (spdPut s k w).dec = s.dec := rfl
@[simp] theorem spdPut_hsq (s : State) (k : Nat) (w : Word) : (spdPut s k w).hsq = s.hsq := rfl
@[simp] theorem spdPut_enc (s : State) (k : Nat) (w : Word) : (spdPut s k w).enc = s.enc := rfl
@[simp] theorem spdPut_sdi (s : State) (k : Nat) (w : Word) : (spdPut s k w).sdi = s.sdi := rfl
@[simp] theorem spdPut_cmp (s : State) (k : Nat) (w : Word) : (spdPut s k w).cmp = s.cmp := rfl
@[simp] theorem spdPut_lmp (s : State) (k : Nat) (w : Word) : (spdPut s k w).lmp = s.lmp := rfl
@[simp] theorem spdPut_ldg (s : State) (k : Nat) (w : Word) : (spdPut s k w).ldg = s.ldg := rfl
@[simp] theorem spdPut_plk (s : State) (k : Nat) (w : Word) : (spdPut s k w).plk = s.plk := rfl
@[simp] theorem spdPut_igr (s : State) (k : Nat) (w : Word) : (spdPut s k w).igr = s.igr := rfl
@[simp] theorem spdPut_pinEvts (s : State) (k : Nat) (w : Word) : (spdPut s k w).pinEvts = s.pinEvts := rfl
@[simp] theorem spdPut_cyc (s : State) (k : Nat) (w : Word) : (spdPut s k w).cyc = s.cyc := rfl
@[simp] theorem spdPut_free (s : State) (k : Nat) (w : Word) : (spdPut s k w).free = s.free := rfl
@[simp] theorem spdPut_pending (s : State) (k : Nat) (w : Word) : (spdPut s k w).pending = s.pending := rfl

@[simp] theorem State.when_true (f : State → State) (s : State) : State.when true f s = f s := rfl
@[simp] theorem State.when_false (f : State → State) (s : State) : State.when false f s = s := rfl

/-! ## Registers -/

theorem State.reg_setReg (s : State) (a b : Nat) (w : Word) : (s.setReg a w).reg b = if b = a then w else s.reg b :=
  tabGet_tabSet _ _ _ _ _

@[simp] theorem State.reg_setReg_same (s : State) (a : Nat) (w : Word) : (s.setReg a w).reg a = w := by
  simp [State.reg_setReg]

theorem State.reg_setReg_ne (s : State) {a b : Nat} (w : Word) (h : b ≠ a) : (s.setReg a w).reg b = s.reg b := by
  simp [State.reg_setReg, h]

@[simp] theorem State.reg_irqSync (s : State) (a : Nat) : s.irqSync.reg a = s.reg a := by unfold State.reg; simp
@[simp] theorem State.raw_irqSync (s : State) (a : Nat) : s.irqSync.raw a = s.raw a := by unfold State.raw; simp
@[simp] theorem State.rd_irqSync (s : State) (a : Nat) (f : Fld) : s.irqSync.rd a f = s.rd a f := by unfold State.rd; simp

/-- Where the reset value is zero, both ways of reading a register agree. -/
theorem State.raw_eq_reg (s : State) (a : Nat) (h : regReset s.fuse.variant a = 0) : s.raw a = s.reg a := by
  unfold State.raw State.reg
  induction s.regs with
  | nil => simp [tabGet, h]
  | cons e t ih => simp only [tabGet]; split <;> simp_all

/-! ## Fields -/

theorem fget_lt (f : Fld) (w : Word) : fget f w < 2 ^ f.w := Nat.mod_lt _ (Nat.two_pow_pos _)

/-- The parts of a number: below a field, the field, and above it. -/
theorem split_field (x lo w : Nat) :
    x = x % 2 ^ lo + (x / 2 ^ lo % 2 ^ w) * 2 ^ lo + (x / 2 ^ lo / 2 ^ w) * (2 ^ lo * 2 ^ w) := by
  have h1 := Nat.div_add_mod x (2 ^ lo)
  have h2 := Nat.div_add_mod (x / 2 ^ lo) (2 ^ w)
  generalize x / 2 ^ lo / 2 ^ w = c at *
  generalize x / 2 ^ lo % 2 ^ w = b at *
  generalize x % 2 ^ lo = r at *
  generalize x / 2 ^ lo = q at *
  subst h2
  rw [← h1]
  ring

/-- A field inside the word reads what was put there. -/
theorem fget_fput (f : Fld) (w : Word) (v : Nat) (h : f.lo + f.w ≤ 32) : fget f (fput f w v) = v % 2 ^ f.w := by
  unfold fput
  conv_lhs => unfold fget
  set x := w.toNat with hx
  have hs := split_field x f.lo f.w
  set a := x % 2 ^ f.lo with ha
  set b := x / 2 ^ f.lo % 2 ^ f.w with hb
  set c := x / 2 ^ f.lo / 2 ^ f.w with hc
  have hlt : x < 2 ^ 32 := w.isLt
  have hp : 2 ^ f.lo * 2 ^ f.w ∣ 2 ^ 32 := by rw [← Nat.pow_add]; exact Nat.pow_dvd_pow 2 h
  have hm : v % 2 ^ f.w < 2 ^ f.w := Nat.mod_lt _ (Nat.two_pow_pos _)
  have hy : x - b * 2 ^ f.lo + v % 2 ^ f.w * 2 ^ f.lo = a + (v % 2 ^ f.w) * 2 ^ f.lo + c * (2 ^ f.lo * 2 ^ f.w) := by omega
  have hbnd : a + (v % 2 ^ f.w) * 2 ^ f.lo + c * (2 ^ f.lo * 2 ^ f.w) < 2 ^ 32 := by
    obtain ⟨k, hk⟩ := hp
    have hal : a < 2 ^ f.lo := Nat.mod_lt _ (Nat.two_pow_pos _)
    have h1 : a + (v % 2 ^ f.w) * 2 ^ f.lo < 2 ^ f.lo * 2 ^ f.w := by
      calc a + (v % 2 ^ f.w) * 2 ^ f.lo < 2 ^ f.lo + (v % 2 ^ f.w) * 2 ^ f.lo := by omega
        _ = (v % 2 ^ f.w + 1) * 2 ^ f.lo := by rw [Nat.add_mul]; omega
        _ ≤ 2 ^ f.w * 2 ^ f.lo := Nat.mul_le_mul_right _ hm
        _ = _ := Nat.mul_comm _ _
    have h2 : c < k := by
      by_contra hck
      have : 2 ^ f.lo * 2 ^ f.w * k ≤ c * (2 ^ f.lo * 2 ^ f.w) := by
        rw [Nat.mul_comm]; exact Nat.mul_le_mul_right _ (by omega)
      omega
    calc a + (v % 2 ^ f.w) * 2 ^ f.lo + c * (2 ^ f.lo * 2 ^ f.w)
        < 2 ^ f.lo * 2 ^ f.w + c * (2 ^ f.lo * 2 ^ f.w) := by omega
      _ = (c + 1) * (2 ^ f.lo * 2 ^ f.w) := by rw [Nat.add_mul]; omega
      _ ≤ k * (2 ^ f.lo * 2 ^ f.w) := Nat.mul_le_mul_right _ h2
      _ = 2 ^ 32 := by rw [Nat.mul_comm]; exact hk.symm
  show (BitVec.ofNat 32 (x - b * 2 ^ f.lo + v % 2 ^ f.w * 2 ^ f.lo)).toNat / 2 ^ f.lo % 2 ^ f.w = v % 2 ^ f.w
  rw [hy, BitVec.toNat_ofNat, Nat.mod_eq_of_lt hbnd]
  have hal : a < 2 ^ f.lo := Nat.mod_lt _ (Nat.two_pow_pos _)
  have e1 : a + (v % 2 ^ f.w) * 2 ^ f.lo + c * (2 ^ f.lo * 2 ^ f.w) = a + 2 ^ f.lo * (v % 2 ^ f.w + 2 ^ f.w * c) := by
    ring
  rw [e1, Nat.add_mul_div_left _ _ (Nat.two_pow_pos _), Nat.div_eq_of_lt hal, Nat.zero_add, Nat.add_mul_mod_self_left,
    Nat.mod_mod]

/-- A register field reads back what was written, in its width. -/
theorem State.rd_wr_same (s : State) (a : Nat) (f : Fld) (v : Nat) (h : f.lo + f.w ≤ 32) :
    (s.wr a f v).rd a f = v % 2 ^ f.w := by
  simp only [State.wr, State.rd, State.reg_setReg_same, fget_fput f _ v h]

/-- A write of one register leaves the fields of every other. -/
theorem State.rd_wr_ne (s : State) {a b : Nat} (f g : Fld) (v : Nat) (h : b ≠ a) : (s.wr a f v).rd b g = s.rd b g := by
  simp only [State.wr, State.rd, State.reg_setReg_ne _ _ h]

/-! ## How a meaning ends -/

/-- A command that met no frozen channel and no uncorrectable word takes effect. -/
theorem done_next (s t : State) (h : t.drc.trip = none) : done s t = .next t.irqSync := by
  unfold done; rw [h]

/-- What the conditions of R459 are does not depend on what has been announced. -/
theorem State.highSources_icu (s : State) (x : IcuSt) : ({ s with icu := x } : State).highSources = s.highSources := by
  unfold State.highSources; rfl

/-- After `irqSync` every message due has been sent. -/
theorem State.told_irqSync (s : State) : s.irqSync.icu.told = s.irqSync.highSources := by
  unfold State.irqSync; simp only [State.highSources_icu]

/-- Every meaning ends in a next state with every message due sent. -/
theorem done_told (s t u : State) (h : done s t = .next u) : u.icu.told = u.highSources := by
  unfold done at h
  split at h <;> cases h <;> exact State.told_irqSync _

/-- Every meaning ends in a next state. -/
theorem done_completes (s t : State) : ∃ u, done s t = .next u := by
  unfold done
  split <;> exact ⟨_, rfl⟩

end Sys2Proof.Machine
end

