-- ==== Sys2Proof/Laws/Memory.lean ====
section
/-!
SUPPORT. Memory: every operation that writes DRAM, the scratchpad, the secure scratchpad, host memory or the register
file keeps its canonical form; reads leave DRAM as it was; a burst just written reads back.
-/
namespace Sys2Proof.Machine

/-- The register file keeps its canonical form. -/
theorem setReg_wf (s : State) (a : Nat) (w : Word) (h : tabWf (regReset s.fuse.variant) s.regs = true) :
    tabWf (regReset (s.setReg a w).fuse.variant) (s.setReg a w).regs = true := tabWf_tabSet _ _ _ _ h

theorem hostMemWr_wf (s : State) (a : Nat) (bs : List Byte) (h : tabWf (fun _ => 0) s.host.mem = true) :
    tabWf (fun _ => 0) (hostMemWr s a bs).host.mem = true := tabWf_tabSetRange _ _ _ _ h

theorem spdPut_wf (s : State) (k : Nat) (w : Word) (h : tabWf (fun _ => 0) s.spd.mem = true) :
    tabWf (fun _ => 0) (spdPut s k w).spd.mem = true := tabWf_tabSet _ _ _ _ h

theorem secPut_wf (s : State) (k : Nat) (w : Word) (h : tabWf (fun _ => 0) s.sec.mem = true) :
    tabWf (fun _ => 0) (secPut s k w).sec.mem = true := tabWf_tabSet _ _ _ _ h

/-! ## What leaves DRAM alone -/

@[simp] theorem setFault_drc (s : State) (fs b : Nat) : (s.setFault fs b).drc = s.drc := by
  unfold State.setFault
  split
  · rfl
  · dsimp only; split <;> rfl

@[simp] theorem setFault_fuse (s : State) (fs b : Nat) : (s.setFault fs b).fuse = s.fuse := by
  unfold State.setFault
  split
  · rfl
  · dsimp only; split <;> rfl

@[simp] theorem incSat_drc (s : State) (a : Nat) (f : Fld) : (s.incSat a f).drc = s.drc := by
  unfold State.incSat; split <;> rfl

@[simp] theorem correctedWord_drc (s : State) (c : Nat) : (correctedWord s c).drc = s.drc := by
  unfold correctedWord; dsimp only; split <;> simp

@[simp] theorem unmapped_drc (s : State) (a : Nat) : (unmapped s a).drc = s.drc := rfl

@[simp] theorem trip_dram (s : State) (t : Trip) : (s.trip t).drc.dram = s.drc.dram := by
  unfold State.trip; split <;> rfl

@[simp] theorem takeInjection_drc (s : State) (fs : Nat) (sites : List Nat) : (s.takeInjection fs sites).2.drc = s.drc := by
  unfold State.takeInjection
  dsimp only
  split <;> rfl

@[simp] theorem takeInjections_drc (s : State) (fs : Nat) (sites : List Nat) (n : Nat) :
    (s.takeInjections fs sites n).2.drc = s.drc := by
  unfold State.takeInjections
  dsimp only
  split <;> rfl

/-- A check of words on a fabric path leaves the memory system's own state. -/
@[simp] theorem fabricCheck_drc (s : State) (fs n : Nat) : (s.fabricCheck fs n).2.drc = s.drc := by
  have h := takeInjections_drc s fs [0, 2] n
  unfold State.fabricCheck
  split <;> rename_i e <;> rw [e] at h <;> simpa using h

/-- A check of words of an SRAM leaves the memory system's own state. -/
@[simp] theorem sramCheck_drc (s : State) (fs n : Nat) (sites : List Nat) : (s.sramCheck fs n sites).2.drc = s.drc := by
  have h := takeInjections_drc s fs sites n
  unfold State.sramCheck
  split <;> rename_i e <;> rw [e] at h <;> simpa using h

@[simp] theorem sramFault_drc (s : State) (fs n : Nat) : (s.sramFault fs n).2.drc = s.drc := by
  have h := sramCheck_drc s fs n [0, 1, 3]
  unfold State.sramFault
  split <;> rename_i e <;> rw [e] at h <;> simpa using h

@[simp] theorem issueCheck_drc (c n : Nat) (s : State) : (issueCheck c n s).2.drc = s.drc := by simp [issueCheck]

@[simp] theorem requestCheck_drc (back : Option Nat) (c n : Nat) (s : State) : (requestCheck back c n s).2.drc = s.drc := by
  unfold requestCheck; split <;> simp

/-- A command in a channel's history is all that noting it changes. -/
theorem noteBurst_dram (cmd port burst : Nat) (s : State) : (noteBurst cmd port burst s).drc.dram = s.drc.dram := rfl

@[simp] theorem noteAccess_dram (r : DramReq) (s : State) : (noteAccess r s).drc.dram = s.drc.dram := by
  unfold noteAccess; dsimp only; split <;> rfl

/-- The check of a burst's words stores nothing. -/
@[simp] theorem checkWords_drc (s : State) (c p n : Nat) : (checkWords s c p n).2.drc = s.drc := by
  unfold checkWords
  generalize List.range _ = l
  have key : ∀ (l : List Nat) (acc : Option Nat × State), (l.foldl (fun (acc : Option Nat × State) i =>
      match tabGet (fun _ => 0) acc.2.drc.err (p / 4 + i) with
      | 0 => acc
      | 1 => (acc.1, correctedWord acc.2 c)
      | _ => (acc.1.orElse (fun _ => some (p / 4 + i)), acc.2)) acc).2.drc = acc.2.drc := by
    intro l
    induction l with
    | nil => intro acc; rfl
    | cons i l ih =>
      intro acc
      rw [List.foldl_cons, ih]
      split <;> simp
  exact key l (none, s)

/-- A served read leaves DRAM as it was. -/
@[simp] theorem serveRead_dram (r : DramReq) (s : State) : (serveRead r s).2.2.drc.dram = s.drc.dram := by
  unfold serveRead
  dsimp only
  split <;> simp

@[simp] theorem takeBack_dram (r : DramReq) (s : State) : (takeBack r s).2.drc.dram = s.drc.dram := by
  unfold takeBack; split <;> rfl

/-- Drawing free bytes moves only the count of free values. -/
theorem freshBytes_state (n : Nat) (s : State) : { (freshBytes n s).2 with free := s.free } = s := by
  induction n generalizing s with
  | zero => rfl
  | succ n ih => have h := ih s.fresh.2; simp only [freshBytes]; exact congrArg (fun u : State => { u with free := s.free }) h

/-- As many free bytes are drawn as asked for. -/
theorem freshBytes_length (n : Nat) (s : State) : (freshBytes n s).1.length = n := by
  induction n generalizing s with
  | zero => rfl
  | succ n ih => simp [freshBytes, ih]

/-- A read that reaches no memory leaves the memory system's own state as it was. -/
theorem deadRead_drc (s : State) (a n : Nat) : (deadRead s a n).2.2.drc = s.drc := by
  have h := congrArg State.drc (freshBytes_state n (unmapped s a))
  simpa [deadRead] using h

/-- A burst read leaves DRAM as it was. -/
theorem dramRdBurst_dram (port : Nat) (s : State) (a n : Nat) : (dramRdBurst port s a n).2.2.drc.dram = s.drc.dram := by
  unfold dramRdBurst
  split
  · rw [deadRead_drc]
  · dsimp only
    split
    · rw [deadRead_drc]
    · split
      · simp
      · split
        · simp
        · split
          · simp
          · dsimp only; split <;> simp

/-- A read leaves DRAM as it was. -/
theorem dramRd_dram (port : Nat) (s : State) (a n : Nat) : (dramRd port s a n).2.2.drc.dram = s.drc.dram := by
  unfold dramRd
  generalize burstsOf a n = l
  have key : ∀ (l : List (Nat × Nat)) (acc : List Byte × Bool × State),
      (l.foldl (fun (acc : List Byte × Bool × State) b =>
        let (bs, bad, t) := dramRdBurst port acc.2.2 b.1 b.2
        (acc.1 ++ bs, acc.2.1 || bad, t)) acc).2.2.drc.dram = acc.2.2.drc.dram := by
    intro l
    induction l with
    | nil => intro acc; rfl
    | cons b l ih => intro acc; rw [List.foldl_cons, ih]; exact dramRdBurst_dram _ _ _ _
  exact key l ([], false, s)

/-! ## What writes DRAM keeps its form -/

/-- Correcting the words a write replaces in part stores nothing. -/
@[simp] theorem checkParts_drc (c : Nat) (parts : List Nat) (s : State) : (checkParts c parts s).2.drc = s.drc := by
  unfold checkParts
  have key : ∀ (l : List Nat) (acc : Option Nat × State), (l.foldl (fun (acc : Option Nat × State) k =>
      let chk := checkWords acc.2 c (4 * k) 4
      (acc.1.orElse (fun _ => chk.1), chk.2)) acc).2.drc = acc.2.drc := by
    intro l
    induction l with
    | nil => intro acc; rfl
    | cons k l ih => intro acc; rw [List.foldl_cons, ih]; exact checkWords_drc _ _ _ _
  exact key parts (none, s)

/-- A served write keeps DRAM's canonical form. -/
theorem serveWrite_wf (released : Bool) (r : DramReq) (s : State) (h : tabWf dramDefault s.drc.dram = true) :
    tabWf dramDefault (serveWrite released r s).2.drc.dram = true := by
  unfold serveWrite
  dsimp only
  split
  · rw [noteAccess_dram]; exact tabWf_tabSetRange _ _ _ _ h
  · have put : ∀ t : State, tabWf dramDefault t.drc.dram = true →
        tabWf dramDefault (tabSetRange dramDefault ((checkParts (reqChan s r) (partWords (reqPhys r) r.data.length) t).2.takeInjection
          (DRC_CH_FAULT_STATUS (reqChan s r)) [3]).2.drc.dram (reqPhys r) r.data) = true := fun t ht => by
      refine tabWf_tabSetRange _ _ _ _ ?_
      rw [takeInjection_drc, checkParts_drc]; exact ht
    split <;> split
    · rw [checkParts_drc]; exact h
    · rw [noteAccess_dram]; exact put _ h
    · rw [checkParts_drc, noteAccess_dram]; exact h
    · rw [noteAccess_dram]; exact put _ (by simpa using h)

theorem dramWrBurst_wf (port : Nat) (s : State) (a : Nat) (bs : List Byte) (h : tabWf dramDefault s.drc.dram = true) :
    tabWf dramDefault (dramWrBurst port s a bs).drc.dram = true := by
  unfold dramWrBurst
  split
  · exact h
  · dsimp only
    split
    · exact h
    · split
      · simpa using h
      · split
        · simpa using h
        · split
          · simpa using h
          · split
            · exact serveWrite_wf _ _ _ (by simpa using h)
            · rw [trip_dram]; exact serveWrite_wf _ _ _ (by simpa using h)

/-- A write of DRAM keeps its canonical form. -/
theorem dramWr_wf (port : Nat) (s : State) (a : Nat) (bs : List Byte) (h : tabWf dramDefault s.drc.dram = true) :
    tabWf dramDefault (dramWr port s a bs).drc.dram = true := by
  unfold dramWr
  generalize burstsOf a bs.length = l
  have key : ∀ (l : List (Nat × Nat)) (t : State), tabWf dramDefault t.drc.dram = true →
      tabWf dramDefault (l.foldl (fun t b => dramWrBurst port t b.1 ((bs.drop (b.1 - a)).take b.2)) t).drc.dram = true := by
    intro l
    induction l with
    | nil => intro t ht; exact ht
    | cons b l ih => intro t ht; exact ih _ (dramWrBurst_wf _ _ _ _ ht)
  exact key l s h

@[simp] theorem takeInjections_spd (s : State) (fs : Nat) (sites : List Nat) (n : Nat) :
    (s.takeInjections fs sites n).2.spd = s.spd := by
  unfold State.takeInjections
  dsimp only
  split <;> rfl

@[simp] theorem setFault_spd (s : State) (fs b : Nat) : (s.setFault fs b).spd = s.spd := by
  unfold State.setFault
  split
  · rfl
  · dsimp only; split <;> rfl

/-- The check of a scratchpad word stores nothing. -/
theorem spdCheck_spd (s : State) (k : Nat) : (spdCheck s k).2.spd = s.spd := by
  have h := takeInjections_spd s SPD_FAULT_STATUS [0, 1, 3] 1
  unfold spdCheck State.sramCheck
  dsimp only
  split <;> rename_i e <;> rw [e] at h <;> simpa using h

/-- A scratchpad write of any kind keeps the form. -/
theorem spdPerform_wf (s : State) (k : Nat) (kind : SpdKind) (data : Word) (be : BitVec 4)
    (h : tabWf (fun _ => 0) s.spd.mem = true) : tabWf (fun _ => 0) (spdPerform s k kind data be).spd.mem = true := by
  have hc : tabWf (fun _ => 0) (spdCheck s k).2.spd.mem = true := by rw [spdCheck_spd]; exact h
  have hb : (spdBad (spdCheck s k).2 k).spd = (spdCheck s k).2.spd := setFault_spd _ _ _
  unfold spdPerform
  cases kind <;> dsimp only
  · exact h
  · repeat' split
    all_goals exact tabWf_tabSet _ _ _ _ h
  · split
    · rw [hb]; exact hc
    · exact tabWf_tabSet _ _ _ _ hc
  · split
    · rw [hb]; exact hc
    · exact tabWf_tabSet _ _ _ _ hc

end Sys2Proof.Machine
end

