-- ==== Sys2Proof/Machine/Pins.lean ====
section
/-!
DEFINITION. What the engine puts on its balls (R524): the levels of the pins of row CA, the DRAM resets and whether a
transmitter is in electrical idle, as the state gives them. Nothing reads these but the board.
-/
namespace Sys2Proof.Machine

/-- What a ball the engine drives is at. -/
inductive BallLevel where
  | low | high | highZ
  deriving DecidableEq, Repr

/-- A driven level. -/
def BallLevel.of (b : Bool) : BallLevel := if b then .high else .low

/-- EMMC_RST_N: low while PORST_N is low, high from the release of PD_AON's reset (R524). -/
def emmcRstN (s : State) : BallLevel := .of (decide (s.pwr.mode ≠ .porst))

/-- EMMC_CLK is driven low while PORST_N is low; none where the eMMC controller drives it (R524). -/
def emmcClk (s : State) : Option BallLevel := if s.pwr.mode = .porst then some .low else none

/-- EMMC_CMD and EMMC_DAT0 to 7 are at high impedance while PORST_N is low; none where the eMMC bus uses them (R524). -/
def emmcBus (s : State) : Option BallLevel := if s.pwr.mode = .porst then some .highZ else none

/-- FAULT_N: pulled low by the engine, or released (R474, R510, R524). -/
def faultBall (s : State) : BallLevel := if faultLow s && decide (s.pwr.mode ≠ .porst) then .low else .highZ

/-- DRAM_RESET_Ng: low while PORST_N is low and while PD_DRCg is off, released at DRC_CFG.INIT (R524). -/
def dramResetN (s : State) (g : Nat) : BallLevel :=
  .of (s.domOn (4 + g) && (s.drc.initing || s.flag DRC_CFG DRC_CFG.READY))

/-- TDO: the bit it drives, or high impedance (R524, R536). -/
def tdoBall (s : State) : BallLevel := match tapTdo s with | some b => .of b | none => .highZ

/-- The transmitter of lane `n` is in electrical idle (R524). -/
def laneIdle (s : State) (n : Nat) : Bool := !s.domOn (33 + n / 16) || !s.flag (PLK_LANE_CFG n) PLK_LANE_CFG.EN

/-- The transmitters of ingress port `p` are in electrical idle (R524). -/
def portIdle (s : State) (p : Nat) : Bool := !s.domOn (37 + p) || !s.flag (IGR_PORT_CFG p) IGR_PORT_CFG.EN

/-- The transmitter of preview output `m` is in electrical idle (R524). -/
def previewIdle (s : State) (m : Nat) : Bool := !s.domOn 39 || !s.flag (SDI_OUT_CFG m) SDI_OUT_CFG.EN

/-- The transmitters of the PCI Express link are in electrical idle: its domain is off or held in reset (R497, R524). -/
def pcieIdle (s : State) : Bool := !s.domOn 3 || !s.pins.perstN

end Sys2Proof.Machine
end

