-- ==== Sys2Proof/WellFormed.lean ====
section
/-!
DEFINITION. Which commands are well formed: the numbers that name a unit, a ring, a tag-table entry or a register lie in
the ranges the spec gives them on the largest variant (R2, R8, R34, R50).
-/
namespace Sys2Proof

/-- Every unit, ring, entry and address a command names exists on the largest variant. -/
def Instr.wf (i : Instr) : Bool :=
  match i with
  -- BAR0 registers and the shared scratchpad: aligned 32-bit accesses (R9, R34, R440)
  | .registerWrite a _ | .faultInject a _ | .icuConfigWrite a _ => decide (a < 0x4000000) && a % 4 == 0
  | .scratchpadPlainWrite a _ _ | .bitSetAliasWrite a _ _ | .bitClearAliasWrite a _ _ => decide (a < 0x400000) && a % 4 == 0
  | .badAccess b o => (b == 0 || b == 4) && decide (o < 0x4000000)
  | .scratchpadBankGrant rs => rs.all (fun r => decide (r.port < 4) && decide (r.addr < 0x400000))
  -- rings (R36)
  | .sqTail k _ | .submissionFetch k | .submissionEntryArrival k _ | .fetchError k => decide (k < 512)
  | .cqHead k _ | .coalTime k => decide (k < 256)
  | .hqSqCfgWrite n r _ => decide (n < 512) && decide (r < 3)
  | .hqCqCfgWrite k r _ => decide (k < 256) && decide (r < 3)
  -- tag-table entries (R50)
  | .jobDispatch t | .completionCommit t | .completionWrite t | .uncorrectableTagEntry t | .decodeUnit t
  | .bufferOpAlloc t | .bufferOpRetain t | .bufferOpRelease t | .bufferOpFree t | .fence t | .abortTag t | .abortRing t
  | .abortOpcodeContext t | .runningJobStop t | .microcodeLoadDone t _ => decide (t < 1024)
  -- tag-table entries, or the jobs a Function Level Reset left with their units, numbered above them (R39)
  | .streamOpen t | .streamCloseDrain t | .streamCloseDiscard t | .encodePicture t | .layerUpdate t | .tilemapUpdate t
  | .ledgerOpStart t | .ledgerOpStop t | .ledgerOpSave t | .ledgerOpRebase t | .ledgerOpReplace t
  | .ledgerOpLoadClasses t | .ledgerOpFormat t | .ledgerOpTest t _ | .dmaList t | .linkSend t | .microcodeLoad t =>
    decide (t < 2 ^ 64)
  -- decode slices (R2)
  | .contextGrant n | .gangGather n | .pictureStart n | .pictureDescriptor n _ | .segmentDescriptor n _
  | .rowComplete n _ | .pictureComplete n _ | .unitWait n _ | .wdog n | .rerunStart n | .sliceResetDone n | .drain n _
  | .drainedPictureDone n | .bistStart n _ | .bistDone n _ _ => decide (n < 9)
  -- header sequencers (R119)
  | .parseUnitStart q _ _ _ | .aluNop q | .aluAdd q | .aluSub q | .aluAnd q | .aluOr q | .aluXor q | .aluShl q
  | .aluShr q | .aluAsr q | .aluExt q | .aluMin q | .aluMax q | .aluClz q | .aluMul q | .aluCmp q | .aluMov q
  | .aluTrap q | .spNop q | .spU q | .spPeek q | .spSkip q | .spUe q | .spSe q | .spSu q | .spNs q | .spLeb q
  | .spAlign q | .spPos q | .spWu q | .spWue q | .spWse q | .spWleb q | .spWtrail q | .spTrap q | .seqTrap q | .seqNext q
  | .seqJump q | .seqCall q | .seqRet q | .seqSwitch q | .seqEnd q | .seqAbandon q | .outNop q | .outDw q | .outDwi q
  | .outSend q | .outCwr q | .outCrd q | .outTrap q | .descriptorRelease q | .headerDone q | .machineCheck q
  | .mcReloadDone q _ | .bankSwitch q => decide (q < 4)
  -- encoders and SDI (R2)
  | .headerReq e _ | .encoderRow e _ | .encodeDone e _ _ | .rtpPacket e _ _ | .sourceLost e => decide (e < 2)
  | .sdiEn n _ | .sdiFrameStart n | .sdiRows n | .sdiFrameEnd n | .sdiLine n _ _ _ _ | .carrier n _ | .lock n _ =>
    decide (n < 8)
  | .previewFrameStart m => decide (m < 2)
  | .previewUnderrun l => decide (l.out < 2)
  -- guard regions, conversion sets, pools
  | .guardCheck r | .cmpGrnExpect r _ => decide (r < 64)
  | .cmpGrForced h _ => decide (h < 2)
  | .xferLoad n _ | .xferLoadDone n => decide (n < 4)
  -- a BUFFER layer's handle may name a POOL that does not exist (R232)
  | .holdQueueGrant p => decide (p < 16)
  | .poolEn p _ | .poolReady p | .cacheRefill p | .cacheWriteBack p | .minFreeClr p _ => decide (p < 8)
  | .alloc r _ _ _ _ | .retain r _ | .release r _ | .free r _ => decide (r < 64)
  -- tiles, lanes and positions (R8, R250, R304)
  | .serialWrite t => decide (t < 65536)
  -- a tile, or 65,536 more than the place of a stranger (R257)
  | .pixel t => decide (t < 131072)
  | .rateAlternation n | .blockLock n | .blockLockLoss n | .settlingEnd n | .discover n _ | .discoveryWindow n
  | .towpathDrop n | .splitWrite n _ | .laneEgressSelect n | .creditRefill n
  | .linkSendDone n | .laneBistStart n _ | .laneBistDone n _ | .eyeScan n _ | .eyeScanDone n _ _ | .pop n _ | .laneEn n _ => decide (n < 64)
  | .discoverReply m _ | .status m _ | .calibUp m _ _ _ => decide (m.lane < 64)
  | .touch m p _ | .crcReport m p _ _ | .alert m p _ _ => decide (m.lane < 64) && decide (p < 1024)
  | .loopFrame m n => decide (m.lane < 64) && decide (n < 64)
  -- ingress (R2, R361)
  | .ingressFrame p _ | .igrLink p _ _ => decide (p < 2)
  -- a flow is numbered port × 4,096 + its index
  | .reorderTimeout f => decide (f < 8192)
  -- DMA channels, DRAM windows and channels
  | .dmaGo c _ | .dmaEnClear c _ | .dmaEntry c _ _ | .dmaSegment c _ | .dmaListEnd c => decide (c < 16)
  | .drcWinEn w _ | .windowZeroDone w => decide (w < 64)
  | .drcMapWrite x _ => decide (x < 9)
  | .channelSchedule c _ _ | .urgencyRise c | .selfRefresh c | .selfRefreshExit c | .retraining c _ _ | .freeze c _ _ _
  | .freezeRelease c _ | .eccWrite c _ => decide (c < 32)
  -- interrupts (R457, R460)
  | .message x | .wakeLatch x => decide (x < 1024)
  | .notification k | .claim k | .complete k _ => decide (k < 64)
  | .msixUnmask v => decide (v < 64)
  -- temperature sensors (R508)
  | .temperatureRead ts => ts.length == 16
  | .pwrTempPeakClr n _ => decide (n < 16)
  -- commands that name nothing
  | .spdCollClr _ | .functionLevelReset | .peakClr _ | .rotation | .rotationPeriod | .now _ | .hsqCsSel _ | .lockGate
  | .hold _ | .canvasLineStart | .lineComposed | .cmpWbCfgWrite _ | .wbRows | .wbDrop | .touchSpriteLoad _ | .exhausted
  | .headroomManager | .lmpEotfLoad _ | .lmpMtxGo _ | .summaryCommit | .epoch | .tileStep | .generationDone
  | .journalWrite | .emmcCommand | .emmcCommandDone _ | .calibTimeout | .calibRecordComplete | .statusCheck _ | .rate _
  | .genlockEdge | .genlockLoss | .igrFlowWrite _ | .igrFlowRead _ | .misuseClr _ | .drcInit _ | .drcInitDone | .scrub
  | .tamper | .secLcArm _ | .secLcGo _ | .lcDone | .icuDoorbell _ | .deliverEn _ | .mirrorWrite _ | .pinEvent | .pulseEnd
  | .assert _ | .faultPinRelease _ | .pwrCmdOn _ | .pwrCmdOff _ | .domainSwitchDone | .powerFail | .powerFailCommitDone _
  | .shedRestart | .supplySwitchOver | .supplySwitchBack | .vaonMainLow | .sleepGo _ | .sleepCommit | .wake | .bwTimer
  | .porstN | .porstNRelease | .perstN _ | .topReset _ | .topSetupLock _ | .pllLockLoss | .refclkStop | .svcKey
  | .identifyTimeout | .memtestGo _ | .memtestDone _ | .refclkReturn | .tamperNRise | .svcKeyRelease | .pwrfailNRise
  | .lmpEotfLoadDone | .lmpMtxLoadDone => true

end Sys2Proof
end

