-- ==== Sys2Proof/Tests/Slice0.lean ====
section
/-!
SUPPORT. Tests of the model on small states, each checked by Lean's kernel: ill-formed commands that the check of
well-formed commands refuses, states that meet the hypotheses of the statements, and values the spec works out itself.
-/
namespace Sys2Proof.Tests

open Sys2Proof Sys2Proof.Machine

set_option Elab.async false

/-! ## States to test on -/

/-- The state after reset with every domain on. -/
def full : State := { State.reset with pwr := { State.reset.pwr with doms := 2 ^ 40 - 1 } }

/-- A state with some registers set. -/
def regsSet (l : List (Nat × Word)) (s : State) : State := foldS (fun p t => t.setReg p.1 p.2) l s

/-- A state with a job of the given words in a slot, fetched from ring 0. -/
def jobAt (slot : Nat) (st : JobSt) (words : List Word) (s : State) : State :=
  s.setJob slot { Job.empty with st := st, words := words, seq := slot + 1 }

/-- A state whose window 0 maps the first 64 GiB of engine addresses onto DRAM, unprotected. -/
def dramOn (s : State) : State := regsSet [(DRC_WIN_SIZE 0, 0x10000), (DRC_WIN_CFG 0, 0x9)] s

/-- A command answers a next state. -/
def answers (o : Out) : Bool := match o with | .next _ => true | _ => false

/-! ## Commands that are not well formed -/

/-- For each check of `Instr.wf`, a command that it refuses, at the first value beyond the range. -/
theorem test_ill_formed_commands_refused :
    [Instr.registerWrite 0x4000000 0, .registerWrite 2 0, .faultInject 0x4000000 0, .icuConfigWrite 3 0,
      .scratchpadPlainWrite 0x400000 0 0, .bitSetAliasWrite 1 0 0, .bitClearAliasWrite 0x400000 0 0, .badAccess 2 0,
      .badAccess 4 0x4000000, .scratchpadBankGrant [⟨4, 0, .read, 0, 0⟩], .scratchpadBankGrant [⟨0, 0x400000, .read, 0, 0⟩],
      .sqTail 512 0, .fetchError 512, .cqHead 256 0, .hqSqCfgWrite 0 3 0, .hqCqCfgWrite 256 0 0, .jobDispatch 1024,
      .ledgerOpTest (2 ^ 64) true, .microcodeLoadDone 1024 true, .pictureStart 9, .bistDone 9 true 0, .aluAdd 4,
      .parseUnitStart 4 0 0 true, .encoderRow 2 ⟨[], [], []⟩, .sdiRows 8, .previewUnderrun ⟨2, 0⟩, .guardCheck 64, .cmpGrForced 2 0,
      .xferLoadDone 4, .holdQueueGrant 16, .alloc 64 true 0 false false, .serialWrite 65536, .pixel 131072, .blockLock 64,
      .touch ⟨0, false, 0x88B5, 1, true⟩ 1024 [],
      .alert ⟨64, false, 0x88B5, 1, true⟩ 0 0 [], .loopFrame ⟨0, false, 0x88B5, 1, true⟩ 64, .igrLink 2 true true, .reorderTimeout 8192, .dmaListEnd 16, .windowZeroDone 64,
      .drcMapWrite 9 0, .urgencyRise 32, .message 1024, .claim 64, .msixUnmask 64, .temperatureRead [], .pwrTempPeakClr 16 0].all
      (fun i => !i.wf) = true := by decide +kernel

/-- The last value of each of those ranges is accepted. -/
theorem test_well_formed_commands_accepted :
    [Instr.registerWrite 0x3FFFFFC 0, .scratchpadPlainWrite 0x3FFFFC 0 0, .badAccess 4 0x3FFFFFF,
      .scratchpadBankGrant [⟨3, 0x3FFFFF, .read, 0, 0⟩], .sqTail 511 0, .cqHead 255 0, .hqSqCfgWrite 511 2 0, .jobDispatch 1023,
      .dmaList (2 ^ 64 - 1),
      .pictureStart 8, .aluAdd 3, .encoderRow 1 ⟨[], [], []⟩, .sdiRows 7, .previewUnderrun ⟨1, 0⟩, .guardCheck 63, .cmpGrForced 1 0,
      .xferLoadDone 3, .holdQueueGrant 15, .pixel 131071, .alloc 63 true 0 false false, .serialWrite 65535, .blockLock 63, .touch ⟨63, false, 0x88B5, 1, true⟩ 1023 [],
      .loopFrame ⟨63, true, 0x88B5, 1, true⟩ 63, .igrLink 1 true true, .reorderTimeout 8191, .dmaListEnd 15, .windowZeroDone 63, .drcMapWrite 8 0,
      .urgencyRise 31, .message 1023, .claim 63, .msixUnmask 63, .temperatureRead (List.replicate 16 0), .pwrTempPeakClr 15 0,
      .lockGate].all (fun i => i.wf) = true := by decide +kernel

/-- No word of the table spells a command, so that none can be put in the queue by one. -/
theorem test_no_word_spells_a_command : decodeTableWord 32 0x52535431 = none ∧ (State.reset.withFetchWord 32 1).pending = [] := by
  decide +kernel

/-- On an empty queue the block idles and one CLK_PIX cycle passes; the command in front is taken first. -/
theorem test_step_takes_the_front :
    (match step State.reset with | .next t => decide (t.cyc = 1 ∧ t.pending = []) | _ => false) = true ∧
    (match step { State.reset with pending := [.mirrorWrite false, .lockGate] } with
      | .next t => decide (t.pending = [.lockGate]) | _ => false) = true := by
  decide +kernel

/-! ## The spec's worked examples -/

/-- R222's two-step example and R223's: a half-transparent red over white; an additive source clamps at 4,095. -/
theorem test_blend_examples :
    alpha8 0x80 = 514 ∧ wide8 0xFF = 4095 ∧ mul1023 4095 514 = 2058 ∧ mul1023 4095 509 = 2037 ∧
    blend (2058, 0, 0, 514) (4095, 4095, 4095, 1023) = (4095, 2037, 2037, 1023) ∧
    (blend (4095, 0, 0, 0) (4095, 0, 0, 1023)).1 = 4095 := by decide +kernel

/-- R216: narrow-range BT.709 white, Y = 3,760 and Cb = Cr = 2,048, is 4,095 in each component; black is 0. -/
theorem test_matrix_example :
    matrix216 0 false 3760 2048 2048 = (4095, 4095, 4095) ∧ matrix216 0 false 256 2048 2048 = (0, 0, 0) := by decide +kernel

/-- R219: the 7,680 by 4,320 mosaic on 1,440 lines is refused alone and accepted paired. -/
theorem test_scaling_example :
    scaleOk false 7680 4320 7680 1440 = false ∧ scaleOk true 7680 4320 7680 1440 = true := by decide +kernel

/-- R251 and R261: the entry words of tile 43 and the drive of one of its lamps. -/
theorem test_lamp_example :
    (let w : List Word := [0x06540960, 0x08886DDF, 0x002B0301, 0x00AA1180]
     tX w = 2400 ∧ tY w = 1620 ∧ tW w = 480 ∧ tH w = 540 ∧ tClass w = 2 ∧ tMatrix w = 43 ∧ tLane w = 1 ∧ tPos w = 12 ∧
     tOfs w = 11145600 ∧ tEn w = true ∧ footIndex w 2 13 = 6242) ∧
    (let m : List Int := [15892, 410, -18, 205, 16010, 169, -41, 287, 16138]
     let lin := fun (j : Nat) => [496906, 186120, 32410].getD j 0
     (List.range 3).map (fun k => mtxOut m k lin) = [486606, 188423, 33940]) ∧
    gainLevel 486606 531 8388608 = 504664 ∧ gainLevel 188423 498 8388608 = 183271 ∧ gainLevel 33940 515 8388608 = 34139 ∧
    bayer 2 1 = 224 ∧ [504664, 183271, 34139].map (fun q => driveCode false q 224) = [31542, 11455, 2134] ∧
    [504664, 183271, 34139].map (fun q => driveCode true q 224) = [1972, 716, 134] := by decide +kernel

/-- R267: white of red, the need of a lamp at gain 531, and its exhaustion under HR = 65,535. -/
theorem test_need_example :
    mtxOut [15892, 410, -18] 0 (fun _ => 1048560) = 1042160 ∧ gainLevel 1042160 531 8388608 = 1080834 ∧ 65535 * 16 < 1080834 := by
  decide +kernel

/-- R282: K at 60 Hz for 64 frames, and the value whose fraction rounds the lamp's increment up. -/
theorem test_sample_example :
    sampleK State.reset 64 = 5090332 ∧ 31542 * 256 * 5090332 / 2 ^ 32 % 65536 = 9570 ∧ 31542 * 256 * 5090332 / 2 ^ 48 = 0 := by
  decide +kernel

/-- R287 and R288: a lamp of class 2 at 25,600,000 units and baseline 488 has gain 531. -/
theorem test_gain_example :
    (let s : State := { State.reset with ldg := { State.reset.ldg with
      classes := [(2048 * 2, 19), (2048 * 2 + 64 + 6 * 48, 0xA8), (2048 * 2 + 64 + 6 * 48 + 1, 0x75),
        (2048 * 2 + 64 + 6 * 49, 0x94), (2048 * 2 + 64 + 6 * 49 + 1, 0x75)] } }
     classPoint s 2 48 0 = 30120 ∧ classPoint s 2 49 0 = 30100 ∧ effAt s 2 0 25600000 = 30103 ∧ gainAt s 2 0 25600000 488 = 531) := by
  decide +kernel

/-- R384 and R390: the parts of a handle, its buffer, and the handle after a free and an allocation. -/
theorem test_handle_example :
    hPool 0x50700041 = 5 ∧ hIndex 0x50700041 = 65 ∧ mkHandle 5 7 65 = 0x50700041 ∧ mkHandle 5 8 65 = 0x50800041 ∧
    bufAddr (regsSet [(BPM_POOL_BASE_HI 5, 0x20)] State.reset) 0x50700041 = 0x2041000000 := by
  decide +kernel

/-- R422 and R425: the engine address 0x10_0000_1A40 of a protected window, its channels and its check byte. -/
theorem test_mapping_example :
    (let s := regsSet [(DRC_WIN_BASE_HI 0, 0x10), (DRC_WIN_SIZE 0, 1024), (DRC_WIN_PHYS_LO 0, 0x40000000), (DRC_WIN_CFG 0, 3)] full
     winFor s 0x1000001A40 = some 0 ∧ physOf s 0 0x1000001A40 = 0x400020C0 ∧ checkPhys (winPhys s 0) 0x1A40 = 0x40002190 ∧
     chanOf s 0x400020C0 = 3 ∧ chanOf s 0x40002190 = 6) := by
  decide +kernel

/-- R443: three writes of one word in a cycle: the host's takes effect, the others collide. -/
theorem test_collision_example :
    (match execScratchpadBankGrant [⟨0, 0x10040, .write, 0x11, 15⟩, ⟨2, 0x10040, .write, 0x22, 15⟩,
        ⟨3, 0x10040, .set, 0x80000000, 15⟩] full with
      | .next t => decide (t.rd SPD_COLL_COUNT SPD_COLL_COUNT.LOST = 2) && tabGet (fun _ => 0) t.spd.mem (0x10040 / 4) == 0x11
      | _ => false) = true := by
  decide +kernel

/-- R363: of 286 packets of 1,400 bytes that arrive back to back, 173 find the committed bucket full enough. -/
theorem test_meter_example :
    (let w : List Word := [1, 0, 0, 0, 0, 0, 0, 0, 40000, 60000, 250000, 500000]
     let x0 : FlowSt := { FlowSt.init with tc := 250000 * 9600000, tp := 500000 * 9600000 }
     let run := (List.range 286).foldl (fun (a : FlowSt × List Nat) i =>
       let (c, x) := meter w 38 (138 * (i + 1)) 1400 a.1
       (x, if c = .green then a.2 ++ [i + 1] else a.2)) (x0, [])
     (run.2.length, run.2.getLast?) = (173, some 173)) := by
  decide +kernel

/-- R51: the free slots of a completion ring of 64 entries with HEAD = 20, TAIL = 60 and RESERVED = 2, and after the host
has read them all. -/
theorem test_free_slots_example :
    (let s := jobAt 1 .running [] (jobAt 0 .queued [] ((full.wr (HQ_CQ_CFG 0) HQ_CQ_CFG.SIZE_LOG2 6).wr (HQ_CQ_STATUS 0)
       HQ_CQ_STATUS.TAIL 60))
     freeSlots (setStoredHead 0 20 s) 0 = 21 ∧ freeSlots (setStoredHead 0 60 s) 0 = 61) := by
  decide +kernel

/-- Published check values of the external standards: CRC-32C of "123456789", and the AES-128 example of FIPS 197. -/
theorem test_external_vectors :
    crc32c [0x31, 0x32, 0x33, 0x34, 0x35, 0x36, 0x37, 0x38, 0x39] = 0xE3069283 ∧
    aesEnc (List.range 16) ((List.range 16).map (fun i => i * 17))
      = [0x69, 0xC4, 0xE0, 0xD8, 0x6A, 0x7B, 0x04, 0x30, 0xD8, 0xCD, 0xB7, 0x80, 0x70, 0xB4, 0xC5, 0x5A] := by
  decide +kernel


/-- R536: after reset the port shifts out IDCODE, whose low 12 bits are 0x2B9 and 1; five clocks with TMS high reset it. -/
theorem test_tap_idcode :
    (let go := fun (l : List Bool) (s : State) => foldS (fun m t => tapClock m false [] t) l s
     let s := go [false, true, false, false] (tapTrst true State.reset)
     s.tap.ctl = .shiftDr ∧ tapTdo s = some true ∧ s.tap.dr.length = 32 ∧ tapIdcode s % 4096 = 0x573 ∧
     tapTdo (go [false] s) = some true ∧ tapTdo (go [false, false] s) = some false ∧
     (go (List.replicate 5 true) s).tap.ctl = .testLogicReset) := by
  decide +kernel

/-- R75 and R119: NAL units between start codes of three and four bytes, and behind length prefixes. -/
theorem test_unit_spans :
    startCodeSpans 0 0 none [0, 0, 0, 1, 0x40, 1, 0, 0, 1, 0x26, 9, 0] = [(4, 2), (9, 2)] ∧
    prefixSpans 11 0 [0, 0, 0, 2, 0x40, 1, 0, 0, 0, 1, 0x26] = [(4, 2), (10, 1)] := by
  decide +kernel

/-- R367: an FU-A pair gives one NAL unit with the header it stands for, a STAP-A its two units, and the end of a
fragmented unit whose start was lost nothing. -/
theorem test_h264_depacketiser :
    h264Depack none [0x7C, 0x85, 1, 2] = ([], some [0x65, 1, 2]) ∧
    h264Depack (some [0x65, 1, 2]) [0x7C, 0x45, 3] = ([⟨[0, 0, 0, 1, 0x65, 1, 2, 3], 4, 4, true⟩], none) ∧
    (h264Depack none [0x78, 0, 2, 0x67, 7, 0, 1, 0x68]).1.map (fun u => u.bytes)
      = [[0, 0, 0, 1, 0x67, 7], [0, 0, 0, 1, 0x68]] ∧
    h264Depack none [0x7C, 0x45, 3] = ([], none) := by
  decide +kernel
/-! ## Witnesses of the statements' hypotheses

`witness_<Name>` shows states and operands that meet the hypotheses of `Obligations.<Name>` together, clause by clause and at
boundary values of what the clauses range over. -/

theorem witness_StepRunsFrontCommand :
    State.reset.pending = [] := by
  decide +kernel

theorem witness_CommandsEndSettled :
    let rq : DramReq := ⟨31, 0, true, 3, 0, 0, 8, 4, [], none, true⟩
    (State.reset.drc.trip = none ∧ answers (exec (.badAccess 4 0x3FFFFFC) State.reset) = true) ∧
    (({ full with drc := { full.drc with trip := some .wait } } : State).drc.trip = some .wait) ∧
    (({ full with drc := { full.drc with trip := some (.exit 31) } } : State).drc.trip = some (.exit 31)) ∧
    (({ full with drc := { full.drc with trip := some (.freeze 31 1 8 rq) } } : State).drc.trip = some (.freeze 31 1 8 rq)) := by
  decide +kernel

theorem witness_CommandsEndSettled_2 :
    let rq : DramReq := ⟨31, 0, true, 3, 0, 0, 8, 4, [], none, true⟩
    (({ full with drc := { full.drc with trip := some (.freeze 31 2 8 rq) } } : State).drc.trip = some (.freeze 31 2 8 rq)) ∧
    (full.pwr.mode ≠ .asleep ∧ full.domOn 1 = true) := by
  decide +kernel

theorem witness_HostWriteFollowsAccessCodes :
    let has := fun (a : Nat) (k : Acc) => full.regLive a && (match regFind a with | some (r, _, _) => r.flds.any (fun f => f.acc == k) | none => false)
    has HQ_CTL .rw = true ∧ has DRC_CFG .ro = true ∧ has (DRC_MAP_CH 8) .rwl = true ∧ has TOP_RESET_CAUSE .w1c = true ∧
      has TOP_SETUP_LOCK .w1s = true ∧ has (PWR_TEMP 15) .wo = true := by
  decide +kernel

theorem witness_PlainWritesAndDeadRegisters :
    (full.regLive 0x3FFFFFC = false ∧ secWord 0x3FFFFFC = none) ∧
    (State.reset.regLive (CMP_L_SHD 63 12) = false ∧ secWord (CMP_L_SHD 63 12) = none) ∧
    (full.drc.trip = none ∧ full.domOn 1 = true ∧ ownRow PWR_IRQ_EN = false ∧ ownWrite full PWR_IRQ_EN 0xFF = false ∧
      secWord PWR_IRQ_EN = none ∧ poolSetup PWR_IRQ_EN = none ∧ windowSetup PWR_IRQ_EN = none ∧ PWR_IRQ_EN ∉ [LMP_LEVEL,
      LMP_HRM_CTL, TOP_MEMTEST_CTL, PWR_SLEEP_KEEP_LO, LDG_CFG] ∧ inArray PWR_IRQ_EN (HQ_MSIX_TABLE 0) 256 4 0 = false ∧
      isFaultInject (PWR_IRQ_EN + 4) = false) ∧
    ((blockFault HQ_CTL).map (fun fs => bitsOf 7 0 (full.raw (fs + 12))) = some 0 ∧ blockFault TOP_SETUP_LOCK = none) := by
  decide +kernel

theorem witness_DoorbellsAndBadAccess :
    let s := regsSet [(HQ_SQ_CFG 511, 0xF0), (HQ_CQ_CFG 255, 0xF0)] full
    (s.drc.trip = none ∧ s.domOn 1 = true) ∧
    (bitsOf 15 0 (0x7FFF : Word) < sqSize s 511 ∧ sqSize s 511 ≤ bitsOf 15 0 (0x8000 : Word)) ∧
    (bitsOf 15 0 (0x7FFF : Word) < cqSize s 255 ∧ cqSize s 255 ≤ bitsOf 15 0 (0x8000 : Word)) := by
  decide +kernel

theorem witness_ScratchpadViews :
    full.drc.trip = none ∧ full.domOn 1 = true ∧ 0x3FFFFC < 0x400000 ∧ 0x3FFFFC % 4 = 0 ∧ 0x3FFFFC / 4 ∉ full.spd.err ∧
      bitsOf 7 0 (full.raw SPD_FAULT_INJECT) = 0 := by
  decide +kernel

theorem witness_ScratchpadBankGrant :
    let rs : List SpdReq := [⟨1, 0x3FFFFC, .set, 5, 15⟩, ⟨3, 0x3FFFFC, .write, 6, 15⟩]
    (full.drc.trip = none ∧ full.domOn 1 = true ∧ spdReqsOk rs = true) ∧
    (spdPick (tabGet (fun _ => 3) full.spd.rr (0x3FFFFC / 4 % 16)) rs = rs[0]?) ∧
    ((rs.filter (fun x => x.addr == 0x3FFFFC)).any (fun x => !spdIsWrite x.kind) = false) ∧
    ((List.range 4).filter (fun p => (rs.filter (fun x => x.addr == 0x3FFFFC)).any (fun x => x.port == p && spdIsWrite x.kind)) = [1,
      3]) := by
  decide +kernel

theorem witness_ScratchpadBankGrant_2 :
    let rs : List SpdReq := [⟨1, 0x3FFFFC, .set, 5, 15⟩, ⟨3, 0x3FFFFC, .write, 6, 15⟩]
    let rd : List SpdReq := [⟨0, 0x3FFFFC, .read, 0, 0⟩, ⟨1, 0x3FFFFC, .set, 5, 15⟩]
    ((rs.filter (fun x => x.addr == 0x3FFFFC)).find? (fun x => x.port == 1) = rs[0]?) ∧
    (spdReqsOk rd = true ∧ spdPick (tabGet (fun _ => 3) full.spd.rr (0x3FFFFC / 4 % 16)) rd = rd[0]? ∧
      (rd.filter (fun x => x.addr == 0x3FFFFC)).any (fun x => !spdIsWrite x.kind) = true) ∧
    ((List.range 4).filter (fun p => (rd.filter (fun x => x.addr == 0x3FFFFC)).any (fun x => x.port == p && spdIsWrite x.kind)) = [1]) ∧
    (bitAt 31 (0x80000000 : Word) = true) := by
  decide +kernel

theorem witness_RingConfiguration :
    let s := full
    let busy := jobAt 0 .queued [] full
    let t := regsSet [(HQ_CQ_CFG 255, 0x41)] full
    (s.drc.trip = none ∧ s.domOn 1 = true) ∧
    (sqEn s 511 = false ∧ sqInflight s 511 = 0 ∧ (sqEn busy 0 = true ∨ sqInflight busy 0 ≠ 0)) ∧
    (sqEn t 511 = false ∧ sqInflight t 511 = 0 ∧ bitAt 0 (hostValue t (HQ_SQ_BASE_LO 511 + 4 * 2) 0xFF0041) = true ∧
      4 ≤ fget HQ_SQ_CFG.SIZE_LOG2 (hostValue t (HQ_SQ_BASE_LO 511 + 4 * 2) 0xFF0041) ∧
      cqEn t (fget HQ_SQ_CFG.CQ_ID (hostValue t (HQ_SQ_BASE_LO 511 + 4 * 2) 0xFF0041)) = true) ∧
    (cqReserved s 255 = 0 ∧ cqBound s 255 = 0 ∧ cqEn s 255 = false ∧
      bitAt 0 (hostValue s (HQ_CQ_BASE_LO 255 + 4 * 2) 0x41) = true ∧
      4 ≤ fget HQ_CQ_CFG.SIZE_LOG2 (hostValue s (HQ_CQ_BASE_LO 255 + 4 * 2) 0x41)) := by
  decide +kernel

theorem witness_RingConfiguration_2 :
    let busy := jobAt 0 .queued [] full
    (cqReserved busy 0 ≠ 0) ∧
    (bitAt 31 (0x80000000 : Word) = true) := by
  decide +kernel

theorem witness_FetchReservesTags :
    let s := setStoredTail 511 15 (regsSet [(HQ_CTL, 1), (HQ_CQ_CFG 255, 0x41), (HQ_SQ_CFG 511, 0xFF0741)] full)
    s.drc.trip = none ∧ s.domOn 1 = true ∧ s.linkUp = true ∧ bitAt 0 (s.reg HQ_CTL) = true ∧ nextRing s = some 511 := by
  decide +kernel

theorem witness_ArrivalAdmitsEntries :
    let f : Fetch := ⟨511, 0, [0, 1], true⟩
    let s : State := { full with hq := { full.hq with fetches := [f] } }
    let es : List (List Word) := [List.replicate 16 0x21, List.replicate 16 0x3E]
    (s.drc.trip = none ∧ takeFetch 511 s.hq.fetches = some (f, []) ∧ es.length = f.slots.length ∧ (∀ e ∈ es, e.length = 16) ∧
      f.live = true) ∧
    (([(1023, [(0x21 : Word)])].map Prod.fst).Nodup ∧ bitsOf 7 0 (wordAt [(0x21 : Word)] 0) ≠ opFence) ∧
    (0 ∉ ([(1023, [(0x21 : Word)])] : List (Nat × List Word)).map Prod.fst ∧
      bitsOf 7 0 (wordAt [(0x3E : Word)] 0) = opFence) := by
  decide +kernel

theorem witness_HostQueueEvents :
    let f : Fetch := ⟨511, 0, [0, 1], true⟩
    let s : State := { full with hq := { full.hq with fetches := [f] } }
    let r := (jobAt 1023 .running [0x21] full).setJob 1023 { (jobAt 1023 .running [0x21] full).job 1023 with record := true }
    (s.drc.trip = none ∧ takeFetch 511 s.hq.fetches = some (f, [])) ∧
    ((r.job 1023).st = .running ∧ (r.job 1023).record = true ∧ (r.job 1023).stop = false ∧ (r.job 1023).damaged = false) ∧
    (earlierSame r (r.job 1023) (fun e => (decide (e.st = .running) || decide (e.st = .queued)) && !e.damaged) = false) ∧
    ((coalOf (setCoal 255 ⟨1, true⟩ full) 255).running = true ∧ (regsSet [(HQ_CQ_COAL 255,
      0xFFFF0001)] full).rd (HQ_CQ_COAL 255) HQ_CQ_COAL.COAL_TIME ≠ 0) := by
  decide +kernel

theorem witness_HostQueueEvents_2 :
    let r := (jobAt 1023 .running [0x21] full).setJob 1023 { (jobAt 1023 .running [0x21] full).job 1023 with record := true }
    (r.job 1023).st ≠ .free ∧ ((r.setJob 0 { Job.empty with damaged := true }).job 0).damaged = true := by
  decide +kernel

theorem witness_CompletionEntryWritten :
    let s := jobAt 1023 .committed [0x00050021] (regsSet [(HQ_CQ_CFG 0, 0x41), (HQ_CQ_STATUS 0, 0x1000F)] full)
    (s.drc.trip = none ∧ (s.job 1023).st = .committed ∧ (s.job 1023).damaged = false ∧ s.linkUp = true) ∧
    (cqSize s (s.job 1023).cq ≤ cqTail s (s.job 1023).cq + 1) ∧
    (cqTail (regsSet [(HQ_CQ_STATUS 0, 0x1000E)] s) 0 + 1 < cqSize s 0) := by
  decide +kernel

theorem witness_DispatchFenceAndAbort :
    let s := jobAt 0 .queued [0x10] full
    let bad := jobAt 0 .queued [0x77] full
    let fc := jobAt 0 .queued [0x3E] full
    let ab := fun (m : Nat) => jobAt 0 .running [0x3F, 0, BitVec.ofNat 32 (m * 2 ^ 25), 0] full
    (s.drc.trip = none ∧ s.domOn 1 = true ∧ mayStart s (s.job 0) = true ∧ bitsOf 7 0 (s.raw (HQ_FAULT_STATUS + 12)) = 0 ∧
      (s.job 0).opcode ∉ [opFence, opDecodeUnit, opBufferOp] ∧ refusedJob s (s.job 0) = false ∧
      unitAccepts s (s.job 0) = true) ∧
    (mayStart bad (bad.job 0) = true ∧ (bad.job 0).opcode ∉ [opFence, opDecodeUnit] ∧ refusedJob bad (bad.job 0) = true) ∧
    ((fc.job 0).st = .queued ∧ (fc.job 0).opcode = opFence ∧ (fc.job 0).damaged = false) ∧
    ([0, 1, 2].all (fun m => decide ((closeReady (runAbort 0 (ab m))).drc.trip = none)) = true) := by
  decide +kernel

theorem witness_DispatchFenceAndAbort_2 :
    let s := jobAt 0 .queued [0x10] full
    let ab := fun (m : Nat) => jobAt 0 .running [0x3F, 0, BitVec.ofNat 32 (m * 2 ^ 25), 0] full
    let pic : DecPic := ⟨0, [0], [⟨⟨0, 1⟩, [3, 0], 1, true, []⟩], none, none, true, false, 0, 0, none, 0, 0, 0, 0, [(3, 2)],
      [], false, false, true, 1, [], [], [], []⟩
    let dying := setPic 0 (some pic) (jobAt 0 .running [3, 0] full)
    let stopped : State := ab 0 |>.setJob 0 { (ab 0).job 0 with stop := true }
    ([0, 1, 2].all (fun m => decide ((ab m).startable 0 opAbort = true ∧ abortOk ((ab m).job 0) = true ∧
      bitsOf 26 25 (((ab m).job 0).w 2) = m)) = true) ∧
    ((stopped.job 0).st = .running ∧ (stopped.job 0).stop = true ∧
      (completeNow 0 stAborted (stopResults (stopped.job 0) (stopped.jobRef 0) stopped) (stopWork (stopped.job 0) (stopped.jobRef 0) stopped)).drc.trip = none) ∧
    ((stopped.job 0).opcode ≠ opDecodeUnit ∧ (dying.job 0).opcode = opDecodeUnit ∧
      picOf dying (dying.job 0).context = some pic ∧ pic.damage.length < 2 ^ 20 ∧
      pic.jobs.any (fun k => decide (k.ref = dying.jobRef 0)) = true) ∧
    ((s.job 0).st = .queued ∧ (stopped.job 0).st = .running ∧ ((jobAt 0 .committed [] full).job 0).st = .committed) := by
  decide +kernel

theorem witness_FunctionLevelReset :
    (full.domOn 1 = true ∧ (functionReset full).drc.trip = none ∧ tabWf (regReset full.fuse.variant) full.regs = true) ∧
    ((jobAt 1023 .running [0x77] full).hq.jobs.map Prod.fst = [1023]) ∧
    ([1, 991].all (fun src => decide (0 < src ∧ src < 992)) = true) := by
  decide +kernel

/-- A state in which pool 1 is ready, with some handles in its cache and in its ring. -/
def pooled : State := setRing (setCache (regsSet [(BPM_POOL_CFG 1, 0x80000040), (BPM_POOL_STATUS 1, 0x200000), (BPM_POOL_BST 1, 100),
  (BPM_POOL_BASE_LO 1, 0x100001), (BPM_POOL_RING_LO 1, 1)] (dramOn full)) 1 [3, 4, 5]) 1 9 30

theorem witness_AllocTakesOldestHandle :
    let s := pooled
    s.drc.trip = none ∧ usedRequester 21 = true ∧ s.domOn 1 = true ∧ holdWaiting s 1 = false ∧ poolReady s 1 = true ∧
      poolCache s 1 = 3 :: [4, 5] ∧ bitsOf 7 0 (s.raw BPM_FAULT_INJECT) = 0 := by
  decide +kernel

theorem witness_ReferencesAreCounted :
    let h := mkHandle 1 7 3
    let s := fun (refs : Nat) => bstPut pooled 103 (mkEntry true true 9 refs 7 1)
    let f := bstPut pooled 103 (mkEntry false true 9 0 7 1)
    let full32 := setCache (s 1) 1 (List.range 32)
    ([1, 2, 1022, 1023].all (fun r => decide ((s r).drc.trip = none ∧ (s r).domOn 1 = true ∧
      holdWaiting (s r) (hPool h) = false ∧ bitsOf 7 0 ((s r).raw BPM_FAULT_INJECT) = 0 ∧ classify (s r) h = .current ∧
      handleEntry (s r) h = some 103 ∧ mayHold (s r) 20 h = true ∧ bRefs (bstGet (s r) 103) = r)) = true) ∧
    (usedRequester 20 = true ∧ bOwner (bstGet (s 5) 103) = 9 ∧ (poolCache (s 5) 1).length < 32 ∧
      bOwner (bstGet (s 5) 103) ≠ 20) ∧
    ((poolCache full32 (hPool h)).length = 32 ∧
      (giveBack (bstPut (noteGrant full32 (hPool h) 20) 103 (mkEntry false true 9 0 7 1)) (hPool h) (hIndex h)).drc.trip = none) ∧
    (classify f h = .freed ∧ holdWaiting f (hPool h) = false ∧ bitsOf 7 0 (f.raw BPM_FAULT_INJECT) = 0 ∧
      bitsOf 7 0 (pooled.raw BPM_FAULT_INJECT) = 0 ∧ classify pooled (mkHandle 1 7 64) = .stale) := by
  decide +kernel

theorem witness_BufferOpCompletes :
    let h := mkHandle 1 7 3
    let s := fun (op : Nat) (h w3 : Word) => jobAt 0 .queued [0x21, BitVec.ofNat 32 op, h,
      w3] (bstPut pooled 103 (mkEntry true true 0 1 7 1))
    ([0, 1, 2, 3].all (fun op => decide ((s op h 0).domOn 1 = true ∧ ((s op h 0).job 0).opcode = opBufferOp ∧
      mayStart (s op h 0) ((s op h 0).job 0) = true ∧ bitsOf 7 0 ((s op h 0).raw HQ_FAULT_INJECT) = 0 ∧
      headerBad (s op h 0) ((s op h 0).job 0) = false ∧ ((s op h 0).job 0).context = op ∧
      holdWaiting (s op h 0) (hPool h) = false)) = true) ∧
    ([s 0 0 0x39, s 3 h 0x3F].all (fun t => decide (bitsOf 31 6 ((t.job 0).w 3) = 0)) = true) ∧
    (poolFreeToGrant (allocPool true 1 (s 0 0 0x39)) (s 0 0 0x39) = true ∧
      (completeNow 0 stOk [] (allocFor 0 true 1 true true (s 0 0 0x39)).2.2).drc.trip = none) ∧
    ((bpmRetain (noteGrant (s 1 h 0) 1 0) 0 h).2.drc.trip = none ∧
      (bpmRelease (noteGrant (s 2 h 0) 1 0) 0 h).2.drc.trip = none ∧
      (bpmFree (noteGrant (s 3 h 0) 1 0) 0 h).2.drc.trip = none) := by
  decide +kernel

theorem witness_PoolsAndCaches :
    let z := regsSet [(BPM_POOL_RING_LO 1, 1), (BPM_POOL_BASE_LO 1, 0x100001)] (dramOn full)
    let i : State := { pooled with bpm := { pooled.bpm with initing := [1] } }
    (z.drc.trip = none ∧ z.domOn 1 = true ∧ poolEn z 1 = false ∧ bitAt 31 (0x80000040 : Word) = true ∧
      bitsOf 20 0 (0x80000040 : Word) ≠ 0 ∧ poolFirst z 1 + bitsOf 20 0 (0x80000040 : Word) ≤ 1048576 ∧
      poolOverlap z 1 (poolFirst z 1) 64 = false ∧ bitAt 0 (z.raw (BPM_POOL_RING_LO 1)) = true ∧
      bitAt 0 (z.raw (BPM_POOL_BASE_LO 1)) = true) ∧
    (poolEn pooled 1 = true ∧ ((regsSet [(BPM_POOL_ALLOCATED 1, 1)] pooled).raw (BPM_POOL_ALLOCATED 1)).toNat ≠ 0) ∧
    (1 ∈ i.bpm.initing ∧
      (dramWrWords bpmPort i (poolRing i 1) ((List.range 64).map (fun k => BitVec.ofNat 32 k))).drc.trip = none) ∧
    (poolReady pooled 1 = true ∧ (poolCache pooled 1).length < 8 ∧ 0 < poolRingLen pooled 1 ∧
      (refill pooled 1).drc.trip = none) := by
  decide +kernel

theorem witness_PoolsAndCaches_2 :
    let u := setRing (setCache pooled 1 (List.range 25)) 1 0 2
    poolReady u 1 = true ∧ 24 < (poolCache u 1).length ∧ (writeBack u 1).drc.trip = none := by
  decide +kernel

theorem witness_DmaListsRun :
    let s := jobAt 0 .running [0x20, 15, 0xFFFFFFF0, 0, 0x100000, 1] full
    let d : DmaEnt := ⟨1, 0x3FFFC0, 0, 64, 2, false, true⟩
    let r : DmaRun := ⟨none, 0, true, 2, 0, 0, none, none, 0, 0, 0xFFFFFFFF, 0, 0, none⟩
    let j := regsSet [(DMA_CH_CTL 15, 1)] s
    let go := regsSet [(DMA_CH_COUNT 15, 1), (DMA_CH_CTL 15, 1)] (dramOn full)
    (j.drc.trip = none ∧ j.startable 0 opDmaList = true ∧ dmaRun j (j.job 0).context = none ∧
      bitAt 0 (j.reg (DMA_CH_CTL (j.job 0).context)) = true ∧ bitsOf 31 21 ((s.job 0).w 4) = 0 ∧ ((s.job 0).w 5).toNat ≤ 1 ∧
      bitsOf 3 0 ((s.job 0).w 2) = 0 ∧ bitsOf 20 0 ((s.job 0).w 4) ≠ 0 ∧ bitsOf 20 0 ((s.job 0).w 4) ≤ 1048576) ∧
    (go.domOn 1 = true ∧ (go.hostWrite (DMA_CH_CTL 15) 3).flag (DMA_CH_STATUS 15) DMA_CH_STATUS.BUSY = false ∧
      ((regsSet [(DMA_CH_STATUS 15, 1)] go).hostWrite (DMA_CH_CTL 15) 3).flag (DMA_CH_STATUS 15) DMA_CH_STATUS.BUSY = true) ∧
    (dmaRun (setDmaRun 15 (some r) go) 15 = some r ∧ r.failed = none ∧ r.src = none ∧ r.dst = none ∧ r.nextSrc < r.count ∧
      r.listHost = true ∧ (entryOf 0 [64, 0, 64, 0]).dst = false ∧ entryCheck123 go (entryOf 0 [64, 0, 64, 0]) = none ∧
      (entryOf 0 [64, 0, 64, 0]).len ≠ 0 ∧ (readEntry r 0 (some [64, 0, 64, 0]) go).1 = some [64, 0, 64, 0] ∧
      (readEntry r 0 (some [64, 0, 64, 0]) go).2.drc.trip = none ∧ dmaHalted go r = false ∧
      arriveEntry 15 (readEntry r 0 (some [64, 0, 64, 0]) go) = (some [64, 0, 64, 0], go) ∧ (entryOf 1 [64, 0, 64,
      4]).dst = true ∧ entriesOverlap go (entryOf 0 [64, 0, 64, 0]) d = false) ∧
    (go.drc.trip = none ∧
      dmaRun (setDmaRun 15 (some { r with nextSrc := 2, nextDst := 2 }) go) 15 = some { r with nextSrc := 2, nextDst := 2 }) := by
  decide +kernel

theorem witness_DmaListsRun_2 :
    let e : DmaEnt := ⟨0, 0, 0, 64, 0, false, false⟩
    let d : DmaEnt := ⟨1, 0x3FFFC0, 0, 64, 2, false, true⟩
    let r : DmaRun := ⟨none, 0, true, 2, 0, 0, none, none, 0, 0, 0xFFFFFFFF, 0, 0, none⟩
    let go := regsSet [(DMA_CH_COUNT 15, 1), (DMA_CH_CTL 15, 1)] (dramOn full)
    let rd := placeRead (entryPlace go e).1 (entryPlace go e).2 none go
    let hr : DmaRun := { r with slot := some ⟨0, 1⟩ }
    let halt := setDmaRun 15 (some hr) (jobAt 0 .running [0x20] go |>.setJob 0 { (jobAt 0 .running [0x20] go).job 0 with stop := true })
    (go.flag (DMA_CH_CTL 15) DMA_CH_CTL.EN = true ∧ dmaRun (setDmaRun 15 (some r) go) 15 ≠ none ∧
      (dmaStop 15 ((setDmaRun 15 (some r) go).hostWrite (DMA_CH_CTL 15) 0)).drc.trip = none) ∧
    (rd.2.1 = false ∧ burstCheck 15 rd.2.2 = (false, rd.2.2) ∧
      (placeWrite (entryPlace go d).1 (entryPlace go d).2 (List.replicate 64 0) go).drc.trip = none) ∧
    (halt.drc.trip = none ∧ dmaRun halt 15 = some hr ∧ dmaHalted halt hr = true ∧
      dmaHalted (setDmaRun 15 (some { r with src := some e, dst := some d }) go) { r with src := some e, dst := some d } = false) := by
  decide +kernel

theorem witness_DramReadsBack :
    let s := dramOn full
    let p := regsSet [(DRC_WIN_SIZE 0, 0x10000), (DRC_WIN_CFG 0, 0xB)] (dramOn full)
    let z : State := { s with drc := { s.drc with zeroing := [0] } }
    let rq := fun (v : State) (a : Nat) (rd : Bool) => requestAt v 7 0 a rd 4 (if rd then [] else [1, 2, 3, 4])
    (winFor s 0xFFFFFFFFC = some 0 ∧ 0xFFFFFFFFC % 64 + 4 ≤ 64 ∧ reqDead s (rq s 0xFFFFFFFFC true) = false ∧
      accessStop s 0 (rq s 0xFFFFFFFFC true) = none ∧ accessStop s 0 (rq s 0xFFFFFFFFC false) = none ∧ s.drc.returned = [] ∧
      winProt s 0 = false) ∧
    (winProt p 0 = true ∧ winFor p 0x41 = some 0 ∧ reqDead p (rq p 0x41 true) = false ∧
      accessStop p 0 (rq p 0x41 true) = none ∧ accessStop p 0 (rq p 0x41 false) = none ∧ partWords (physOf p 0 0x41) 4 = [16,
      17] ∧ (partWords (physOf p 0 0x41) 4).all (fun k => tabGet (fun _ => 0) p.drc.err k == 0) = true ∧
      bitsOf 7 0 (p.raw (DRC_CH_FAULT_STATUS (chanOf p (physOf p 0 0x41 / 64 * 64)) + 12)) = 0) ∧
    (winFor s 0x1000000000 = none) ∧
    (winFor s 0 = some 0 ∧ reqDead s (rq s 0 true) = false ∧ chanFrozen (regsSet [(DRC_CH_FREEZE 0, 1)] s) 0 = true ∧
      0 ∈ reqChans s (rq s 0 true) ∧ 0 ∈ z.drc.zeroing) := by
  decide +kernel

theorem witness_DramReadsBack_2 :
    let s := dramOn full
    let rq := fun (v : State) (a : Nat) (rd : Bool) => requestAt v 7 0 a rd 4 (if rd then [] else [1, 2, 3, 4])
    let sr := regsSet [(DRC_CH_STATUS 0, 2)] s
    reqChans sr (rq sr 0 true) = [0] ∧ chanFrozen sr 0 = false ∧ 0 ∉ sr.drc.zeroing ∧
      queueWaits (dramChan sr 0) (rq sr 0 true) = false ∧ chanState sr 0 = 2 ∧ reqDead sr (rq sr 0 true) = false := by
  decide +kernel

theorem witness_DramSetUp :
    let s := full
    let r := regsSet [(DRC_CFG, 0x200), (DRC_WIN_SIZE 63, 1), (DRC_MAP_CH 8, 0)] full
    (s.drc.trip = none ∧ s.domOn 1 = true ∧ bitAt 8 (0x100 : Word) = true ∧
      (s.hostWrite DRC_CFG 0x100).flag DRC_CFG DRC_CFG.READY = false ∧
      (s.hostWrite DRC_CFG 0x100).rd DRC_CFG DRC_CFG.RATE ≠ 3 ∧ (s.hostWrite DRC_CFG 0x100).rd DRC_CFG DRC_CFG.DENSITY ≠ 3) ∧
    (({ s with drc := { s.drc with initing := true, zeroing := [63] } } : State).drc.initing = true) ∧
    (r.locked = false ∧ underTest r 63 = false ∧ winEn r 63 = false) ∧
    (underTest (regsSet [(TOP_MEMTEST_CTL, 0x23F)] r) 63 = true) := by
  decide +kernel

theorem witness_DramSetUp_2 :
    let s := full
    let r := regsSet [(DRC_CFG, 0x200), (DRC_WIN_SIZE 63, 1), (DRC_MAP_CH 8, 0)] full
    (windowRefused ((r.wr (DRC_WIN_CFG 63) DRC_WIN_CFG.PROTECTED 1).wr (DRC_WIN_CFG 63) DRC_WIN_CFG.ZERO 1) 63 = false ∧
      windowRefused ((s.wr (DRC_WIN_CFG 63) DRC_WIN_CFG.PROTECTED 1).wr (DRC_WIN_CFG 63) DRC_WIN_CFG.ZERO 1) 63 = true) ∧
    ((bitAt 1 (5 : Word) && bitAt 2 (5 : Word)) = false ∧ (bitAt 1 (7 : Word) && bitAt 2 (7 : Word)) = true) ∧
    (¬(s.fuse.variant = .lzw4430 ∧ 8 = 4) ∧
      maskOk s.fuse.variant 8 (bitsOf 30 0 (BitVec.ofNat 32 (2 ^ mapHome s.fuse.variant 8))) = true ∧
      maskOk s.fuse.variant 8 (bitsOf 30 0 (0 : Word)) = false) := by
  decide +kernel

theorem witness_ChannelsScheduleAndMaintain :
    let q : DramReq := ⟨1, 31, true, 2, 0, 0, 0, 4, [], none, false⟩
    let act := setDramChan 31 { dramChan full 31 with rq := [q] } (regsSet [(DRC_CH_STATUS 31, 1)] full)
    let sr := regsSet [(DRC_CH_STATUS 31, 2)] act
    let calm := regsSet ((List.range 48).map (fun p => (DRC_PORT_QOS p, 0))) (regsSet [(DRC_CH_STATUS 31, 1)] full)
    ([q] ≠ [] ∧ pickReq false [q] = some q) ∧
    (31 < numChannels act.fuse.variant ∧ chanOn act 31 = true ∧ act.drc.trip = none ∧ chanState act 31 = 1 ∧
      reqChan act q = 31 ∧ q.chk = none ∧ q.unit = false ∧ bitsOf 7 0 (act.raw (DRC_CH_FAULT_STATUS 31 + 12)) = 0 ∧
      (issueReq 31 q act).drc.trip = none ∧
      pickReq (drainNext (dramChan act 31)) (((dramChan act 31).rq ++ (dramChan act 31).wq).filter (fun x => [0].contains x.seq && ((dramChan act 31).rq ++ (dramChan act 31).wq).all (fun y => !(y.port == x.port && y.burst == x.burst && decide (y.seq < x.seq))))) = some q) ∧
    (keptAwake calm = false ∧ chanOn calm 31 = true ∧ calm.rd (DRC_CH_STATUS 31) DRC_CH_STATUS.STATE = 1 ∧
      (dramChan calm 31).rq = [] ∧ (dramChan calm 31).wq = []) ∧
    (sr.rd (DRC_CH_STATUS 31) DRC_CH_STATUS.STATE = 2 ∧ (dramChan sr 31).rq ≠ []) := by
  decide +kernel

theorem witness_ChannelsScheduleAndMaintain_2 :
    let q : DramReq := ⟨1, 31, true, 2, 0, 0, 0, 4, [], none, false⟩
    let act := setDramChan 31 { dramChan full 31 with rq := [q] } (regsSet [(DRC_CH_STATUS 31, 1)] full)
    let tr := regsSet [(DRC_CH_STATUS 31, 3)] act
    let scr := regsSet [(DRC_SCRUB, 0x118), (DRC_WIN_CFG 0, 0xB)] (dramOn full)
    (tr.rd (DRC_CH_STATUS 31) DRC_CH_STATUS.STATE = 3) ∧
    (act.flag DRC_TRAIN_CFG DRC_TRAIN_CFG.EN = true ∧ nextTrain act = some 31) ∧
    (scr.flag DRC_SCRUB DRC_SCRUB.EN = true ∧ scr.flag TOP_MEMTEST_CTL TOP_MEMTEST_CTL.BUSY = false ∧ scr.domOn 1 = true ∧
      granuleFrom scr scr.drc.scrubPos = some 0 ∧ winFor scr 0 = some 0 ∧
      (foldS (fun i u => scrubWord 0 (4 * i) u) (List.range 64) scr).drc.trip = none) := by
  decide +kernel

theorem witness_FreezeAndRelease :
    let s := regsSet [(DRC_CH_STATUS 0, 1), (DRC_WIN_CFG 0, 0xB)] (dramOn full)
    let q2 : DramReq := ⟨2, 63, true, 2, 0, 0, 0, 4, [], none, false⟩
    let q1 : DramReq := ⟨1, 31, true, 2, 1, 0, 0, 4, [], none, false⟩
    let fz := regsSet [(DRC_CH_FREEZE 31, 3), (DRC_CH_STATUS 31, 4), (DRC_FROZEN,
      0x80000000)] ({ setDramChan 31 { DramChan.idle with rq := [q1, q2], seq := 2 } full with drc := { (setDramChan 31 { DramChan.idle with rq := [q1, q2], seq := 2 } full).drc with held := [(31, 2)] } })
    (s.drc.trip = none ∧ chanOn s 0 = true ∧ chanFrozen s 0 = false ∧ s.rd (DRC_CH_STATUS 0) DRC_CH_STATUS.STATE ≠ 0 ∧
      winFor s 0 = some 0 ∧ reqChan s (requestAt s 7 0 0 true 4 []) = 0 ∧ winProt s 0 = true) ∧
    (fz.drc.trip = none ∧ chanOn fz 31 = true ∧ bitAt 16 (0x10000 : Word) = true ∧ chanFrozen fz 31 = true ∧
      tabGet (fun _ => 0) fz.drc.held 31 = 1 + 1 ∧
      ((dramChan fz 31).rq ++ (dramChan fz 31).wq).find? (fun q => q.seq == 1) = some q1 ∧
      fz.rd (DRC_CH_FREEZE 31) DRC_CH_FREEZE.CAUSE = 1 ∧ q1.isRead = true) ∧
    ((regsSet [(DRC_CH_FREEZE 31, 5)] fz).rd (DRC_CH_FREEZE 31) DRC_CH_FREEZE.CAUSE = 2) ∧
    (full.regLive (DRC_CH_ECC 31) = true) := by
  decide +kernel

theorem witness_SecureStoreAndLifeCycle :
    let arm : State := { full with sec := { full.sec with arm := some (BitVec.ofNat 32 (lcTransitions.headD (0, 0, 0, false)).2.2.1) } }
    let tr := lcTransitions.headD (0, 0, 0, false)
    (full.drc.trip = none ∧ full.domOn 12 = true ∧ full.sec.target = none ∧ bitAt 2 (BitVec.ofNat 32 (4 + tr.2.1)) = true) ∧
    (lcAuthorised (arm.hostWrite SEC_LC_CTL (BitVec.ofNat 32 (4 + tr.2.1))) (bitsOf 1 0 (BitVec.ofNat 32 (4 + tr.2.1))) = true ∧
      lcAuthorised (full.hostWrite SEC_LC_CTL 4) 0 = false) ∧
    (({ full with sec := { full.sec with target := some 3 } } : State).sec.target = some 3) ∧
    (full.pins.tamperN = true ∧ full.domOn 0 = true) := by
  decide +kernel

theorem witness_SdiSourcesFollowTheirBits :
    (7 < 8 ∧ 2 < 3) ∧ 987 ≤ 987 := by
  decide +kernel

theorem witness_ClaimTakesHighestPriority :
    let s := regsSet [(ICU_SRC_CFG 991, 0x010003F5)] full
    let n := regsSet [(ICU_CTX_CFG 63, 0xFFFFFFFF)] full
    (s.drc.trip = none ∧ s.domOn 1 = true ∧ bitsOf 7 0 (s.raw ICU_FAULT_INJECT) = 0 ∧ eligibleSources s 63 ≠ []) ∧
    (eligibleSources full 63 = [] ∧ full.flag (ICU_CTX_CFG 63) ICU_CTX_CFG.NOTIFIED = false) ∧
    (eligibleSources n 63 = [] ∧ n.flag (ICU_CTX_CFG 63) ICU_CTX_CFG.NOTIFIED = true) := by
  decide +kernel

theorem witness_InterruptsAndFaultPin :
    let s : State := { regsSet [(ICU_SRC_CFG 991, 0x010003F5), (ICU_SRC_CFG 990, 0xFE0003F5), (ICU_GLOBAL, 3), (TOP_FAULT_PIN, 8)] full with icu := ⟨[(986, true)], [], [(991, true)], 0⟩, pinEvts := 1 }
    (s.drc.trip = none ∧ s.domOn 1 = true ∧ bitsOf 7 0 (s.raw ICU_FAULT_INJECT) = 0) ∧
    (nextMessage 986 s.icu.msgs = some (true, []) ∧ deadSource 986 = false ∧ absentSource s.fuse.variant 986 = false ∧
      unusedSource 986 = false ∧ s.pwr.mode ≠ .asleep ∧ s.pwr.sleepReq = false) ∧
    (bitsOf 30 10 (0x800003DA : Word) = 0 ∧ deadSource (bitsOf 9 0 (0x800003DA : Word)) = false ∧
      unusedSource (bitsOf 9 0 (0x800003DA : Word)) = false ∧
      absentSource s.fuse.variant (bitsOf 9 0 (0x800003DA : Word)) = false) ∧
    (s.linkUp = true ∧ notifiable s 63 = true) := by
  decide +kernel

theorem witness_InterruptsAndFaultPin_2 :
    let s : State := { regsSet [(ICU_SRC_CFG 991, 0x010003F5), (ICU_SRC_CFG 990, 0xFE0003F5), (ICU_GLOBAL, 3), (TOP_FAULT_PIN, 8)] full with icu := ⟨[(986, true)], [], [(991, true)], 0⟩, pinEvts := 1 }
    (bitAt 25 (s.raw (ICU_SRC_CFG 990)) = true ∧ bitsOf 31 26 (s.raw (ICU_SRC_CFG 990)) = 63 ∧
      bitAt 25 (s.raw (ICU_SRC_CFG 991)) = false) ∧
    (bitsOf 31 26 (s.raw (ICU_SRC_CFG 990)) ≠ 62) ∧
    (icuConfigReg (ICU_SRC_CFG 991) = true ∧ icuConfigReg (ICU_CTX_CFG 63) = true ∧ isFaultInject ICU_FAULT_INJECT = true) ∧
    (s.icu.mirror = [(991, true)] ∧ s.flag ICU_GLOBAL ICU_GLOBAL.MIRROR_EN = true) := by
  decide +kernel

theorem witness_InterruptsAndFaultPin_3 :
    let s : State := { regsSet [(ICU_SRC_CFG 991, 0x010003F5), (ICU_SRC_CFG 990, 0xFE0003F5), (ICU_GLOBAL, 3), (TOP_FAULT_PIN, 8)] full with icu := ⟨[(986, true)], [], [(991, true)], 0⟩, pinEvts := 1 }
    let z : State := { regsSet [(BW_WAKE_SRC 63, 0x800003DF)] s with icu := { s.icu with msgs := [(991, false)] }, pwr := { s.pwr with mode := .asleep } }
    (z.wakeNamed 991 = true ∧ nextMessage 991 z.icu.msgs = some (false, []) ∧ bitsOf 7 0 (z.raw BW_FAULT_INJECT) = 0 ∧
      ({ z with pwr := { z.pwr with mode := .run, sleepReq := true } } : State).pwr.sleepReq = true ∧ z.pwr.mode = .asleep ∧
      bitAt 31 (z.raw (BW_WAKE_SRC 63)) = true ∧ bitsOf 9 0 (z.raw (BW_WAKE_SRC 63)) = 991) ∧
    ((bitAt 0 (1 : Word) = true ∧ bitAt 1 (1 : Word) = false) ∧ bitAt 1 (2 : Word) = true ∧ bitAt 0 (2 : Word) = false) ∧
    (0 < s.pinEvts ∧ s.flag TOP_FAULT_PIN TOP_FAULT_PIN.PULSING = true) := by
  decide +kernel

/-- STREAM_OPEN words of an HEVC stream of one entry, frame buffers from pool 4, one slot. -/
def openWords : List Word := [0, 0, 0, 0x00010001, 0, 0x24, 0, 0, 0, 0]

/-- An open context with some units waiting. -/
def ctxWith (w : List UnitJob) (cl : Option JobRef) : Ctx := ⟨openWords, 0, 0, [], w, cl, []⟩

theorem witness_StreamsOpenAndClose :
    let s := jobAt 0 .running ([0x01, 511] ++ openWords.drop 2) (regsSet [(DS_CTX_BASE_LO, 1)] full)
    let o := setCtx 511 (some (ctxWith [] none)) s
    let occ := jobAt 0 .running ([0x01, 511, 0, 0x00010001, 0x80, 0x24, 0, 0, 0,
      0]) { s with dec := { s.dec with owner := (List.range 128).map (fun i => (i * 4 + 3, 1)) } }
    (s.drc.trip = none ∧ s.startable 0 opStreamOpen = true ∧ openWordsOk s (s.job 0) = true ∧ (s.job 0).context = 511) ∧
    (ctxOf o 511 = some (ctxWith [] none) ∧ ctxOf s 511 = none) ∧
    (openLimits (bitsOf 3 0 ((s.job 0).w 2)) (bitsOf 7 4 ((s.job 0).w 2)) (bitsOf 15 8 ((s.job 0).w 2)) (bitsOf 15 0 ((s.job 0).w 3)) (bitsOf 31 16 ((s.job 0).w 3)) (bitsOf 3 2 ((s.job 0).w 4)) = true ∧
      bitsOf 3 2 ((s.job 0).w 4) = 0) ∧
    (freeRun s 1 = some 0 ∧ openWordsOk occ (occ.job 0) = true ∧ 2 ^ bitsOf 7 6 ((occ.job 0).w 4) = 4 ∧
      freeRun occ 4 = none) := by
  decide +kernel

theorem witness_StreamsOpenAndClose_2 :
    let cl := fun (k : Word) => setCtx 511 (some (ctxWith [] none)) (jobAt 0 .running [0x02, 511, k] full)
    ((cl 0).startable 0 opStreamClose = true ∧ closeWordsOk ((cl 0).job 0) = true ∧
      ctxOf (cl 0) 511 = some (ctxWith [] none) ∧ (ctxWith [] none).closing = none ∧ bitAt 0 (((cl 0).job 0).w 2) = false ∧
      (tryClose 511 (setCtx 511 (some (ctxWith [] (some ((cl 0).jobRef 0)))) (beginJob 0 (cl 0)))).drc.trip = none) ∧
    ((cl 1).startable 0 opStreamClose = true ∧ closeWordsOk ((cl 1).job 0) = true ∧
      ctxOf (cl 1) 511 = some (ctxWith [] none) ∧ bitAt 0 (((cl 1).job 0).w 2) = true ∧
      (closeCtx 511 (abandonPic 511 (cl 1))).drc.trip = none) ∧
    (0 < 4 ∧ 511 % 1 = 0 ∧ 508 + 4 ≤ 512) := by
  decide +kernel

theorem witness_UnitsAndContexts :
    let h := mkHandle 1 7 3
    let s := setCtx 0 (some (ctxWith [] none)) (jobAt 0 .queued [3, 0, h, 0, 64, 0, 0,
      0x10] (bstPut pooled 103 (mkEntry true true 0 1 7 1)))
    let bad := jobAt 0 .queued [3, 0, h, 0, 64] pooled
    let fl := setCtx 0 (some (ctxWith [] none)) (jobAt 0 .queued [3, 0, 0, 0, 0, 0, 0, 0x10] pooled)
    let rdy := regsSet [(HSQ_CTL 3, 1), (HSQ_STATUS 3, 8)] (setCtx 511 (some (ctxWith [⟨⟨0, 1⟩, [3,
      511]⟩] none)) (jobAt 0 .queued [3, 511] full))
    (maySee s (s.job 0) = true ∧ s.domOn 1 = true ∧ bitsOf 7 0 (s.raw HQ_FAULT_INJECT) = 0 ∧ s.drc.trip = none ∧
      unitRefusal s (s.job 0) = none ∧ ctxOf s 0 = some (ctxWith [] none) ∧ duLength (s.job 0).words ≠ 0) ∧
    (maySee bad (bad.job 0) = true ∧ unitRefusal bad (bad.job 0) = some stContextState) ∧
    (unitRefusal fl (fl.job 0) = none ∧ ctxOf fl 0 = some (ctxWith [] none) ∧ duLength (fl.job 0).words = 0 ∧
      waitingOf fl (ctxWith [] none) = [] ∧ picOf fl 0 = none ∧
      (publishNext 0 (acceptRef (fl.jobRef 0) fl)).2.drc.trip = none) ∧
    (pickCtx rdy = some 511 ∧ ctxReady rdy 511 = true ∧ pickSeq rdy 0 = some 3 ∧ hsqAllowed 0 3 = true ∧
      hsqEligible rdy 3 = true) := by
  decide +kernel

/-- A state with slices 0 to 7 ACTIVE and slice 8 SLIPWAY. -/
def sliced (s : State) : State := regsSet ((8, 1) :: (List.range 8).map (fun n => (n, 0)) |>.map (fun e => (DS_STATUS e.1, e.2))) s

/-- What a picture of one CTU is, as its data says. -/
def facts : PicFacts := ⟨false, true, false, 0, false, false, 0, [1], [1]⟩

/-- A picture of 16 by 16 samples of one CTU. -/
def picInfo : PicInfo := ⟨16, 16, 4, 1, false, false, false, false, 0, [], [], 0, [], [], [], facts⟩

/-- A picture on slice 0. -/
def picAt (started ended parsed : Bool) (covered rows : Nat) (info : Option PicInfo) : DecPic :=
  ⟨0, [0], [⟨⟨0, 1⟩, [3, 0], 1, parsed, []⟩], info, none, started, false, 0, 0, none, rows, covered, 0, 0, [], [], false,
    false, ended, 1,
   [], [], [], []⟩

/-- A state in which slice 0 works on a picture of context 0. -/
def decodes (p : DecPic) (x : SliceSt) : State :=
  sliced <| setSlice 0 x (setPic 0 (some p) (setCtx 0 (some { ctxWith [] none with words := [0, 0, 0, 0x00400040, 0, 0x21, 0] }) (jobAt 0 .running [3,
    0] pooled)))

theorem witness_PicturesRun :
    let g := fun (w : Word) => sliced <| regsSet [(HSQ_CTL 3, 1), (HSQ_STATUS 3,
      8)] (setCtx 511 (some { ctxWith [⟨⟨0, 1⟩, [3, 511]⟩] none with words := [0, 0, 0, 0, w] }) (jobAt 0 .queued [3,
      511] full))
    let gg : State := { g 4 with dec := { (g 4).dec with gather := some (511, [6]) } }
    let left := setSlice 0 { SliceSt.idle with next := some 0 } (setSlice 1 { SliceSt.idle with cur := some 1 } (regsSet [(DS_STATUS 0,
      2)] (setPic 0 (some (picAt false false true 0 0 none)) (sliced full))))
    (canTake left 7 = true ∧ grantLeft left 7 = some 0) ∧
    (canTake (g 0) 7 = true ∧ grantLeft (g 0) 7 = none ∧ (g 0).dec.gather = none ∧ pickCtx (g 0) = some 511 ∧
      ctxWidth (g 0) 511 = 1) ∧
    (canTake (g 4) 7 = true ∧ grantLeft (g 4) 7 = none ∧ (g 4).dec.gather = none ∧ pickCtx (g 4) = some 511 ∧
      1 < ctxWidth (g 4) 511) ∧
    (canTake gg 7 = true ∧ grantLeft gg 7 = none ∧ gg.dec.gather = some (511, [6]) ∧ ctxReady gg 511 = true ∧ 7 ∉ [6]) := by
  decide +kernel

theorem witness_PicturesRun_2 :
    let d0 := decodes (picAt false false true 0 0 none) { SliceSt.idle with next := some 0, queue := [⟨0, 0, ⟨0, 1⟩, [0, 0x00100010, 4, 0, 0, 0]⟩] }
    let d1 := decodes (picAt false false true 0 0 (some picInfo)) { SliceSt.idle with next := some 0 }
    let d2 := decodes (picAt true false true 0 0 (some picInfo)) { SliceSt.idle with cur := some 0, queue := [⟨1, 0, ⟨0, 1⟩, [0, 0x00100000, 0, 0]⟩] }
    let d5 := setPic 0 (some { picAt true false true 0 0 (some picInfo) with lost := some 0x10 }) d2
    let x : Ctx := { ctxWith [] none with words := [0, 0, 0, 0x00400040, 0, 0x21, 0] }
    ((descDue d0 0).isSome = true ∧ ctxOf d0 0 = some x ∧ (picOf d0 0).isSome = true ∧ (sliceOf d0 0).next = some 0 ∧
      ((picOf d0 0).bind (fun p => p.info)) = none ∧ ((picOf d0 0).bind (fun p => p.lost)) = none ∧ factsFit [0, 0x00100010,
      4, 0, 0, 0] (pictureInfo [0, 0x00100010, 4, 0, 0, 0] facts) = true ∧
      (applyMarks 0 [] 0 (popDesc 0 0 d0)).drc.trip = none) ∧
    ((sliceOf d1 0).next = some 0 ∧ ctxOf d1 0 = some x ∧ (picOf d1 0).map (fun p => (p.info, p.lost, p.started,
      p.members)) = some (some picInfo, none, false, [0]) ∧ holdWaiting d1 x.pool = false ∧ mayBegin d1 0 0 = true ∧
      x.slots.length + 1 ≤ x.fbMax ∧ pictureBytes 16 16 1 false ≤ poolSize x.pool ∧ (allocFrames 0 x false d1).1 = stOk ∧
      (allocFrames 0 x false d1).2.2.2.drc.trip = none) ∧
    ((picOf d2 0).isSome = true ∧ (descDue d2 0).map (fun d => (d.ctx, d.cls)) = some (0, 1) ∧ (sliceOf d2 0).cur = some 0 ∧
      (picOf d2 0).map (fun p => (p.started, p.segs)) = some (true, (sliceOf d2 0).segs) ∧ (segmentData 0 ⟨1, 0, ⟨0, 1⟩, [0,
      0x00100000, 0, 0]⟩ (popDesc 0 0 d2)).2.drc.trip = none) ∧
    ((picOf d5 0).map (fun p => p.lost.isSome) = some true ∧ (descDue d5 0).map (fun d => (d.ctx, d.cls)) = some (0,
      1)) := by
  decide +kernel

theorem witness_PicturesRun_3 :
    let d3 := decodes (picAt true false true 1 0 (some picInfo)) { SliceSt.idle with cur := some 0 }
    let d4 := decodes (picAt true true true 1 1 (some picInfo)) { SliceSt.idle with cur := some 0 }
    let x : Ctx := { ctxWith [] none with words := [0, 0, 0, 0x00400040, 0, 0x21, 0] }
    let lb : List (List Byte) := (rowLines 16 16 1 false 4 0).map (fun _ => List.replicate (lineBytes 16 false) 0)
    ((sliceOf d3 0).cur = some 0 ∧ (picOf d3 0).map (fun p => (p.members.length, p.started)) = some (1, true) ∧
      0 < picInfo.rowCount ∧ bitsOf 7 0 (d3.raw (DS_FAULT_STATUS 0 + 12)) = 0 ∧
      rowCovered picInfo 1 (sliceOf d3 0).parts = true ∧ linesFit picInfo 0 1 lb = true ∧
      (finishRows 0 0 1 lb d3).drc.trip = none) ∧
    (sliceCtx d4 0 = some 0 ∧ (picOf d4 0).map (fun p => (p.ended, consumed d4 0 p)) = some (true, true) ∧
      (tryEnd 0 0 [] [] d4).drc.trip = none) ∧
    (sliceCtx d3 0 = some 0 ∧ (picOf d3 0).map (fun p => (p.ended, p.started, p.jobs.all (fun k => k.parsed),
      consumed d3 0 p)) = some (false, true, true, true) ∧ waitingOf d3 x = []) ∧
    (sliceCtx (decodes (picAt true false true 1 1 (some picInfo)) { SliceSt.idle with cur := some 0 }) 0 = some 0 ∧
      picOf (tryEnd 0 0 [] [stConcealed] (decodes (picAt true false true 1 1 (some picInfo)) { SliceSt.idle with cur := some 0 })) 0 = none ∧
      (tryEnd 0 0 [] [stConcealed] (decodes (picAt true false true 1 1 (some picInfo)) { SliceSt.idle with cur := some 0 })).drc.trip = none) := by
  decide +kernel

theorem witness_SliceRolesAndReruns :
    let s := sliced <| regsSet [(DS_ROT_CFG, 1), (DS_WDOG 0,
      0x10000)] (setPic 0 (some (picAt true false true 0 0 none)) (setSlice 0 { SliceSt.idle with cur := some 0 } { full with dec := { full.dec with rotate := true } }))
    let r := fun (k : Nat) (x : SliceSt) => setSlice 0 x (regsSet [(DS_STATUS 0, BitVec.ofNat 32 k)] (sliced full))
    let i := SliceSt.idle
    (s.drc.trip = none ∧ s.dec.rotate = true ∧ canRotate s = true ∧ s.domOn 1 = true ∧
      s.rd DS_ROT_CFG DS_ROT_CFG.PERIOD_H ≠ 0) ∧
    (s.flag (DS_CTL 0) DS_CTL.DRAIN = false ∧ roleOf s 0 = roActive ∧ inRole s roSlipway = [8] ∧ bitAt 1 (1 : Word) = false ∧
      bitAt 0 (1 : Word) = true) ∧
    (roleOf (r 2 i) 0 = roDraining ∧ (sliceOf (r 2 i) 0).cur = none ∧ (sliceOf (r 2 i) 0).next = none ∧
      (sliceOf (r 2 i) 0).rerun = [] ∧ (regsSet [(DS_CTL 0, 1)] (r 2 i)).flag (DS_CTL 0) DS_CTL.DRAIN = true ∧
      (sliceOf (r 2 { i with rot := true }) 0).rot = true ∧ (sliceOf (r 2 { i with rerun := [0] }) 0).rerun ≠ []) ∧
    (roleOf (writeDrain 8 false (sliced full)) 8 = roSlipway ∧ roleOf (writeDrain 7 false (sliced full)) 7 = roActive ∧
      roleOf (writeDrain 0 false (r 5 i)) 0 = roRetired ∧ roleOf (writeDrain 0 false (r 4 i)) 0 = roOffline ∧
      (r 4 i).domOn 15 = true ∧ parentsIn full.fuse.variant (r 4 i).pwr.doms 15 = true ∧
      parentsIn full.fuse.variant 14 15 = false) := by
  decide +kernel

theorem witness_SliceRolesAndReruns_2 :
    let s := sliced <| regsSet [(DS_ROT_CFG, 1), (DS_WDOG 0,
      0x10000)] (setPic 0 (some (picAt true false true 0 0 none)) (setSlice 0 { SliceSt.idle with cur := some 0 } { full with dec := { full.dec with rotate := true } }))
    let r := fun (k : Nat) (x : SliceSt) => setSlice 0 x (regsSet [(DS_STATUS 0, BitVec.ofNat 32 k)] (sliced full))
    let i := SliceSt.idle
    (roleOf (r 3 i) 0 = roBist ∧ 0 < numSlices full.fuse.variant) ∧
    (s.flag (DS_WDOG 0) DS_WDOG.EN = true ∧ roleOf s 0 = roActive ∧ (sliceOf s 0).cur = some 0 ∧ (picOf s 0).isSome = true) ∧
    (rerunSlice s 0 = some 8 ∧ rerunSlice (regsSet [(DS_STATUS 8, 4)] s) 0 = none) ∧
    ((sliceOf (r 0 { i with rerun := [0] }) 0).rerun = 0 :: [] ∧ (sliceOf (r 0 { i with rerun := [0] }) 0).cur = none ∧
      roleOf (r 0 { i with rerun := [0] }) 0 = roActive) := by
  decide +kernel

theorem witness_SliceRolesAndReruns_3 :
    let r := fun (k : Nat) (x : SliceSt) => setSlice 0 x (regsSet [(DS_STATUS 0, BitVec.ofNat 32 k)] (sliced full))
    let i := SliceSt.idle
    roleOf (r 6 { i with handed := true }) 0 = roResetting ∧ (sliceOf (r 6 { i with handed := true }) 0).handed = true ∧
      (sliceOf (r 6 i) 0).handed = false := by
  decide +kernel

/-- A state in which sequencer 3 runs a unit at address 0 of bank 0, which holds the word `w`, with a field due. -/
def seqAt (w phase : Nat) (u : HsqUnit) : State :=
  setHsq 3 { hsqIdle with store := [(0, w)], unit := some u, phase := phase } (regsSet [(HSQ_CTL 3, 1), (HSQ_STATUS 3,
    0x48)] full)

/-- A decode unit of context 0. -/
def unitOf (bytes : List Byte) : HsqUnit := ⟨false, 0, 0, ⟨0, 1⟩, [], true, [], bytes, 0, 0⟩

/-- A header request of encoder 1. -/
def headerOf : HsqUnit := ⟨true, 1, 0, ⟨0, 1⟩, [], true, [], [], 4096, 0⟩

theorem witness_AluOperations :
    let s := fun (w : Nat) => seqAt w 0 (unitOf [])
    ((List.range 32).all (fun op => (s op).drc.trip.isNone && mayAct (s op) 3 0 && aluOp (curWord (s op) 3) == op) = true) ∧
    ((aluB (curWord (s (9 + 2 ^ 5 + 32 * 2 ^ 128)) 3) (hsqOf (s (9 + 2 ^ 5 + 32 * 2 ^ 128)) 3)).toNat % 64 ≤ 32) := by
  decide +kernel

theorem witness_StreamPortAndOutput :
    let r := fun (op : Nat) => seqAt (op * 2 ^ 32 + 32 * 2 ^ 43) 1 (unitOf [1, 0, 0, 0])
    let h := fun (op : Nat) => seqAt (op * 2 ^ 32 + 32 * 2 ^ 43) 1 headerOf
    let n := setHsq 3 { hsqOf (r 7) 3 with snap := [(0, 5)] } (r 7)
    ((List.range 32).all (fun op => (r op).drc.trip.isNone && mayAct (r op) 3 1 && !(hsqOf (r op) 3).isHeader && spOp (curWord (r op) 3) == op && spCount (curWord (r op) 3) (hsqOf (r op) 3) == some 32) = true) ∧
    ((hsqOf (r 4) 3).zeros (hsqOf (r 4) 3).pos0 ≤ 31 ∧ (hsqOf (r 8) 3).lebLen ≤ 8 ∧
      (hsqOf (r 8) 3).lebVal (hsqOf (r 8) 3).lebLen < 2 ^ 32) ∧
    (mayAct n 3 1 = true ∧ spOp (curWord n 3) = 7 ∧ 0 < ((hsqOf n 3).g (mw (curWord n 3) 49 6)).toNat) ∧
    ((List.range' 16 5).all (fun op => mayAct (h op) 3 1 && (hsqOf (h op) 3).isHeader && decide ((hsqOf (h op) 3).unit = some headerOf) && spOp (curWord (h op) 3) == op) = true) := by
  decide +kernel

theorem witness_StreamPortAndOutput_2 :
    let h := fun (op : Nat) => seqAt (op * 2 ^ 32 + 32 * 2 ^ 43) 1 headerOf
    let o := fun (op : Nat) => seqAt (op * 2 ^ 96 + 1023 * 2 ^ 106) 2 (unitOf [])
    let hc := seqAt (5 * 2 ^ 96) 2 { headerOf with req := [7] }
    ((headerStream 0 ((hsqOf (h 16) 3).out ++ bitsOfNat 32 0) (hsqOf (h 16) 3).cuts).length ≤ headerOf.cap) ∧
    (mayAct hc 3 2 = true ∧ outOp (curWord hc 3) = 5 ∧ (hsqOf hc 3).unit = some { headerOf with req := [7] } ∧
      areaWord (curWord hc 3) (hsqOf hc 3) = 0 ∧ bitsOf 7 0 (hc.raw (HSQ_FAULT_STATUS 3 + 12)) = 0) ∧
    ((List.range 16).all (fun op => mayAct (o op) 3 2 && outOp (curWord (o op) 3) == op && !(hsqOf (o op) 3).isHeader && bitsOf 7 0 ((o op).raw (HSQ_FAULT_STATUS 3 + 12)) == 0) = true) ∧
    (((hsqOf (o 1) 3).closed.map (fun d => d.2.length)).sum + max (hsqOf (o 1) 3).curLen (outIndex (curWord (o 1) 3) + 1) ≤ 1024 ∧
      (hsqOf (o 4) 3).log.length < 256) := by
  decide +kernel

theorem witness_ExpGolombRoundTrip :
    let h : HsqSt := { hsqIdle with unit := some (unitOf [0, 0, 0, 1, 255, 255, 255, 254]) }
    2 ^ 32 - 2 + 1 < 2 ^ 32 ∧
      (List.range (ueBits (2 ^ 32 - 2)).length).all (fun i => h.bit (h.pos0 + i) == (ueBits (2 ^ 32 - 2)).getD i false) = true := by
  decide +kernel

theorem witness_SequencingOperations :
    let s := fun (op : Nat) => seqAt (op * 2 ^ 64 + 16383 * 2 ^ 74) 3 (unitOf [])
    let c := fun (neg n : Nat) => setHsq 3 { hsqOf (seqAt (3 * 2 ^ 64 + neg * 2 ^ 73) 3 (unitOf [])) 3 with stack := List.replicate n 5 } (seqAt (3 * 2 ^ 64 + neg * 2 ^ 73) 3 (unitOf []))
    ((List.range 16).all (fun op => (s op).drc.trip.isNone && mayAct (s op) 3 3 && seqOp (curWord (s op) 3) == op) = true) ∧
    (seqHolds (curWord (c 1 7) 3) (hsqOf (c 1 7) 3) = false ∧ seqHolds (curWord (c 0 7) 3) (hsqOf (c 0 7) 3) = true ∧
      (hsqOf (c 0 7) 3).stack.length < 8 ∧ 8 ≤ (hsqOf (c 0 8) 3).stack.length) ∧
    ((hsqOf (c 0 1) 3).stack = 5 :: [] ∧ (hsqOf (s 4) 3).stack = [] ∧ (endUnit 3 0 (s 6)).drc.trip = none) := by
  decide +kernel

/-- As `dramOn`, with the window protected. -/
def dramMap (s : State) : State := regsSet [(DRC_WIN_SIZE 0, 0x10000), (DRC_WIN_CFG 0, 0xB)] s

/-- A microcode image header of `n` words whose first is zero. -/
def imgHead (n : Nat) : List Word := [0x4D435148, 1, BitVec.ofNat 32 n, 0, 7, crc32c (List.replicate 24 0), 0, 0, 0, 0, 0, 0, 0, 0, 0, 0]

theorem witness_SequencerUnitsAndMicrocode :
    let b := regsSet [(HSQ_CTL 3, 1), (HSQ_STATUS 3,
      8)] (decodes { picAt false false false 0 0 none with seq := 3, jobs := [⟨⟨0, 1⟩, [3, 0, mkHandle 1 7 3, 0, 4], 0, false, []⟩] } SliceSt.idle)
    let p := dramWr hsqPort (dramMap (setHsq 3 { hsqIdle with queue := [0] } (b.setJob 0 { b.job 0 with words := [3, 0, mkHandle 1 7 3, 0, 4] }))) 0x103000 [0,
      0, 1, 2]
    let u := unitOf []
    let sn := regsSet [(HSQ_STATUS 3,
      0x48)] (setHsq 3 { hsqIdle with unit := some u, ending := some 0, closed := [(0, [0, 0])] } b)
    let mc := setHsq 3 { hsqOf (seqAt 0 0 u) 3 with parity := [(0, 1)] } (seqAt 0 0 u)
    let rl := dramMap (regsSet [(HSQ_STATUS 3, 0x88), (HSQ_BANK_HANDLE 3 0,
      mkHandle 1 7 3)] (setHsq 3 { hsqIdle with unit := some u, images := [(0, [1, 0, 0, 0])] } (bstPut pooled 103 (mkEntry true true 5 1 7 1))))
    (hsqRunnable p 3 = true ∧ atBoundary p 3 = true ∧ headerWaits p 3 = false ∧
      p.flag (HSQ_STATUS 3) HSQ_STATUS.SWITCH_PENDING = false ∧ (hsqOf p 3).redo = [] ∧ nextContext p 3 = some 0 ∧
      unitDue 3 p = (3, 1, true) ∧ (startDecode 3 0 p).drc.trip = none) ∧
    ((hsqOf sn 3).unit = some u ∧ (hsqOf sn 3).ending = some 0 ∧ hsqState sn 3 = 1 ∧ picMembers sn 0 = [0] ∧
      queueWords (sliceOf sn 0) + ((stagedDescs u (hsqOf sn 3)).map (fun e => e.words.length)).sum ≤ 4096 ∧
      (releaseUnit 3 0 u (queueDescs 0 (stagedDescs u (hsqOf sn 3)) sn)).drc.trip = none ∧ (picMembers sn 0).Nodup) ∧
    (mc.drc.trip = none ∧ mc.domOn 14 = true ∧ hsqState mc 3 = 1 ∧ (hsqOf mc 3).unit.isSome = true ∧
      (hsqOf mc 3).ending = none ∧ (hsqOf mc 3).phase = 0 ∧ fetchInjected mc 3 = false ∧
      storeParity mc 3 (activeBank mc 3) (hsqPc mc 3) ≠ 0 ∧ hsqPc mc 3 ∉ (hsqOf mc 3).checked) ∧
    (rl.domOn 14 = true ∧ hsqState rl 3 = 2 ∧ rl.rd (HSQ_MC 3) HSQ_MC.ADDR < goldenCount rl 3 (activeBank rl 3) ∧
      (dramRdFor (HSQ_FAULT_STATUS 3) hsqPort rl (bufAddr rl (rl.raw (HSQ_BANK_HANDLE 3 0)) + 64) 24).2.1 = false ∧
      (hsqOf (dramRdFor (HSQ_FAULT_STATUS 3) hsqPort rl (bufAddr rl (rl.raw (HSQ_BANK_HANDLE 3 0)) + 64) 24).2.2 3).unit = some u ∧
      (dramRdFor (HSQ_FAULT_STATUS 3) hsqPort rl (bufAddr rl (rl.raw (HSQ_BANK_HANDLE 3 0)) + 64) 24).2.2.drc.trip = none) := by
  decide +kernel

theorem witness_SequencerUnitsAndMicrocode_2 :
    let ml := jobAt 0 .running [0x30, 3, 1, mkHandle 1 7 3, 0, 0, 1] (dramWrWords hsqPort (dramMap (regsSet [(HSQ_STATUS 3,
      8)] (bstPut pooled 103 (mkEntry true true 5 1 7 1)))) 0x103000 (imgHead 1))
    let ld := setHsq 3 { hsqIdle with load := some ⟨⟨0, 1⟩, 1, mkHandle 1 7 3, 0, 0, 1, false, true⟩ } ml
    let sw := setHsq 3 { hsqIdle with switch := some (⟨0, 1⟩, 1, [0]) } full
    (ml.startable 0 opMicrocodeLoad = true ∧ (ml.job 0).context = 3 ∧ loadWordsOk (ml.job 0) = true ∧
      bitsOf 14 0 ((ml.job 0).w 6) ≠ 0 ∧ isCurrent ml ((ml.job 0).w 3) = true ∧ mayHold ml (2 + 3) ((ml.job 0).w 3) = true ∧
      bankState ml 3 1 = 0 ∧ 1 ≠ activeBank ml 3 ∧ ml.flag (HSQ_STATUS 3) HSQ_STATUS.SWITCH_PENDING = false ∧
      (hsqOf ml 3).load = none ∧ 0 + 64 ≤ poolSize (hPool ((ml.job 0).w 3))) ∧
    ((dramRdWordsFor (HSQ_FAULT_STATUS 3) hsqPort ml 0x103000 16).1 = imgHead 1 ∧
      (dramRdWordsFor (HSQ_FAULT_STATUS 3) hsqPort ml 0x103000 16).2.1 = false ∧
      (dramRdWordsFor (HSQ_FAULT_STATUS 3) hsqPort ml 0x103000 16).2.2.drc.trip = none ∧
      bufAddr ml ((ml.job 0).w 3) = 0x103000 ∧ imageBad ml (ml.job 0) 3 1 (imgHead 1) = false ∧ ml.drc.trip = none) ∧
    ((loadOf ld 0).map (fun x => (x.1, x.2.full)) = some (3, true) ∧ ld.domOn 14 = true ∧
      (dramRdFor (HSQ_FAULT_STATUS 3) hsqPort ld 0x103040 24).2.1 = false ∧
      crc32c (List.replicate 24 0) = wordAt (imgHead 1) 5 ∧ (bpmRetain ld (2 + 3) (mkHandle 1 7 3)).1 = stOk ∧
      crc32c (readBack sw 3 1 0 (goldenCount sw 3 1)) = BitVec.ofNat 32 (goldenCrc sw 3 1)) ∧
    ((hsqOf sw 3).switch = some (⟨0, 1⟩, 1, [0]) ∧ sw.domOn 14 = true ∧ atBoundary sw 3 = true) := by
  decide +kernel

/-- A CQP session record of encoder 1, 8 by 8 samples at 60 frames a second, with RTP egress to port 0. -/
def recWords : List Word := [0x0000480B, 0x00080008, 0x0001003C, 0, 0, 0, 0, 0, 0x33000000, 0, 0x00080008, 0x00020040, 0, 0, 0, 0, 0x05DC0001, 0, 0, 0, 0, 0] ++ List.replicate 42 0

/-- A job of encoder 1. -/
def encJob (ph : EncPhase) (row : Nat) (ws : List Word) : EncJob := 
  ⟨⟨0, 1⟩, ws, 15, { EncSess.none with started := true, words := recWords }, ph, 0, true, 0, ⟨0, 0, 0, 0, 0, false⟩, ⟨[], [],
    []⟩, 0, ([], []),
   [], 1, false, 0, 0, 32768, 8, row, 64, 0, [], 0, 0, false, [[1, 2, 3]], 0, false, []⟩

/-- ENCODE_PICTURE words: a picture by handle, coded as I, into an output buffer. -/
def jobWords : List Word := [0x08, 15, mkHandle 1 7 3, 0, 0, 0, 0, 0, 1, mkHandle 1 7 4]

/-- A state with that job, and its buffers allocated. -/
def encState (j : Option EncJob) : State :=
  setEncJob 1 j (regsSet [(EN_SESS_BASE_LO,
    1)] (jobAt 0 .running jobWords (bstPut (bstPut pooled 103 (mkEntry true true 5 1 7 1)) 104 (mkEntry true true 5 1 7 1))))

theorem witness_EncodersRun :
    let c := encState (some (encJob .coding 0 jobWords))
    let d := encState (some (encJob .coding 1 jobWords))
    let recon : List (List Byte) := (reconLines recWords).map (fun _ => List.replicate (lineBytes 8 (recBits10 recWords)) 0)
    ((encJobOf c 1).map (fun j => (encStopped c j, j.phase, decide (j.row < (encRows j.sess.words).length),
      rowAllowed j ⟨[64], [1], [true]⟩)) = some (false, .coding, true, true) ∧ c.drc.trip = none ∧
      bitsOf 7 0 (c.raw (EN_FAULT_STATUS 1 + 12)) = 0) ∧
    ((encJobOf d 1).map (fun j => (encStopped d j, j.phase, decide (j.row = (encRows j.sess.words).length),
      codedAllowed j [0, 0, 0, 0])) = some (false, .coding, true, true)) ∧
    (recon.length = (reconLines recWords).length) ∧
    (recon.all (fun l => l.length == lineBytes (recWidth recWords) (recBits10 recWords)) = true) := by
  decide +kernel

theorem witness_EncodersRun_2 :
    let d := encState (some (encJob .coding 1 jobWords))
    let e := encState (some (encJob .egress 1 jobWords))
    let w := encState (some (encJob .waiting 0 jobWords))
    let q := setSess 15 { EncSess.none with started := true, words := recWords } (encState none)
    ((dramWr (encPort 1) d (bufAddr d (ejOutput jobWords)) [0]).drc.trip = none) ∧
    ((encJobOf e 1).map (fun j => (encStopped e j, j.phase, pieceOk true (nextPiece j 3).1, (nextPiece j 3).2,
      decide (j.sess.paceAt ≤ e.cyc))) = some (false, .egress, true, true, true) ∧
      (nextPiece (encJob .egress 1 jobWords) 1).2 = false ∧
      pieceOk false (nextPiece (encJob .egress 1 jobWords) 1).1 = true ∧ pieceOk true ⟨List.replicate 9 0, 0, 3⟩ = true ∧
      bitsOf 1 1 (wordAt recWords 16) < numPorts e.fuse.variant ∧ e.domOn (37 + bitsOf 1 1 (wordAt recWords 16)) = true ∧
      (rtpStamp (encJob .egress 1 jobWords) e).2.drc.trip = none ∧
      (egressFrame e 0 recWords (List.replicate 15 0)).length ≤ 14 + bitsOf 31 16 (wordAt recWords 16)) ∧
    ((encJobOf w 1).map (fun j => (encStopped w j, j.phase, j.lost)) = some (false, .waiting, true) ∧
      (encEnd 1 stSourceLost w).drc.trip = none) ∧
    (q.startable 0 opEncodePicture = true ∧ encTurn q (q.jobRef 0) = true ∧
      encHeld q (jobRecord q (q.job 0)) (sourceHandle q (q.job 0).words) = false ∧ encodeInternal q (q.job 0) = false ∧
      encOff q (q.job 0) = false ∧ ejStart (q.job 0).words = false ∧ isCurrent q (wordAt (q.job 0).words 2) = true ∧
      mayHold q 18 (wordAt (q.job 0).words 2) = true ∧ isCurrent q (ejOutput (q.job 0).words) = true ∧
      (sessOf q 15).started = true ∧ bitsOf 0 0 (wordAt (sessOf q 15).words 0) = 1 ∧
      sessionExceeds (sessOf q 15).words = false ∧
      (acceptRate (q.job 0).words (sessOf q 15) (encTaken (q.jobRef 0) q)).2.2.2.2.drc.trip = none) := by
  decide +kernel

theorem witness_SequencerUnitsAndMicrocode_headers :
    let hr := (regsSet [(HSQ_CTL 3, 1), (HSQ_STATUS 3,
      8)] (encState (some (encJob .needHeader 0 jobWords)))).wr HSQ_EN_BIND HSQ_EN_BIND.EN1 3
    let hd := setHsq 3 { hsqIdle with header := some ⟨1, ⟨0, 1⟩, true, 0, [0]⟩ } (encState (some (encJob .header 0 jobWords)))
    ((encJobOf hr 1).map (fun j => (j.phase, j.ref)) = some (.needHeader, ⟨0, 1⟩) ∧ headerServer hr 1 = 3 ∧
      1 < numEncoders hr.fuse.variant ∧
      (List.replicate 1016 (HeaderElem.value 0)).filterMap (elemWord recWords) = List.replicate 1016 0 ∧
      recordHolds (encJob .needHeader 0 jobWords) (List.replicate 1016 (HeaderElem.value 0)) = true ∧
      recordHolds (encJob .needHeader 0 jobWords) [.level, .hrd, .deltaQ, .hrdValue 5] = true ∧ hsqRunnable hr 3 = true ∧
      atBoundary hr 3 = true ∧ hr.flag (HSQ_STATUS 3) HSQ_STATUS.SWITCH_PENDING = false) ∧
    ((hsqOf hd 3).header = some ⟨1, ⟨0, 1⟩, true, 0, [0]⟩ ∧ (encJobOf hd 1).map (fun j => (j.ref, j.phase,
      decide (cMin j.sess.words j.coded 8 ≤ j.c))) = some (⟨0, 1⟩, .header, true) ∧
      (dramWr hsqPort hd (bufAddr hd (ejOutput jobWords)) [0]).drc.trip = none) := by
  decide +kernel

theorem witness_SdiInputsAndOutputs :
    let s := regsSet [(SDI_IN_CFG 7, 0x13), (SDI_IN_STATUS 7, 0xA4F)] full
    let big := setCache (regsSet [(BPM_POOL_CFG 4, 0x80000010), (BPM_POOL_STATUS 4, 0x200000), (BPM_POOL_BST 4, 500),
      (BPM_POOL_BASE_LO 4, 0x8000001)] (dramOn s)) 4 [0, 1]
    let p : SdiPic := ⟨mkHandle 4 1 0, 4, 8, 32, false, 16, [], [], false, []⟩
    let f := setSdiIn 7 { SdiIn.none with cur := some p } big
    (full.drc.trip = none ∧ sdiInLive full 7 = true ∧ full.flag (SDI_IN_CFG 7) SDI_IN_CFG.EN = false ∧
      bitAt 0 (1 : Word) = true ∧ freeRun (full.hostWrite (SDI_IN_CFG 7) 1) 4 = some 0) ∧
    (sdiInLive big 7 = true ∧ sdiCapturing big 7 = true ∧ (sdiIn big 7).cur = none ∧
      holdWaiting big (big.rd (SDI_IN_CFG 7) SDI_IN_CFG.POOL) = false ∧
      (allocAt big 24 (big.rd (SDI_IN_CFG 7) SDI_IN_CFG.POOL) false true true).1 = stOk ∧
      pictureBytes 1280 720 1 true ≤ poolSize 4 ∧ rasterSize (big.rd (SDI_IN_STATUS 7) SDI_IN_STATUS.RASTER) = (1280, 720)) ∧
    ((sdiIn f 7).cur = some p ∧ p.lines < p.height ∧ (List.replicate 10 (0 : Byte)).length = lineBytes p.width true ∧
      bitsOf 7 0 (f.raw SDI_FAULT_INJECT) = 0 ∧
      (writeSdiLine 7 p (List.replicate 10 0) (List.replicate 10 0) f).drc.trip = none) ∧
    (f.drc.trip = none ∧ 16 * (pptRowsDone f p.entry + 1) ≤ p.top ∧ 0 < p.lines) := by
  decide +kernel

theorem witness_SdiInputsAndOutputs_2 :
    let s := regsSet [(SDI_IN_CFG 7, 0x13), (SDI_IN_STATUS 7, 0xA4F)] full
    let big := setCache (regsSet [(BPM_POOL_CFG 4, 0x80000010), (BPM_POOL_STATUS 4, 0x200000), (BPM_POOL_BST 4, 500),
      (BPM_POOL_BASE_LO 4, 0x8000001)] (dramOn s)) 4 [0, 1]
    let p : SdiPic := ⟨mkHandle 4 1 0, 4, 8, 32, false, 16, [], [], false, []⟩
    let lk := setSdiIn 7 { SdiIn.none with cur := some p } (regsSet [(SDI_IN_STATUS 7, 2)] big)
    let z := setSdiIn 7 { SdiIn.none with cur := some { p with lines := 32 } } big
    let v := regsSet [(SDI_OUT_CFG 1, 0x97), (CMP_WB_STATUS,
      0)] (pptPut 508 [] { bstPut pooled 103 (mkEntry true true 5 1 7 1) with cmp := { full.cmp with wb := ⟨true, 0, none, [], []⟩ } })
    let o := pptPut (v.rd CMP_WB_STATUS CMP_WB_STATUS.PPT_BASE) [mkHandle 1 7 3, 0, BitVec.ofNat 32 peComplete] v
    ((sdiIn z 7).cur = some { p with lines := 32 } ∧ 32 = p.height ∧ encBehind 1 7 p.handle z = false ∧
      (sdiComplete 7 { p with lines := 32 } z).drc.trip = none) ∧
    (sdiFlag full 7 SDI_IN_STATUS.CARRIER ≠ true ∧ sdiFlag full 7 SDI_IN_STATUS.LOCKED = false) ∧
    (sdiFlag lk 7 SDI_IN_STATUS.LOCKED = true ∧ (sdiBlack 7 (encInputLost 1 7 lk)).drc.trip = none) ∧
    (sdiOutLive o 1 = true ∧ o.flag (SDI_OUT_CFG 1) SDI_OUT_CFG.EN = true ∧
      sdiOutOk (o.rd (SDI_OUT_CFG 1) SDI_OUT_CFG.RASTER) (o.rd (SDI_OUT_CFG 1) SDI_OUT_CFG.RATE) = true ∧
      o.cmp.wb.run = true ∧
      newestComplete o (o.rd CMP_WB_STATUS CMP_WB_STATUS.PPT_BASE) = some (o.rd CMP_WB_STATUS CMP_WB_STATUS.PPT_BASE) ∧
      previewDue o 1 = true ∧ holdWaiting o (hPool (ppt o (o.rd CMP_WB_STATUS CMP_WB_STATUS.PPT_BASE) 0)) = false ∧
      (bpmRetain o 24 (mkHandle 1 7 3)).1 = stOk ∧ (bpmRetain o 24 (mkHandle 1 7 3)).2.drc.trip = none ∧
      full.flag (SDI_OUT_CFG 1) SDI_OUT_CFG.EN = false) := by
  decide +kernel

theorem witness_CompositionArithmetic :
    ((4095 : Nat) ≤ 4095 ∧ (1023 : Nat) ≤ 1023 ∧ mul1023 4095 1023 = 4095 ∧ mul1023 4095 0 = 0 ∧ mul1023 1023 511 = 511) ∧
    (blend (4095, 0, 7, 1023) (1, 2, 3, 4) = (4095, 0, 7, 1023) ∧ blend (0, 0, 0, 0) (4095, 2, 3, 1023) = (4095, 2, 3,
      1023)) := by
  decide +kernel

/-- A state with some configuration in force. -/
def forced (l : List (Nat × Word)) : State := takeForce (regsSet l full)

theorem witness_LayerUpdates :
    let s := fun (w2 w3 : Word) => jobAt 0 .running [0x10, 63, w2, w3] full
    ([0x51001, 0x21001, 0x1FFF].all (fun w => decide ((s w 4).startable 0 opLayerUpdate = true ∧
      ((s w 4).job 0).context % 64 = 63 ∧
      updCause (s w 4) 63 (((s w 4).job 0).w 2) (mergeShadow (s w 4) ((s w 4).job 0) 63) = 0 ∧
      (s w 4).drc.trip = none)) = true) ∧
    (updCause (s 1 6) 63 (((s 1 6).job 0).w 2) (mergeShadow (s 1 6) ((s 1 6).job 0) 63) = 1) ∧
    (updCause (s 1 4) 63 0 (mergeShadow (s 1 0) ((s 1 0).job 0) 63) = 2 ∧
      updCause (s 0x30001 4) 63 0x30001 (mergeShadow (s 0x30001 4) ((s 0x30001 4).job 0) 63) = 7) ∧
    (full.drc.trip = none ∧ full.domOn 26 = true) := by
  decide +kernel

theorem witness_GuardedRegions :
    let due : Word → Word → State := fun e c => { regsSet [(CMP_GR_CFG 63, c)] full with cmp := { full.cmp with due := [⟨63, 5, e, 0⟩], waits := [⟨⟨0, 1⟩, 3, true, [63], false, 0⟩] } }
    let a := due 5 0
    let b := due 6 3
    let c := regsSet [(CMP_GR_CFG 63, 0x4)] full
    (a.domOn 26 = true ∧ a.cmp.due.find? (fun x => x.region == 63) = some ⟨63, 5, 5, 0⟩ ∧ BitVec.ofNat 32 5 = (5 : Word) ∧
      b.cmp.due.find? (fun x => x.region == 63) = some ⟨63, 5, 6, 0⟩ ∧ BitVec.ofNat 32 5 ≠ (6 : Word)) ∧
    ((waitsTake 63 0 false (a.wr (CMP_GR_CFG 63) CMP_GR_CFG.MISS_RUN 0)).drc.trip = none ∧
      (waitsTake 63 0 true b).drc.trip = none) ∧
    (c.drc.trip = none ∧ b.domOn 26 = true ∧ 1 < 2 ∧ 63 / 32 = 1 ∧ bitAt (63 % 32) (0x80000000 : Word) = true ∧
      (c.wr (CMP_GR_CFG 63) CMP_GR_CFG.FORCED 1).flag (CMP_GR_CFG 63) CMP_GR_CFG.FORCED = true) := by
  decide +kernel

theorem witness_ImagesAreLoaded :
    let s := setXfer 3 { XferSt.none with loading := some 64 } full
    let hd := s.wr CMP_STATUS CMP_STATUS.IN_HOLD 1
    (full.drc.trip = none ∧ 3 < 4 ∧ bitAt 0 (1 : Word) = true ∧ full.domOn 26 = true ∧ full.domOn 32 = true ∧
      bitAt 31 (0x80000101 : Word) = true) ∧
    ((xferOf s 3).loading = some 64 ∧ inHold s = false ∧ (dramRdFor CMP_FAULT_STATUS cmpPort s 64 4226).2.2.drc.trip = none ∧
      (dramRdFor CMP_FAULT_STATUS cmpPort s 64 4226).2.1 = true ∧
      (dramRdFor CMP_FAULT_STATUS cmpPort (dramOn s) 64 4226).2.1 = false) ∧
    (inHold hd = true ∧ hd.drc.trip = none) ∧
    (full.drc.trip = none ∧
      ({ dramOn full with cmp := { full.cmp with spriteDue := true } } : State).cmp.spriteDue = true) := by
  decide +kernel

theorem witness_ImagesAreLoaded_2 :
    let e : State := { full with lmp := { full.lmp with eotfAt := some 0x1000 } }
    let g := regsSet [(LMP_MTX_COUNT, 1)] full
    (bitsOf 6 0 (cmpIn full CMP_TOUCH_SPRITE_SIZE) = 16 ∧ bitsOf 14 8 (cmpIn full CMP_TOUCH_SPRITE_SIZE) = 16 ∧
      (dramRdWordsFor CMP_FAULT_STATUS cmpPort (dramOn full) (bufAddr full (cmpIn full CMP_TOUCH_SPRITE)) (16 * 16)).2.1 = false) ∧
    (e.lmp.eotfAt = some 0x1000 ∧ (dramRdWordsFor LMP_FAULT_STATUS lampPort (dramOn e) 0x1000 16).2.1 = false ∧
      (dramRdWordsFor LMP_FAULT_STATUS lampPort (dramOn e) 0x1000 16).2.2.drc.trip = none) ∧
    ((g.hostWrite LMP_MTX_CTL 0x8000FFFF).flag LMP_MTX_CTL LMP_MTX_CTL.BUSY = false ∧
      (g.hostWrite LMP_MTX_CTL 0x8000FFFF).rd LMP_MTX_CTL LMP_MTX_CTL.FIRST = 65535 ∧
      (g.hostWrite LMP_MTX_CTL 0x8000FFFF).rd LMP_MTX_COUNT LMP_MTX_COUNT.COUNT = 1) ∧
    (65536 < 65535 + ((regsSet [(LMP_MTX_COUNT,
      2)] full).hostWrite LMP_MTX_CTL 0x8000FFFF).rd LMP_MTX_COUNT LMP_MTX_COUNT.COUNT) := by
  decide +kernel

theorem witness_ImagesAreLoaded_3 :
    let m := dramOn { full with lmp := { full.lmp with mtxLoad := some (0x1000, 65535, 1) } }
    m.lmp.mtxLoad = some (0x1000, 65535, 1) ∧
      (loadMatrices 1 0x1000 65535 (m.wr LMP_MTX_CTL LMP_MTX_CTL.BUSY 0)).drc.trip = none := by
  decide +kernel

theorem witness_WriteBackAndHoldQueue :
    let h := mkHandle 1 7 3
    let k := bstPut pooled 103 (mkEntry true true 19 1 7 1)
    let held := k.wr CMP_STATUS CMP_STATUS.IN_HOLD 1
    let hold : HoldKind → State → State := fun kd s => { s with cmp := { s.cmp with hold := [⟨kd, 63, h, 1⟩] } }
    (inHold held = true ∧ held.drc.trip = none ∧ inHold (hold .retain k) = false) ∧
    ([.retain, .release, .alloc].all (fun kd => decide ((hold kd k).cmp.hold.find? (fun x => x.pool == 1) = some ⟨kd, 63, h,
      1⟩)) = true) ∧
    ((bpmRetain k 19 h).1 = stOk ∧ (bpmRetain k 19 (mkHandle 1 7 64)).1 ≠ stOk ∧
      (releasePassed (bpmRetain k 19 h).2).drc.trip = none ∧
      (releasePassed (retainRefused 63 h (bpmRetain k 19 (mkHandle 1 7 64)).2)).drc.trip = none) ∧
    ((releasePassed (releaseS 19 h k)).drc.trip = none ∧
      (releasePassed (let r := allocAt k 19 1 false true false; wbGranted r.1 r.2.1 r.2.2)).drc.trip = none) := by
  decide +kernel

theorem witness_WriteBackAndHoldQueue_2 :
    let h := mkHandle 1 7 3
    let p : WbPic := ⟨h, 508, 64, 20, 0, 1, 1, 0, 0, 2, 16, 0, [], []⟩
    let w : WbPic → State := fun q => { full with cmp := { full.cmp with wb := { full.cmp.wb with cur := some q } } }
    let on := regsSet [(CMP_WB_CFG, 1)] full
    ((w p).cmp.wb.cur = some p ∧ (w p).drc.trip = none ∧ 16 * (pptRowsDone (w p) 508 + 1) < p.height ∧
      16 * (pptRowsDone (w p) 508 + 1) ≤ p.lines) ∧
    ((w { p with height := 16 }).cmp.wb.cur = some { p with height := 16 } ∧
      encBehind 2 0 h (w { p with height := 16 }) = false ∧ 16 ≤ 16 * (pptRowsDone (w { p with height := 16 }) 508 + 1) ∧
      (wbAbandon (w p)).drc.trip = none ∧ (pptSetState 508 peComplete (pptRows 508 1 (w p))).drc.trip = none) ∧
    (full.domOn 26 = true ∧ full.drc.trip = none ∧ full.flag CMP_WB_CFG CMP_WB_CFG.EN = false ∧ bitAt 0 (1 : Word) = true ∧
      freeRun (full.hostWrite CMP_WB_CFG 1) 4 = some 0 ∧ (takeRun 0 4 600 full).drc.trip = none) ∧
    (freeRun (({ full with dec := { full.dec with owner := (List.range 128).map (fun i => (i * 4 + 3, 1)) } } : State).hostWrite CMP_WB_CFG 1) 4 = none ∧
      on.flag CMP_WB_CFG CMP_WB_CFG.EN = bitAt 0 (1 : Word)) := by
  decide +kernel

/-- A tile-map entry: 2 by 2 lamps at (0, 0), lane 0, position 0, serial 7, enabled. -/
def tileWords : List Word := [0, 0x00800401, 0, 0, 7, 0, 0, 0]

/-- A state whose map holds that tile, in a state of its own. -/
def wall (st : Nat) (s : State) : State :=
  { s with lmp := { s.lmp with active := [(0, tileWords)], shadow := [(0, tileWords)], states := [(0, st)] } }

theorem witness_FramesAndGates :
    let s := wall 2 (forced [(CMP_CANVAS_SIZE, 0x00020002), (LMP_CTL, 0)])
    let a := fun (l : Nat) (st : Bool) => setScan ⟨true, l, st, []⟩ s
    let z : State := { forced [(CMP_CANVAS_SIZE, 0x00020002)] with pwr := { full.pwr with doms := 2 ^ 27 - 1 } }
    (s.domOn 26 = true ∧ (a 0 false).cmp.scan.active = true ∧ (a 0 false).cmp.scan.started = false ∧
      (a 0 false).cmp.hold = [] ∧ lineUsed (a 0 false) 0 = true ∧
      (foldS (chase 0) (List.range 64) (setScan { (a 0 false).cmp.scan with started := true } (a 0 false))).drc.trip = none) ∧
    (lineUsed (setScan ⟨true, 0, false, []⟩ full) 0 = false ∧ (nextLine (setScan ⟨true, 0, false,
      []⟩ full)).drc.trip = none) ∧
    ((a 1 true).cmp.scan.active = true ∧ (a 1 true).cmp.scan.started = true ∧ (nextLine (a 1 true)).drc.trip = none) ∧
    (z.domOn 26 = true ∧ z.cmp.hold = [] ∧ inHold (gateHolds (closeFrame z)) = false ∧
      (gateOpens (drainHold (gateHolds (closeFrame z)))).1 = false) := by
  decide +kernel

theorem witness_FramesAndGates_2 :
    let z : State := { forced [(CMP_CANVAS_SIZE, 0x00020002)] with pwr := { full.pwr with doms := 2 ^ 27 - 1 } }
    let n := wall 2 (forced [(CMP_CANVAS_SIZE, 0x00020002), (PLK_LANE_STATUS 0, 4), (CMP_TOUCH_CFG, 1)])
    ((gateOpens (gateHolds (closeFrame (z.wr CMP_CTL CMP_CTL.HOLD 1)))).2.drc.trip = none) ∧
    ((showCoverage (holdGate z)).drc.trip = none) ∧
    ((showCoverage (fullGate ((List.range 64).map (fun _ => [])) (spriteGate z))).drc.trip = none) ∧
    (macTaken ⟨0, false, 0x88B5, 1, true⟩ = true ∧ laneLive n 0 = true ∧ bitsOf 7 0 (n.raw (PLK_LANE_FAULT_INJECT 0)) = 0 ∧
      lsSettling ≤ laneState n 0 ∧ placeOf n 0 0 = some 0 ∧
      (enTiles n.lmp.active).find? (fun k => tPlace (actTile n k) == 0) = some 0) := by
  decide +kernel

theorem witness_FramesAndGates_3 :
    let n := wall 2 (forced [(CMP_CANVAS_SIZE, 0x00020002), (PLK_LANE_STATUS 0, 4), (CMP_TOUCH_CFG, 1)])
    bitAt 0 (cmpIn n CMP_TOUCH_CFG) = true ∧ drivenState (tileState n 0) = true ∧ (touchOne 0 ⟨9, 0, 31, 31,
      0⟩ n).drc.trip = none := by
  decide +kernel

theorem witness_LampCommands :
    let h := mkHandle 1 7 3
    let tm := fun (ofs : Word) (e : List Word) => jobAt 0 .running [0x11, 15, 1, h,
      ofs] (dramWrWords lampPort (dramOn (regsSet [(CMP_CANVAS_SIZE, 0x00020002), (LMP_GAIN_SIZE,
      4)] (bstPut pooled 103 (mkEntry true true 0 1 7 1)))) 0x103020 e)
    let good := takeForce (tm 32 tileWords)
    let bad := takeForce (tm 32 [0, 0x00800401, 0xFFFF0000, 0, 7, 0, 0, 0x80000000])
    let sw : State := { wall 1 full with lmp := { (wall 1 full).lmp with serials := [⟨0, 0, 0, 2 ^ 48 - 1⟩, ⟨1, 63, 1023, 9⟩] } }
    (good.startable 0 opTilemapUpdate = true ∧ bitsOf 31 16 ((good.job 0).w 1) = 0 ∧
      isCurrent good ((good.job 0).w 3) = true ∧ 32 + 32 * 1 ≤ poolSize (hPool h) ∧ bufAddr good h + 32 = 0x103020 ∧
      good.drc.trip = none) ∧
    ((dramRdWordsFor LMP_FAULT_STATUS lampPort good 0x103020 8).1 = tileWords ∧
      (dramRdWordsFor LMP_FAULT_STATUS lampPort good 0x103020 8).2.1 = false ∧
      (dramRdWordsFor LMP_FAULT_STATUS lampPort good 0x103020 8).2.2.drc.trip = none ∧ mapCheck good [(15,
      tileWords)] 15 1 = none) ∧
    ((dramRdWordsFor LMP_FAULT_STATUS lampPort bad 0x103020 8).1 = [0, 0x00800401, 0xFFFF0000, 0, 7, 0, 0, 0x80000000] ∧
      mapCheck bad [(15, [0, 0x00800401, 0xFFFF0000, 0, 7, 0, 0, 0x80000000])] 15 1 = some (15, 1)) ∧
    (sw.drc.trip = none ∧ sw.lmp.serials.find? (fun y => y.tile == 0) = some ⟨0, 0, 0, 2 ^ 48 - 1⟩ ∧ shdTile sw 0 ≠ [] ∧
      tPlace (shdTile sw 0) = 0 * 1024 + 0 ∧ sw.lmp.serials.find? (fun y => y.tile == 1) = some ⟨1, 63, 1023, 9⟩ ∧
      shdTile sw 1 = []) := by
  decide +kernel

theorem witness_LampCommands_2 :
    let ex : State := { full with lmp := { full.lmp with exhDue := true, exh := [65535] } }
    let hrm : Nat → State := fun n => { regsSet [(LMP_HRM_CTL, 1), (LMP_LEVEL, 4194304)] full with lmp := { full.lmp with minute := [n, 0, 0] } }
    ex.lmp.exhDue = true ∧ (endExhausted ex).drc.trip = none ∧ (hrm 0).drc.trip = none ∧ (hrm 0).domOn 32 = true ∧
      (hrm 0).flag LMP_HRM_CTL LMP_HRM_CTL.EN = true := by
  decide +kernel

theorem witness_LedgerJobs :
    let st := fun (k op c w3 : Nat) (w4 : Word) => regsSet [(LDG_STATUS, BitVec.ofNat 32 k)] (jobAt 0 .running [0x18,
      BitVec.ofNat 32 c, BitVec.ofNat 32 op, BitVec.ofNat 32 w3,
      w4] (wall 2 (bstPut pooled 103 (mkEntry true true 0 1 7 1))))
    let h : Nat := (mkHandle 1 7 3).toNat
    ((List.range 4).all (fun k => (List.range 8).all (fun op => decide ((st k op 0 0 0).startable 0 opLedgerOp = true ∧
      bitsOf 31 8 (((st k op 0 0 0).job 0).w 2) = 0 ∧ bitsOf 7 0 (((st k op 0 0 0).job 0).w 2) = op ∧
      ((st k op 0 0 0).job 0).context = 0 ∧ ldgState (st k op 0 0 0) = k))) = true) ∧
    (lgOff = 0 ∧ lgRestoring = 1 ∧ lgRunning = 2 ∧ lgStopped = 3 ∧ (adopt ⟨0,
      1⟩ (beginJob 0 (st 0 0 0 0 0))).drc.trip = none ∧
      ((st 0 0 0 1 0).wr LDG_STATUS LDG_STATUS.STATE lgRestoring).drc.trip = none ∧
      bitAt 0 (((st 0 0 0 1 0).job 0).w 3) = true) ∧
    ((serveStops (beginJob 0 (st 2 1 0 0 0))).drc.trip = none ∧ (fail 0 stLedgerState (st 0 1 0 0 0)).drc.trip = none ∧
      (fail 0 stBusy (st 1 7 0 0 0)).drc.trip = none) ∧
    (imagePre (4 * tLamps (actTile (st 2 3 0 h 0) 0)) ((st 2 3 0 h 0).job 0) (st 2 3 0 h 0) = stOk ∧
      opOn (st 2 3 0 h 0) 0 = false ∧ tileState (st 2 3 0 h 0) 0 ∈ [tsLit, tsAwaited, tsSilent] ∧ (beginOp ⟨some ⟨0, 1⟩, 3,
      0, .asking, BitVec.ofNat 32 h, 0, 0, 0, 0, 0, 0, 0, [], false⟩ (beginJob 0 (st 2 3 0 h 0))).drc.trip = none) := by
  decide +kernel

theorem witness_LedgerJobs_2 :
    let st := fun (k op c w3 : Nat) (w4 : Word) => regsSet [(LDG_STATUS, BitVec.ofNat 32 k)] (jobAt 0 .running [0x18,
      BitVec.ofNat 32 c, BitVec.ofNat 32 op, BitVec.ofNat 32 w3,
      w4] (wall 2 (bstPut pooled 103 (mkEntry true true 0 1 7 1))))
    let h : Nat := (mkHandle 1 7 3).toNat
    let li := regsSet [(BPM_POOL_CFG 3, 0x80000010), (BPM_POOL_STATUS 3, 0x200000), (BPM_POOL_BST 3, 600),
      (BPM_POOL_BASE_LO 3, 0x1000001)] (bstPut (st 0 5 0 (mkHandle 3 7 0).toNat 0) 600 (mkEntry true true 0 1 7 3))
    let rep := st 2 4 0 0 0
    let replaced : State := { rep with lmp := { rep.lmp with states := [(0, tsReplaced)] } }
    (tileState replaced 0 = tsReplaced ∧ opOn replaced 0 = false ∧ (beginReplace (some ⟨0,
      1⟩) 0 (beginJob 0 replaced)).drc.trip = none) ∧
    (imagePre 131072 (li.job 0) li = stOk ∧ ldgState li = lgOff ∧
      (dramRdFor LDG_FAULT_STATUS ledgerPort li (bufAddr li (mkHandle 3 7 0)) 64).2.1 = false ∧
      (present 0 stOk [64] li).drc.trip = none) ∧
    (((st 3 6 0 0x464D5431 0).job 0).w 3 = 0x464D5431 ∧ (st 3 6 0 0x464D5431 0).drc.trip = none ∧
      ((st 1 6 0 0x464D5431 0).job 0).w 3 = 0x464D5431) ∧
    ([0, 1,
      3].all (fun k => imagePre (4 * tLamps (actTile (st k 3 0 h 0) 0)) ((st k 3 0 h 0).job 0) (st k 3 0 h 0) == stOk) = true ∧
      imagePre 131072 (li.job 0) (li.wr LDG_STATUS LDG_STATUS.STATE 1) = stOk ∧ [stLedgerState,
      stBusy].all (fun x => decide ((fail 0 x (st 1 3 0 h 0)).drc.trip = none)) = true) := by
  decide +kernel

/-- A ledger in a state, with valid summaries, operations and a lane that is UP. -/
def ledgerAt (st : Nat) (ops : List LdgOp) : State :=
  let s := wall 2 (regsSet [(LDG_STATUS, BitVec.ofNat 32 (st + 4)), (PLK_LANE_STATUS 0, 4)] (dramOn full))
  { s with ldg := { s.ldg with ops := ops } }

theorem witness_LedgerStore :
    let op := fun (k : Nat) (st : LdgStage) => (⟨none, k, 0, st, 0, 0, 0, 7, 0, 0, 96, 5, [1], false⟩ : LdgOp)
    let r : LdgRestore := ⟨⟨0, 1⟩, 0, 1, none, [], 0, 0, 0⟩
    let p : LdgPass := ⟨1, 0, 1, 0, 1, 0, [], [], false⟩
    let rs : State := { ledgerAt 1 [] with ldg := { (ledgerAt 1 []).ldg with restore := some r } }
    let ps : State := { ledgerAt 2 [] with ldg := { (ledgerAt 2 []).ldg with pass := some p } }
    let rp : State := { ledgerAt 2 [op 4 .ready] with lmp := { (ledgerAt 2 []).lmp with states := [(0, tsReplaced)] } }
    (rs.domOn 32 = true ∧ rs.ldg.sampled = false ∧ rs.ldg.stops = [] ∧ (classRead rs).ldg.restore = some r ∧ r.newer < 2 ∧
      (restoreTile r (classRead rs)).drc.trip = none) ∧
    (ldgState (classRead ps) = lgRunning ∧ (classRead ps).ldg.restore = none ∧ readyOp (classRead ps) = none ∧
      (classRead ps).ldg.pass = some p ∧ p.closing = false ∧ (stepPass p (classRead ps)).drc.trip = none) ∧
    (readyOp (ledgerAt 2 [op 3 .ready]) = some (op 3 .ready) ∧
      (stepRebase (op 3 .ready) (ledgerAt 2 [op 3 .ready])).drc.trip = none ∧
      tileState (ledgerAt 2 [op 4 .ready]) 0 ≠ tsReplaced ∧
      (promoteOps (endOp (op 4 .ready) stTileState [] (ledgerAt 2 [op 4 .ready]))).drc.trip = none) ∧
    (tileState rp 0 = tsReplaced ∧ readyOp rp = some (op 4 .ready) ∧ (stepReplace (op 4 .ready) rp).drc.trip = none) := by
  decide +kernel

theorem witness_LedgerStore_2 :
    let op := fun (k : Nat) (st : LdgStage) => (⟨none, k, 0, st, 0, 0, 0, 7, 0, 0, 96, 5, [1], false⟩ : LdgOp)
    let mac : MacFacts := ⟨0, false, 0x88B5, 1, true⟩
    let d := fun (k : Nat) => ledgerAt 2 [op k .durable]
    ([3, 4].all (fun k => decide ((d k).ldg.ops.find? (fun x => decide (x.stage = .durable)) = some (op k .durable) ∧
      (endOp (op k .durable) stOk [1] (d k)).drc.trip = none)) = true) ∧
    (macTaken mac = true ∧ laneLive (ledgerAt 2 [op 4 .receiving]) 0 = true ∧
      bitsOf 7 0 ((ledgerAt 2 [op 4 .receiving]).raw (PLK_LANE_FAULT_INJECT 0)) = 0 ∧
      lsSettling ≤ laneState (ledgerAt 2 [op 4 .receiving]) 0 ∧
      receiving (ledgerAt 2 [op 4 .receiving]) = some (op 4 .receiving) ∧
      0 ∈ endsOf (ledgerAt 2 [op 4 .receiving]) (ownerOf (ledgerAt 2 [op 4 .receiving]) 0) ∧
      2 ^ 26 - 1 + [(1 : Byte)].length ≤ 2 ^ 26) ∧
    ((promoteOps (endOp (op 4 .receiving) stCalibTimeout [] (ledgerAt 2 [op 4 .receiving]))).drc.trip = none ∧
      (dramWr ledgerPort (ledgerAt 2 []) (stageAddr (ledgerAt 2 []) 96) [1]).drc.trip = none) ∧
    ((ledgerAt 2 [op 4 .complete]).ldg.ops.find? (fun x => decide (x.stage = .complete)) = some (op 4 .complete) ∧
      (promoteOps (endOp (op 4 .complete) stCalibBad [] (ledgerAt 2 [op 4 .complete]))).drc.trip = none) := by
  decide +kernel

theorem witness_LedgerStore_3 :
    let p : LdgPass := ⟨1, 0, 1, 0, 1, 0, [], [], false⟩
    let ps : State := { ledgerAt 2 [] with ldg := { (ledgerAt 2 []).ldg with pass := some p } }
    let w0 : EmWrite := ⟨0, 0x1000, [1], true, 1⟩
    let w3 : EmWrite := ⟨3, 0x2000, [1], true, 2⟩
    let q : State := { full with ldg := { full.ldg with writes := [w3, w0] } }
    let c : State := { full.wr LDG_STORE LDG_STORE.PRESENT 1 with ldg := { full.ldg with cmd := some w3 } }
    (q.drc.trip = none ∧ q.ldg.cmd = none ∧ q.pwr.mode ≠ .porst ∧ w0 ∈ q.ldg.writes ∧
      q.ldg.writes.all (fun x => decide (0 ≤ x.cls)) = true ∧ q.ldg.writes.find? (fun x => x.cls == 0) = some w0) ∧
    (c.ldg.cmd = some w3 ∧ (emmcOk w3 c).drc.trip = none ∧ (emmcFails w3 c).drc.trip = none ∧
      (powerFailCommit (emmcOk w3 c)).drc.trip = none ∧ (powerFailCommit (emmcFails w3 c)).drc.trip = none ∧
      c.ldg.tries < 2) ∧
    (sumValid (ledgerAt 2 []) = true ∧ ldgState (ledgerAt 2 []) ≠ lgRestoring ∧ (ledgerAt 2 []).ldg.pfail = false ∧
      emBusy (ledgerAt 2 []) (fun x => decide (x ≤ 1)) = false ∧ (ledgerAt 2 []).pwr.mode ≠ .porst ∧
      (ledgerAt 2 []).pwr.refStopped = false ∧ (ledgerAt 2 []).domOn 32 = true ∧ (ledgerAt 2 []).ldg.stops = [] ∧
      (startCommit false (ledgerAt 2 [])).drc.trip = none) ∧
    ((ledgerAt 2 []).ldg.pass = none ∧ (startPass (ledgerAt 2 [])).drc.trip = none ∧ ps.ldg.pass ≠ none) := by
  decide +kernel

theorem witness_LedgerStore_4 :
    let p : LdgPass := ⟨1, 0, 1, 0, 1, 0, [], [], false⟩
    let ps : State := { ledgerAt 2 [] with ldg := { (ledgerAt 2 []).ldg with pass := some p } }
    let pc : State := { ps with ldg := { ps.ldg with pass := some { p with closing := true } } }
    pc.ldg.pass = some { p with closing := true } ∧ emBusy pc (fun x => x == 3) = false ∧
      (seekSpace (endPass (freeEntries pc))).drc.trip = none := by
  decide +kernel

theorem witness_SummaryCommitReadsBack :
    let s : State := { full with ldg := { full.ldg with hi := 1, sums := [(2, 2 ^ 32 - 1)] } }
    s.ldg.hi ≤ 65536 ∧ s.ldg.writes = [] ∧ newestCommit s.ldg.store = none ∧
      s.ldg.sums.all (fun x => decide (x.2 < 2 ^ 32)) = true := by
  decide +kernel

/-- A state with some registers of the links set. -/
def lanes (l : List (Nat × Word)) : State := regsSet l full

theorem witness_LanesComeUpAndGoDown :
    let dn := lanes [(PLK_LANE_CFG 63, 1), (PLK_LANE_STATUS 63, 1)]
    let up := fun (k : Nat) => lanes [(PLK_LANE_CFG 63, 1), (PLK_LANE_STATUS 63, BitVec.ofNat 32 k)]
    (laneLive full 63 = true ∧ (laneOf (full.hostWrite (PLK_LANE_CFG 63) 1) 63).bist = false ∧
      full.flag (PLK_LANE_CFG 63) PLK_LANE_CFG.EN = false ∧
      (full.hostWrite (PLK_LANE_CFG 63) 1).flag (PLK_LANE_CFG 63) PLK_LANE_CFG.EN = true ∧ full.drc.trip = none) ∧
    (dn.flag (PLK_LANE_CFG 63) PLK_LANE_CFG.EN = true ∧
      (dn.hostWrite (PLK_LANE_CFG 63) 0).flag (PLK_LANE_CFG 63) PLK_LANE_CFG.EN = false ∧
      (laneLeave 63 lsDisabled (dn.hostWrite (PLK_LANE_CFG 63) 0)).drc.trip = none ∧ laneState dn 63 ≤ lsDown) ∧
    (laneState dn 63 = lsDown ∧ dn.rd (PLK_LANE_CFG 63) PLK_LANE_CFG.RATE = 0 ∧ lsSettling ≤ laneState (up 4) 63 ∧
      laneState (up 2) 63 = lsSettling ∧ lsDiscovering ≤ laneState (up 3) 63 ∧ lsDiscovering ≤ laneState (up 4) 63) ∧
    ((laneLeave 63 lsDown (up 4)).drc.trip = none ∧ (discover 63 (setLaneState 63 lsDiscovering (up 2))).drc.trip = none ∧
      bitAt 0 (1 : Word) = true ∧ (discover 63 (up 4)).drc.trip = none) := by
  decide +kernel

theorem witness_LanesComeUpAndGoDown_2 :
    let dn := lanes [(PLK_LANE_CFG 63, 1), (PLK_LANE_STATUS 63, 1)]
    let up := fun (k : Nat) => lanes [(PLK_LANE_CFG 63, 1), (PLK_LANE_STATUS 63, BitVec.ofNat 32 k)]
    let win := setLane 63 { LaneSt.reset with replies := some [(63, 5)] } (up 3)
    let mac : MacFacts := ⟨0, false, 0x88B5, 1, true⟩
    let b := setLane 63 { LaneSt.reset with bist := true } full
    let sc := setLane 63 { LaneSt.reset with scan := true } (up 4)
    let rp : ReplyFacts := { pos := 1023, serial := 2 ^ 48 - 1, wM1 := 1, hM1 := 1, caps := 0, leadNs := 0, fw := 0, maker := 3, calib := 9 }
    ((laneOf win (ownerOf win 63)).replies = some [(63, 5)] ∧ (comeUp 63 (setLane 63 LaneSt.reset win)).drc.trip = none) ∧
    (laneLive win 63 = true ∧ bitsOf 7 0 (win.raw (PLK_LANE_FAULT_INJECT 63)) = 0 ∧ lsSettling ≤ laneState win 63 ∧
      macTaken mac = true ∧ placeOf win 63 rp.pos = some (63 * 1024 + 1023) ∧ slotAt win (63 * 1024 + 1023) = none) ∧
    (bitAt 1 (2 : Word) = true ∧ (laneOf full 63).bist = false ∧ (laneLeave 63 lsDisabled full).drc.trip = none ∧
      (partnerOf dn 63).isSome = false ∧ primaryOf dn 63 = none) ∧
    ((laneOf b 63).bist = true ∧ b.flag (PLK_LANE_CFG 63) PLK_LANE_CFG.EN = false ∧ b.drc.trip = none ∧
      bitAt 2 (4 : Word) = true ∧ (laneOf sc 63).scan = true ∧ sc.drc.trip = none) := by
  decide +kernel

/-- A receiver of a tile of 2 by 2 lamps. -/
def slotted : RosterSlot := ⟨7, 1, 1, 0, 0, 0, 0, false, 0, 0, 0, none, 0, 0, 0⟩

/-- A tile driven over lane 0, whose receiver has replied. -/
def wired (l : List (Nat × Word)) : State :=
  let s := wall 2 (forced ((PLK_LANE_CFG 0, 1) :: (PLK_LANE_STATUS 0, 4) :: l))
  { s with plk := { s.plk with roster := [(0, some slotted)], frames := [9] } }

theorem witness_TowpathAndFrameClock :
    let s := wired []
    let mac : MacFacts := ⟨0, false, 0x88B5, 1, true⟩
    let x : StatusFacts := { pos := 0, frame := 9, temp := 40, homeB := false, missed := 1, ctlSeq := 2, ctlResult := 3 }
    let full16 := setLane 0 { LaneSt.reset with alerts := List.replicate 16 (0, 1, []) } s
    let loop := lanes [(PLK_LANE_CFG 0, 1), (PLK_LANE_STATUS 0, 4), (PLK_LANE_LOOP 0, 0x00000003), (PLK_LANE_STATUS 1, 4),
      (PLK_LANE_CFG 1, 1)]
    (laneLive s 0 = true ∧ bitsOf 7 0 (s.raw (PLK_LANE_FAULT_INJECT 0)) = 0 ∧ lsSettling ≤ laneState s 0 ∧
      x.frame ∈ s.plk.frames ∧ (x.frame, 0, x.pos) ∉ s.plk.status ∧ placeOf s 0 x.pos = some 0 ∧ slotAt s 0 = some slotted ∧
      s.drc.trip = none) ∧
    (macTaken mac = true ∧ 1 % 256 ≠ 3 ∧ (laneOf s 0).alerts.length < 16 ∧ 16 ≤ (laneOf full16 0).alerts.length ∧ 63 < 64 ∧
      (showAlert 0 s).drc.trip = none) ∧
    (inLoop loop 0 = true ∧ loopEn loop 0 = true ∧ loopEn full 0 = false ∧
      partnerOf (full.hostWrite (PLK_LANE_LOOP 0) 3) 0 = some 1 ∧ partnerOf (loop.hostWrite (PLK_LANE_LOOP 0) 2) 0 = none ∧
      (loopCheck 0 loop).drc.trip = none) ∧
    ((farReport 0 9 (0, 0, 5) s).drc.trip = none ∧ (checkRoster 9 0 s).drc.trip = none ∧ 9 ∈ s.plk.frames ∧
      bitAt 0 (1 : Word) = true) := by
  decide +kernel

theorem witness_TowpathAndFrameClock_2 :
    let s := wired []
    let g := regsSet [(PLK_FRAME_CFG, 0xFFFFFFFF), (PLK_FRAME_STATUS, 0xFFFFFFFF)] full
    (s.domOn 1 = true ∧ 14 ≤ bitsOf 3 0 (14 : Word) ∧ bitsOf 3 0 (13 : Word) < 14 ∧
      lampsFit s.fuse.variant (s.rd LMP_LAMPS LMP_LAMPS.LAMPS) 13 = true) ∧
    (lampsFit s.fuse.variant ((regsSet [(LMP_LAMPS, 0x3FFFFFFF)] s).rd LMP_LAMPS LMP_LAMPS.LAMPS) 13 = false) ∧
    (g.domOn 1 = true ∧ g.flag PLK_FRAME_CFG PLK_FRAME_CFG.GENLOCK_EN = true ∧
      g.flag PLK_FRAME_STATUS PLK_FRAME_STATUS.LOCKED = true ∧ (loseLock g).drc.trip = none) := by
  decide +kernel

theorem witness_EgressQueuesAndSends :
    let s := wired [(LMP_CTL, 1)]
    let rows := fun (n : Nat) => (List.replicate n [(1, 2, 3), (4, 5, 6)] : List (List (Nat × Nat × Nat)))
    let px : State := { s with lmp := { s.lmp with pix := [(0, ⟨frameNo s, 0, rows 2⟩)] }, plk := { s.plk with told := [(0, ⟨[1], [], [], 0⟩)] } }
    let h := mkHandle 1 7 3
    let ls := wall 2 (jobAt 0 .running [0x28, 0, 0x11, h, 16, 4] (regsSet [(PLK_LANE_CFG 0, 1), (PLK_LANE_STATUS 0,
      4)] (bstPut pooled 103 (mkEntry true true 0 1 7 1))))
    let f : LinkFrame := ⟨1, 0, 0x02, 2, 0, 0, 0, 0, 2, 0, 7, List.replicate 12 0, none, false, 0⟩
    let wi := setLane 0 { LaneSt.reset with wire := some f } s
    (pixelTarget px 0 = some (0, 7, 2, 2, false) ∧ lampsOn px = true ∧ min (1527 / 2) (2 - (pixOf px 0).start) = 2 ∧
      2 ≤ (pixOf px 0).rows.length ∧ laneUp px (routeOf px 0).1 = true ∧ (pixOf px 0).frame = frameNo px ∧
      (enqueue 0 f px).drc.trip = none) ∧
    (ls.startable 0 opLinkSend = true ∧ bitsOf 31 21 ((ls.job 0).w 2) = 0 ∧ bitsOf 31 14 ((ls.job 0).w 5) = 0 ∧
      isCurrent ls ((ls.job 0).w 3) = true ∧ lkRoom ls (ls.job 0) = true ∧ lkLength (ls.job 0) ≤ 9166 ∧ 16 % 16 = 0 ∧
      16 + 16 + lkLength (ls.job 0) ≤ poolSize (hPool ((ls.job 0).w 3)) ∧ lkType (ls.job 0) = 0x11) ∧
    ((dramRdFor (PLK_LANE_FAULT_STATUS 0) lanePort ls (bufAddr ls h + 16) 16).2.1 = false ∧
      (dramRdFor (PLK_LANE_FAULT_STATUS 0) lanePort ls (bufAddr ls h + 32) 4).2.1 = false ∧
      primaryOf ls (ls.job 0).context = none ∧ (partnerOf ls (ls.job 0).context).isSome = false ∧
      (lkRoutes ls (ls.job 0)).all (fun r => !(laneOf ls r.1).bist && laneUp ls r.1) = true) ∧
    ((laneOf wi 0).wire = some f ∧ (frameLeft 0 f (setLane 0 { laneOf wi 0 with wire := none } wi)).drc.trip = none ∧
      s.drc.trip = none ∧ laneLive s 0 = true) := by
  decide +kernel

theorem witness_EgressQueuesAndSends_2 :
    let s := wired [(LMP_CTL, 1)]
    let f : LinkFrame := ⟨1, 0, 0x02, 2, 0, 0, 0, 0, 2, 0, 7, List.replicate 12 0, none, false, 0⟩
    let qu := setLane 0 { LaneSt.reset with q1 := [f], credit1 := 10 ^ 9, deficit := [9999, 9999, 9999, 9999], shape := shapeRegs s 0 } s
    laneLive qu 0 = true ∧ lsSettling ≤ laneState qu 0 ∧ (laneOf qu 0).wire = none ∧
      (selectFrame (laneState qu 0 == lsUp) { laneOf qu 0 with wire := none }).map (fun p => p.1) = some f ∧
      (stampSync 0 qu f) = f ∧ f.job = none := by
  decide +kernel

/-- A valid flow of port 0 to address 0 and port 0, with the largest buckets. -/
def flowEntry : List Word := [1, 0, 0, 0, 0, 0, 0, 0, 0, 0, 0xFFFFFF, 0xFFFFFF]

/-- An Ethernet frame for it: IPv4, UDP and an RTP packet of sequence number 65535 with 100 bytes. -/
def rtpFrame : List Byte :=
  [0, 0, 0, 0, 0, 0, 2, 0, 0, 0, 0, 1, 8, 0, 0x45, 0, 0, 0x8C, 0, 0, 0, 0, 0x40, 17, 0x70, 0x61, 10, 0, 0, 1, 0, 0, 0, 0]
    ++ [0, 0, 0, 0, 0, 0x78, 0, 0] ++ [0x80, 0, 0xFF, 0xFF, 0, 0, 0, 0, 0, 0, 0, 0] ++ List.replicate 100 1

/-- A port in use with that flow, and packets in its reorder store. -/
def flowHeld (l : List HeldPacket) : State :=
  let s := regsSet [(IGR_PORT_CFG 0, 1), (IGR_PORT_STATUS 0, 1)] (dramOn full)
  setFlow 8 { FlowSt.init with next := 65534, synced := true, held := l, tp := 10 ^ 12, tc := 10 ^ 12 }
    { s with igr := { s.igr with flows := [(8, flowEntry)] } }

theorem witness_IngressAndFlows :
    let bytes := fun (n : Nat) => rtpFrame ++ List.replicate (n - 154) (0 : Byte)
    let s := flowHeld []
    (0 < numPorts s.fuse.variant ∧ s.domOn 37 = true ∧ s.flag (IGR_PORT_CFG 0) IGR_PORT_CFG.EN = true ∧
      s.flag (IGR_PORT_STATUS 0) IGR_PORT_STATUS.LINK_UP = true ∧ s.drc.trip = none) ∧
    ((bytes 9212).length + 4 ≤ 9216 ∧ 9216 < (bytes 9213).length + 4 ∧ ([] : List Byte).length < 14 ∧ 14 ≤ rtpFrame.length) ∧
    (frameTags rtpFrame < 2 ∧ frameType rtpFrame ≠ 0x8808 ∧
      macMine (s.rd (IGR_PORT_MAC_HI 0) IGR_PORT_MAC_HI.MAC_0_1 * 2 ^ 32 + (s.reg (IGR_PORT_MAC_LO 0)).toNat) false rtpFrame = true ∧
      bitsOf 7 0 (s.raw (IGR_PORT_FAULT_STATUS 0 + 12)) = 0) ∧
    (parseFrame rtpFrame = .udp false 0 0 140 ((rtpFrame.drop 42)) ∧ parseFrame (rtpFrame.set 24 0x71) = .bad ∧
      parseFrame (rtpFrame.set 13 6) = .other) := by
  decide +kernel

theorem witness_IngressAndFlows_2 :
    let s := flowHeld []
    let none0 : State := { s with igr := { s.igr with flows := [] } }
    let hd := dramWr (ingressPort 0) (flowHeld [⟨0, 65535, 0, 154⟩]) (rsAddr s 0 0) rtpFrame
    let i := flowSet (entryKey flowEntry) * 8 + 7
    let stage := regsSet ((List.range 12).map (fun j => (IGR_FLOW_W j, wordAt flowEntry j)) ++ [(IGR_FLOW_SEL,
      BitVec.ofNat 32 i)]) full
    let moved : State := { stage with igr := { stage.igr with flows := [(flowId 1 i, flowEntry.set 0 3)] } }
    (findFlow s 0 (flowKey 0 false 0 0) = some 8 ∧ findFlow none0 0 (flowKey 0 false 0 0) = none ∧ igrAwaits s 8 = false ∧
      s.igr.late = none ∧ (flowPacket 8 rtpFrame (parseRtp 140 (rtpFrame.drop 42)) s).drc.trip = none) ∧
    ((flowSt hd 8).held.head? = some ⟨0, 65535, 0, 154⟩ ∧ hd.domOn (37 + 8 / 4096) = true ∧ igrAwaits hd 8 = false ∧
      (deliverHeld 8 (passGap 1 8 hd)).drc.trip = none) ∧
    (stage.domOn 1 = true ∧ bitAt 0 (1 : Word) = true ∧ stage.rd IGR_FLOW_SEL IGR_FLOW_SEL.INDEX = i ∧
      (List.range 12).map (fun j => stage.reg (IGR_FLOW_W j)) = flowEntry ∧ flowCause stage i flowEntry = 0 ∧
      stage.igr.late = none ∧ flowWords stage (flowOf stage i) = [] ∧ (putEntry 0 i flowEntry stage).drc.trip = none) ∧
    (flowOf moved i / 4096 = 1 ∧ flowWords moved (flowOf moved i) ≠ [] ∧ flowCause moved i flowEntry = 0 ∧
      moved.domOn 1 = true ∧ (putEntry 0 i flowEntry (putEntry 1 i [] moved)).drc.trip = none) := by
  decide +kernel

theorem witness_IngressAndFlows_3 :
    let i := flowSet (entryKey flowEntry) * 8 + 7
    let stage := regsSet ((List.range 12).map (fun j => (IGR_FLOW_W j, wordAt flowEntry j)) ++ [(IGR_FLOW_SEL,
      BitVec.ofNat 32 i)]) full
    let wrong := regsSet [(IGR_FLOW_SEL, BitVec.ofNat 32 ((i + 8) % 4096))] stage
    flowCause wrong (wrong.rd IGR_FLOW_SEL IGR_FLOW_SEL.INDEX) flowEntry = 2 ∧ wrong.domOn (37 + fPort flowEntry) = true ∧
      bitAt 1 (2 : Word) = true := by
  decide +kernel

theorem witness_MeterMarksPackets :
    let w : List Word := flowEntry
    let x : FlowSt := { FlowSt.init with tc := 2399999999, tp := 2400000000 }
    (meter w 50 0 200 x).1 = .yellow ∧ (meter w 50 0 201 x).1 = .red ∧ (meter w 50 0 199 x).1 = .green ∧
      (meter w 50 0 200 x).2.tp = 0 ∧ (meter w 50 0 200 x).2.tc = 2399999999 := by
  decide +kernel

theorem witness_DomainsAreSwitched :
    let off : State := { full with pwr := { full.pwr with doms := 2 ^ 39 - 1 } }
    let cm : State := { full with pwr := { full.pwr with cmd := some (39, true) } }
    (full.domOn 1 = true ∧ bitAt 8 (0x127 : Word) = true ∧ pwrTest off (bitsOf 5 0 (0x127 : Word)) true false = none ∧
      pwrTest full 39 true false = some 0 ∧ pwrTest full 39 true true = some 7 ∧ pwrTest cm 39 true false = some 5) ∧
    (bitsOf 7 0 ((off.hostWrite PWR_CMD 0x127).raw (PWR_FAULT_STATUS + 12)) = 0 ∧
      (off.hostWrite PWR_CMD 0x127).drc.trip = none ∧ (pwrRefuse 39 7 (full.hostWrite PWR_CMD 0x327)).drc.trip = none) ∧
    (bitAt 8 (0x227 : Word) = false ∧ bitAt 9 (0x227 : Word) = true ∧ pwrTest off 39 false false = some 0 ∧
      pwrTest full 3 false false = some 6 ∧ pwrTest full 36 false false = none ∧ (domainDown 36 full).drc.trip = none) ∧
    (cm.pwr.cmd = some (39, true) ∧ (domainUp 39 cm).drc.trip = none) := by
  decide +kernel

theorem witness_SuppliesAndClocks :
    let low : State := { full with pins := { full.pins with pwrfailN := false } }
    let v : State := { full with pwr := { full.pwr with vaonLow := true } }
    let pf : State := { full with pwr := { full.pwr with mode := .powerFail }, ldg := { full.ldg with pfail := true } }
    let sh := regsSet [(PWR_PF_CFG, 0x10000)] { full with pwr := { full.pwr with mode := .shed } }
    let bk := full.wr PWR_SUPPLY PWR_SUPPLY.ON_BKP 1
    (full.pins.pwrfailN = true ∧ full.pwr.mode = .run ∧ (powerFailRun .powerFail full).drc.trip = none ∧
      low.pins.pwrfailN = false ∧ low.pwr.mode ≠ .porst ∧ v.pwr.vaonLow = true ∧
      (powerFailRun .powerFail v).drc.trip = none) ∧
    (pf.drc.trip = none ∧ pf.pwr.mode = .powerFail ∧ emBusy pf (fun c => c == 0) = false ∧ pf.ldg.pfDue = false ∧
      pf.ldg.pfail = true) ∧
    (sh.pwr.mode = .shed ∧ sh.pins.pwrfailN = true ∧ sh.flag PWR_SUPPLY PWR_SUPPLY.ON_BKP = false ∧
      sh.pwr.refStopped = false ∧
      (List.range 16).all (fun i => decide (tempOf sh i ≤ (sh.rd PWR_TEMP_CFG PWR_TEMP_CFG.RESTART_C : Nat))) = true ∧
      sh.flag PWR_PF_CFG PWR_PF_CFG.AUTO_RESTART = true ∧ (ctlUp (restartCause (mainUp sh))).drc.trip = none ∧
      (regsSet [(PWR_SVC, 0x10000)] sh).flag PWR_SVC PWR_SVC.PRESSED = true) ∧
    (full.flag PWR_SUPPLY PWR_SUPPLY.ON_BKP = false ∧ full.drc.trip = none ∧ bk.flag PWR_SUPPLY PWR_SUPPLY.ON_BKP = true ∧
      (dropWrites (fun _ => true) (shed (fun _ => false) (loseMainLock full))).drc.trip = none) := by
  decide +kernel

theorem witness_SuppliesAndClocks_2 :
    let rs : State := { full with pwr := { full.pwr with refStopped := true } }
    full.pwr.refStopped = false ∧ emBusy full (fun c => decide (c ≤ 1)) = false ∧ (loseMainLock full).drc.trip = none ∧
      rs.pwr.refStopped = true := by
  decide +kernel

theorem witness_SleepAndResets :
    let keep := regsSet [(PWR_SLEEP_KEEP_LO, 0xF)] full
    let bad := regsSet [(PWR_SLEEP_KEEP_LO, 0x10)] full
    let rq : State := { keep with pwr := { keep.pwr with sleepReq := true, keep := 15 } }
    let rq1 : State := { rq with pwr := { rq.pwr with keep := 1 } }
    let sl : State := { full with pwr := { full.pwr with mode := .asleep, wakeReq := true } }
    let tm := regsSet [(BW_TIMER, 1)] full
    let po : State := { State.reset with pwr := { State.reset.pwr with mode := .porst }, pins := { State.reset.pins with porstN := false } }
    (bitAt 0 (1 : Word) = true ∧ keep.domOn 1 = true ∧ keep.pwr.mode = .run ∧
      keepOk keep.fuse.variant (keepMask keep) = true ∧ keepOk bad.fuse.variant (keepMask bad) = false ∧
      keep.drc.trip = none ∧ bad.drc.trip = none) ∧
    (rq.pwr.sleepReq = true ∧ rq.pwr.mode = .run ∧ (shed (inSet rq.pwr.keep) rq).drc.trip = none ∧
      inSet rq.pwr.keep 1 = true ∧ inSet rq1.pwr.keep 1 = false ∧ (shed (inSet rq1.pwr.keep) rq1).drc.trip = none) ∧
    (sl.pwr.mode = .asleep ∧ sl.pwr.wakeReq = true ∧ sl.pwr.refStopped = false ∧ (ctlUp (mainUp sl)).drc.trip = none ∧
      tm.rd BW_TIMER BW_TIMER.SECONDS ≠ 0 ∧ tm.domOn 0 = true ∧ (ownWake 22 tm).drc.trip = none) ∧
    (full.pins.porstN = true ∧ full.sec.target = none ∧ po.pwr.mode = .porst ∧ po.pwr.vaonLow = false ∧
      po.pwr.refStopped = false ∧ po.drc.trip = none ∧ po.pins.pwrfailN = true ∧
      (powerFailRun .powerFail po).drc.trip = none) := by
  decide +kernel

theorem witness_SleepAndResets_2 :
    let pe : State := { full with pins := { full.pins with perstN := false } }
    full.pins.perstN = true ∧ pe.pins.perstN = false ∧ pe.pwr.mode ≠ .porst ∧
      (functionReset (ownWake 24 (clearPcie pe))).drc.trip = none ∧ (clearPcie full).drc.trip = none ∧
      (ctlUp (mainUp (shed (fun n => n == 3) full))).drc.trip = none ∧ (0 : Word) ≠ 0x52535431 := by
  decide +kernel

theorem witness_ServiceSensorsAndMemoryTest :
    let ky : State := { full with pins := { full.pins with svcKeyN := false } }
    let dk : State := { full with pwr := { full.pwr with doms := 1 } }
    let ic : State := { full with pwr := { full.pwr with identCount := true } }
    let ts : List Int := (List.range 16).map (fun i => if i = 15 then 115 else 20)
    let hot : State := { full with pwr := { full.pwr with hot := 2 ^ 15 } }
    (full.flag PWR_SVC PWR_SVC.PRESSED = false ∧ full.pwr.mode ≠ .porst ∧ (ownWake 23 full).domOn 1 = true ∧
      (toggleIdentify full).drc.trip = none ∧ (ownWake 23 dk).domOn 1 = false ∧ (ownWake 23 dk).drc.trip = none ∧
      ky.pins.svcKeyN = false) ∧
    (ic.pwr.identCount = true ∧ ic.domOn 1 = true ∧ ic.drc.trip = none ∧ 15 < 16 ∧ bitAt 31 (0x80000000 : Word) = true) ∧
    (ts.length = 16 ∧
      (((List.range 16).filter (fun i => decide (115 ≤ tempOf (foldS (fun p x => takeReading p.1 p.2 x) ((List.range 16).zip ts) full) i))).map (fun i => 2 ^ i)).sum = 2 ^ 15 ∧
      Nat.land (2 ^ 15) full.pwr.hot = 0 ∧ Nat.land (2 ^ 15) hot.pwr.hot ≠ 0 ∧ hot.pwr.mode = .run) ∧
    ((powerFailRun .thermal (tempLevels hot)).drc.trip = none ∧
      ({ hot with pwr := { hot.pwr with mode := .shed } } : State).pwr.mode = .shed ∧
      (tempLevels full).drc.trip = none) := by
  decide +kernel

theorem witness_ServiceSensorsAndMemoryTest_2 :
    let mt := regsSet [(DRC_WIN_SIZE 63, 1), (DRC_CFG, 0x1)] full
    let bz := mt.wr TOP_MEMTEST_CTL TOP_MEMTEST_CTL.BUSY 1 |>.wr TOP_MEMTEST_CTL TOP_MEMTEST_CTL.WINDOW 63
    (bitAt 8 (0x13F : Word) = true ∧ mt.domOn 1 = true ∧ mt.flag TOP_MEMTEST_CTL TOP_MEMTEST_CTL.BUSY = false ∧
      memtestOk (mt.hostWrite TOP_MEMTEST_CTL 0x13F) 63 = true ∧
      memtestOk (mt.wr (DRC_WIN_CFG 63) DRC_WIN_CFG.EN 1) 63 = false ∧ mt.drc.trip = none) ∧
    (bz.flag TOP_MEMTEST_CTL TOP_MEMTEST_CTL.BUSY = true ∧ bz.rd TOP_MEMTEST_CTL TOP_MEMTEST_CTL.WINDOW = 63 ∧
      winPhys bz 63 ≤ 2 ^ 20 - 1 ∧ 2 ^ 20 - 1 < winPhys bz 63 + winPhysSize bz 63 ∧ bz.drc.trip = none) := by
  decide +kernel

theorem witness_DomainDownResetsItsRegisters :
    let s := regsSet [(IGR_PORT_CFG 1, 1)] full
    (4 ≤ 39 ∧ 39 < 40 ∧ 38 ≠ 32 ∧ ((regFind (IGR_PORT_CFG 1)).map (fun x => regDomain x.1.dom x.2.1)) = some 38 ∧
      s.regLive (IGR_PORT_CFG 1) = true ∧ s.raw (IGR_PORT_CFG 1) = 1) ∧
    ((domainDown 38 s).reg (IGR_PORT_CFG 1) = regReset s.fuse.variant (IGR_PORT_CFG 1) ∧
      (domainDown 38 s).regLive (IGR_PORT_CFG 1) = false) := by
  decide +kernel

end Sys2Proof.Tests
end

section
/-!
PROOFS. What the reset state holds, and how a host write acts on the fields of one register: a field read after a write
of a field, bit by bit, the layout of the register table, and the value each access code leaves.
-/
namespace Sys2Proof.Machine

/-! ## The reset state -/

/-- No source's condition holds after reset. -/
theorem reset_highSources : State.reset.highSources = [] := by decide +kernel

theorem reset_tablesWf : State.reset.tablesWf = true := by decide +kernel

/-! ## Fields of a word, bit by bit -/

/-- Bit `b` of a field is bit `lo + b` of the word. -/
theorem testBit_fget (f : Fld) (w : Word) (b : Nat) :
    (fget f w).testBit b = (decide (b < f.w) && w.toNat.testBit (b + f.lo)) := by
  rw [fget, Nat.testBit_mod_two_pow, Nat.testBit_div_two_pow]

/-- A number whose bits `lo` to `lo + w - 1` are those of `v`, and whose other bits are those of `x`. -/
theorem testBit_replace_field (x lo w v k : Nat) :
    (x - x / 2 ^ lo % 2 ^ w * 2 ^ lo + v % 2 ^ w * 2 ^ lo).testBit k =
      if lo ≤ k ∧ k < lo + w then v.testBit (k - lo) else x.testBit k := by
  set a := x % 2 ^ lo with ha
  set b := x / 2 ^ lo % 2 ^ w with hb
  set c := x / 2 ^ lo / 2 ^ w with hc
  have hx : x = 2 ^ lo * (2 ^ w * c + b) + a := by
    rw [hc, hb, Nat.div_add_mod, ha, Nat.div_add_mod]
  have hy : x - b * 2 ^ lo + v % 2 ^ w * 2 ^ lo = 2 ^ lo * (2 ^ w * c + v % 2 ^ w) + a := by
    have : x = 2 ^ lo * (2 ^ w * c) + b * 2 ^ lo + a := by rw [hx]; ring
    rw [this, Nat.mul_add, Nat.mul_comm (2 ^ lo) (v % 2 ^ w)]
    omega
  have hal : a < 2 ^ lo := Nat.mod_lt _ (Nat.two_pow_pos _)
  have hbl : b < 2 ^ w := Nat.mod_lt _ (Nat.two_pow_pos _)
  have hvl : v % 2 ^ w < 2 ^ w := Nat.mod_lt _ (Nat.two_pow_pos _)
  rw [hy, hx, Nat.testBit_two_pow_mul_add _ hal, Nat.testBit_two_pow_mul_add _ hal,
    Nat.testBit_two_pow_mul_add _ hvl, Nat.testBit_two_pow_mul_add _ hbl]
  by_cases h1 : k < lo
  · rw [if_pos h1, if_pos h1, if_neg (by omega)]
  · rw [if_neg h1, if_neg h1]
    by_cases h2 : k - lo < w
    · rw [if_pos h2, if_pos h2, if_pos (by omega), Nat.testBit_mod_two_pow, decide_eq_true h2, Bool.true_and]
    · rw [if_neg h2, if_neg h2, if_neg (by omega)]

/-- Bits of a word with one field replaced. -/
theorem testBit_fput (f : Fld) (w : Word) (v k : Nat) (h : f.lo + f.w ≤ 32) :
    (fput f w v).toNat.testBit k =
      if f.lo ≤ k ∧ k < f.lo + f.w then v.testBit (k - f.lo) else w.toNat.testBit k := by
  rw [fput, fget, BitVec.toNat_ofNat, Nat.testBit_mod_two_pow, testBit_replace_field]
  by_cases hk : k < 32
  · rw [decide_eq_true hk, Bool.true_and]
  · rw [decide_eq_false hk, Bool.false_and, if_neg (by omega)]
    exact (Nat.testBit_lt_two_pow (Nat.lt_of_lt_of_le w.isLt (Nat.pow_le_pow_right (by decide) (by omega)))).symm

/-- Two fields that share no bit. -/
def Fld.apart (f g : Fld) : Prop := f.lo + f.w ≤ g.lo ∨ g.lo + g.w ≤ f.lo

/-- Replacing a field leaves a field that shares no bit with it. -/
theorem fget_fput_of_apart {f g : Fld} (w : Word) (v : Nat) (h : f.lo + f.w ≤ 32) (ha : f.apart g) :
    fget g (fput f w v) = fget g w := by
  apply Nat.eq_of_testBit_eq
  intro b
  rw [testBit_fget, testBit_fget, testBit_fput f w v _ h]
  by_cases hb : b < g.w
  · rw [if_neg (by unfold Fld.apart at ha; omega)]
  · rw [decide_eq_false hb, Bool.false_and, Bool.false_and]

/-- Taking away the bits a number shares with another clears exactly those. -/
theorem testBit_sub_and (b : Nat) : ∀ x y : Nat,
    (x - (x &&& y)).testBit b = (x.testBit b && !y.testBit b) := by
  induction b with
  | zero =>
    intro x y
    have hle : x &&& y ≤ x := Nat.and_le_left
    have hpar : (x &&& y) % 2 = 1 ↔ x % 2 = 1 ∧ y % 2 = 1 := Nat.and_mod_two_eq_one
    rw [Bool.eq_iff_iff]
    simp only [Nat.testBit_zero, Bool.and_eq_true, Bool.not_eq_true', decide_eq_true_eq, decide_eq_false_iff_not]
    omega
  | succ b ih =>
    intro x y
    have hle : x &&& y ≤ x := Nat.and_le_left
    have hpar : (x &&& y) % 2 = 1 ↔ x % 2 = 1 ∧ y % 2 = 1 := Nat.and_mod_two_eq_one
    have hdiv : (x &&& y) / 2 = x / 2 &&& y / 2 := Nat.and_div_two
    have half : (x - (x &&& y)) / 2 = x / 2 - (x / 2 &&& y / 2) := by omega
    rw [Nat.testBit_succ, half, ih, Nat.testBit_succ, Nat.testBit_succ]

/-! ## The register table -/

/-- The place of a listed field. -/
abbrev FldDesc.fld (f : FldDesc) : Fld := ⟨f.lo, f.w⟩

/-- The fields of a row lie within the word, and no two of them share a bit. -/
def fldsLaid : List FldDesc → Bool
  | [] => true
  | f :: fs => decide (f.lo + f.w ≤ 32) && fs.all (fun g => decide (f.lo + f.w ≤ g.lo ∨ g.lo + g.w ≤ f.lo)) && fldsLaid fs

theorem fldsLaid_cons (f : FldDesc) (fs : List FldDesc) :
    fldsLaid (f :: fs) = true ↔ f.lo + f.w ≤ 32 ∧ (∀ g ∈ fs, f.fld.apart g.fld) ∧ fldsLaid fs = true := by
  simp only [fldsLaid, Fld.apart, Bool.and_eq_true, decide_eq_true_eq, List.all_eq_true, and_assoc]

/-- A row that is found stands in the list searched. -/
theorem regFindIn_mem {a : Nat} {r : RegDesc} {i j : Nat} (rs : List RegDesc)
    (h : regFindIn rs a = some (r, i, j)) : r ∈ rs := by
  induction rs with
  | nil => cases h
  | cons x xs ih =>
    rw [regFindIn] at h
    split at h
    · cases h; exact List.mem_cons_self
    · exact List.mem_cons_of_mem _ (ih h)

/-- The windows of the register table (R34). -/
def regWindows : List (List RegDesc) :=
  [regRowsTop, regRowsPwr, regRowsIcu, regRowsBpm, regRowsDma, regRowsHq, regRowsHsq, regRowsDs, regRowsEn, regRowsCmp,
    regRowsLmp, regRowsPlk, regRowsIgr, regRowsDrc, regRowsSpd, regRowsSec, regRowsSdi, []]

/-- What holds of every window holds of the rows of the window that holds an offset. -/
theorem regRowsOf_of_regWindows {p : List RegDesc → Prop} (h : ∀ rs ∈ regWindows, p rs) (a : Nat) : p (regRowsOf a) := by
  simp only [regWindows, List.forall_mem_cons] at h
  simp only [regRowsOf, apply_ite p, h, ite_self]

/-- The table as the spec prints it: in every row the fields lie apart within the word. -/
theorem regWindows_fldsLaid : regWindows.all (fun rs => rs.all (fun r => fldsLaid r.flds)) = true := by decide +kernel

/-- A register that a table lists lays its fields apart within the word. -/
theorem regFind_fldsLaid {a : Nat} {r : RegDesc} {i j : Nat} (h : regFind a = some (r, i, j)) :
    fldsLaid r.flds = true :=
  List.all_eq_true.mp (regRowsOf_of_regWindows (List.all_eq_true.mp regWindows_fldsLaid) a) r (regFindIn_mem _ h)

/-! ## Writes by access codes -/

/-- The value a write of `new` leaves in a field that holds `old` (R10). -/
def accValue (locked : Bool) (acc : Acc) (old new : Nat) : Nat :=
  match acc with
  | .rw => new
  | .rwl => if locked then old else new
  | .w1c => old - (old &&& new)
  | .w1s => old ||| new
  | .ro | .wo => old

theorem accValue_lt (locked : Bool) (acc : Acc) {old new w : Nat} (ho : old < 2 ^ w) (hn : new < 2 ^ w) :
    accValue locked acc old new < 2 ^ w := by
  cases acc with
  | rw => exact hn
  | rwl => cases locked <;> assumption
  | w1c => exact Nat.lt_of_le_of_lt (Nat.sub_le _ _) ho
  | w1s => exact Nat.or_lt_two_pow ho hn
  | ro => exact ho
  | wo => exact ho

/-- Putting back the value a field holds changes nothing. -/
theorem fput_fget (f : Fld) (w : Word) : fput f w (fget f w) = w := by
  have hle : fget f w * 2 ^ f.lo ≤ w.toNat :=
    Nat.le_trans (Nat.mul_le_mul_right _ (Nat.mod_le _ _)) (Nat.div_mul_le_self _ _)
  rw [fput, Nat.mod_eq_of_lt (fget_lt f w), Nat.sub_add_cancel hle, BitVec.ofNat_toNat, BitVec.setWidth_eq]

/-- A write acts on the first field of a row by its access code, then on the rest. -/
theorem accWrite_cons (locked : Bool) (data : Word) (f : FldDesc) (fs : List FldDesc) (w : Word) :
    accWrite locked data (f :: fs) w =
      accWrite locked data fs (fput f.fld w (accValue locked f.acc (fget f.fld w) (fget f.fld data))) := by
  rw [accWrite]
  cases f.acc with
  | rw => rfl
  | rwl => cases locked <;> simp [accValue, fput_fget]
  | w1c => rfl
  | w1s => rfl
  | ro => simp [accValue, fput_fget]
  | wo => simp [accValue, fput_fget]

/-- A write leaves a field that shares no bit with those it acts on. -/
theorem fget_accWrite_of_apart (locked : Bool) (data : Word) (g : Fld) (fs : List FldDesc) : ∀ w : Word,
    fldsLaid fs = true → (∀ f ∈ fs, f.fld.apart g) → fget g (accWrite locked data fs w) = fget g w := by
  induction fs with
  | nil => intro w _ _; rfl
  | cons f fs ih =>
    intro w hl hap
    obtain ⟨hfit, -, hrest⟩ := (fldsLaid_cons f fs).mp hl
    obtain ⟨hf, hfs⟩ := List.forall_mem_cons.mp hap
    rw [accWrite_cons, ih _ hrest hfs, fget_fput_of_apart w _ hfit hf]

theorem Fld.apart_comm {f g : Fld} (h : f.apart g) : g.apart f := Or.symm h

/-- A write leaves in each field of the row the value its access code gives. -/
theorem fget_accWrite (locked : Bool) (data : Word) (f : FldDesc) (fs : List FldDesc) : ∀ w : Word,
    fldsLaid fs = true → f ∈ fs →
    fget f.fld (accWrite locked data fs w) = accValue locked f.acc (fget f.fld w) (fget f.fld data) := by
  induction fs with
  | nil => intro w _ hf; cases hf
  | cons g fs ih =>
    intro w hl hf
    obtain ⟨hfit, hap, hrest⟩ := (fldsLaid_cons g fs).mp hl
    rw [accWrite_cons]
    rcases List.mem_cons.mp hf with rfl | hmem
    · rw [fget_accWrite_of_apart _ _ _ _ _ hrest (fun x hx => Fld.apart_comm (hap x hx)), fget_fput _ _ _ hfit]
      exact Nat.mod_eq_of_lt (accValue_lt _ _ (fget_lt _ _) (fget_lt _ _))
    · rw [ih _ hrest hmem, fget_fput_of_apart w _ hfit (hap f hmem)]

/-! ## Host writes of registers -/

theorem State.hostWrite_of_live {s : State} {a : Nat} (data : Word) {r : RegDesc} {i j : Nat}
    (hf : regFind a = some (r, i, j)) (hl : s.regLive a = true) :
    s.hostWrite a data = s.setReg a (accWrite s.locked data r.flds (s.reg a)) := by
  simp only [State.hostWrite, hf, hl, if_true]

theorem State.hostWrite_of_dead {s : State} {a : Nat} (data : Word) (hl : s.regLive a = false) :
    s.hostWrite a data = s := by
  unfold State.hostWrite
  split
  · rfl
  · rw [hl]; rfl

/-- A field of a live register after a host write. -/
theorem State.rd_hostWrite {s : State} {a : Nat} (data : Word) {r : RegDesc} {i j : Nat} {f : FldDesc}
    (hf : regFind a = some (r, i, j)) (hl : s.regLive a = true) (hm : f ∈ r.flds) :
    (s.hostWrite a data).rd a f.fld = accValue s.locked f.acc (s.rd a f.fld) (fget f.fld data) := by
  rw [State.hostWrite_of_live data hf hl, State.rd, State.reg_setReg_same,
    fget_accWrite _ _ _ _ _ (regFind_fldsLaid hf) hm, State.rd]

/-- A host write leaves every other register. -/
theorem State.reg_hostWrite_ne (s : State) {a b : Nat} (data : Word) (h : b ≠ a) :
    (s.hostWrite a data).reg b = s.reg b := by
  unfold State.hostWrite
  split
  · rfl
  · split
    · exact State.reg_setReg_ne s _ h
    · rfl

end Sys2Proof.Machine
end

section
open Sys2Proof Sys2Proof.Machine

/-- Settles O2: each part is a closed fact about the reset state. -/
theorem resetMeetsInvariants : Obligations.ResetMeetsInvariants :=
  ⟨reset_highSources.symm, rfl, reset_tablesWf, rfl⟩

/-- Settles O5: the fields of a listed register share no bit, so each holds what its access code gives. -/
theorem hostWriteFollowsAccessCodes : Obligations.HostWriteFollowsAccessCodes := by
  unfold Obligations.HostWriteFollowsAccessCodes
  intro s a data r i j f hf hl hm fl new
  have hnew : new = accValue s.locked f.acc (s.rd a fl) (fget fl data) := State.rd_hostWrite data hf hl hm
  refine ⟨?rw, ?rwl, ?w1c, ?w1s, ?ro, fun b hb => State.reg_hostWrite_ne s data hb⟩
  case rw => intro h; rw [hnew, h]; rfl
  case rwl => intro h; rw [hnew, h]; rfl
  case w1c => intro h b; rw [hnew, h]; exact testBit_sub_and b _ _
  case w1s => intro h b; rw [hnew, h]; exact Nat.testBit_or _ _ b
  case ro => rintro (h | h) <;> rw [hnew, h] <;> rfl

end

section
/-!
PROOFS. Host accesses that change nothing, plain register writes, and what a check of words does in a block with no
injected access.
-/
namespace Sys2Proof.Machine

/-! ## Checks of words with no access injected (R473, R541) -/

/-- A block whose FAULT_INJECT.COUNT is zero takes no injection. -/
theorem takeInjections_of_idle {s : State} {fs : Nat} (sites : List Nat) (n : Nat)
    (h : bitsOf 7 0 (s.raw (fs + 12)) = 0) : s.takeInjections fs sites n = (none, s) := by
  simp [State.takeInjections, h]

theorem fabricCheck_of_idle {s : State} {fs : Nat} (n : Nat) (h : bitsOf 7 0 (s.raw (fs + 12)) = 0) :
    s.fabricCheck fs n = (false, s) := by
  simp only [State.fabricCheck, takeInjections_of_idle _ n h]

theorem sramCheck_of_idle {s : State} {fs : Nat} (n : Nat) (sites : List Nat) (h : bitsOf 7 0 (s.raw (fs + 12)) = 0) :
    s.sramCheck fs n sites = (false, s) := by
  simp only [State.sramCheck, takeInjections_of_idle sites n h]

/-- A host word that arrives at a block with no injected access, or at none, changes nothing. -/
theorem State.fabricWord_of_idle {s : State} {a : Nat}
    (h : ∀ fs, blockFault a = some fs → bitsOf 7 0 (s.raw (fs + 12)) = 0) : s.fabricWord a = s := by
  unfold State.fabricWord
  split
  · rfl
  · next fs hfs => rw [fabricCheck_of_idle 1 (h fs hfs), ite_self]

/-! ## What leaves the memory system's own state as it was -/

@[simp] theorem State.hostWrite_drc (s : State) (a : Nat) (data : Word) : (s.hostWrite a data).drc = s.drc := by
  unfold State.hostWrite
  split
  · rfl
  · split <;> rfl

@[simp] theorem State.fabricWord_drc (s : State) (a : Nat) : (s.fabricWord a).drc = s.drc := by
  unfold State.fabricWord
  split
  · rfl
  · split
    · exact fabricCheck_drc s _ 1
    · rfl

@[simp] theorem tempLevels_drc (s : State) : (tempLevels s).drc = s.drc := by
  unfold tempLevels
  split
  · rfl
  · dsimp only
    split <;> split <;> simp

@[simp] theorem lanePersists_drc (n : Nat) (s : State) : (lanePersists n s).drc = s.drc := by
  unfold lanePersists loopCheck laneIrq
  split <;> split <;> rfl

@[simp] theorem capturePersists_drc (n : Nat) (s : State) : (capturePersists n s).drc = s.drc := by
  unfold capturePersists
  split <;> rfl

@[simp] theorem poolLow_drc (s : State) (p : Nat) : (poolLow s p).drc = s.drc := by
  unfold poolLow
  split <;> rfl

/-- Status bits that set again reach no memory. -/
@[simp] theorem persists_drc (a : Nat) (s : State) : (persists a s).drc = s.drc := by
  unfold persists
  split_ifs
  · exact tempLevels_drc s
  · rfl
  · exact setFault_drc s _ _
  · exact setFault_drc s _ _
  · rfl
  · dsimp only
    split <;> split <;> split <;> simp

/-! ## Register accesses -/

theorem exec_registerWrite (a : Nat) (data : Word) (s : State) :
    exec (.registerWrite a data) s = execRegisterWrite a data s := rfl

/-- A write of a register with no condition of its own is the write by access codes, and what persists sets again. -/
theorem plainWrite_eq {s : State} {a : Nat} (data : Word) (hsec : secWord a = none) (hpool : poolSetup a = none)
    (hwin : windowSetup a = none)
    (hlist : a ∉ [LMP_LEVEL, LMP_HRM_CTL, TOP_MEMTEST_CTL, PWR_SLEEP_KEEP_LO, LDG_CFG])
    (hmsix : inArray a (HQ_MSIX_TABLE 0) 256 4 0 = false) (hpin : isFaultInject (a + 4) = false) :
    plainWrite a data s = persists a (s.hostWrite a data) := by
  simp only [List.mem_cons, List.not_mem_nil, or_false, not_or] at hlist
  obtain ⟨hlevel, hhrm, htest, hkeep, hldg⟩ := hlist
  simp only [plainWrite, hsec, hpool, hwin, hmsix, hpin, if_neg hlevel, if_neg hhrm, if_neg htest, if_neg hkeep,
    decide_eq_false hldg, Bool.false_and, Bool.false_eq_true, if_false]

/-- Of a register whose unit is absent, whose domain is off or that no table lists, a host read returns zero. -/
theorem State.hostRead_of_dead {s : State} {a : Nat} (hl : s.regLive a = false) (hsec : secWord a = none)
    (hst : a ≠ LDG_STATUS) (hcfg : a ≠ LDG_CFG) : s.hostRead a = 0 := by
  simp only [State.hostRead, hsec, hl, Bool.false_eq_true, if_false, if_neg hst, if_neg hcfg]

end Sys2Proof.Machine
end

section
open Sys2Proof Sys2Proof.Machine

/-- Settles O6: a dead register takes no write by `hostWrite_of_dead`, and no part of a plain write reaches memory, so
none can be held up. -/
theorem plainWritesAndDeadRegisters : Obligations.PlainWritesAndDeadRegisters := by
  unfold Obligations.PlainWritesAndDeadRegisters
  refine ⟨?dead, ?plain, fun s a h => State.fabricWord_of_idle h⟩
  case dead =>
    intro s a data hl hsec
    exact ⟨State.hostWrite_of_dead data hl, State.hostRead_of_dead hl hsec⟩
  case plain =>
    intro s a data htrip hon hrow hown hsec hpool hwin hlist hmsix hpin
    rw [exec_registerWrite, execRegisterWrite, hon, hrow, hown]
    simp only [Bool.not_false, Bool.and_true, State.when_true]
    rw [plainWrite_eq data hsec hpool hwin hlist hmsix hpin]
    exact done_next _ _ (by simpa using htrip)

end

section
/-!
PROOFS. The host queue's job operations: what each leaves of the tag table and of the rest of the state, how a QUEUED
job is dispatched, and how an ABORT and a stopped job end.
-/
namespace Sys2Proof.Machine

/-! ## The tag table -/

theorem State.job_setJob (s : State) (x y : Nat) (j : Job) :
    (s.setJob x j).job y = if y = x then j else s.job y := tabGet_tabSet _ _ _ _ _

@[simp] theorem State.job_setJob_same (s : State) (x : Nat) (j : Job) : (s.setJob x j).job x = j := by
  rw [State.job_setJob, if_pos rfl]

theorem State.job_setJob_ne (s : State) {x y : Nat} (j : Job) (h : y ≠ x) : (s.setJob x j).job y = s.job y := by
  rw [State.job_setJob, if_neg h]

/-! ## What leaves the memory system's own state as it was -/

/-- What every step of a fold keeps, the fold keeps. -/
theorem foldS_keeps {α β : Type} (g : State → β) {f : α → State → State} (h : ∀ x t, g (f x t) = g t) (xs : List α) :
    ∀ s : State, g (foldS f xs s) = g s := by
  induction xs with
  | nil => intro s; rfl
  | cons x xs ih => intro s; exact (ih (f x s)).trans (h x s)

@[simp] theorem commitWith_drc (x status : Nat) (results : List Word) (s : State) :
    (commitWith x status results s).drc = s.drc := rfl

@[simp] theorem settleFences_drc (s : State) : (settleFences s).drc = s.drc := by
  refine foldS_keeps State.drc (fun e t => ?_) _ s
  dsimp only
  split_ifs <;> rfl

@[simp] theorem completeNow_drc (x status : Nat) (results : List Word) (s : State) :
    (completeNow x status results s).drc = s.drc := settleFences_drc _

@[simp] theorem present_drc (x status : Nat) (results : List Word) (s : State) :
    (present x status results s).drc = s.drc := by
  unfold present presentRef
  split_ifs <;> rfl

@[simp] theorem noteRefusal_drc (j : Job) (s : State) : (noteRefusal j s).drc = s.drc := by
  unfold noteRefusal
  split_ifs <;> rfl

/-! ## Dispatch (R4, R46, R53, R55) -/

theorem exec_jobDispatch (slot : Nat) (s : State) : exec (.jobDispatch slot) s = execJobDispatch slot s := rfl

/-- Whether R55 refuses a job does not depend on the tag table. -/
theorem refusedJob_setJob (s : State) (x : Nat) (k j : Job) : refusedJob (s.setJob x k) j = refusedJob s j := rfl

/-- Where no access of HQ is injected, the tag-table entry is read whole. -/
theorem tagCheck_of_idle {s : State} (slot : Nat) (h : bitsOf 7 0 (s.raw (HQ_FAULT_STATUS + 12)) = 0) :
    tagCheck slot s = (true, s) := by
  simp only [tagCheck, sramCheck_of_idle 1 _ h]

/-- The job at `slot` becomes RUNNING. -/
def runJob (slot : Nat) (s : State) : State := s.setJob slot { s.job slot with st := .running }

/-- What a dispatched job leaves: an ENCODE_PICTURE stands at the end of the encoders' order. -/
def acceptJob (slot : Nat) (s : State) : State :=
  if (s.job slot).opcode = opEncodePicture then
    { runJob slot s with enc := { (runJob slot s).enc with
        order := (runJob slot s).enc.order ++ [(runJob slot s).jobRef slot] } }
  else runJob slot s

section
variable {s : State} {slot : Nat} (htrip : s.drc.trip = none) (hstart : mayStart s (s.job slot) = true)
  (hon : s.domOn 1 = true) (hidle : bitsOf 7 0 (s.raw (HQ_FAULT_STATUS + 12)) = 0)
include htrip hstart hon hidle

/-- An accepted job becomes RUNNING. -/
theorem exec_jobDispatch_of_accepted (hop : (s.job slot).opcode ∉ [opFence, opDecodeUnit, opBufferOp])
    (href : refusedJob s (s.job slot) = false) (hacc : unitAccepts s (s.job slot) = true) :
    exec (.jobDispatch slot) s = .next (acceptJob slot s).irqSync := by
  simp only [List.mem_cons, List.not_mem_nil, or_false, not_or] at hop
  obtain ⟨hfence, hunit, hbuf⟩ := hop
  rw [exec_jobDispatch, execJobDispatch]
  simp only [hstart, hon, href, hacc, bne_iff_ne.mpr hfence, bne_iff_ne.mpr hunit, bne_iff_ne.mpr hbuf, Bool.and_true,
    Bool.or_true, State.when_true, tagCheck_of_idle slot hidle, if_neg hbuf, refusedJob_setJob, Bool.false_eq_true, if_false]
  refine done_next _ _ ?_
  split_ifs <;> exact htrip

/-- A refused job becomes RUNNING with a record of INTERNAL. -/
theorem exec_jobDispatch_of_refused (hop : (s.job slot).opcode ∉ [opFence, opDecodeUnit, opBufferOp])
    (href : refusedJob s (s.job slot) = true) :
    exec (.jobDispatch slot) s = .next (fail slot stInternal (noteRefusal (s.job slot) (runJob slot s))).irqSync := by
  simp only [List.mem_cons, List.not_mem_nil, or_false, not_or] at hop
  obtain ⟨hfence, hunit, hbuf⟩ := hop
  rw [exec_jobDispatch, execJobDispatch]
  simp only [hstart, hon, href, bne_iff_ne.mpr hfence, bne_iff_ne.mpr hunit, Bool.and_true, Bool.true_or,
    State.when_true, tagCheck_of_idle slot hidle, if_neg hbuf, refusedJob_setJob, if_true]
  exact done_next _ _ (by simpa [fail, runJob] using htrip)

/-- A refused BUFFER_OP completes at once. -/
theorem exec_jobDispatch_of_refused_bufferOp (hop : (s.job slot).opcode = opBufferOp)
    (href : refusedJob s (s.job slot) = true) :
    exec (.jobDispatch slot) s = .next (completeNow slot stInternal (bufferEcho (s.job slot)) s).irqSync := by
  have hfence : (s.job slot).opcode ≠ opFence := by rw [hop]; decide
  have hunit : (s.job slot).opcode ≠ opDecodeUnit := by rw [hop]; decide
  rw [exec_jobDispatch, execJobDispatch]
  simp only [hstart, hon, href, bne_iff_ne.mpr hfence, bne_iff_ne.mpr hunit, Bool.and_true, Bool.true_or,
    State.when_true, tagCheck_of_idle slot hidle, if_pos hop]
  exact done_next _ _ (by simpa using htrip)

end

/-! ## FENCE and ABORT (R56, R59 to R61) -/

theorem exec_fence (slot : Nat) (s : State) : exec (.fence slot) s = execFence slot s := rfl

theorem exec_runningJobStop (slot : Nat) (s : State) : exec (.runningJobStop slot) s = execRunningJobStop slot s := rfl

/-- A FENCE that is next settles the FENCEs whose wait has ended. -/
theorem exec_fence_of_next {s : State} {slot : Nat} (htrip : s.drc.trip = none) (hst : (s.job slot).st = .queued)
    (hop : (s.job slot).opcode = opFence) (hdam : (s.job slot).damaged = false) :
    exec (.fence slot) s = .next (settleFences s).irqSync := by
  rw [exec_fence, execFence]
  simp only [hst, hop, hdam, decide_true, beq_self_eq_true, Bool.not_false, Bool.and_true, State.when_true]
  exact done_next _ _ (by simpa using htrip)

/-- A legal ABORT runs as the row of its mode. -/
theorem abortMode_of_legal {s : State} {slot mode : Nat} (hstart : s.startable slot opAbort = true)
    (hok : abortOk (s.job slot) = true) (hmode : bitsOf 26 25 ((s.job slot).w 2) = mode) :
    abortMode mode slot s = closeReady (runAbort slot s) := by
  simp only [abortMode, hstart, hmode, beq_self_eq_true, Bool.and_true, State.when_true, hok, if_true]

/-- A RUNNING job that an ABORT has reached ends its unit's work and completes. -/
theorem exec_runningJobStop_of_reached {s : State} {slot : Nat} (hst : (s.job slot).st = .running)
    (hstop : (s.job slot).stop = true) (hrec : (s.job slot).record = false)
    (htrip : (endStopped slot (stopResults (s.job slot) (s.jobRef slot) s)
      (stopWork (s.job slot) (s.jobRef slot) s)).drc.trip = none) :
    exec (.runningJobStop slot) s = .next (endStopped slot (stopResults (s.job slot) (s.jobRef slot) s)
      (stopWork (s.job slot) (s.jobRef slot) s)).irqSync := by
  rw [exec_runningJobStop, execRunningJobStop]
  simp only [hst, hstop, hrec, decide_true, Bool.not_false, Bool.and_true, State.when_true]
  exact done_next _ _ htrip

/-- A stopped job other than a DECODE_UNIT has no result words. -/
theorem stopResults_of_not_decodeUnit {j : Job} (r : JobRef) (s : State) (h : j.opcode ≠ opDecodeUnit) :
    stopResults j r s = [] := by
  rw [stopResults, if_neg h]

/-- A stopped DECODE_UNIT of the picture in progress reports the count of damaged CTUs. -/
theorem stopResults_of_decodeUnit {j : Job} {r : JobRef} {s : State} {p : DecPic} (hop : j.opcode = opDecodeUnit)
    (hp : picOf s j.context = some p) (hlen : p.damage.length < 2 ^ 20) (hr : ∃ k ∈ p.jobs, k.ref = r) :
    stopResults j r s = [0, 0, 0, 0, BitVec.ofNat 32 p.damage.length] := by
  have hany : p.jobs.any (fun k => k.ref == r) = true := by simpa using hr
  simp only [stopResults, if_pos hop, hp, hany, if_true, unitResults, Nat.mod_eq_of_lt hlen]

/-! ### An ABORT against one matched job -/

theorem abortOne_of_queued {s : State} {x : Nat} (h : (s.job x).st = .queued) :
    abortOne x s = commitWith x stAborted [] s := by
  simp only [abortOne, h]

theorem abortOne_of_running {s : State} {x : Nat} (h : (s.job x).st = .running) :
    abortOne x s = s.setJob x { s.job x with stop := true, record := false } := by
  simp only [abortOne, h]

theorem abortOne_of_committed {s : State} {x : Nat} (h : (s.job x).st = .committed) : abortOne x s = s := by
  simp only [abortOne, h]

/-- An ABORT against one job leaves every other. -/
theorem abortOne_job_ne (s : State) {x y : Nat} (h : y ≠ x) : (abortOne x s).job y = s.job y := by
  unfold abortOne
  dsimp only
  split
  · exact State.job_setJob_ne s _ h
  · exact State.job_setJob_ne s _ h
  · rfl

end Sys2Proof.Machine
end

section
open Sys2Proof Sys2Proof.Machine

/-- Settles O15: a dispatch case by case, the ABORT rows through `abortMode_of_legal`, and an ABORT against one job by
the state of its entry. -/
theorem dispatchFenceAndAbort : Obligations.DispatchFenceAndAbort := by
  unfold Obligations.DispatchFenceAndAbort
  refine ⟨fun s htrip => ⟨?dispatch, ?fence⟩, fun s => ⟨?abort, ?stop⟩, ?results, ?one⟩
  case dispatch =>
    intro slot hstart hon hidle
    exact ⟨exec_jobDispatch_of_accepted htrip hstart hon hidle, exec_jobDispatch_of_refused htrip hstart hon hidle,
      exec_jobDispatch_of_refused_bufferOp htrip hstart hon hidle⟩
  case fence =>
    intro slot hst hop hdam
    exact exec_fence_of_next htrip hst hop hdam
  case abort =>
    rintro slot t hstart hok rfl htrip
    have row : ∀ mode, bitsOf 26 25 ((s.job slot).w 2) = mode →
        done s (abortMode mode slot s) = .next (closeReady (runAbort slot s)).irqSync := fun mode hmode => by
      rw [abortMode_of_legal hstart hok hmode]
      exact done_next _ _ htrip
    exact ⟨row 0, row 1, row 2⟩
  case stop =>
    rintro slot t hst hstop hrec u results rfl htrip
    exact exec_runningJobStop_of_reached hst hstop hrec htrip
  case results =>
    intro s j r
    exact ⟨stopResults_of_not_decodeUnit r s, fun p => stopResults_of_decodeUnit⟩
  case one =>
    intro s x
    refine ⟨fun h => ?_, fun h => ?_, abortOne_of_committed, fun y => abortOne_job_ne s⟩
    · rw [abortOne_of_queued h, commitWith, State.job_setJob_same]
      exact ⟨rfl, rfl, rfl⟩
    · rw [abortOne_of_running h, State.job_setJob_same]

end

section
/-!
PROOFS. DRAM channels: how a command whose event takes place ends, what a channel holds after its queues or its history
change, the order the scheduler picks in, the issue of a request of an unprotected window, and what each maintenance
command leaves.
-/
namespace Sys2Proof.Machine

/-! ## How a command whose event takes place ends -/

/-- A command whose event takes place and meets no frozen channel leaves what its meaning leaves. -/
theorem done_when {s t : State} {c : Bool} {f : State → State} (hc : c = true) (hf : f s = t)
    (htrip : t.drc.trip = none) : done s (State.when c f s) = .next t.irqSync := by
  rw [hc, State.when_true, hf]
  exact done_next s t htrip

/-! ## The order of R431 -/

/-- `a` goes before `b`: by urgency, then by kind, then by age. -/
theorem reqBefore_iff (drain : Bool) (a b : DramReq) : reqBefore drain a b = true ↔
    b.urg < a.urg ∨ a.urg = b.urg ∧ (reqKind drain b < reqKind drain a ∨
      reqKind drain a = reqKind drain b ∧ a.seq < b.seq) := by
  simp only [reqBefore, Bool.or_eq_true, Bool.and_eq_true, decide_eq_true_eq, beq_iff_eq]

theorem reqBefore_false_iff (drain : Bool) (a b : DramReq) : reqBefore drain a b = false ↔
    a.urg < b.urg ∨ a.urg = b.urg ∧ (reqKind drain a < reqKind drain b ∨
      reqKind drain a = reqKind drain b ∧ b.seq ≤ a.seq) := by
  rw [← Bool.not_eq_true, reqBefore_iff]
  omega

theorem reqBefore_irrefl (drain : Bool) (a : DramReq) : reqBefore drain a a = false := by
  rw [reqBefore_false_iff]
  omega

theorem reqBefore_asymm {drain : Bool} {a b : DramReq} (h : reqBefore drain a b = true) :
    reqBefore drain b a = false := by
  rw [reqBefore_iff] at h
  rw [reqBefore_false_iff]
  omega

/-- What does not go before `b` does not go before anything `b` does not go after. -/
theorem reqBefore_false_trans {drain : Bool} {a b c : DramReq} (hab : reqBefore drain a b = false)
    (hbc : reqBefore drain b c = false) : reqBefore drain a c = false := by
  rw [reqBefore_false_iff] at *
  omega

/-- The scheduler finds nothing only among no candidates. -/
theorem pickReq_eq_none {drain : Bool} {l : List DramReq} (h : pickReq drain l = none) : l = [] := by
  cases l with
  | nil => rfl
  | cons r rs =>
    rw [pickReq] at h
    split at h
    · cases h
    · split at h <;> cases h

/-- The request picked is a candidate, and no candidate goes before it. -/
theorem pickReq_least {drain : Bool} {l : List DramReq} : ∀ {r : DramReq}, pickReq drain l = some r →
    r ∈ l ∧ ∀ q ∈ l, reqBefore drain q r = false := by
  induction l with
  | nil => intro r h; cases h
  | cons x xs ih =>
    intro r h
    rw [pickReq] at h
    split at h
    · next hnone =>
      cases h
      rw [pickReq_eq_none hnone]
      exact ⟨List.mem_cons_self, List.forall_mem_singleton.mpr (reqBefore_irrefl drain x)⟩
    · next b hb =>
      obtain ⟨hmem, hleast⟩ := ih hb
      split at h
      · next hbx =>
        cases h
        exact ⟨List.mem_cons_of_mem _ hmem, List.forall_mem_cons.mpr ⟨reqBefore_asymm hbx, hleast⟩⟩
      · next hbx =>
        cases h
        have hbx : reqBefore drain b x = false := Bool.eq_false_iff.mpr hbx
        exact ⟨List.mem_cons_self, List.forall_mem_cons.mpr
          ⟨reqBefore_irrefl drain x, fun q hq => reqBefore_false_trans (hleast q hq) hbx⟩⟩

/-! ## A channel under its updates -/

@[simp] theorem dramChan_putDramChan_same (c : Nat) (ch : DramChan) (s : State) : dramChan (putDramChan c ch s) c = ch :=
  tabGet_tabSet_same _ _ _ _

@[simp] theorem dramChan_setDramChan_same (c : Nat) (ch : DramChan) (s : State) : dramChan (setDramChan c ch s) c = ch :=
  tabGet_tabSet_same _ _ _ _

/-- A request's command stands first in the history of its burst's channel. -/
theorem dramChan_noteBurst (cmd : Nat) (r : DramReq) (s : State) :
    dramChan (noteBurst cmd r.port r.burst s) (reqChan s r) =
      noteCmd (cmdWord s cmd r.port r.burst) (dramChan s (reqChan s r)) :=
  dramChan_putDramChan_same _ _ _

/-! ## A request of an unprotected window is issued (R431, R432) -/

/-- The bytes a queued read of an unprotected window returns: those of DRAM under its port's older queued writes. -/
def queuedReadBytes (r : DramReq) (s : State) : List Byte :=
  ((dramChan s (reqChan s r)).wq.filter (fun q => sameBurst r q && decide (q.seq < r.seq))).foldl (overlay (reqPhys r))
    (tabGetRange dramDefault s.drc.dram (reqPhys r) r.len)

/-- A write's bytes stand in DRAM. -/
def storeReq (r : DramReq) (s : State) : State :=
  { s with drc := { s.drc with dram := tabSetRange dramDefault s.drc.dram (reqPhys r) r.data } }

section
variable {r : DramReq} (hchk : r.chk = none)
include hchk

theorem noteAccess_of_unprotected (s : State) :
    noteAccess r s = noteBurst (if r.isRead then 2 else 3) r.port r.burst s := by
  simp only [noteAccess, hchk]

theorem serveRead_of_unprotected (hunit : r.unit = false) (s : State) :
    serveRead r s = (queuedReadBytes r s, none, noteBurst (if r.isRead then 2 else 3) r.port r.burst s) := by
  simp only [serveRead, queuedReadBytes, noteAccess_of_unprotected hchk, hchk, hunit, Option.isSome_none, Bool.false_or,
    Bool.false_eq_true, if_false]

theorem serveWrite_of_unprotected (released : Bool) (s : State) :
    serveWrite released r s = (none, noteBurst (if r.isRead then 2 else 3) r.port r.burst (storeReq r s)) := by
  simp only [serveWrite, storeReq, noteAccess_of_unprotected hchk, hchk]

section
variable {s : State} {c : Nat} (hidle : bitsOf 7 0 (s.raw (DRC_CH_FAULT_STATUS c + 12)) = 0)
include hidle

/-- A read leaves its queue and is answered with its bytes. -/
theorem issueReq_of_unprotected_read (hunit : r.unit = false) (hread : r.isRead = true) :
    issueReq c r s =
      let t := noteBurst 2 r.port r.burst s
      let ch := dropReq r.seq (dramChan t c)
      setDramChan c { ch with answers := ch.answers ++ [⟨r.port, r.burst, false, queuedReadBytes r s⟩] }
        (setDramChan c ch t) := by
  simp only [issueReq, sramCheck_of_idle 1 _ hidle, serveRead_of_unprotected hchk hunit, hread, if_true,
    dramChan_setDramChan_same]

/-- A write leaves its queue and is stored. -/
theorem issueReq_of_unprotected_write (hread : r.isRead = false) :
    issueReq c r s =
      let t := noteBurst 3 r.port r.burst (storeReq r s)
      setDramChan c (dropReq r.seq (dramChan t c)) t := by
  simp only [issueReq, sramCheck_of_idle 1 _ hidle, serveWrite_of_unprotected hchk, hread, Bool.false_eq_true, if_false]

end
end

/-! ## One command slot of a channel -/

/-- In a slot no bank command takes, the request R431 picks among those that may go is issued. -/
theorem commandSlot_of_picked {c : Nat} {slot : SlotFacts} {s : State} {r : DramReq} (hbank : slot.bank = none)
    (hpick : pickReq (drainNext (dramChan s c)) (schedulable (dramChan s c) slot.ready) = some r) :
    commandSlot c slot s = issueReq c r (setDramChan c { dramChan s c with drain := drainNext (dramChan s c) } s) := by
  simp only [commandSlot, hbank, hpick]

/-! ## The rows of the channels -/

theorem exec_channelSchedule (c : Nat) (arrivals : List DrcArrival) (slot : SlotFacts) (s : State) :
    exec (.channelSchedule c arrivals slot) s = execChannelSchedule c arrivals slot s := rfl
theorem exec_urgencyRise (c : Nat) (s : State) : exec (.urgencyRise c) s = execUrgencyRise c s := rfl
theorem exec_selfRefresh (c : Nat) (s : State) : exec (.selfRefresh c) s = execSelfRefresh c s := rfl
theorem exec_selfRefreshExit (c : Nat) (s : State) : exec (.selfRefreshExit c) s = execSelfRefreshExit c s := rfl
theorem exec_retraining (c ns : Nat) (ok : Bool) (s : State) :
    exec (.retraining c ns ok) s = execRetraining c ns ok s := rfl
theorem exec_scrub (s : State) : exec .scrub s = execScrub s := rfl

/-- The state a retraining run leaves, but for the turn of background retraining (R435). -/
def retrained (c ns : Nat) (ok : Bool) (s : State) : State :=
  let t := (s.wr (DRC_CH_TRAIN c) DRC_CH_TRAIN.LAST_NS ns).inc (DRC_CH_TRAIN c) DRC_CH_TRAIN.RUNS
  (if ok then t else t.setBit (DRC_CH_IRQ_STATUS c) 2).wr (DRC_CH_STATUS c) DRC_CH_STATUS.STATE 1

@[simp] theorem retrained_drc (c ns : Nat) (ok : Bool) (s : State) : (retrained c ns ok s).drc = s.drc := by
  cases ok <;> rfl

@[simp] theorem retrained_fuse (c ns : Nat) (ok : Bool) (s : State) : (retrained c ns ok s).fuse = s.fuse := by
  cases ok <;> rfl

section
variable {s : State} {c : Nat} (hc : c < numChannels s.fuse.variant) (hon : chanOn s c = true)
include hc hon

/-- An ACTIVE channel takes its arrivals and issues the request picked. -/
theorem exec_channelSchedule_of_picked {arrivals : List DrcArrival} {slot : SlotFacts} {t : State} {r : DramReq}
    (harrive : t = foldS (arrive c) (fabricOrder arrivals.length
      (dramChan (setDramChan c { dramChan s c with answers := [] } s) c).last arrivals)
      (setDramChan c { dramChan s c with answers := [] } s))
    (hont : chanOn t c = true) (hact : chanState t c = 1) (hbank : slot.bank = none)
    (hpick : pickReq (drainNext (dramChan t c)) (schedulable (dramChan t c) slot.ready) = some r)
    (htrip : (issueReq c r (setDramChan c { dramChan t c with drain := drainNext (dramChan t c) } t)).drc.trip = none) :
    exec (.channelSchedule c arrivals slot) s =
      .next (issueReq c r (setDramChan c { dramChan t c with drain := drainNext (dramChan t c) } t)).irqSync := by
  rw [exec_channelSchedule, execChannelSchedule]
  refine done_when (decide_eq_true hc) ?_ htrip
  dsimp only
  rw [if_pos hon, ← harrive, hont, hact, ← commandSlot_of_picked hbank hpick]
  rfl

/-- Every queued request past a threshold rises. -/
theorem exec_urgencyRise_of_on (htrip : s.drc.trip = none) :
    let up := fun (r : DramReq) =>
      { r with urg := max r.urg (urgencyAt (s.rd (DRC_PORT_QOS r.port) DRC_PORT_QOS.TARGET) (s.cyc - r.since)) }
    exec (.urgencyRise c) s = .next (setDramChan c
      { dramChan s c with rq := (dramChan s c).rq.map up, wq := (dramChan s c).wq.map up } s).irqSync := by
  rw [exec_urgencyRise, execUrgencyRise]
  exact done_when (by rw [decide_eq_true hc, hon]; rfl) rfl htrip

/-- An idle ACTIVE channel that nothing keeps awake enters self-refresh. -/
theorem exec_selfRefresh_of_idle (htrip : s.drc.trip = none) (hact : s.rd (DRC_CH_STATUS c) DRC_CH_STATUS.STATE = 1)
    (hawake : keptAwake s = false) (hrq : (dramChan s c).rq = []) (hwq : (dramChan s c).wq = []) :
    exec (.selfRefresh c) s =
      .next (putDramChan c (noteCmd 8 (dramChan s c)) (s.wr (DRC_CH_STATUS c) DRC_CH_STATUS.STATE 2)).irqSync := by
  rw [exec_selfRefresh, execSelfRefresh]
  refine done_when (by rw [decide_eq_true hc, hon, hact, hawake]; rfl) ?_ htrip
  simp only [hrq, hwq, List.isEmpty_nil, Bool.and_true, if_true]

/-- A channel in self-refresh exits for a queued request. -/
theorem exec_selfRefreshExit_of_queued (htrip : s.drc.trip = none)
    (hst : s.rd (DRC_CH_STATUS c) DRC_CH_STATUS.STATE = 2) (hq : (dramChan s c).rq ≠ [] ∨ (dramChan s c).wq ≠ []) :
    exec (.selfRefreshExit c) s = .next (leaveSelfRefresh c s).irqSync := by
  rw [exec_selfRefreshExit, execSelfRefreshExit]
  refine done_when (by rw [decide_eq_true hc, hon, hst]; rfl) (if_neg ?_) htrip
  rwa [Bool.and_eq_true, List.isEmpty_iff, List.isEmpty_iff, not_and_or]

section
variable (htrip : s.drc.trip = none) {ns : Nat} (hns : ns ≤ 2000) (ok : Bool)
include htrip hns

/-- A channel that leaves self-refresh is retrained and ACTIVE. -/
theorem exec_retraining_of_leaving (hst : s.rd (DRC_CH_STATUS c) DRC_CH_STATUS.STATE = 3) :
    exec (.retraining c ns ok) s = .next (retrained c ns ok s).irqSync := by
  rw [exec_retraining, execRetraining]
  exact done_when (by rw [decide_eq_true hc, hon, decide_eq_true hns, hst]; rfl) (if_pos hst) (by simpa using htrip)

/-- Background retraining serves the channel whose turn it is, and the turn moves on. -/
theorem exec_retraining_of_turn (hst : s.rd (DRC_CH_STATUS c) DRC_CH_STATUS.STATE = 1)
    (hen : s.flag DRC_TRAIN_CFG DRC_TRAIN_CFG.EN = true) (hturn : nextTrain s = some c) :
    exec (.retraining c ns ok) s = .next ({ retrained c ns ok s with
      drc := { (retrained c ns ok s).drc with trainPos := (c + 1) % numChannels s.fuse.variant } } : State).irqSync := by
  rw [exec_retraining, execRetraining]
  refine done_when ?guard ?effect (by simpa using htrip)
  case guard => simp only [decide_eq_true hc, hon, decide_eq_true hns, hturn, hen, beq_self_eq_true, Bool.and_true, Bool.or_true]
  case effect =>
    have hne : ¬ s.rd (DRC_CH_STATUS c) DRC_CH_STATUS.STATE = 3 := by rw [hst]; decide
    have hfuse := retrained_fuse c ns ok s
    rw [← hfuse]
    exact if_neg hne

end
end

/-- The scrubber reads the granule that is next and moves past it. -/
theorem exec_scrub_of_next {s : State} {a w : Nat} {t : State} (hen : s.flag DRC_SCRUB DRC_SCRUB.EN = true)
    (htest : s.flag TOP_MEMTEST_CTL TOP_MEMTEST_CTL.BUSY = false) (hon : s.domOn 1 = true)
    (hnext : granuleFrom s s.drc.scrubPos = some a) (hwin : winFor s a = some w)
    (ht : t = foldS (fun i u => scrubWord w (a + 4 * i) u) (List.range 64)
      (if reqDead s (requestAt s scrubPort w a true 4 []) then s else noteBurst 2 scrubPort (checkBurst s w a) s))
    (htrip : t.drc.trip = none) :
    exec .scrub s = .next ({ t with drc := { t.drc with scrubPos := a + 256 } } : State).irqSync := by
  rw [exec_scrub, execScrub]
  refine done_when (by rw [hen, htest, hon]; rfl) ?_ htrip
  simp only [hnext, hwin, ← ht]

end Sys2Proof.Machine
end

section
open Sys2Proof Sys2Proof.Machine

/-- Settles O24: the pick by induction over the candidates, the issue through what an unprotected burst's service is, and
each maintenance command by its row. -/
theorem channelsScheduleAndMaintain : Obligations.ChannelsScheduleAndMaintain := by
  unfold Obligations.ChannelsScheduleAndMaintain
  refine ⟨?pick, ?issue, fun s c hc hon => ⟨?schedule, ?urgency, ?refresh, ?exit, ?retrain, ?scrub⟩⟩
  case pick =>
    intro drain l
    exact ⟨fun r => pickReq_least, fun hl => Option.isSome_iff_ne_none.mpr (mt pickReq_eq_none hl)⟩
  case issue =>
    rintro s c r rfl hchk hunit hidle
    cases hread : r.isRead with
    | true =>
      simp only [issueReq_of_unprotected_read hchk hidle hunit hread, dramChan_setDramChan_same, dramChan_noteBurst, if_true]
      exact ⟨rfl, rfl, rfl, rfl, rfl, rfl⟩
    | false =>
      have hch : dramChan (noteBurst 3 r.port r.burst (storeReq r s)) (reqChan s r) =
          noteCmd (cmdWord s 3 r.port r.burst) (dramChan s (reqChan s r)) := dramChan_noteBurst 3 r (storeReq r s)
      simp only [issueReq_of_unprotected_write hchk hidle hread, dramChan_setDramChan_same, hch, Bool.false_eq_true, if_false]
      exact ⟨rfl, rfl, rfl, rfl, rfl, rfl⟩
  case schedule =>
    rintro arrivals slot t u r s0 harrive hont hact hbank ch hpick rfl htrip
    exact exec_channelSchedule_of_picked hc hon harrive hont hact hbank hpick htrip
  case urgency => exact exec_urgencyRise_of_on hc hon
  case refresh => exact exec_selfRefresh_of_idle hc hon
  case exit => exact exec_selfRefreshExit_of_queued hc hon
  case retrain =>
    intro htrip ns ok hns
    exact ⟨exec_retraining_of_leaving hc hon htrip hns ok, exec_retraining_of_turn hc hon htrip hns ok⟩
  case scrub =>
    intro a w t hen htest hdom hnext hwin ht htrip
    exact exec_scrub_of_next hen htest hdom hnext hwin ht htrip

end

section
/-!
PROOFS. A grant of a scratchpad bank: which word it grants, the responses it gives, and that none of its steps reaches
DRAM.
-/
namespace Sys2Proof.Machine

/-! ## What the scratchpad's steps leave as it was -/

@[simp] theorem spdCheck_drc (s : State) (k : Nat) : (spdCheck s k).2.drc = s.drc := sramCheck_drc _ _ _ _

@[simp] theorem spdBad_drc (s : State) (k : Nat) : (spdBad s k).drc = s.drc := setFault_drc _ _ _

@[simp] theorem spdBad_spd (s : State) (k : Nat) : (spdBad s k).spd = s.spd := setFault_spd _ _ _

@[simp] theorem spdRead_drc (s : State) (k : Nat) : (spdRead s k).2.2.drc = s.drc := by
  unfold spdRead
  dsimp only
  split <;> simp

@[simp] theorem spdRead_spd (s : State) (k : Nat) : (spdRead s k).2.2.spd = s.spd := by
  unfold spdRead
  dsimp only
  split <;> simp [spdCheck_spd]

@[simp] theorem spdPut_answers (s : State) (k : Nat) (w : Word) : (spdPut s k w).spd.answers = s.spd.answers := rfl

@[simp] theorem spdPerform_drc (s : State) (k : Nat) (kind : SpdKind) (data : Word) (be : BitVec 4) :
    (spdPerform s k kind data be).drc = s.drc := by
  cases kind with
  | read => rfl
  | write => unfold spdPerform; dsimp only; split_ifs <;> rfl
  | set => unfold spdPerform; dsimp only; split <;> simp
  | clear => unfold spdPerform; dsimp only; split <;> simp

/-- A write gives no response of its own. -/
@[simp] theorem spdPerform_answers (s : State) (k : Nat) (kind : SpdKind) (data : Word) (be : BitVec 4) :
    (spdPerform s k kind data be).spd.answers = s.spd.answers := by
  cases kind with
  | read => rfl
  | write => unfold spdPerform; dsimp only; split_ifs <;> rfl
  | set => unfold spdPerform; dsimp only; split <;> simp [spdCheck_spd]
  | clear => unfold spdPerform; dsimp only; split <;> simp [spdCheck_spd]

@[simp] theorem spdCollision_drc (k winner : Nat) (losers : List Nat) (s : State) :
    (spdCollision k winner losers s).drc = s.drc := by
  unfold spdCollision
  dsimp only
  split_ifs <;> rfl

@[simp] theorem spdCollision_spd (k winner : Nat) (losers : List Nat) (s : State) :
    (spdCollision k winner losers s).spd = s.spd := by
  unfold spdCollision
  dsimp only
  split_ifs <;> rfl

/-! ## The requests of one grant -/

/-- The requests of the granted word. -/
def sameWord (r : SpdReq) (reqs : List SpdReq) : List SpdReq := reqs.filter (fun x => x.addr == r.addr)

/-- The ports that write the granted word, the lowest first. -/
def writePorts (same : List SpdReq) : List Nat :=
  (List.range 4).filter (fun p => same.any (fun x => x.port == p && spdIsWrite x.kind))

theorem mem_writePorts {same : List SpdReq} {p : Nat} (h : p ∈ writePorts same) :
    ∃ x ∈ same, x.port = p ∧ spdIsWrite x.kind = true := by
  simpa only [List.any_eq_true, Bool.and_eq_true, beq_iff_eq] using (List.mem_filter.mp h).2

/-- The request granted is one of those made. -/
theorem mem_of_spdPick {last : Nat} {reqs : List SpdReq} {r : SpdReq} (h : spdPick last reqs = some r) : r ∈ reqs := by
  obtain ⟨i, -, hi⟩ := List.exists_of_findSome?_eq_some h
  exact List.mem_of_find?_eq_some hi

/-- The requests of one grant are all of the granted word's bank. -/
theorem bank_of_spdReqsOk {reqs : List SpdReq} {r : SpdReq} (hok : spdReqsOk reqs = true) (hr : r ∈ reqs) :
    (reqs.map (fun q => q.addr / 4 % 16)).headD 0 = r.addr / 4 % 16 := by
  simp only [spdReqsOk, Bool.and_eq_true, List.all_eq_true, beq_iff_eq] at hok
  exact (hok.1 r hr).2.symm

/-! ## The responses (R441, R445) -/

section
variable (s : State) (k : Nat) (losers : List Nat) {same : List SpdReq}

/-- A read is answered with the word as it stood. -/
theorem mem_spdAnswers_of_read {x : SpdReq} (hx : x ∈ same) (hk : spdIsWrite x.kind = false) :
    ⟨x.port, spdGet s k, (spdCheck s k).1, false⟩ ∈ spdAnswers s k losers same :=
  List.mem_map.mpr ⟨x, hx, by rw [hk]; rfl⟩

/-- A write that loses is answered with WRITE_COLLISION. -/
theorem mem_spdAnswers_of_loser {x : SpdReq} (hx : x ∈ same) (hk : spdIsWrite x.kind = true) (hp : x.port ∈ losers) :
    ⟨x.port, 0, false, true⟩ ∈ spdAnswers s k losers same :=
  List.mem_map.mpr ⟨x, hx, by rw [hk, List.contains_iff_mem.mpr hp]; rfl⟩

end

/-! ## The grant (R441 to R443) -/

theorem exec_scratchpadBankGrant (reqs : List SpdReq) (s : State) :
    exec (.scratchpadBankGrant reqs) s = execScratchpadBankGrant reqs s := rfl

theorem exec_spdCollClr (data : Word) (s : State) : exec (.spdCollClr data) s = execSpdCollClr data s := rfl

/-- The state before the grant's write: the bank's turn has moved on, the ports have their responses, and a word read has
been checked. -/
def spdBeforeWrite (r : SpdReq) (same : List SpdReq) (s : State) : State :=
  let s0 := { s with spd := { s.spd with
    rr := tabSet (fun _ => 3) s.spd.rr (r.addr / 4 % 16) r.port
    answers := spdAnswers s (r.addr / 4) (writePorts same).tail same } }
  if same.any (fun x => !spdIsWrite x.kind) then (spdRead s0 (r.addr / 4)).2.2 else s0

@[simp] theorem spdBeforeWrite_drc (r : SpdReq) (same : List SpdReq) (s : State) :
    (spdBeforeWrite r same s).drc = s.drc := by
  unfold spdBeforeWrite
  dsimp only
  split <;> simp

@[simp] theorem spdBeforeWrite_answers (r : SpdReq) (same : List SpdReq) (s : State) :
    (spdBeforeWrite r same s).spd.answers = spdAnswers s (r.addr / 4) (writePorts same).tail same := by
  unfold spdBeforeWrite
  dsimp only
  split <;> simp

/-- The grant's write: that of the lowest port that writes the word, if any; the others collide with it. -/
def spdGrantWrite (r : SpdReq) (same : List SpdReq) (s : State) : State :=
  match writePorts same with
  | [] => s
  | w :: losers =>
    match same.find? (fun q => q.port == w) with
    | none => s
    | some q => spdCollision (r.addr / 4) w losers (spdPerform s (r.addr / 4) q.kind q.data q.be)

theorem spdGrantWrite_of_none {same : List SpdReq} (r : SpdReq) (s : State) (hw : writePorts same = []) :
    spdGrantWrite r same s = s := by
  simp only [spdGrantWrite, hw]

theorem spdGrantWrite_of_lowest {same : List SpdReq} {w : Nat} {losers : List Nat} {q : SpdReq} (r : SpdReq) (s : State)
    (hw : writePorts same = w :: losers) (hq : same.find? (fun x => x.port == w) = some q) :
    spdGrantWrite r same s = spdCollision (r.addr / 4) w losers (spdPerform s (r.addr / 4) q.kind q.data q.be) := by
  simp only [spdGrantWrite, hw, hq]

@[simp] theorem spdGrantWrite_drc (r : SpdReq) (same : List SpdReq) (s : State) : (spdGrantWrite r same s).drc = s.drc := by
  unfold spdGrantWrite
  split
  · rfl
  · split <;> simp

@[simp] theorem spdGrantWrite_answers (r : SpdReq) (same : List SpdReq) (s : State) :
    (spdGrantWrite r same s).spd.answers = s.spd.answers := by
  unfold spdGrantWrite
  split
  · rfl
  · split <;> simp

/-- A bank grants the word of the request whose turn it is. -/
theorem exec_scratchpadBankGrant_of_picked {s : State} {reqs : List SpdReq} {r : SpdReq} (htrip : s.drc.trip = none)
    (hon : s.domOn 1 = true) (hok : spdReqsOk reqs = true)
    (hpick : spdPick (tabGet (fun _ => 3) s.spd.rr (r.addr / 4 % 16)) reqs = some r) :
    exec (.scratchpadBankGrant reqs) s =
      .next (spdGrantWrite r (sameWord r reqs) (spdBeforeWrite r (sameWord r reqs) s)).irqSync := by
  rw [exec_scratchpadBankGrant, execScratchpadBankGrant]
  refine done_when (by rw [hok, hon]; rfl) ?_ (by simpa using htrip)
  dsimp only
  rw [bank_of_spdReqsOk hok (mem_of_spdPick hpick), hpick]
  rfl

end Sys2Proof.Machine
end

section
open Sys2Proof Sys2Proof.Machine

/-- Settles O9: a grant is its responses and then its write, and no write changes a response. -/
theorem scratchpadBankGrant : Obligations.ScratchpadBankGrant := by
  unfold Obligations.ScratchpadBankGrant
  refine fun s htrip hon => ⟨?grant, ?clear⟩
  case grant =>
    intro reqs r hok hpick k same writers s0 s1
    have hexec : exec (.scratchpadBankGrant reqs) s = .next (spdGrantWrite r same (spdBeforeWrite r same s)).irqSync :=
      exec_scratchpadBankGrant_of_picked htrip hon hok hpick
    refine ⟨fun hw => ?nobody, fun q w losers hw hq => ?lowest, fun t ht => ?answers⟩
    case nobody => rw [hexec, spdGrantWrite_of_none r _ hw]; rfl
    case lowest => rw [hexec, spdGrantWrite_of_lowest r _ hw hq]; rfl
    case answers =>
      obtain rfl := Host.Outcome.next.inj (hexec.symm.trans ht)
      rw [State.irqSync_spd, spdGrantWrite_answers, spdBeforeWrite_answers]
      refine ⟨fun x hx hk => mem_spdAnswers_of_read s k _ hx hk, fun p hp => ?_⟩
      obtain ⟨x, hx, rfl, hk⟩ := mem_writePorts (List.mem_of_mem_tail hp)
      exact mem_spdAnswers_of_loser s k _ hx hk hp
  case clear =>
    intro data hclr
    rw [exec_spdCollClr, execSpdCollClr]
    exact done_when (by rw [hclr, hon]; rfl) rfl htrip

end

section
/-!
PROOFS. The compositor's hold queue, request by request, and the write-back tap: its rows, its drop and its
configuration word.
-/
namespace Sys2Proof.Machine

theorem exec_holdQueueGrant (pool : Nat) (s : State) : exec (.holdQueueGrant pool) s = execHoldQueueGrant pool s := rfl
theorem exec_wbRows (s : State) : exec .wbRows s = execWbRows s := rfl
theorem exec_wbDrop (s : State) : exec .wbDrop s = execWbDrop s := rfl
theorem exec_cmpWbCfgWrite (data : Word) (s : State) : exec (.cmpWbCfgWrite data) s = execCmpWbCfgWrite data s := rfl

/-! ## The hold queue (R20, R229, R232) -/

/-- What the grant of request `r` does, the request having left the queue. -/
def serveHold (pool : Nat) (r : HoldReq) (s : State) : State :=
  match r.kind with
  | .retain =>
    let (st, t) := bpmRetain s 19 r.handle
    if st = stOk then t else retainRefused r.layer r.handle t
  | .release => releaseS 19 r.handle s
  | .alloc =>
    let (st, h, t) := allocAt s 19 pool (wbIn s CMP_WB_CFG.SPILL_UP == 1) true false
    wbGranted st h t

section
variable {pool : Nat} {r : HoldReq} {s : State}

theorem serveHold_of_retain (hk : r.kind = .retain) :
    serveHold pool r s =
      if (bpmRetain s 19 r.handle).1 = stOk then (bpmRetain s 19 r.handle).2
      else retainRefused r.layer r.handle (bpmRetain s 19 r.handle).2 := by
  simp only [serveHold, hk]

theorem serveHold_of_release (hk : r.kind = .release) : serveHold pool r s = releaseS 19 r.handle s := by
  simp only [serveHold, hk]

theorem serveHold_of_alloc (hk : r.kind = .alloc) :
    serveHold pool r s =
      let got := allocAt s 19 pool (wbIn s CMP_WB_CFG.SPILL_UP == 1) true false
      wbGranted got.1 got.2.1 got.2.2 := by
  simp only [serveHold, hk]

/-- The oldest request for a pool leaves the queue and is served; what waited for it follows. -/
theorem grantHold_of_oldest {t : State} (hfind : s.cmp.hold.find? (fun x => x.pool == pool) = some r)
    (ht : t = serveHold pool r { s with cmp := { s.cmp with hold := s.cmp.hold.erase r } }) :
    grantHold pool s = grantWaits (if t.cmp.hold.isEmpty then releasePassed t else t) := by
  rw [ht, grantHold, hfind]
  rfl

end

/-- In HOLD no request is granted. -/
theorem exec_holdQueueGrant_of_inHold {s : State} (pool : Nat) (hhold : inHold s = true) (htrip : s.drc.trip = none) :
    exec (.holdQueueGrant pool) s = .next s.irqSync := by
  rw [exec_holdQueueGrant, execHoldQueueGrant, hhold]
  exact done_next s s htrip

theorem exec_holdQueueGrant_of_not_inHold {s v : State} {pool : Nat} (hhold : inHold s = false)
    (hv : grantHold pool s = v) (htrip : v.drc.trip = none) : exec (.holdQueueGrant pool) s = .next v.irqSync := by
  rw [exec_holdQueueGrant, execHoldQueueGrant]
  exact done_when (by rw [hhold]; rfl) hv htrip

/-! ## The write-back tap (R235 to R237) -/

section
variable {s : State} {p : WbPic} (hcur : s.cmp.wb.cur = some p)
include hcur

/-- Sixteen more lines in DRAM, not the last, advance ROWS_DONE. -/
theorem exec_wbRows_of_more (htrip : s.drc.trip = none) (hmore : 16 * (pptRowsDone s p.entry + 1) < p.height)
    (hlines : 16 * (pptRowsDone s p.entry + 1) ≤ p.lines) :
    exec .wbRows s = .next (pptRows p.entry (pptRowsDone s p.entry + 1) s).irqSync := by
  rw [exec_wbRows, execWbRows]
  simp only [hcur, if_pos hmore]
  exact done_when (decide_eq_true hlines) rfl htrip

/-- The last line in DRAM completes the picture. -/
theorem exec_wbRows_of_last {t v : State} (hlast : p.height ≤ 16 * (pptRowsDone s p.entry + 1)) (hlines : p.lines = p.height)
    (hbehind : encBehind 2 0 p.handle s = false)
    (ht : t = pptSetState p.entry peComplete (pptRows p.entry (pptRowsDone s p.entry + 1) s))
    (hv : v = encCaptured 2 0 p.entry { t with cmp := { t.cmp with wb := { t.cmp.wb with cur := none } } })
    (htrip : v.drc.trip = none) : exec .wbRows s = .next v.irqSync := by
  rw [exec_wbRows, execWbRows]
  simp only [hcur, if_neg (Nat.not_lt.mpr hlast), if_pos (And.intro hlines hbehind), ← ht, ← hv]
  exact done_next s v htrip

/-- A full FIFO loses the tap's frame. -/
theorem exec_wbDrop_of_cur (htrip : (wbLose s).drc.trip = none) : exec .wbDrop s = .next (wbLose s).irqSync := by
  rw [exec_wbDrop, execWbDrop]
  exact done_when (by rw [hcur]; rfl) rfl htrip

end

section
variable {s : State} {data : Word} (hon : s.domOn 26 = true)
include hon

section
variable (hoff : s.flag CMP_WB_CFG CMP_WB_CFG.EN = false) (hset : bitAt 0 data = true)
include hoff hset

/-- EN without an aligned run of four free entries sets PPT_FAIL. -/
theorem exec_cmpWbCfgWrite_of_no_run (htrip : s.drc.trip = none) (hrun : freeRun (s.hostWrite CMP_WB_CFG data) 4 = none) :
    exec (.cmpWbCfgWrite data) s =
      .next ((s.hostWrite CMP_WB_CFG data).wr CMP_WB_STATUS CMP_WB_STATUS.PPT_FAIL 1).irqSync := by
  rw [exec_cmpWbCfgWrite, execCmpWbCfgWrite]
  refine done_when hon ?_ (by simpa using htrip)
  simp only [hoff, hset, Bool.not_false, Bool.and_true, if_true, hrun]

/-- EN takes the lowest aligned run of four free entries. -/
theorem exec_cmpWbCfgWrite_of_run {b : Nat} {u : State} (hrun : freeRun (s.hostWrite CMP_WB_CFG data) 4 = some b)
    (hu : u = (takeRun b 4 600 (s.hostWrite CMP_WB_CFG data)).wr CMP_WB_STATUS CMP_WB_STATUS.PPT_BASE b)
    (htrip : u.drc.trip = none) :
    exec (.cmpWbCfgWrite data) s =
      .next ({ u with cmp := { u.cmp with wb := { u.cmp.wb with run := true } } } : State).irqSync := by
  rw [exec_cmpWbCfgWrite, execCmpWbCfgWrite]
  refine done_when hon ?_ htrip
  simp only [hoff, hset, Bool.not_false, Bool.and_true, if_true, hrun, ← hu]

end

/-- A write that leaves EN as it is, is the plain write. -/
theorem exec_cmpWbCfgWrite_of_same_en (htrip : s.drc.trip = none) (hsame : s.flag CMP_WB_CFG CMP_WB_CFG.EN = bitAt 0 data) :
    exec (.cmpWbCfgWrite data) s = .next (s.hostWrite CMP_WB_CFG data).irqSync := by
  rw [exec_cmpWbCfgWrite, execCmpWbCfgWrite]
  refine done_when hon ?_ (by simpa using htrip)
  simp only [hsame, Bool.not_and_self, Bool.and_not_self, Bool.false_eq_true, if_false]

end

end Sys2Proof.Machine
end

section
open Sys2Proof Sys2Proof.Machine

/-- Settles O45: a grant by the kind of its request, the tap's rows by whether lines remain, and the configuration word by
what becomes of EN. -/
theorem writeBackAndHoldQueue : Obligations.WriteBackAndHoldQueue := by
  unfold Obligations.WriteBackAndHoldQueue
  refine fun s => ⟨fun pool => exec_holdQueueGrant_of_inHold pool, ?grant, fun p hcur => ⟨?rows, ?last, ?drop⟩, ?config⟩
  case grant =>
    rintro pool r t v hhold hfind ⟨hretain, hrelease, halloc⟩ rfl htrip
    refine exec_holdQueueGrant_of_not_inHold hhold (grantHold_of_oldest hfind ?_) htrip
    cases hk : r.kind with
    | retain => rw [serveHold_of_retain hk]; exact hretain hk _ _ rfl
    | release => rw [serveHold_of_release hk]; exact hrelease hk
    | alloc => rw [serveHold_of_alloc hk]; exact halloc hk _ _ _ rfl
  case rows => exact exec_wbRows_of_more hcur
  case last => exact fun t v hlast hlines hbehind => exec_wbRows_of_last hcur hlast hlines hbehind
  case drop => rintro v rfl htrip; exact exec_wbDrop_of_cur hcur htrip
  case config =>
    rintro data t hon rfl htrip
    exact ⟨fun hoff hset => ⟨exec_cmpWbCfgWrite_of_no_run hon hoff hset htrip,
      fun b u hrun hu hu' => exec_cmpWbCfgWrite_of_run hon hoff hset hrun hu hu'⟩,
      exec_cmpWbCfgWrite_of_same_en hon htrip⟩

end

section
/-!
PROOFS. The host's window onto the shared scratchpad: the bytes of a word under byte enables, and what a write of each view
leaves of a word with no error.
-/
namespace Sys2Proof.Machine

/-! ## Sending messages changes the interrupt controller's part alone (R459) -/

theorem State.irqSync_frame (s : State) : { s.irqSync with icu := s.icu } = s := by
  unfold State.irqSync
  rfl

@[simp] theorem spdGet_irqSync (s : State) (k : Nat) : spdGet s.irqSync k = spdGet s k := by
  unfold spdGet
  rw [State.irqSync_spd]

/-! ## Words by their bytes (R43) -/

/-- Bits of a word put together of four bytes. -/
theorem testBit_four_bytes {f : Nat → Nat} (hf : ∀ i, f i < 2 ^ 8) {b : Nat} (hb : b < 32) :
    (f 0 + f 1 * 2 ^ 8 + f 2 * 2 ^ 16 + f 3 * 2 ^ 24).testBit b = (f (b / 8)).testBit (b % 8) := by
  have horner : f 0 + f 1 * 2 ^ 8 + f 2 * 2 ^ 16 + f 3 * 2 ^ 24 =
      2 ^ 8 * (2 ^ 8 * (2 ^ 8 * f 3 + f 2) + f 1) + f 0 := by ring
  rw [horner, Nat.testBit_two_pow_mul_add _ (hf 0), Nat.testBit_two_pow_mul_add _ (hf 1),
    Nat.testBit_two_pow_mul_add _ (hf 2)]
  split_ifs with h0 h1 h2
  · rw [show b / 8 = 0 by omega, show b % 8 = b by omega]
  · rw [show b / 8 = 1 by omega, show b % 8 = b - 8 by omega]
  · rw [show b / 8 = 2 by omega, show b % 8 = b - 8 - 8 by omega]
  · rw [show b / 8 = 3 by omega, show b % 8 = b - 8 - 8 - 8 by omega]

/-- Bit `j` of byte `i` of a word. -/
theorem testBit_byte (w : Word) (i : Nat) {j : Nat} (hj : j < 8) :
    (bitsOf (8 * i + 7) (8 * i) w).testBit j = w.toNat.testBit (8 * i + j) := by
  rw [bitsOf, Nat.testBit_mod_two_pow, Nat.testBit_div_two_pow, decide_eq_true (by omega), Bool.true_and,
    Nat.add_comm j]

/-- An enabled byte is the new word's, another the old word's. -/
def pickByte (be : BitVec 4) (old new : Word) (i : Nat) : Nat :=
  if be.toNat.testBit i then bitsOf (8 * i + 7) (8 * i) new else bitsOf (8 * i + 7) (8 * i) old

theorem pickByte_lt (be : BitVec 4) (old new : Word) (i : Nat) : pickByte be old new i < 2 ^ 8 := by
  have byte_lt : ∀ w : Word, bitsOf (8 * i + 7) (8 * i) w < 2 ^ 8 := fun w => by
    rw [bitsOf, show 8 * i + 7 + 1 - 8 * i = 8 by omega]
    exact Nat.mod_lt _ (by decide)
  unfold pickByte
  split
  · exact byte_lt new
  · exact byte_lt old

/-- Bits of a word with its enabled bytes replaced. -/
theorem testBit_mergeBytes (be : BitVec 4) (old new : Word) {b : Nat} (hb : b < 32) :
    (mergeBytes be old new).toNat.testBit b =
      if be.toNat.testBit (b / 8) then new.toNat.testBit b else old.toNat.testBit b := by
  have hj : b % 8 < 8 := Nat.mod_lt _ (by decide)
  have hmerge : mergeBytes be old new = BitVec.ofNat 32 (pickByte be old new 0 + pickByte be old new 1 * 2 ^ 8 +
      pickByte be old new 2 * 2 ^ 16 + pickByte be old new 3 * 2 ^ 24) := rfl
  rw [hmerge, BitVec.toNat_ofNat, Nat.testBit_mod_two_pow, decide_eq_true hb, Bool.true_and,
    testBit_four_bytes (pickByte_lt be old new) hb, pickByte]
  split <;> rw [testBit_byte _ _ hj, Nat.div_add_mod]

/-- Bits of the data of a bit-set or bit-clear write. -/
theorem testBit_maskBytes (be : BitVec 4) (data : Word) {b : Nat} (hb : b < 32) :
    (maskBytes be data).toNat.testBit b = (be.toNat.testBit (b / 8) && data.toNat.testBit b) := by
  rw [maskBytes, testBit_mergeBytes be 0 data hb]
  cases be.toNat.testBit (b / 8) <;> simp

/-- With every byte enabled the word is replaced. -/
theorem mergeBytes_of_all {be : BitVec 4} (h : be.toNat = 15) (old new : Word) : mergeBytes be old new = new := by
  refine BitVec.eq_of_getLsbD_eq fun b hb => ?_
  have hbyte : Nat.testBit 15 (b / 8) = true := by
    have : b / 8 < 4 := by omega
    interval_cases b / 8 <;> rfl
  rw [BitVec.getLsbD, BitVec.getLsbD, testBit_mergeBytes be old new hb, h, if_pos hbyte]

/-! ## Writes of a word with no error (R43, R442, R445) -/

section
variable {s : State} {k : Nat} (hclean : k % 2 ^ 20 ∉ s.spd.err)
include hclean

theorem spdPerform_write_of_clean (data : Word) (be : BitVec 4) :
    spdPerform s k .write data be = spdPut s k (mergeBytes be (spdGet s k) data) := by
  have herr : s.spd.err.contains (k % 2 ^ 20) = false := by simpa using hclean
  by_cases hbe : be.toNat = 15
  · simp only [spdPerform, if_pos hbe, mergeBytes_of_all hbe]
  · simp only [spdPerform, if_neg hbe, herr, Bool.false_eq_true, if_false]

variable (hidle : bitsOf 7 0 (s.raw SPD_FAULT_INJECT) = 0)
include hidle

theorem spdCheck_of_clean : spdCheck s k = (false, s) := by
  have herr : s.spd.err.contains (k % 2 ^ 20) = false := by simpa using hclean
  simp only [spdCheck, sramCheck_of_idle (fs := SPD_FAULT_STATUS) 1 _ hidle, herr, Bool.or_self]

theorem spdPerform_set_of_clean (data : Word) (be : BitVec 4) :
    spdPerform s k .set data be = spdPut s k (spdGet s k ||| maskBytes be data) := by
  simp only [spdPerform, spdCheck_of_clean hclean hidle, Bool.false_eq_true, if_false]

theorem spdPerform_clear_of_clean (data : Word) (be : BitVec 4) :
    spdPerform s k .clear data be = spdPut s k (spdGet s k &&& ~~~ (maskBytes be data)) := by
  simp only [spdPerform, spdCheck_of_clean hclean hidle, Bool.false_eq_true, if_false]

end

theorem spdGet_spdPut_same (s : State) (k : Nat) (w : Word) : spdGet (spdPut s k w) k = w :=
  tabGet_tabSet_same _ _ _ _

theorem spdGet_spdPut_ne (s : State) {j k : Nat} (w : Word) (h : j % 2 ^ 20 ≠ k % 2 ^ 20) :
    spdGet (spdPut s k w) j = spdGet s j :=
  tabGet_tabSet_ne _ _ _ h

/-- `new` is `old` with each bit of an enabled byte changed as `f` says of it and the data's bit. -/
def BitsUpdated (be : BitVec 4) (data : Word) (f : Bool → Bool → Bool) (old new : Word) : Prop :=
  ∀ b, b < 32 → new.toNat.testBit b =
    if be.toNat.testBit (b / 8) then f (old.toNat.testBit b) (data.toNat.testBit b) else old.toNat.testBit b

theorem bitsUpdated_mergeBytes (be : BitVec 4) (data old : Word) :
    BitsUpdated be data (fun _ d => d) old (mergeBytes be old data) :=
  fun _ hb => testBit_mergeBytes be old data hb

theorem bitsUpdated_or_maskBytes (be : BitVec 4) (data old : Word) :
    BitsUpdated be data (fun o d => o || d) old (old ||| maskBytes be data) := by
  intro b hb
  rw [BitVec.toNat_or, Nat.testBit_or, testBit_maskBytes be data hb]
  cases be.toNat.testBit (b / 8) <;> simp

theorem bitsUpdated_and_not_maskBytes (be : BitVec 4) (data old : Word) :
    BitsUpdated be data (fun o d => o && !d) old (old &&& ~~~ (maskBytes be data)) := by
  intro b hb
  have hnot : (~~~ (maskBytes be data)).toNat.testBit b = !(maskBytes be data).toNat.testBit b := by
    have := BitVec.getLsbD_not (x := maskBytes be data) (i := b)
    rwa [decide_eq_true hb, Bool.true_and] at this
  rw [BitVec.toNat_and, Nat.testBit_and, hnot, testBit_maskBytes be data hb]
  cases be.toNat.testBit (b / 8) <;> simp

/-- One word of the scratchpad is updated; every other word, and every other part of the state but the interrupt
controller's, is as before. -/
def SpdTouched (s : State) (k : Nat) (data : Word) (be : BitVec 4) (f : Bool → Bool → Bool) (t : State) : Prop :=
  BitsUpdated be data f (spdGet s k) (spdGet t k) ∧ (∀ j, j < 2 ^ 20 → j ≠ k → spdGet t j = spdGet s j) ∧
  { t with spd := s.spd, icu := s.icu } = s

/-- Replacing one word touches that word alone. -/
theorem spdTouched_spdPut {s : State} {k : Nat} {data w : Word} {be : BitVec 4} {f : Bool → Bool → Bool}
    (hk : k < 2 ^ 20) (hw : BitsUpdated be data f (spdGet s k) w) :
    SpdTouched s k data be f (spdPut s k w).irqSync := by
  refine ⟨?_, fun j hj hne => ?_, ?_⟩
  · rwa [spdGet_irqSync, spdGet_spdPut_same]
  · rw [spdGet_irqSync, spdGet_spdPut_ne]
    rwa [Nat.mod_eq_of_lt hj, Nat.mod_eq_of_lt hk]
  · exact congrArg (fun u : State => { u with spd := s.spd }) (State.irqSync_frame (spdPut s k w))

theorem exec_scratchpadPlainWrite (addr : Nat) (data : Word) (be : BitVec 4) (s : State) :
    exec (.scratchpadPlainWrite addr data be) s = done s (spdHostWrite .write addr data be s) := rfl
theorem exec_bitSetAliasWrite (addr : Nat) (data : Word) (be : BitVec 4) (s : State) :
    exec (.bitSetAliasWrite addr data be) s = done s (spdHostWrite .set addr data be s) := rfl
theorem exec_bitClearAliasWrite (addr : Nat) (data : Word) (be : BitVec 4) (s : State) :
    exec (.bitClearAliasWrite addr data be) s = done s (spdHostWrite .clear addr data be s) := rfl

/-- A host write inside the window whose word takes `w` touches that word alone. -/
theorem spdHostWrite_touches {s : State} {addr : Nat} {kind : SpdKind} {data w : Word} {be : BitVec 4}
    {f : Bool → Bool → Bool} (htrip : s.drc.trip = none) (hon : s.domOn 1 = true) (haddr : addr < 0x400000)
    (hword : addr % 4 = 0) (hput : spdPerform s (addr / 4) kind data be = spdPut s (addr / 4) w)
    (hw : BitsUpdated be data f (spdGet s (addr / 4)) w) :
    ∃ t, done s (spdHostWrite kind addr data be s) = .next t ∧ SpdTouched s (addr / 4) data be f t :=
  ⟨_, done_when (by rw [decide_eq_true haddr, hword, hon]; rfl) hput htrip, spdTouched_spdPut (by omega) hw⟩

end Sys2Proof.Machine
end

section
open Sys2Proof Sys2Proof.Machine

/-- Settles O8: each view replaces one word, whose bits are those `testBit_mergeBytes` gives. -/
theorem scratchpadViews : Obligations.ScratchpadViews := by
  unfold Obligations.ScratchpadViews
  intro s addr data be htrip hon haddr hword herr hidle touches
  have hclean : addr / 4 % 2 ^ 20 ∉ s.spd.err := by rwa [Nat.mod_eq_of_lt (by omega)]
  exact ⟨spdHostWrite_touches htrip hon haddr hword (spdPerform_write_of_clean hclean data be)
      (bitsUpdated_mergeBytes be data _),
    spdHostWrite_touches htrip hon haddr hword (spdPerform_set_of_clean hclean hidle data be)
      (bitsUpdated_or_maskBytes be data _),
    spdHostWrite_touches htrip hon haddr hword (spdPerform_clear_of_clean hclean hidle data be)
      (bitsUpdated_and_not_maskBytes be data _)⟩

end

section
/-!
PROOFS. Doorbells and refused accesses: what the doorbell register file holds after a doorbell, and what a page reads.
-/
namespace Sys2Proof.Machine

theorem exec_sqTail (k : Nat) (v : Word) (s : State) : exec (.sqTail k v) s = execSqTail k v s := rfl
theorem exec_cqHead (k : Nat) (v : Word) (s : State) : exec (.cqHead k v) s = execCqHead k v s := rfl
theorem exec_badAccess (bar offset : Nat) (s : State) : exec (.badAccess bar offset) s = execBadAccess bar offset s := rfl

theorem storedTail_setStoredTail (s : State) (k v n : Nat) :
    storedTail (setStoredTail k v s) n = if n = k then v else storedTail s n := tabGet_tabSet _ _ _ _ _

theorem storedHead_setStoredHead (s : State) (k v n : Nat) :
    storedHead (setStoredHead k v s) n = if n = k then v else storedHead s n := tabGet_tabSet _ _ _ _ _

@[simp] theorem storedTail_irqSync (s : State) (n : Nat) : storedTail s.irqSync n = storedTail s n := by
  rw [storedTail, State.irqSync_hq, storedTail]

@[simp] theorem storedHead_irqSync (s : State) (n : Nat) : storedHead s.irqSync n = storedHead s n := by
  rw [storedHead, State.irqSync_hq, storedHead]

@[simp] theorem State.domOn_irqSync (s : State) (n : Nat) : s.irqSync.domOn n = s.domOn n := by
  rw [State.domOn, State.irqSync_pwr, State.domOn]

@[simp] theorem hqError_drc (bit ring : Nat) (isCq : Bool) (value : Nat) (s : State) :
    (hqError bit ring isCq value s).drc = s.drc := rfl

/-- What HQ_ERR_INFO records of a doorbell out of range. -/
theorem hqError_of_doorbell {k v : Nat} (hk : k < 512) (hv : v < 65536) (bit : Nat) (isCq : Bool) (s : State) :
    hqError bit k isCq v s = (s.setBit HQ_ERR_STATUS bit).setReg HQ_ERR_INFO
      (BitVec.ofNat 32 (k + isCq.toNat * 2 ^ 9 + v * 2 ^ 16)) := by
  rw [hqError, Nat.mod_eq_of_lt hk, Nat.mod_eq_of_lt hv]

/-- A doorbell's index has 16 bits. -/
theorem bitsOf_lt_of_doorbell (v : Word) : bitsOf 15 0 v < 65536 := Nat.mod_lt _ (by decide)

section
variable {s : State} (htrip : s.drc.trip = none) (hon : s.domOn 1 = true) {k : Nat} {v : Word}
include htrip hon

theorem exec_sqTail_of_inRange (hk : k < 512) (hv : bitsOf 15 0 v < sqSize s k) :
    exec (.sqTail k v) s = .next (setStoredTail k (bitsOf 15 0 v) s).irqSync := by
  rw [exec_sqTail, execSqTail]
  exact done_when (by rw [decide_eq_true hk, hon]; rfl) (if_pos hv) htrip

theorem exec_sqTail_of_outOfRange (hk : k < 512) (hv : sqSize s k ≤ bitsOf 15 0 v) :
    exec (.sqTail k v) s = .next (hqError 0 k false (bitsOf 15 0 v) s).irqSync := by
  rw [exec_sqTail, execSqTail]
  exact done_when (by rw [decide_eq_true hk, hon]; rfl) (if_neg (Nat.not_lt.mpr hv)) htrip

theorem exec_cqHead_of_inRange (hk : k < 256) (hv : bitsOf 15 0 v < cqSize s k) :
    exec (.cqHead k v) s = .next (setStoredHead k (bitsOf 15 0 v) s).irqSync := by
  rw [exec_cqHead, execCqHead]
  exact done_when (by rw [decide_eq_true hk, hon]; rfl) (if_pos hv) htrip

theorem exec_cqHead_of_outOfRange (hk : k < 256) (hv : cqSize s k ≤ bitsOf 15 0 v) :
    exec (.cqHead k v) s = .next (hqError 1 k true (bitsOf 15 0 v) s).irqSync := by
  rw [exec_cqHead, execCqHead]
  exact done_when (by rw [decide_eq_true hk, hon]; rfl) (if_neg (Nat.not_lt.mpr hv)) htrip

/-- A bad access of BAR0 or BAR4 is recorded. -/
theorem exec_badAccess_of_claimed {bar : Nat} (offset : Nat) (hbar : bar = 0 ∨ bar = 4) :
    exec (.badAccess bar offset) s = .next ((s.setBit HQ_ERR_STATUS 4).setReg HQ_BAD_ACCESS
      (BitVec.ofNat 32 (offset % 2 ^ 26 + (if bar = 4 then 2 else 0) * 2 ^ 26))).irqSync := by
  rw [exec_badAccess, execBadAccess]
  refine done_when ?_ rfl htrip
  rcases hbar with rfl | rfl <;> rw [hon] <;> rfl

end

/-- The tail's word of a queue page shows the stored tail. -/
theorem State.pageRead_irqSync_tail {s : State} (hon : s.domOn 1 = true) (k : Nat) :
    s.irqSync.pageRead k 0 = BitVec.ofNat 32 (storedTail s k) := by
  simp [State.pageRead, hon]

/-- The head's word of a queue page shows the stored head. -/
theorem State.pageRead_irqSync_head {s : State} (hon : s.domOn 1 = true) {k : Nat} (hk : k < 256) :
    s.irqSync.pageRead k 4 = BitVec.ofNat 32 (storedHead s k) := by
  simp [State.pageRead, hon, hk]

end Sys2Proof.Machine
end

section
open Sys2Proof Sys2Proof.Machine

/-- Settles O7: a doorbell in range is one write of the doorbell register file, another is the error `hqError` records. -/
theorem doorbellsAndBadAccess : Obligations.DoorbellsAndBadAccess := by
  unfold Obligations.DoorbellsAndBadAccess
  refine fun s htrip hon => ⟨fun k v hk hv => ?tail, fun k v hk hv => ?tailError, fun k v hk hv => ?head,
    fun k v hk hv => ?headError, fun bar offset => exec_badAccess_of_claimed htrip hon offset⟩
  case tail =>
    have hon' : (setStoredTail k (bitsOf 15 0 v) s).domOn 1 = true := hon
    refine ⟨_, exec_sqTail_of_inRange htrip hon hk hv, ?_, fun n => ?_, ?_⟩
    · rw [State.pageRead_irqSync_tail hon', storedTail_setStoredTail, if_pos rfl]
    · rw [storedTail_irqSync, storedTail_setStoredTail]
    · rw [State.irqSync_hq]
      exact congrArg (fun u : State => { u with hq := s.hq }) (State.irqSync_frame _)
  case tailError =>
    rw [exec_sqTail_of_outOfRange htrip hon hk hv, hqError_of_doorbell hk (bitsOf_lt_of_doorbell v)]
    rfl
  case head =>
    have hon' : (setStoredHead k (bitsOf 15 0 v) s).domOn 1 = true := hon
    refine ⟨_, exec_cqHead_of_inRange htrip hon hk hv, ?_, fun n => ?_, ?_⟩
    · rw [State.pageRead_irqSync_head hon' hk, storedHead_setStoredHead, if_pos rfl]
    · rw [storedHead_irqSync, storedHead_setStoredHead]
    · rw [State.irqSync_hq]
      exact congrArg (fun u : State => { u with hq := s.hq }) (State.irqSync_frame _)
  case headError =>
    rw [exec_cqHead_of_outOfRange htrip hon hk hv, hqError_of_doorbell (by omega) (bitsOf_lt_of_doorbell v)]
    rfl

end

section
/-!
PROOFS. Ring configuration (R64): a base or configuration word of a quiet ring is taken, another is refused as a whole.
-/
namespace Sys2Proof.Machine

theorem exec_hqSqCfgWrite (n reg : Nat) (data : Word) (s : State) :
    exec (.hqSqCfgWrite n reg data) s = execHqSqCfgWrite n reg data s := rfl
theorem exec_hqCqCfgWrite (k reg : Nat) (data : Word) (s : State) :
    exec (.hqCqCfgWrite k reg data) s = execHqCqCfgWrite k reg data s := rfl
theorem exec_peakClr (data : Word) (s : State) : exec (.peakClr data) s = execPeakClr data s := rfl

/-- A submission ring that is enabled starts at head and tail 0; a read issued before no longer moves its head. -/
def startSq (n : Nat) (s : State) : State :=
  let t := (setStoredTail n 0 s).setReg (HQ_SQ_STATUS n) 0
  { t with hq := { t.hq with fetches := t.hq.fetches.map (fun f => if f.sq = n then { f with live := false } else f) } }

/-- A completion ring that is enabled starts at head and tail 0 with phase 1. -/
def startCq (k : Nat) (s : State) : State := (setStoredHead k 0 s).setReg (HQ_CQ_STATUS k) 0x10000

section
variable {s : State} (htrip : s.drc.trip = none) (hon : s.domOn 1 = true)
include htrip hon

section
variable {n : Nat} (hn : n < 512) {reg : Nat} {data : Word}
include hn

theorem exec_hqSqCfgWrite_base_of_quiet (hreg : reg < 2) (hen : sqEn s n = false) (hfree : sqInflight s n = 0) :
    exec (.hqSqCfgWrite n reg data) s =
      .next (s.setReg (HQ_SQ_BASE_LO n + 4 * reg) (hostValue s (HQ_SQ_BASE_LO n + 4 * reg) data)).irqSync := by
  have hcfg : reg ≠ 2 := by omega
  rw [exec_hqSqCfgWrite, execHqSqCfgWrite]
  refine done_when (by rw [decide_eq_true hn, decide_eq_true (by omega : reg < 3), hon]; rfl) ?_ htrip
  simp only [if_pos hreg, hen, hfree, decide_eq_false hcfg, Bool.not_false, beq_self_eq_true, Bool.and_self, Bool.not_true,
    Bool.false_and, Bool.false_eq_true, if_false]

theorem exec_hqSqCfgWrite_base_of_busy (hreg : reg < 2) (hbusy : sqEn s n = true ∨ sqInflight s n ≠ 0) :
    exec (.hqSqCfgWrite n reg data) s = .next (hqError 3 n false 0 s).irqSync := by
  have hquiet : (!sqEn s n && sqInflight s n == 0) = false := by
    rcases hbusy with h | h
    · rw [h]; rfl
    · rw [beq_eq_false_iff_ne.mpr h, Bool.and_false]
  rw [exec_hqSqCfgWrite, execHqSqCfgWrite]
  refine done_when (by rw [decide_eq_true hn, decide_eq_true (by omega : reg < 3), hon]; rfl) ?_ htrip
  simp only [if_pos hreg, hquiet, Bool.not_false, if_true]

theorem exec_hqSqCfgWrite_start (hen : sqEn s n = false) (hfree : sqInflight s n = 0)
    (hset : bitAt 0 (hostValue s (HQ_SQ_BASE_LO n + 4 * 2) data) = true)
    (hsize : 4 ≤ fget HQ_SQ_CFG.SIZE_LOG2 (hostValue s (HQ_SQ_BASE_LO n + 4 * 2) data))
    (hcq : cqEn s (fget HQ_SQ_CFG.CQ_ID (hostValue s (HQ_SQ_BASE_LO n + 4 * 2) data)) = true) :
    exec (.hqSqCfgWrite n 2 data) s =
      .next (startSq n (s.setReg (HQ_SQ_BASE_LO n + 4 * 2) (hostValue s (HQ_SQ_BASE_LO n + 4 * 2) data))).irqSync := by
  rw [exec_hqSqCfgWrite, execHqSqCfgWrite]
  refine done_when (by rw [decide_eq_true hn, hon]; rfl) ?_ htrip
  simp only [hen, hfree, hset, hcq, decide_eq_false (Nat.not_lt.mpr hsize), Nat.lt_irrefl, if_false, Bool.not_false,
    beq_self_eq_true, Bool.and_self, Bool.not_true, Bool.and_false, Bool.or_self, Bool.false_eq_true, decide_true, if_true]
  rfl

end

section
variable {k : Nat} (hk : k < 256) {reg : Nat} {data : Word}
include hk

theorem exec_hqCqCfgWrite_base_of_quiet (hreg : reg < 2) (hres : cqReserved s k = 0) (hbound : cqBound s k = 0) :
    exec (.hqCqCfgWrite k reg data) s =
      .next (s.setReg (HQ_CQ_BASE_LO k + 4 * reg) (hostValue s (HQ_CQ_BASE_LO k + 4 * reg) data)).irqSync := by
  have hcfg : reg ≠ 2 := by omega
  rw [exec_hqCqCfgWrite, execHqCqCfgWrite]
  refine done_when (by rw [decide_eq_true hk, decide_eq_true (by omega : reg < 3), hon]; rfl) ?_ htrip
  simp only [hres, hbound, decide_eq_false hcfg, beq_self_eq_true, Bool.and_self, Bool.not_true, Bool.false_and,
    Bool.or_self, Bool.false_eq_true, if_false]

theorem exec_hqCqCfgWrite_of_busy (hreg : reg < 3) (hbusy : cqReserved s k ≠ 0 ∨ cqBound s k ≠ 0) :
    exec (.hqCqCfgWrite k reg data) s = .next (hqError 3 k true 0 s).irqSync := by
  have hquiet : (cqReserved s k == 0 && cqBound s k == 0) = false := by
    rwa [Bool.and_eq_false_iff, beq_eq_false_iff_ne, beq_eq_false_iff_ne]
  rw [exec_hqCqCfgWrite, execHqCqCfgWrite]
  refine done_when (by rw [decide_eq_true hk, decide_eq_true hreg, hon]; rfl) ?_ htrip
  simp only [hquiet, Bool.not_false, Bool.true_or, if_true]

theorem exec_hqCqCfgWrite_start (hres : cqReserved s k = 0) (hbound : cqBound s k = 0) (hen : cqEn s k = false)
    (hset : bitAt 0 (hostValue s (HQ_CQ_BASE_LO k + 4 * 2) data) = true)
    (hsize : 4 ≤ fget HQ_CQ_CFG.SIZE_LOG2 (hostValue s (HQ_CQ_BASE_LO k + 4 * 2) data)) :
    exec (.hqCqCfgWrite k 2 data) s =
      .next (startCq k (s.setReg (HQ_CQ_BASE_LO k + 4 * 2) (hostValue s (HQ_CQ_BASE_LO k + 4 * 2) data))).irqSync := by
  rw [exec_hqCqCfgWrite, execHqCqCfgWrite]
  refine done_when (by rw [decide_eq_true hk, hon]; rfl) ?_ htrip
  simp only [hres, hbound, hen, hset, decide_eq_false (Nat.not_lt.mpr hsize), Bool.not_false, beq_self_eq_true,
    Bool.and_self, Bool.not_true, Bool.and_false, Bool.or_self, Bool.false_eq_true, if_false, decide_true, if_true]
  rfl

end

theorem exec_peakClr_of_set {data : Word} (hset : bitAt 31 data = true) :
    exec (.peakClr data) s = .next (s.wr HQ_TAG_STATUS HQ_TAG_STATUS.PEAK s.jobList.length).irqSync := by
  rw [exec_peakClr, execPeakClr]
  exact done_when (by rw [hset, hon]; rfl) rfl htrip

end

end Sys2Proof.Machine
end

section
open Sys2Proof Sys2Proof.Machine

/-- Settles O10: the write's tests, ring by ring, come down to whether the ring is quiet. -/
theorem ringConfiguration : Obligations.RingConfiguration := by
  unfold Obligations.RingConfiguration
  intro s htrip hon
  exact ⟨fun n reg data hn => exec_hqSqCfgWrite_base_of_quiet htrip hon hn,
    fun n reg data hn => exec_hqSqCfgWrite_base_of_busy htrip hon hn,
    fun n data hn hen hfree => exec_hqSqCfgWrite_start htrip hon hn hen hfree,
    fun k reg data hk => exec_hqCqCfgWrite_base_of_quiet htrip hon hk,
    fun k data hk hres hbound hen => exec_hqCqCfgWrite_start htrip hon hk hres hbound hen,
    fun k reg data hk => exec_hqCqCfgWrite_of_busy htrip hon hk,
    fun data => exec_peakClr_of_set htrip hon⟩

end

section
/-!
PROOFS. What the host queue does beside admitting and dispatching: a failed fetch, a commit, a coalescing time-out and a
lost tag-table entry.
-/
namespace Sys2Proof.Machine

theorem exec_fetchError (n : Nat) (s : State) : exec (.fetchError n) s = execFetchError n s := rfl
theorem exec_completionCommit (slot : Nat) (s : State) :
    exec (.completionCommit slot) s = execCompletionCommit slot s := rfl
theorem exec_completionWrite (slot : Nat) (s : State) :
    exec (.completionWrite slot) s = execCompletionWrite slot s := rfl
theorem exec_coalTime (k : Nat) (s : State) : exec (.coalTime k) s = execCoalTime k s := rfl
theorem exec_uncorrectableTagEntry (slot : Nat) (s : State) :
    exec (.uncorrectableTagEntry slot) s = execUncorrectableTagEntry slot s := rfl

/-! ## Slots that return to FREE (R65) -/

theorem foldS_cons {α : Type} (f : α → State → State) (x : α) (xs : List α) (s : State) :
    foldS f (x :: xs) s = foldS f xs (f x s) := rfl

@[simp] theorem foldS_freeSlot_drc (xs : List Nat) (s : State) : (foldS freeSlot xs s).drc = s.drc :=
  foldS_keeps State.drc (f := freeSlot) (fun _ _ => rfl) xs s

theorem job_foldS_freeSlot (xs : List Nat) (x : Nat) : ∀ s : State,
    (foldS freeSlot xs s).job x = if x ∈ xs then Job.empty else s.job x := by
  induction xs with
  | nil => intro s; rfl
  | cons y ys ih =>
    intro s
    rw [foldS_cons, ih, freeSlot, State.job_setJob]
    by_cases hy : x = y <;> simp [hy]

/-- The oldest read of a ring fails. -/
theorem exec_fetchError_of_outstanding {s : State} {n : Nat} {f : Fetch} {rest : List Fetch} (htrip : s.drc.trip = none)
    (hf : takeFetch n s.hq.fetches = some (f, rest)) :
    exec (.fetchError n) s = .next (fetchFails n f rest s).irqSync := by
  rw [exec_fetchError, execFetchError, hf]
  exact done_next _ _ (by simpa [fetchFails] using htrip)

/-! ## Commits (R50, R53) -/

/-- The record of a RUNNING job that no earlier one bars is committed, and the FENCEs that waited go on. -/
theorem exec_completionCommit_of_next {s : State} {slot : Nat} (htrip : s.drc.trip = none)
    (hst : (s.job slot).st = .running) (hrec : (s.job slot).record = true) (hdam : (s.job slot).damaged = false)
    (hnext : commitsNow s (s.job slot) = true) :
    exec (.completionCommit slot) s =
      .next (settleFences (commitWith slot (s.job slot).status (s.job slot).results s)).irqSync := by
  rw [exec_completionCommit, execCompletionCommit]
  exact done_when (by dsimp only; rw [hst, hrec, hdam, hnext]; rfl) rfl (by simpa using htrip)

/-! ## Coalescing (R63) -/

theorem coalOf_notifyCq (s : State) (k c : Nat) : coalOf (notifyCq k s) c = if c = k then ⟨0, false⟩ else coalOf s c :=
  tabGet_tabSet _ _ _ _ _

/-- A coalescing time that has passed notifies the ring. -/
theorem exec_coalTime_of_running {s : State} {k : Nat} (htrip : s.drc.trip = none) (hk : k < 256)
    (hrun : (coalOf s k).running = true) (htime : s.rd (HQ_CQ_COAL k) HQ_CQ_COAL.COAL_TIME ≠ 0) :
    exec (.coalTime k) s = .next (notifyCq k s).irqSync := by
  rw [exec_coalTime, execCoalTime]
  exact done_when (by rw [decide_eq_true hk, hrun, bne_iff_ne.mpr htime]; rfl) rfl htrip

/-! ## Lost tag-table entries (R66) -/

@[simp] theorem tagUncorrectable_drc (slot : Nat) (s : State) : (tagUncorrectable slot s).drc = s.drc := by
  simp [tagUncorrectable]

theorem exec_uncorrectableTagEntry_of_used {s : State} {slot : Nat} (htrip : s.drc.trip = none) (hslot : slot < 1024)
    (hst : (s.job slot).st ≠ .free) :
    exec (.uncorrectableTagEntry slot) s = .next (tagUncorrectable slot s).irqSync := by
  rw [exec_uncorrectableTagEntry, execUncorrectableTagEntry]
  exact done_when (by rw [decide_eq_true hslot, decide_eq_true hst]; rfl) rfl (by simpa using htrip)

/-- The completion of a damaged job is never written. -/
theorem exec_completionWrite_of_damaged {s : State} {slot : Nat} (htrip : s.drc.trip = none)
    (hdam : (s.job slot).damaged = true) : exec (.completionWrite slot) s = .next s.irqSync := by
  rw [exec_completionWrite, execCompletionWrite, hdam]
  simp only [Bool.not_true, Bool.and_false, Bool.false_and, State.when_false]
  exact done_next _ _ htrip

end Sys2Proof.Machine
end

section
open Sys2Proof Sys2Proof.Machine

/-- Settles O13: each event by its row, with the entries of the tag table and the coalescing counts it leaves. -/
theorem hostQueueEvents : Obligations.HostQueueEvents := by
  unfold Obligations.HostQueueEvents
  refine fun s htrip => ⟨?fetchError, ?commit, ?coal, ?lost, fun slot => exec_completionWrite_of_damaged htrip⟩
  case fetchError =>
    intro n f rest hf t
    exact ⟨exec_fetchError_of_outstanding htrip hf, fun x => job_foldS_freeSlot f.slots x _⟩
  case commit =>
    intro slot hst hrec hdam hearlier t
    refine ⟨exec_completionCommit_of_next htrip hst hrec hdam (by rw [commitsNow, hearlier]; rfl),
      State.job_setJob_same _ _ _, fun x hx => State.job_setJob_ne _ _ hx, rfl⟩
  case coal =>
    intro k hk hrun htime
    refine ⟨_, exec_coalTime_of_running htrip hk hrun htime, ?_, fun c hc => ?_, rfl, rfl⟩
    · rw [coalOf_notifyCq, if_pos rfl]
    · rw [coalOf_notifyCq, if_neg hc]
  case lost => exact fun slot => exec_uncorrectableTagEntry_of_used htrip

end

section
/-!
PROOFS. Writing completions: the bytes of an entry, what writing one leaves of the ring's status and of host memory, and
that counting it towards the ring's notification changes the coalescing counts alone.
-/
namespace Sys2Proof.Machine

/-! ## Registers and fields -/

/-- A write of one field leaves a field of the same register that shares no bit with it. -/
theorem State.rd_wr_of_apart (s : State) (a : Nat) {f g : Fld} (v : Nat) (h : f.lo + f.w ≤ 32) (ha : f.apart g) :
    (s.wr a f v).rd a g = s.rd a g := by
  rw [State.wr, State.rd, State.reg_setReg_same, fget_fput_of_apart _ _ h ha, State.rd]

theorem State.reg_wr_ne (s : State) {a b : Nat} (f : Fld) (v : Nat) (h : b ≠ a) : (s.wr a f v).reg b = s.reg b :=
  State.reg_setReg_ne s _ h

@[simp] theorem State.job_irqSync (s : State) (x : Nat) : s.irqSync.job x = s.job x := by
  rw [State.job, State.irqSync_hq, State.job]

/-! ## The bytes of an entry (R9, R47) -/

theorem length_wordsBytes (ws : List Word) : (wordsBytes ws).length = 4 * ws.length := by
  induction ws with
  | nil => rfl
  | cons w ws ih =>
    have hcons : wordsBytes (w :: ws) = wordBytes w ++ wordsBytes ws := rfl
    rw [hcons, List.length_append, ih, List.length_cons]
    simp only [wordBytes, List.length_cons, List.length_nil]
    omega

/-- Where the entry at the tail of completion ring `k` stands in host memory. -/
def entryAddr (s : State) (k : Nat) : Nat := s.reg64 (HQ_CQ_BASE_LO k) (HQ_CQ_BASE_HI k) + 32 * cqTail s k

/-- The phase of the pass of completion ring `k`. -/
def cqPhase (s : State) (k : Nat) : Nat := s.rd (HQ_CQ_STATUS k) HQ_CQ_STATUS.PHASE

/-- An entry's seven words, and its phase. -/
def entryBytes (s : State) (k : Nat) (ws : List Word) : List Byte :=
  wordsBytes ((List.range 7).map (wordAt ws) ++ [BitVec.ofNat 32 (cqPhase s k)])

theorem length_entryBytes (s : State) (k : Nat) (ws : List Word) : (entryBytes s k ws).length = 32 := by
  rw [entryBytes, length_wordsBytes]
  rfl

/-! ## Writing an entry (R47 to R49) -/

/-- The tail moves past the entry, or wraps with the phase inverted. -/
def advanceTail (k : Nat) (s : State) : State :=
  if cqTail s k + 1 < cqSize s k then s.wr (HQ_CQ_STATUS k) HQ_CQ_STATUS.TAIL (cqTail s k + 1)
  else (s.wr (HQ_CQ_STATUS k) HQ_CQ_STATUS.TAIL 0).wr (HQ_CQ_STATUS k) HQ_CQ_STATUS.PHASE (1 - cqPhase s k)

/-- Writing host memory leaves what the advance of a tail depends on. -/
theorem advanceTail_hostMemWr (k : Nat) (s : State) (a : Nat) (bs : List Byte) : advanceTail k (hostMemWr s a bs) =
    if cqTail s k + 1 < cqSize s k then (hostMemWr s a bs).wr (HQ_CQ_STATUS k) HQ_CQ_STATUS.TAIL (cqTail s k + 1)
    else ((hostMemWr s a bs).wr (HQ_CQ_STATUS k) HQ_CQ_STATUS.TAIL 0).wr (HQ_CQ_STATUS k) HQ_CQ_STATUS.PHASE
      (1 - cqPhase s k) := rfl

theorem writeEntry_eq (k : Nat) (ws : List Word) (s : State) :
    writeEntry k ws s = advanceTail k (hostMemWr s (entryAddr s k) (entryBytes s k ws)) := by
  rw [advanceTail_hostMemWr]
  rfl

/-- Advancing a tail changes the register file alone. -/
theorem advanceTail_eq (k : Nat) (s : State) : advanceTail k s = { s with regs := (advanceTail k s).regs } := by
  have hregs : ∃ r, advanceTail k s = { s with regs := r } := by
    unfold advanceTail
    split <;> exact ⟨_, rfl⟩
  obtain ⟨r, hr⟩ := hregs
  rw [hr]

theorem reg_advanceTail_ne (k : Nat) (s : State) {a : Nat} (h : a ≠ HQ_CQ_STATUS k) :
    (advanceTail k s).reg a = s.reg a := by
  unfold advanceTail
  split
  · exact State.reg_wr_ne s _ _ h
  · rw [State.reg_wr_ne _ _ _ h, State.reg_wr_ne _ _ _ h]

theorem tail_apart_phase : HQ_CQ_STATUS.TAIL.apart HQ_CQ_STATUS.PHASE := Or.inl (by decide)

theorem advanceTail_of_room {k : Nat} {s : State} (h : cqTail s k + 1 < cqSize s k) :
    cqTail (advanceTail k s) k = (cqTail s k + 1) % 2 ^ 16 ∧ cqPhase (advanceTail k s) k = cqPhase s k := by
  rw [advanceTail, if_pos h]
  exact ⟨State.rd_wr_same _ _ _ _ (by decide), State.rd_wr_of_apart _ _ _ (by decide) tail_apart_phase⟩

theorem advanceTail_of_end {k : Nat} {s : State} (h : cqSize s k ≤ cqTail s k + 1) :
    cqTail (advanceTail k s) k = 0 ∧ cqPhase (advanceTail k s) k = (1 - cqPhase s k) % 2 := by
  rw [advanceTail, if_neg (Nat.not_lt.mpr h)]
  refine ⟨?_, State.rd_wr_same _ _ _ _ (by decide)⟩
  rw [cqTail, State.rd_wr_of_apart _ _ _ (by decide) (Fld.apart_comm tail_apart_phase),
    State.rd_wr_same _ _ _ _ (by decide)]
  rfl

/-! ## The notification (R63) -/

/-- An entry counts towards its ring's notification unless its job is quiet. -/
def noteEntry (quiet : Bool) (k : Nat) (s : State) : State := if quiet then s else countEntry k s

/-- Counting an entry changes the coalescing counts and what is sent, and nothing else. -/
theorem noteEntry_eq (quiet : Bool) (k : Nat) (s : State) : ∃ c m, noteEntry quiet k s =
    { s with hq := { s.hq with coal := c }, icu := { s.icu with msgs := m } } := by
  unfold noteEntry countEntry
  dsimp only
  split_ifs <;> exact ⟨_, _, rfl⟩

/-! ## COMPLETION_WRITE -/

/-- The seven words of the entry of job `j`. -/
def entryWords (j : Job) : List Word :=
  BitVec.ofNat 32 (j.tag + j.status % 256 * 2 ^ 16 + j.opcode * 2 ^ 24) ::
    BitVec.ofNat 32 (j.sq + j.head * 2 ^ 16) :: j.results

/-- The state once the completion of the job at `slot` stands in host memory as the bytes `bs` at `a`. -/
def completed (slot a : Nat) (bs : List Byte) (s : State) : State :=
  noteEntry (s.job slot).quiet (s.job slot).cq (freeSlot slot (advanceTail (s.job slot).cq (hostMemWr s a bs)))

section
variable (slot a : Nat) (bs : List Byte) (s : State)

/-- What a completion changes: the ring's status, the tag table, the coalescing counts, host memory and what is sent. -/
theorem completed_eq : ∃ c m, completed slot a bs s = { s with
    regs := (advanceTail (s.job slot).cq (hostMemWr s a bs)).regs
    hq := { s.hq with jobs := tabSet (fun _ => Job.empty) s.hq.jobs slot Job.empty, coal := c }
    host := { s.host with mem := tabSetRange (fun _ => 0) s.host.mem a bs, relaxed := false }
    icu := { s.icu with msgs := m } } := by
  obtain ⟨c, m, hnote⟩ := noteEntry_eq (s.job slot).quiet (s.job slot).cq
    (freeSlot slot (advanceTail (s.job slot).cq (hostMemWr s a bs)))
  refine ⟨c, m, ?_⟩
  rw [completed, hnote, advanceTail_eq]
  rfl

theorem reg_completed (b : Nat) :
    (completed slot a bs s).reg b = (advanceTail (s.job slot).cq (hostMemWr s a bs)).reg b := by
  obtain ⟨c, m, h⟩ := completed_eq slot a bs s
  rw [h, advanceTail_eq]
  rfl

theorem rd_completed (b : Nat) (f : Fld) :
    (completed slot a bs s).rd b f = (advanceTail (s.job slot).cq (hostMemWr s a bs)).rd b f := by
  rw [State.rd, reg_completed, State.rd]

theorem job_completed (x : Nat) : (completed slot a bs s).job x = if x = slot then Job.empty else s.job x := by
  obtain ⟨c, m, h⟩ := completed_eq slot a bs s
  rw [h]
  exact tabGet_tabSet _ _ _ _ _

/-- The entry stands in host memory, written without Relaxed Ordering. -/
theorem host_completed : (completed slot a bs s).host =
    { s.host with mem := tabSetRange (fun _ => 0) s.host.mem a bs, relaxed := false } := by
  obtain ⟨c, m, h⟩ := completed_eq slot a bs s
  rw [h]

theorem completed_drc : (completed slot a bs s).drc = s.drc := by
  obtain ⟨c, m, h⟩ := completed_eq slot a bs s
  rw [h]

end

/-- The completion of a committed job is written. -/
theorem exec_completionWrite_of_committed {s : State} {slot : Nat} (htrip : s.drc.trip = none)
    (hst : (s.job slot).st = .committed) (hdam : (s.job slot).damaged = false) (hlink : s.linkUp = true) :
    exec (.completionWrite slot) s = .next (completed slot (entryAddr s (s.job slot).cq)
      (entryBytes s (s.job slot).cq (entryWords (s.job slot))) s).irqSync := by
  rw [exec_completionWrite, execCompletionWrite]
  refine done_when (by rw [hst, hdam, hlink]; rfl) ?_ (by rwa [completed_drc])
  rw [completed, ← writeEntry_eq]
  rfl

end Sys2Proof.Machine
end

section
open Sys2Proof Sys2Proof.Machine

/-- Settles O14: the state is `completed`, whose parts are the range written, the tail advanced and the slot freed. -/
theorem completionEntryWritten : Obligations.CompletionEntryWritten := by
  unfold Obligations.CompletionEntryWritten
  intro s slot htrip hst hdam hlink j at_ ph entry
  have hlen : entry.length = 32 := length_entryBytes s j.cq (entryWords j)
  have hexec : exec (.completionWrite slot) s = .next (completed slot at_ entry s).irqSync :=
    exec_completionWrite_of_committed htrip hst hdam hlink
  clear_value at_ entry
  refine ⟨_, hexec, hlen, ?entry, ?others, ?slot, ?jobs, ?room, ?wrap, ?regs, ?relaxed, ?frame⟩
  case entry =>
    rw [State.irqSync_host, host_completed, ← hlen]
    exact tabGetRange_tabSetRange _ _ _ _
  case others =>
    intro a ha
    rw [State.irqSync_host, host_completed]
    exact tabGet_tabSetRange_out _ _ _ _ _ (by rwa [hlen])
  case slot => rw [State.job_irqSync, job_completed, if_pos rfl]
  case jobs => intro x hx; rw [State.job_irqSync, job_completed, if_neg hx]
  case room =>
    intro h
    rw [cqTail, State.rd_irqSync, State.rd_irqSync, rd_completed, rd_completed]
    exact advanceTail_of_room (s := hostMemWr s at_ entry) h
  case wrap =>
    intro h
    rw [cqTail, State.rd_irqSync, State.rd_irqSync, rd_completed, rd_completed]
    exact advanceTail_of_end (s := hostMemWr s at_ entry) h
  case regs =>
    intro a ha
    rw [State.reg_irqSync, reg_completed, reg_advanceTail_ne _ _ ha]
    rfl
  case relaxed => rw [State.irqSync_host, host_completed]
  case frame =>
    obtain ⟨c, m, h⟩ := completed_eq slot at_ entry s
    rw [h]
    exact congrArg (fun u : State => { u with regs := s.regs, hq := s.hq, host := s.host }) (State.irqSync_frame _)

end

section
/-!
PROOFS. Fetching (R51, R52): which slots a visit to a ring reserves, how many, and what the tag table holds afterwards.
-/
namespace Sys2Proof.Machine

theorem exec_submissionFetch (n : Nat) (s : State) : exec (.submissionFetch n) s = execSubmissionFetch n s := rfl

/-! ## How many entries, and which slots -/

/-- The free slots a ring may reserve are told apart. -/
theorem nodup_freeTags (s : State) (ctrl : Bool) : (freeTags s ctrl).Nodup := by
  have hgen : ∀ p : Nat → Bool, ((List.range 1016).filter p).Nodup := fun p => List.nodup_range.filter p
  unfold freeTags
  dsimp only
  split
  · refine (hgen _).append (List.Nodup.filter _ List.nodup_range') fun x hx hy => ?_
    have hlow := List.mem_range.mp (List.mem_filter.mp hx).1
    obtain ⟨hhigh, -⟩ := List.mem_range'_1.mp (List.mem_filter.mp hy).1
    omega
  · exact hgen _

/-- A visit fetches no more than the burst, the stored tail, the end of the ring, the longest read and the completion slots
allow. -/
theorem fetchCount_le (s : State) (n : Nat) :
    fetchCount s n ≤ s.rd (HQ_SQ_CFG n) HQ_SQ_CFG.BURST + 1 ∧
    fetchCount s n ≤ (storedTail s n + sqSize s n - sqHead s n) % sqSize s n ∧
    fetchCount s n ≤ sqSize s n - sqHead s n ∧ 64 * fetchCount s n ≤ maxReadBytes s ∧
    fetchCount s n ≤ freeSlots s (s.rd (HQ_SQ_CFG n) HQ_SQ_CFG.CQ_ID) := by
  unfold fetchCount
  dsimp only
  omega

/-! ## Reserving slots -/

/-- Slot `x` enters FETCHING for submission ring `n` and completion ring `k`, under the next number of admission. -/
def reserveSlot (n k x : Nat) (s : State) : State :=
  let t := s.setJob x { Job.empty with st := .fetching, sq := n, cq := k, seq := s.hq.seq }
  { t with hq := { t.hq with seq := t.hq.seq + 1 } }

theorem job_reserveSlot (n k x y : Nat) (s : State) : (reserveSlot n k x s).job y =
    if y = x then { Job.empty with st := .fetching, sq := n, cq := k, seq := s.hq.seq } else s.job y :=
  State.job_setJob s x y _

/-- Reserving slots changes the tag table and the count of admissions alone. -/
theorem foldS_reserveSlot_eq (n k : Nat) (xs : List Nat) : ∀ s : State, ∃ js, foldS (reserveSlot n k) xs s =
    { s with hq := { s.hq with jobs := js, seq := s.hq.seq + xs.length } } := by
  induction xs with
  | nil => exact fun s => ⟨s.hq.jobs, rfl⟩
  | cons x xs ih =>
    intro s
    obtain ⟨js, h⟩ := ih (reserveSlot n k x s)
    refine ⟨js, ?_⟩
    rw [foldS_cons, h, List.length_cons, Nat.add_comm xs.length 1, ← Nat.add_assoc]
    rfl

/-- The slots reserved are numbered in order, and every other entry is as before. -/
theorem job_foldS_reserveSlot (n k : Nat) (xs : List Nat) (x : Nat) : ∀ s : State, xs.Nodup →
    (foldS (reserveSlot n k) xs s).job x = if x ∈ xs then
      { Job.empty with st := .fetching, sq := n, cq := k, seq := s.hq.seq + xs.idxOf x } else s.job x := by
  induction xs with
  | nil => exact fun s _ => rfl
  | cons y ys ih =>
    intro s hnodup
    obtain ⟨hy, hys⟩ := List.nodup_cons.mp hnodup
    have hseq : (reserveSlot n k y s).hq.seq = s.hq.seq + 1 := rfl
    rw [foldS_cons, ih _ hys, job_reserveSlot, hseq]
    by_cases hxy : x = y
    · subst hxy
      simp [hy]
    · rw [List.idxOf_cons_ne _ (Ne.symm hxy)]
      simp only [List.mem_cons, hxy, false_or, if_false, Nat.add_assoc, Nat.add_comm 1]

/-! ## The visit (R52) -/

/-- The state once a visit to ring `n` has reserved `slots`: one more read is outstanding, from the ring's head. -/
def fetched (n : Nat) (slots : List Nat) (s : State) : State :=
  let t := foldS (reserveSlot n (s.rd (HQ_SQ_CFG n) HQ_SQ_CFG.CQ_ID)) slots s
  let f : Fetch := ⟨n, sqHead t n, slots, true⟩
  let u := { t with hq := { t.hq with fetches := t.hq.fetches ++ [f], rr := n } }
  u.wr HQ_TAG_STATUS HQ_TAG_STATUS.PEAK (max (u.rd HQ_TAG_STATUS HQ_TAG_STATUS.PEAK) u.jobList.length)

theorem fetched_eq (n : Nat) (slots : List Nat) (s : State) : ∃ js peak, fetched n slots s =
    ({ s with hq := { s.hq with
      jobs := js
      seq := s.hq.seq + slots.length
      fetches := s.hq.fetches ++ [⟨n, sqHead s n, slots, true⟩]
      rr := n } } : State).wr HQ_TAG_STATUS HQ_TAG_STATUS.PEAK peak := by
  obtain ⟨js, h⟩ := foldS_reserveSlot_eq n (s.rd (HQ_SQ_CFG n) HQ_SQ_CFG.CQ_ID) slots s
  rw [fetched, h]
  exact ⟨js, _, rfl⟩

theorem job_fetched (n : Nat) {slots : List Nat} (s : State) (x : Nat) (hnodup : slots.Nodup) :
    (fetched n slots s).job x = if x ∈ slots then { Job.empty with
        st := .fetching, sq := n, cq := s.rd (HQ_SQ_CFG n) HQ_SQ_CFG.CQ_ID, seq := s.hq.seq + slots.idxOf x }
      else s.job x :=
  job_foldS_reserveSlot n _ slots x s hnodup

/-- With fetching enabled and the link up, the ring whose turn it is is visited. -/
theorem exec_submissionFetch_of_next {s : State} {n : Nat} (htrip : s.drc.trip = none) (hon : s.domOn 1 = true)
    (hlink : s.linkUp = true) (hen : bitAt 0 (s.reg HQ_CTL) = true) (hnext : nextRing s = some n) :
    exec (.submissionFetch n) s =
      .next (fetched n ((freeTags s (bitAt 1 (s.reg (HQ_SQ_CFG n)))).take (fetchCount s n)) s).irqSync := by
  rw [exec_submissionFetch, execSubmissionFetch]
  refine done_when (by rw [hon, hlink, hen, hnext]; simp) rfl ?_
  obtain ⟨js, peak, h⟩ := fetched_eq n ((freeTags s (bitAt 1 (s.reg (HQ_SQ_CFG n)))).take (fetchCount s n)) s
  rw [h]
  exact htrip

end Sys2Proof.Machine
end

section
open Sys2Proof Sys2Proof.Machine

/-- Settles O11: the bounds are those of the least in `fetchCount`, and the slots reserved, which are told apart, are
numbered by induction over them. -/
theorem fetchReservesTags : Obligations.FetchReservesTags := by
  unfold Obligations.FetchReservesTags
  intro s n htrip hon hlink hen hnext slots
  have hnodup : slots.Nodup := (nodup_freeTags s _).sublist (List.take_sublist _ _)
  have hexec : exec (.submissionFetch n) s = .next (fetched n slots s).irqSync :=
    exec_submissionFetch_of_next htrip hon hlink hen hnext
  clear_value slots
  obtain ⟨js, peak, h⟩ := fetched_eq n slots s
  obtain ⟨hburst, hstored, hend, hread, hfree⟩ := fetchCount_le s n
  refine ⟨hburst, hstored, hend, hread, hfree, _, hexec, ?fetches, ?turn, ?seq, ?jobs, ?regs, ?frame⟩
  case fetches => rw [State.irqSync_hq, h]; rfl
  case turn => rw [State.irqSync_hq, h]; rfl
  case seq => rw [State.irqSync_hq, h]; rfl
  case jobs => intro x; rw [State.job_irqSync, job_fetched n s x hnodup]
  case regs => intro a ha; rw [State.reg_irqSync, h, State.reg_wr_ne _ _ _ ha]; rfl
  case frame =>
    rw [h]
    exact congrArg (fun u : State => { u with regs := s.regs, hq := s.hq }) (State.irqSync_frame _)

end

section
/-!
PROOFS. Admission (R45, R50, R57): the entries of a read that has returned, one by one, up to a FENCE.
-/
namespace Sys2Proof.Machine

theorem exec_submissionEntryArrival (n : Nat) (entries : List (List Word)) (s : State) :
    exec (.submissionEntryArrival n entries) s = execSubmissionEntryArrival n entries s := rfl

/-! ## Entries that are no FENCE -/

/-- The entry `ws` becomes the QUEUED job of slot `x`, under the next number of admission. -/
def admitOne (x : Nat) (ws : List Word) (s : State) : State :=
  ({ s with hq := { s.hq with seq := s.hq.seq + 1 } } : State).setJob x
    { s.job x with st := .queued, words := ws, seq := s.hq.seq }

theorem job_admitOne (x : Nat) (ws : List Word) (s : State) (y : Nat) : (admitOne x ws s).job y =
    if y = x then { s.job x with st := .queued, words := ws, seq := s.hq.seq } else s.job y :=
  State.job_setJob _ x y _

/-- An entry that is no FENCE is admitted, and the next one after it. -/
theorem admitJobs_cons_of_not_fence {x : Nat} {ws : List Word} (rest : List (Nat × List Word)) (k : Nat) (s : State)
    (h : bitsOf 7 0 (wordAt ws 0) ≠ opFence) :
    admitJobs ((x, ws) :: rest) k s = admitJobs rest (k + 1) (admitOne x ws s) := by
  rw [admitJobs]
  exact if_neg h

/-- With no FENCE among them the head passes every entry. -/
theorem admitJobs_count {xs : List (Nat × List Word)} : ∀ (k : Nat) (s : State),
    (∀ x ∈ xs, bitsOf 7 0 (wordAt x.2 0) ≠ opFence) → (admitJobs xs k s).1 = k + xs.length := by
  induction xs with
  | nil => exact fun k s _ => rfl
  | cons e rest ih =>
    intro k s hplain
    obtain ⟨he, hrest⟩ := List.forall_mem_cons.mp hplain
    rw [admitJobs_cons_of_not_fence rest k s he, ih _ _ hrest, List.length_cons]
    omega

/-- With no FENCE among them a slot of none of the entries is as before. -/
theorem job_admitJobs_of_not_mem {xs : List (Nat × List Word)} {y : Nat} : ∀ (k : Nat) (s : State),
    (∀ x ∈ xs, bitsOf 7 0 (wordAt x.2 0) ≠ opFence) → y ∉ xs.map Prod.fst → (admitJobs xs k s).2.job y = s.job y := by
  induction xs with
  | nil => exact fun k s _ _ => rfl
  | cons e rest ih =>
    intro k s hplain hy
    obtain ⟨he, hrest⟩ := List.forall_mem_cons.mp hplain
    obtain ⟨hne, hyrest⟩ := not_or.mp (mt List.mem_cons.mpr hy)
    rw [admitJobs_cons_of_not_fence rest k s he, ih _ _ hrest hyrest, job_admitOne, if_neg hne]

/-- With no FENCE among them the slot of each entry holds it QUEUED, numbered in order. -/
theorem job_admitJobs_of_mem {xs : List (Nat × List Word)} {x : Nat} {ws : List Word} : ∀ (k : Nat) (s : State),
    (xs.map Prod.fst).Nodup → (∀ x ∈ xs, bitsOf 7 0 (wordAt x.2 0) ≠ opFence) → (x, ws) ∈ xs →
    (admitJobs xs k s).2.job x =
      { s.job x with st := .queued, words := ws, seq := s.hq.seq + (xs.map Prod.fst).idxOf x } := by
  induction xs with
  | nil => exact fun k s _ _ hmem => absurd hmem List.not_mem_nil
  | cons e rest ih =>
    intro k s hnodup hplain hmem
    obtain ⟨he, hrest⟩ := List.forall_mem_cons.mp hplain
    obtain ⟨hfst, hnodup⟩ := List.nodup_cons.mp hnodup
    rw [admitJobs_cons_of_not_fence rest k s he]
    rcases List.mem_cons.mp hmem with rfl | hmem
    · rw [job_admitJobs_of_not_mem _ _ hrest hfst, job_admitOne, if_pos rfl, List.map_cons, List.idxOf_cons_self]
      rfl
    · have hne : x ≠ e.1 := fun h => hfst (h ▸ List.mem_map_of_mem hmem)
      have hseq : (admitOne e.1 e.2 s).hq.seq = s.hq.seq + 1 := rfl
      rw [ih _ _ hnodup hrest hmem, job_admitOne, if_neg hne, hseq, List.map_cons, List.idxOf_cons_ne _ (Ne.symm hne),
        Nat.add_assoc, Nat.add_comm 1]

/-! ## A FENCE (R56, R57) -/

/-- The FENCE `ws` becomes the QUEUED job of slot `x`, with its snapshot. -/
def admitFence (x : Nat) (ws : List Word) (s : State) : State :=
  let j := { s.job x with st := .queued, words := ws, seq := s.hq.seq }
  let snap := fenceSnapshot s j.sq (bitAt 0 (j.w 2))
  ({ s with hq := { s.hq with seq := s.hq.seq + 1 } } : State).setJob x
    { j with snap := snap, waited := snap.length, gate := bitAt 1 (j.w 2) && snap.isEmpty && fenceOk j }

theorem job_admitFence (x : Nat) (ws : List Word) (s : State) :
    ((admitFence x ws s).job x).st = .queued ∧ ((admitFence x ws s).job x).words = ws ∧
    ((admitFence x ws s).job x).snap = fenceSnapshot s (s.job x).sq (bitAt 0 (wordAt ws 2)) := by
  rw [admitFence, State.job_setJob_same]
  exact ⟨rfl, rfl, rfl⟩

/-- Behind a FENCE nothing is admitted: the slots of the entries after it return to FREE. -/
theorem admitJobs_cons_of_fence (x : Nat) {ws : List Word} (rest : List (Nat × List Word)) (k : Nat) (s : State)
    (h : bitsOf 7 0 (wordAt ws 0) = opFence) :
    admitJobs ((x, ws) :: rest) k s = (k + 1, foldS freeSlot (rest.map Prod.fst) (admitFence x ws s)) := by
  rw [admitJobs, foldS, List.foldl_map]
  exact if_pos h

/-! ## The arrival -/

@[simp] theorem admitJobs_drc (xs : List (Nat × List Word)) : ∀ (k : Nat) (s : State),
    (admitJobs xs k s).2.drc = s.drc := by
  induction xs with
  | nil => exact fun k s => rfl
  | cons e rest ih =>
    intro k s
    by_cases h : bitsOf 7 0 (wordAt e.2 0) = opFence
    · rw [admitJobs_cons_of_fence e.1 rest k s h, foldS_freeSlot_drc]
      rfl
    · rw [admitJobs_cons_of_not_fence rest k s h, ih]
      rfl

/-- The entries of the oldest read of a ring are admitted, and the head passes those admitted. -/
theorem exec_submissionEntryArrival_of_oldest {s : State} {n : Nat} {entries : List (List Word)} {f : Fetch}
    {rest : List Fetch} (htrip : s.drc.trip = none) (hf : takeFetch n s.hq.fetches = some (f, rest))
    (hlen : entries.length = f.slots.length) (hwords : ∀ e ∈ entries, e.length = 16) (hlive : f.live = true)
    (hidle : bitsOf 7 0 (s.raw HQ_FAULT_INJECT) = 0) :
    let a := admitJobs (f.slots.zip entries) 0 { s with hq := { s.hq with fetches := rest } }
    exec (.submissionEntryArrival n entries) s =
      .next (a.2.wr (HQ_SQ_STATUS n) HQ_SQ_STATUS.HEAD ((f.first + a.1) % sqSize a.2 n)).irqSync := by
  intro a
  have hall : entries.all (fun e => e.length == 16) = true := List.all_eq_true.mpr fun e he => beq_iff_eq.mpr (hwords e he)
  rw [exec_submissionEntryArrival, execSubmissionEntryArrival, hf]
  refine done_when (by rw [hlen, hall, beq_self_eq_true]; rfl) ?_ ?_
  · simp only [fabricCheck_of_idle (fs := HQ_FAULT_STATUS) _ hidle, hlive, if_true]
    rfl
  · rw [State.wr_drc, admitJobs_drc]
    exact htrip

end Sys2Proof.Machine
end

section
open Sys2Proof Sys2Proof.Machine

/-- Settles O12: plain entries by induction over them, a FENCE by its own step. -/
theorem arrivalAdmitsEntries : Obligations.ArrivalAdmitsEntries := by
  unfold Obligations.ArrivalAdmitsEntries
  refine ⟨fun s n entries f rest => exec_submissionEntryArrival_of_oldest, ?plain, ?fence⟩
  case plain =>
    intro s xs k hnodup hplain
    exact ⟨admitJobs_count k s hplain, fun x ws => job_admitJobs_of_mem k s hnodup hplain,
      fun y => job_admitJobs_of_not_mem k s hplain⟩
  case fence =>
    intro s x ws rest k hx hfence a
    have hadmit : a = (k + 1, foldS freeSlot (rest.map Prod.fst) (admitFence x ws s)) :=
      admitJobs_cons_of_fence x rest k s hfence
    obtain ⟨hst, hwords, hsnap⟩ := job_admitFence x ws s
    rw [hadmit, job_foldS_freeSlot, if_neg hx]
    refine ⟨rfl, hst, hwords, hsnap, fun y hy => ?_⟩
    rw [job_foldS_freeSlot, if_pos hy]

end

section
/-!
PROOFS. DECODE_UNIT jobs as the stream context scheduler sees them (R78 to R81), and the choices it makes: the context of
the highest class (R86) and the sequencer that has served the fewest units (R120).
-/
namespace Sys2Proof.Machine

theorem exec_decodeUnit (slot : Nat) (s : State) : exec (.decodeUnit slot) s = execDecodeUnit slot s := rfl

/-! ## A unit that is seen -/

@[simp] theorem presentRef_drc (r : JobRef) (status : Nat) (results : List Word) (s : State) :
    (presentRef r status results s).drc = s.drc := by
  unfold presentRef
  split_ifs <;> rfl

@[simp] theorem acceptRef_drc (r : JobRef) (s : State) : (acceptRef r s).drc = s.drc := by
  unfold acceptRef
  dsimp only
  split <;> rfl

/-- What a FLUSH of length 0 leaves of context `c`, and with RELEASE_BITSTREAM of the buffer it names: the next pending
picture is published, after DISCONTINUITY has discarded the reference marks, and the job `r` reports it. -/
def flushed (c : Nat) (r : JobRef) (ws : List Word) (s : State) : State :=
  let t := acceptRef r s
  let o := publishNext c (if duDisc ws then discontinuity c t else t)
  presentRef r stOk (unitResults (o.1.map (fun p => (wordAt p.1.words 0, p.2.1, p.2.2, p.1.stamp))) 0)
    (if duRelease ws && duHandle ws != 0 then releaseS 8 (duHandle ws) o.2 else o.2)

section
variable {s : State} {slot : Nat} (hsee : maySee s (s.job slot) = true) (hon : s.domOn 1 = true)
  (hidle : bitsOf 7 0 (s.raw HQ_FAULT_INJECT) = 0)
include hsee hon hidle

/-- A unit that nothing refuses waits, with its words, for its context's turn. -/
theorem exec_decodeUnit_of_waiting {x : Ctx} (htrip : s.drc.trip = none) (href : unitRefusal s (s.job slot) = none)
    (hctx : ctxOf s (s.job slot).context = some x) (hlen : duLength (s.job slot).words ≠ 0) :
    exec (.decodeUnit slot) s = .next (setCtx (s.job slot).context
      (some { x with waiting := waitingOf s x ++ [⟨s.jobRef slot, (s.job slot).words⟩] })
      (s.setJob slot { s.job slot with begun := true })).irqSync := by
  rw [exec_decodeUnit, execDecodeUnit]
  refine done_when (by rw [hsee, hon]; rfl) ?_ htrip
  simp only [tagCheck_of_idle slot hidle, href, hctx, if_neg hlen]

/-- A unit the rules refuse is accepted, and its record presents the status. -/
theorem exec_decodeUnit_of_refused {st : Nat} (htrip : s.drc.trip = none) (href : unitRefusal s (s.job slot) = some st) :
    exec (.decodeUnit slot) s = .next (presentRef (s.jobRef slot) st [] (acceptRef (s.jobRef slot) s)).irqSync := by
  rw [exec_decodeUnit, execDecodeUnit]
  refine done_when (by rw [hsee, hon]; rfl) ?_ (by simpa using htrip)
  simp only [tagCheck_of_idle slot hidle, href, refuseRef]

/-- A FLUSH of length 0 with nothing before it takes effect at once. -/
theorem exec_decodeUnit_of_flush {x : Ctx} (href : unitRefusal s (s.job slot) = none)
    (hctx : ctxOf s (s.job slot).context = some x) (hlen : duLength (s.job slot).words = 0)
    (hwait : waitingOf s x = []) (hpic : picOf s (s.job slot).context = none)
    (htrip : (flushed (s.job slot).context (s.jobRef slot) (s.job slot).words s).drc.trip = none) :
    exec (.decodeUnit slot) s =
      .next (flushed (s.job slot).context (s.jobRef slot) (s.job slot).words s).irqSync := by
  rw [exec_decodeUnit, execDecodeUnit]
  refine done_when (by rw [hsee, hon]; rfl) ?_ htrip
  simp only [tagCheck_of_idle slot hidle, href, hctx, if_pos hlen, hwait, hpic, List.isEmpty_nil, Option.isNone_none,
    Bool.and_self, if_true]
  rfl

end

/-! ## The context R86 selects -/

theorem Ctx.prio_lt (x : Ctx) : x.prio < 4 := Nat.mod_lt _ (by decide)

/-- A context of class `k` that is ready. -/
def readyOf (s : State) (k c : Nat) : Bool :=
  match ctxOf s c with
  | none => false
  | some x => x.prio == k && ctxReady s c

theorem readyOf_iff (s : State) (k c : Nat) :
    readyOf s k c = true ↔ ctxReady s c = true ∧ ∃ x, ctxOf s c = some x ∧ x.prio = k := by
  unfold readyOf
  cases hx : ctxOf s c with
  | none => simp
  | some x => simp [and_comm]

/-- The contexts in the order a class's round robin visits them: all of them. -/
theorem mem_rotation (g : Nat) {d : Nat} (hd : d < 512) : d ∈ (List.range 512).map (fun i => (g + 1 + i) % 512) :=
  List.mem_map.mpr ⟨(d + 512 - (g + 1) % 512) % 512, List.mem_range.mpr (Nat.mod_lt _ (by decide)), by omega⟩

theorem readyInClass_eq (s : State) (k : Nat) : readyInClass s k = ((List.range 512).map (fun i =>
    (tabGet (fun _ => 511) s.dec.granted k + 1 + i) % 512)).find? (readyOf s k) := rfl

theorem readyOf_of_readyInClass {s : State} {k c : Nat} (h : readyInClass s k = some c) :
    c < 512 ∧ readyOf s k c = true := by
  rw [readyInClass_eq] at h
  obtain ⟨i, -, rfl⟩ := List.mem_map.mp (List.mem_of_find?_eq_some h)
  exact ⟨Nat.mod_lt _ (by decide), List.find?_some h⟩

/-- A class none of whose contexts is picked has no ready one. -/
theorem readyInClass_isSome {s : State} {k d : Nat} (hd : d < 512) (hready : readyOf s k d = true) :
    (readyInClass s k).isSome = true := by
  rw [readyInClass_eq, List.find?_isSome]
  exact ⟨d, mem_rotation _ hd, hready⟩

/-- The context picked is the one of its class's turn, and no higher class has any. -/
theorem pickCtx_eq_some {s : State} {c : Nat} (h : pickCtx s = some c) :
    ∃ k, readyInClass s k = some c ∧ ∀ m, k < m → m < 4 → readyInClass s m = none := by
  obtain ⟨above, k, below, hsplit, hk, hnone⟩ := List.findSome?_eq_some_iff.mp h
  have hsorted : (above ++ k :: below).Pairwise (· > ·) := hsplit ▸ (by decide)
  obtain ⟨-, hbelow, -⟩ := List.pairwise_append.mp hsorted
  refine ⟨k, hk, fun m hkm hm => hnone m ?_⟩
  have hmem : m ∈ above ++ k :: below := by
    rw [← hsplit]
    simp only [List.mem_cons, List.not_mem_nil, or_false]
    omega
  rcases List.mem_append.mp hmem with habove | hrest
  · exact habove
  · rcases List.mem_cons.mp hrest with rfl | hlow
    · exact absurd hkm (Nat.lt_irrefl _)
    · exact absurd ((List.pairwise_cons.mp hbelow).1 m hlow) (by omega)

/-- The context picked is ready, and no ready context has a higher class. -/
theorem pickCtx_highest {s : State} {c : Nat} (h : pickCtx s = some c) : c < 512 ∧ ctxReady s c = true ∧
    ∃ x, ctxOf s c = some x ∧ ∀ d y, d < 512 → ctxOf s d = some y → ctxReady s d = true → y.prio ≤ x.prio := by
  obtain ⟨k, hk, hhigher⟩ := pickCtx_eq_some h
  obtain ⟨hc, hready⟩ := readyOf_of_readyInClass hk
  obtain ⟨hgrantable, x, hx, rfl⟩ := (readyOf_iff s k c).mp hready
  refine ⟨hc, hgrantable, x, hx, fun d y hd hy hdready => Nat.le_of_not_lt fun hlt => ?_⟩
  have hsome := readyInClass_isSome hd ((readyOf_iff s y.prio d).mpr ⟨hdready, y, hy, rfl⟩)
  rw [hhigher y.prio hlt y.prio_lt] at hsome
  cases hsome

/-- With a ready context one is picked. -/
theorem pickCtx_isSome {s : State} {d : Nat} {y : Ctx} (hd : d < 512) (hy : ctxOf s d = some y)
    (hready : ctxReady s d = true) : (pickCtx s).isSome = true := by
  have hclass := readyInClass_isSome hd ((readyOf_iff s y.prio d).mpr ⟨hready, y, hy, rfl⟩)
  have hmem : y.prio ∈ [3, 2, 1, 0] := by
    have := y.prio_lt
    simp only [List.mem_cons, List.not_mem_nil, or_false]
    omega
  exact List.findSome?_isSome_iff.mpr ⟨y.prio, hmem, hclass⟩

/-! ## The sequencer R120 selects -/

/-- Of the sequencer found so far and the next candidate, the one that has served fewer units. -/
def fewerServed (s : State) (acc : Option Nat) (q : Nat) : Option Nat :=
  match acc with
  | none => some q
  | some p => if (hsqOf s q).served < (hsqOf s p).served then some q else acc

theorem pickSeq_eq (s : State) (mask : Nat) : pickSeq s mask =
    ((List.range 4).filter (fun q => hsqAllowed mask q && hsqEligible s q)).foldl (fewerServed s) none := rfl

/-- The candidate the fold ends with is one of those it met, and none of them has served fewer. -/
theorem foldl_fewerServed_least {s : State} {q : Nat} (l : List Nat) : ∀ a, l.foldl (fewerServed s) (some a) = some q →
    q ∈ a :: l ∧ ∀ p ∈ a :: l, (hsqOf s q).served ≤ (hsqOf s p).served := by
  induction l with
  | nil =>
    rintro a ⟨⟩
    exact ⟨List.mem_cons_self, List.forall_mem_singleton.mpr (Nat.le_refl _)⟩
  | cons x xs ih =>
    intro a h
    rw [List.foldl_cons] at h
    by_cases hx : (hsqOf s x).served < (hsqOf s a).served
    · obtain ⟨hmem, hleast⟩ := ih x (by rwa [fewerServed, if_pos hx] at h)
      have hqx := hleast x List.mem_cons_self
      exact ⟨List.mem_cons_of_mem _ hmem, List.forall_mem_cons.mpr ⟨by omega, hleast⟩⟩
    · obtain ⟨hmem, hleast⟩ := ih a (by rwa [fewerServed, if_neg hx] at h)
      obtain ⟨hqa, hrest⟩ := List.forall_mem_cons.mp hleast
      exact ⟨List.cons_subset_cons a (List.subset_cons_self x xs) hmem,
        List.forall_mem_cons.mpr ⟨hqa, List.forall_mem_cons.mpr ⟨by omega, hrest⟩⟩⟩

/-- The sequencer picked is allowed and eligible, and no such sequencer has served fewer units. -/
theorem pickSeq_least {s : State} {mask q : Nat} (h : pickSeq s mask = some q) :
    hsqAllowed mask q = true ∧ hsqEligible s q = true ∧ ∀ p, p < 4 → hsqAllowed mask p = true → hsqEligible s p = true →
      (hsqOf s q).served ≤ (hsqOf s p).served := by
  have hcand : ∀ p, p ∈ (List.range 4).filter (fun q => hsqAllowed mask q && hsqEligible s q) ↔
      p < 4 ∧ hsqAllowed mask p = true ∧ hsqEligible s p = true := fun p => by
    rw [List.mem_filter, List.mem_range, Bool.and_eq_true_iff]
  rw [pickSeq_eq] at h
  cases hl : (List.range 4).filter (fun q => hsqAllowed mask q && hsqEligible s q) with
  | nil => rw [hl] at h; cases h
  | cons a l =>
    rw [hl] at h hcand
    obtain ⟨hmem, hleast⟩ := foldl_fewerServed_least l a h
    obtain ⟨-, hallowed, heligible⟩ := (hcand q).mp hmem
    exact ⟨hallowed, heligible, fun p hp hpa hpe => hleast p ((hcand p).mpr ⟨hp, hpa, hpe⟩)⟩

end Sys2Proof.Machine
end

section
open Sys2Proof Sys2Proof.Machine

/-- Settles O31: a unit seen by what the rules say of it, the picks by what their searches and folds answer. -/
theorem unitsAndContexts : Obligations.UnitsAndContexts := by
  unfold Obligations.UnitsAndContexts
  refine ⟨fun s slot hsee hon hidle => ⟨?waits, ?refused, ?flush⟩, fun s => ⟨fun c => pickCtx_highest,
    fun d y => pickCtx_isSome, fun mask q => pickSeq_least⟩⟩
  case waits => exact fun x => exec_decodeUnit_of_waiting hsee hon hidle
  case refused => exact fun st => exec_decodeUnit_of_refused hsee hon hidle
  case flush =>
    rintro x t href hctx hlen hwait hpic rfl htrip
    exact exec_decodeUnit_of_flush hsee hon hidle href hctx hlen hwait hpic htrip

end

section
/-!
PROOFS. Sleep, wake and the resets (R496 to R502): what each leaves once its condition holds.
-/
namespace Sys2Proof.Machine

theorem exec_sleepGo (data : Word) (s : State) : exec (.sleepGo data) s = execSleepGo data s := rfl
theorem exec_sleepCommit (s : State) : exec .sleepCommit s = execSleepCommit s := rfl
theorem exec_wake (s : State) : exec .wake s = execWake s := rfl
theorem exec_bwTimer (s : State) : exec .bwTimer s = execBwTimer s := rfl
theorem exec_porstN (s : State) : exec .porstN s = execPorstN s := rfl
theorem exec_porstNRelease (s : State) : exec .porstNRelease s = execPorstNRelease s := rfl
theorem exec_perstN (level : Bool) (s : State) : exec (.perstN level) s = execPerstN level s := rfl
theorem exec_topReset (data : Word) (s : State) : exec (.topReset data) s = execTopReset data s := rfl
theorem exec_topSetupLock (data : Word) (s : State) : exec (.topSetupLock data) s = execTopSetupLock data s := rfl

/-! ## Sleep and wake (R469, R500 to R502) -/

section
variable {s : State}

section
variable {data : Word} (hset : bitAt 0 data = true) (hon : s.domOn 1 = true) (hrun : s.pwr.mode = .run)
include hset hon hrun

/-- A request with a legal keep mask is taken. -/
theorem exec_sleepGo_of_legal (htrip : s.drc.trip = none) (hkeep : keepOk s.fuse.variant (keepMask s) = true) :
    exec (.sleepGo data) s =
      .next ({ s with pwr := { s.pwr with sleepReq := true, keep := keepMask s } } : State).irqSync := by
  rw [exec_sleepGo, execSleepGo]
  exact done_when (by rw [hset, hon, hrun]; rfl) (if_pos hkeep) htrip

/-- A request with another mask gives BAD_KEEP. -/
theorem exec_sleepGo_of_illegal (htrip : s.drc.trip = none) (hkeep : keepOk s.fuse.variant (keepMask s) = false) :
    exec (.sleepGo data) s =
      .next ((s.wr PWR_SLEEP_CTL PWR_SLEEP_CTL.RESULT 3).setBit PWR_IRQ_STATUS 2).irqSync := by
  rw [exec_sleepGo, execSleepGo]
  exact done_when (by rw [hset, hon, hrun]; rfl) (if_neg (Bool.eq_false_iff.mp hkeep)) htrip

end

/-- The engine asleep: the domains not kept are shed, and of the messages in flight the wake set's set messages are left. -/
def fallenAsleep (s : State) : State :=
  let t := shed (inSet s.pwr.keep) s
  let u := (({ t with icu := { t.icu with msgs := s.icu.msgs.filter (fun x => !x.2 && s.wakeNamed x.1) } } : State).setReg
    BW_WAKE_LATCH_LO 0).setReg BW_WAKE_LATCH_HI 0
  { u with pwr := { u.pwr with mode := .asleep, sleepReq := false, wakeReq := false, causeSet := false } }

/-- The commit of a requested sleep; the main PLL stops where PD_CTL is not kept and no commit of the ledger runs. -/
theorem exec_sleepCommit_of_requested {v : State} (hreq : s.pwr.sleepReq = true) (hrun : s.pwr.mode = .run)
    (hv : v = if inSet s.pwr.keep 1 = true ∨ emBusy (fallenAsleep s) (fun c => decide (c ≤ 1)) = true then fallenAsleep s
      else (fallenAsleep s).wr CLK_STATUS CLK_STATUS.MAIN_LOCK 0)
    (htrip : v.drc.trip = none) : exec .sleepCommit s = .next v.irqSync := by
  rw [exec_sleepCommit, execSleepCommit]
  refine done_when (by rw [hreq, hrun]; rfl) ?_ htrip
  simp only [← Bool.or_eq_true] at hv
  exact hv.symm

/-- The engine up again, before its blocks sample their sources: the latched ones are in flight. -/
def wokenUp (s : State) : State :=
  let up := mainUp (s.wr CLK_STATUS CLK_STATUS.MAIN_LOCK 1)
  let t := (up.setBit TOP_RESET_CAUSE 5).wr PWR_SLEEP_CTL PWR_SLEEP_CTL.RESULT 1
  let held := ((List.range 64).filter (wakeLatched s)).map (fun j => (bitsOf 9 0 (s.raw (BW_WAKE_SRC j)), false))
  ({ t with
    pwr := { t.pwr with mode := .run, wakeReq := false }
    icu := { t.icu with msgs := t.icu.msgs ++ held } } : State).setBit BW_IRQ_STATUS 1

/-- A wake event wakes the sleeping engine. -/
theorem exec_wake_of_event (hasleep : s.pwr.mode = .asleep) (hreq : s.pwr.wakeReq = true)
    (href : s.pwr.refStopped = false) (htrip : (ctlUp (wokenUp s)).drc.trip = none) :
    exec .wake s = .next (ctlUp (wokenUp s)).irqSync := by
  have hlock : setLock (!s.pwr.refStopped) s = s.wr CLK_STATUS CLK_STATUS.MAIN_LOCK 1 := by rw [href]; rfl
  rw [exec_wake, execWake]
  refine done_when (by rw [hasleep, hreq]; rfl) ?_ htrip
  dsimp only
  rw [hlock]
  rfl

/-- The timer reaches zero. -/
theorem exec_bwTimer_of_running (hrun : s.rd BW_TIMER BW_TIMER.SECONDS ≠ 0) (hon : s.domOn 0 = true)
    (htrip : (ownWake 22 ((s.setReg BW_TIMER 0).setBit BW_IRQ_STATUS 2)).drc.trip = none) :
    exec .bwTimer s = .next (ownWake 22 ((s.setReg BW_TIMER 0).setBit BW_IRQ_STATUS 2)).irqSync := by
  rw [exec_bwTimer, execBwTimer]
  exact done_when (by rw [bne_iff_ne.mpr hrun, hon]; rfl) rfl htrip

end

/-! ## PORST_N (R496) -/

section
variable {s : State}

/-- The engine with PORST_N low. -/
def porstReset (s : State) : State :=
  let f := clearSec s
  { State.reset with
    regs := []
    fuse := f.fuse
    pins := { s.pins with porstN := false }
    pwr := { State.reset.pwr with doms := 0, mode := .porst, vaonLow := s.pwr.vaonLow, refStopped := s.pwr.refStopped }
    tap := s.tap
    host := s.host
    hq := { State.reset.hq with seq := s.hq.seq }
    dec := { State.reset.dec with rotated := s.cyc }
    ldg := { State.reset.ldg with store := s.ldg.store }
    cyc := s.cyc
    free := f.free
    pending := s.pending }

theorem exec_porstN_of_high (hhigh : s.pins.porstN = true) : exec .porstN s = .next (porstReset s).irqSync := by
  rw [exec_porstN, execPorstN]
  exact done_when hhigh rfl rfl

/-- A fuse write cut short changes no variant. -/
theorem clearSec_variant (s : State) : (clearSec s).fuse.variant = s.fuse.variant := by
  unfold clearSec
  split <;> rfl

/-- With no fuse write in progress the fuses stand. -/
theorem clearSec_fuse_of_idle (hidle : s.sec.target = none) : (clearSec s).fuse = s.fuse := by
  rw [clearSec, hidle]

/-- The engine after the reset sequence: the fuses are read, the main PLL has locked, and domains 1 to 3 are on. -/
def porstReleased (s : State) : State :=
  let t := s.wr CLK_STATUS CLK_STATUS.MAIN_LOCK 1
  { t with
    pins := { t.pins with porstN := true }
    fuse := { t.fuse with lifeCycle := t.fuse.burnt }
    dec := { t.dec with rotated := t.cyc }
    pwr := { t.pwr with doms := 15, mode := .run } }

/-- The reset sequence, in which the main PLL locks where REFCLK runs. -/
def porstSequence (s : State) : State :=
  let t := setLock (!s.pwr.refStopped) { s with
    pins := { s.pins with porstN := true }
    fuse := { s.fuse with lifeCycle := s.fuse.burnt }
    dec := { s.dec with rotated := s.cyc } }
  { t with pwr := { t.pwr with doms := 15, mode := .run } }

theorem porstSequence_of_refclk (href : s.pwr.refStopped = false) : porstSequence s = porstReleased s := by
  rw [porstSequence, href]
  rfl

/-- What follows the reset sequence: the supply and the clock are shown as they are, and a low PWRFAIL_N starts the
power-fail sequence. -/
def showSupplies (s : State) : State :=
  let t := if s.pwr.vaonLow then s.wr PWR_SUPPLY PWR_SUPPLY.ON_BKP 1 else s
  let u := if t.pwr.refStopped then t.wr CLK_STATUS CLK_STATUS.AON_OSC 1 else t
  if u.pins.pwrfailN then u else powerFailRun .powerFail (u.setBit BW_IRQ_STATUS 5)

theorem showSupplies_of_supplied (hlow : s.pwr.vaonLow = false) (href : s.pwr.refStopped = false) :
    showSupplies s = if s.pins.pwrfailN then s else powerFailRun .powerFail (s.setBit BW_IRQ_STATUS 5) := by
  simp only [showSupplies, hlow, href, Bool.false_eq_true, if_false]

/-- The release of PORST_N with VAON_MAIN and REFCLK up. -/
theorem exec_porstNRelease_of_supplied {v : State} (hporst : s.pwr.mode = .porst) (hlow : s.pwr.vaonLow = false)
    (href : s.pwr.refStopped = false)
    (hv : v = if s.pins.pwrfailN then porstReleased s
      else powerFailRun .powerFail ((porstReleased s).setBit BW_IRQ_STATUS 5))
    (htrip : v.drc.trip = none) : exec .porstNRelease s = .next v.irqSync := by
  have hshow : showSupplies (porstSequence s) = v := by
    rw [porstSequence_of_refclk href, hv]
    exact showSupplies_of_supplied hlow href
  rw [exec_porstNRelease, execPorstNRelease]
  exact done_when (decide_eq_true hporst) hshow htrip

end

/-! ## PERST_N, TOP_RESET and TOP_SETUP_LOCK (R497 to R499) -/

section
variable {s : State}

theorem exec_perstN_of_fall (hhigh : s.pins.perstN = true) (htrip : s.drc.trip = none) :
    exec (.perstN false) s = .next (clearPcie { s with pins := { s.pins with perstN := false } }).irqSync := by
  rw [exec_perstN, execPerstN]
  exact done_when (by rw [hhigh]; rfl) (if_pos (Or.inl rfl)) htrip

/-- PERST_N high again, as Breakwater records it. -/
def perstRisen (s : State) : State :=
  ownWake 24 ((clearPcie { s with pins := { s.pins with perstN := true } }).setBit BW_IRQ_STATUS 4)

/-- A rise of PERST_N resets the host interface where PD_CTL is on. -/
theorem exec_perstN_of_rise {v : State} (hlow : s.pins.perstN = false) (hmode : s.pwr.mode ≠ .porst)
    (hv : v = if (perstRisen s).domOn 1 then functionReset (perstRisen s) else perstRisen s)
    (htrip : v.drc.trip = none) : exec (.perstN true) s = .next v.irqSync := by
  rw [exec_perstN, execPerstN]
  refine done_when (by rw [hlow]; rfl) ((if_neg ?_).trans hv.symm) htrip
  rintro (h | h)
  · cases h
  · exact hmode h

/-- The engine after a write of the reset key, before its blocks sample their sources. -/
def resetByKey (s : State) : State :=
  let t := mainUp (shed (fun n => n == 3) s)
  ({ t with pwr := { t.pwr with sleepReq := false } } : State).setBit TOP_RESET_CAUSE 1

section
variable (hon : s.domOn 1 = true)
include hon

/-- A write of the reset key sheds every domain but PD_AON and PD_PCIE, and brings domains 1 to 3 up again. -/
theorem exec_topReset_of_key (htrip : (ctlUp (resetByKey s)).drc.trip = none) :
    exec (.topReset 0x52535431) s = .next (ctlUp (resetByKey s)).irqSync := by
  rw [exec_topReset, execTopReset]
  exact done_when (by rw [hon]; rfl) rfl htrip

theorem exec_topSetupLock_of_on (data : Word) (htrip : (s.hostWrite TOP_SETUP_LOCK data).drc.trip = none) :
    exec (.topSetupLock data) s = .next (s.hostWrite TOP_SETUP_LOCK data).irqSync := by
  rw [exec_topSetupLock, execTopSetupLock]
  exact done_when hon rfl htrip

end

/-- Any value but the key is ignored. -/
theorem exec_topReset_of_other {data : Word} (hdata : data ≠ 0x52535431) (htrip : s.drc.trip = none) :
    exec (.topReset data) s = .next s.irqSync := by
  rw [exec_topReset, execTopReset, beq_eq_false_iff_ne.mpr hdata]
  exact done_next _ _ htrip

end

end Sys2Proof.Machine
end

section
open Sys2Proof Sys2Proof.Machine

/-- Settles O58: each event by its row, once its condition holds. -/
theorem sleepAndResets : Obligations.SleepAndResets := by
  unfold Obligations.SleepAndResets
  refine fun s => ⟨?request, ?commit, ?wake, exec_bwTimer_of_running, ?porst, ?release, exec_perstN_of_fall, ?rise, ?top⟩
  case request =>
    intro data hset hon hrun
    exact ⟨fun hkeep htrip => exec_sleepGo_of_legal hset hon hrun htrip hkeep,
      fun hkeep htrip => exec_sleepGo_of_illegal hset hon hrun htrip hkeep⟩
  case commit =>
    rintro hreq hrun t u rfl rfl v htrip
    exact exec_sleepCommit_of_requested hreq hrun rfl htrip
  case wake =>
    rintro hasleep hreq href t rfl held htrip
    exact exec_wake_of_event hasleep hreq href htrip
  case porst =>
    intro hhigh
    refine ⟨_, exec_porstN_of_high hhigh, ?_⟩
    rw [State.irqSync_fuse]
    exact ⟨rfl, rfl, rfl, rfl, rfl, rfl, rfl, rfl, clearSec_variant s, clearSec_fuse_of_idle, rfl, rfl, rfl, rfl, rfl, rfl,
      rfl, rfl⟩
  case release =>
    intro hporst hlow href t u htrip
    exact exec_porstNRelease_of_supplied hporst hlow href rfl htrip
  case rise =>
    rintro hlow hmode t rfl htrip
    exact exec_perstN_of_rise hlow hmode rfl htrip
  case top =>
    intro hon
    refine ⟨?_, fun data hdata htrip => exec_topReset_of_other hdata htrip,
      fun data htrip => exec_topSetupLock_of_on hon data htrip⟩
    rintro t rfl htrip
    exact exec_topReset_of_key hon htrip

end

section
/-!
PROOFS. STREAM_OPEN and STREAM_CLOSE (R74 to R78): the run of entries a stream takes, and how its context opens and closes.
-/
namespace Sys2Proof.Machine

theorem exec_streamOpen (slot : Nat) (s : State) : exec (.streamOpen slot) s = execStreamOpen slot s := rfl
theorem exec_streamCloseDrain (slot : Nat) (s : State) :
    exec (.streamCloseDrain slot) s = execStreamCloseDrain slot s := rfl
theorem exec_streamCloseDiscard (slot : Nat) (s : State) :
    exec (.streamCloseDiscard slot) s = execStreamCloseDiscard slot s := rfl

@[simp] theorem setCtx_drc (c : Nat) (x : Option Ctx) (s : State) : (setCtx c x s).drc = s.drc := rfl
@[simp] theorem takeRun_drc (base n who : Nat) (s : State) : (takeRun base n who s).drc = s.drc := rfl

/-! ## Free aligned runs of the progress table (R76) -/

/-- The `n` entries from `b` on are all free. -/
def runFree (s : State) (n b : Nat) : Bool := (List.range n).all (fun i => entryFree s (b + i))

theorem runFree_iff (s : State) (n b : Nat) : runFree s n b = true ↔ ∀ i, i < n → entryFree s (b + i) = true := by
  simp only [runFree, List.all_eq_true, List.mem_range]

theorem runFree_false_iff (s : State) (n b : Nat) : runFree s n b = false ↔ ∃ i, i < n ∧ entryFree s (b + i) = false := by
  simp only [runFree, List.all_eq_false, List.mem_range, Bool.not_eq_true]

/-- The search goes through the aligned runs of the table from the lowest on. -/
theorem freeRun_eq (s : State) (n : Nat) :
    freeRun s n = ((List.range (512 / n)).find? (fun k => runFree s n (k * n))).map (· * n) :=
  List.find?_map

section
variable {s : State} {n : Nat} (hn : 0 < n)
include hn

/-- A run that starts at a multiple of `n` and lies in the table is one of those searched. -/
theorem aligned_run_index {a : Nat} (ha : a % n = 0) (hend : a + n ≤ 512) : a / n < 512 / n ∧ a / n * n = a := by
  have hmul : a / n * n = a := Nat.div_mul_cancel (Nat.dvd_of_mod_eq_zero ha)
  refine ⟨?_, hmul⟩
  rw [Nat.lt_iff_add_one_le, Nat.le_div_iff_mul_le hn, Nat.add_one_mul, hmul]
  exact hend

/-- The run found is aligned, lies in the table and is free, and no lower aligned run is. -/
theorem freeRun_lowest {b : Nat} (h : freeRun s n = some b) : b % n = 0 ∧ b + n ≤ 512 ∧
    (∀ i, i < n → entryFree s (b + i) = true) ∧
    ∀ a, a % n = 0 → a < b → ∃ i, i < n ∧ entryFree s (a + i) = false := by
  rw [freeRun_eq, Option.map_eq_some_iff] at h
  obtain ⟨k, hfind, rfl⟩ := h
  obtain ⟨hfree, hk, hlower⟩ := List.find?_range_eq_some.mp hfind
  have hend : k * n + n ≤ 512 := by
    rw [← Nat.add_one_mul]
    exact (Nat.le_div_iff_mul_le hn).mp (List.mem_range.mp hk)
  refine ⟨Nat.mul_mod_left k n, hend, (runFree_iff s n _).mp hfree, fun a ha hlt => ?_⟩
  obtain ⟨-, hmul⟩ := aligned_run_index hn ha (by omega)
  have hnot := hlower (a / n) ((Nat.div_lt_iff_lt_mul hn).mpr hlt)
  rw [hmul, Bool.not_eq_true'] at hnot
  exact (runFree_false_iff s n a).mp hnot

/-- Where no run is found, every aligned run has an entry in use. -/
theorem freeRun_none (h : freeRun s n = none) {a : Nat} (ha : a % n = 0) (hend : a + n ≤ 512) :
    ∃ i, i < n ∧ entryFree s (a + i) = false := by
  rw [freeRun_eq, Option.map_eq_none_iff, List.find?_eq_none] at h
  obtain ⟨hlt, hmul⟩ := aligned_run_index hn ha hend
  have hnot := h (a / n) (List.mem_range.mpr hlt)
  rw [hmul, Bool.not_eq_true] at hnot
  exact (runFree_false_iff s n a).mp hnot

end

/-! ## STREAM_OPEN (R74 to R76) -/

/-- The gang a stream asks for is none, or one its codec and the variant can form. -/
def gangAllowed (s : State) (codec gang : Nat) : Prop := gang = 0 ∨ codec ≠ 2 ∧ 2 ^ gang ≤ gangLimit s.fuse.variant

theorem gangAllowed_iff (s : State) (codec gang : Nat) : gangAllowed s codec gang ↔
    (decide (0 < gang) && (codec == 2 || decide (gangLimit s.fuse.variant < 2 ^ gang))) = false := by
  simp only [gangAllowed, Bool.and_eq_false_iff, Bool.or_eq_false_iff, decide_eq_false_iff_not, beq_eq_false_iff_ne,
    Nat.not_lt, Nat.le_zero]

section
variable {s : State} {slot : Nat} (htrip : s.drc.trip = none) (hstart : s.startable slot opStreamOpen = true)
  (hwords : openWordsOk s (s.job slot) = true)
include htrip hstart hwords

theorem exec_streamOpen_of_open {x : Ctx} (hctx : ctxOf s (s.job slot).context = some x) :
    exec (.streamOpen slot) s = .next (fail slot stContextState s).irqSync := by
  rw [exec_streamOpen, execStreamOpen]
  refine done_when hstart ?_ (by simpa [fail] using htrip)
  simp only [hwords, hctx, Bool.not_true, Bool.false_eq_true, if_false, Option.isSome_some, if_true]

section
variable (hctx : ctxOf s (s.job slot).context = none)
  (hlimits : openLimits (bitsOf 3 0 ((s.job slot).w 2)) (bitsOf 7 4 ((s.job slot).w 2)) (bitsOf 15 8 ((s.job slot).w 2))
    (bitsOf 15 0 ((s.job slot).w 3)) (bitsOf 31 16 ((s.job slot).w 3)) (bitsOf 3 2 ((s.job slot).w 4)) = true)
  (hgang : gangAllowed s (bitsOf 3 0 ((s.job slot).w 2)) (bitsOf 3 2 ((s.job slot).w 4)))
include hctx hlimits hgang

theorem exec_streamOpen_of_full (hrun : freeRun s (2 ^ bitsOf 7 6 ((s.job slot).w 4)) = none) :
    exec (.streamOpen slot) s = .next (fail slot stPptFull s).irqSync := by
  rw [exec_streamOpen, execStreamOpen]
  refine done_when hstart ?_ (by simpa [fail] using htrip)
  simp only [hwords, hctx, hlimits, (gangAllowed_iff _ _ _).mp hgang, hrun, Bool.not_true, Bool.false_eq_true, if_false,
    Option.isSome_none]

theorem exec_streamOpen_of_run {b : Nat} (hrun : freeRun s (2 ^ bitsOf 7 6 ((s.job slot).w 4)) = some b) :
    exec (.streamOpen slot) s = .next (present slot stOk [BitVec.ofNat 32 b]
      (setCtx (s.job slot).context (some ⟨(s.job slot).words, b, 0, [], [], none, []⟩)
        (takeRun b (2 ^ bitsOf 7 6 ((s.job slot).w 4)) (s.job slot).context s))).irqSync := by
  rw [exec_streamOpen, execStreamOpen]
  refine done_when hstart ?_ (by simpa using htrip)
  simp only [hwords, hctx, hlimits, (gangAllowed_iff _ _ _).mp hgang, hrun, Bool.not_true, Bool.false_eq_true, if_false,
    Option.isSome_none]

end
end

/-! ## STREAM_CLOSE (R77, R78) -/

/-- What draining leaves of the context `x` of the job at `slot`: it closes for that job, at once if nothing waits. -/
def closeDrained (slot : Nat) (x : Ctx) (s : State) : State :=
  tryClose (s.job slot).context (setCtx (s.job slot).context (some { x with closing := some (s.jobRef slot) })
    (beginJob slot s))

/-- What discarding leaves of the context `x` of the job at `slot`: the picture in progress is abandoned, the waiting
units and the picture's jobs end ABORTED, the latter with its damage count, and the context is closed. -/
def closeDiscarded (slot : Nat) (x : Ctx) (s : State) : State :=
  let c := (s.job slot).context
  let mine := match picOf s c with | none => [] | some p => p.jobs.map (fun k => k.ref)
  let count := match picOf s c with | none => 0 | some p => p.damage.length
  let t0 := match picOf s c with | none => s | some p => streamErrBits p.errs p.members s
  let t1 := foldS (fun u v => refuseRef u.ref stAborted v) (waitingOf s x) (abandonPic c t0)
  present slot stOk [BitVec.ofNat 32 (x.slots.countP (fun f => f.output && !f.published) % 32)]
    (closeCtx c (foldS (fun r v => presentRef r stAborted (unitResults none count) v) mine t1))

section
variable {s : State} {slot : Nat} {x : Ctx} (hstart : s.startable slot opStreamClose = true)
  (hwords : closeWordsOk (s.job slot) = true) (hctx : ctxOf s (s.job slot).context = some x) (hclosing : x.closing = none)
include hstart hwords hctx hclosing

theorem exec_streamCloseDrain_of_open (hdrain : bitAt 0 ((s.job slot).w 2) = false)
    (htrip : (closeDrained slot x s).drc.trip = none) :
    exec (.streamCloseDrain slot) s = .next (closeDrained slot x s).irqSync := by
  rw [exec_streamCloseDrain, execStreamCloseDrain]
  refine done_when (by rw [hstart, hdrain]; rfl) ?_ htrip
  simp only [hwords, hctx, hclosing, Bool.not_true, Bool.false_eq_true, if_false, Option.isSome_none]
  rfl

theorem exec_streamCloseDiscard_of_open (hdiscard : bitAt 0 ((s.job slot).w 2) = true)
    (htrip : (closeDiscarded slot x s).drc.trip = none) :
    exec (.streamCloseDiscard slot) s = .next (closeDiscarded slot x s).irqSync := by
  rw [exec_streamCloseDiscard, execStreamCloseDiscard]
  refine done_when (by rw [hstart, hdiscard]; rfl) ?_ htrip
  simp only [hwords, hctx, hclosing, Bool.not_true, Bool.false_eq_true, if_false, Option.isSome_none]
  rfl

end

end Sys2Proof.Machine
end

section
open Sys2Proof Sys2Proof.Machine

/-- Settles O30: each job by the checks it passes, the runs by what a search in ascending order answers. -/
theorem streamsOpenAndClose : Obligations.StreamsOpenAndClose := by
  unfold Obligations.StreamsOpenAndClose
  refine ⟨fun s slot => ⟨?opens, ?drains, ?discards⟩,
    fun s n hn => ⟨fun b => freeRun_lowest hn, fun hnone a => freeRun_none hn hnone⟩⟩
  case opens =>
    intro htrip hstart hwords
    exact ⟨fun x => exec_streamOpen_of_open htrip hstart hwords, fun hctx hlimits hgang =>
      ⟨exec_streamOpen_of_full htrip hstart hwords hctx hlimits hgang,
        fun b => exec_streamOpen_of_run htrip hstart hwords hctx hlimits hgang⟩⟩
  case drains =>
    rintro x t hstart hwords hctx hclosing hdrain rfl htrip
    exact exec_streamCloseDrain_of_open hstart hwords hctx hclosing hdrain htrip
  case discards =>
    rintro x t hstart hwords hctx hclosing hdiscard rfl htrip
    exact exec_streamCloseDiscard_of_open hstart hwords hctx hclosing hdiscard htrip

end

section
/-!
PROOFS. A picture from its grant to its end (R84 to R89, R97 to R105, R134, R135, R153, R161, R166 to R173): the grants of
the stream context scheduler, the descriptors a slice takes, the start of a picture, its rows and its end.
-/
namespace Sys2Proof.Machine

theorem exec_contextGrant (n : Nat) (s : State) : exec (.contextGrant n) s = execContextGrant n s := rfl
theorem exec_gangGather (n : Nat) (s : State) : exec (.gangGather n) s = execGangGather n s := rfl
theorem exec_pictureDescriptor (n : Nat) (f : PicFacts) (s : State) :
    exec (.pictureDescriptor n f) s = execPictureDescriptor n f s := rfl
theorem exec_pictureStart (n : Nat) (s : State) : exec (.pictureStart n) s = execPictureStart n s := rfl
theorem exec_segmentDescriptor (n : Nat) (f : SegFacts) (s : State) :
    exec (.segmentDescriptor n f) s = execSegmentDescriptor n f s := rfl
theorem exec_rowComplete (n : Nat) (bytes : List (List Byte)) (s : State) :
    exec (.rowComplete n bytes) s = execRowComplete n bytes s := rfl
theorem exec_pictureComplete (n : Nat) (bytes : List (List Byte)) (s : State) :
    exec (.pictureComplete n bytes) s = execPictureComplete n bytes s := rfl
theorem exec_unitWait (n : Nat) (bytes : List (List Byte)) (s : State) :
    exec (.unitWait n bytes) s = execUnitWait n bytes s := rfl

/-! ## The tables of the decoder -/

@[simp] theorem setPic_drc (c : Nat) (p : Option DecPic) (s : State) : (setPic c p s).drc = s.drc := rfl
@[simp] theorem setSlice_drc (n : Nat) (x : SliceSt) (s : State) : (setSlice n x s).drc = s.drc := rfl

/-- The parts of the state no choice of a slice's role or grant touches: the memory system, the fuses and the power
domains. -/
def State.outside (s : State) : DrcSt × FuseSt × PwrSt := (s.drc, s.fuse, s.pwr)

theorem State.drc_of_outside {s t : State} (h : t.outside = s.outside) : t.drc = s.drc := (Prod.mk.inj h).1
theorem State.fuse_of_outside {s t : State} (h : t.outside = s.outside) : t.fuse = s.fuse :=
  (Prod.mk.inj (Prod.mk.inj h).2).1
theorem State.pwr_of_outside {s t : State} (h : t.outside = s.outside) : t.pwr = s.pwr :=
  (Prod.mk.inj (Prod.mk.inj h).2).2

@[simp] theorem setSlice_outside (n : Nat) (x : SliceSt) (s : State) : (setSlice n x s).outside = s.outside := rfl
@[simp] theorem State.wr_outside (s : State) (a : Nat) (f : Fld) (v : Nat) : (s.wr a f v).outside = s.outside := rfl

@[simp] theorem modCtx_outside (c : Nat) (f : Ctx → Ctx) (s : State) : (modCtx c f s).outside = s.outside := by
  unfold modCtx
  split <;> rfl

@[simp] theorem sliceOf_setSlice_same (n : Nat) (x : SliceSt) (s : State) : sliceOf (setSlice n x s) n = x :=
  tabGet_tabSet_same _ _ _ _

/-- A descriptor that leaves a slice's queue is no segment behind the slice yet. -/
@[simp] theorem sliceOf_popDesc_segs (n c : Nat) (s : State) : (sliceOf (popDesc n c s) n).segs = (sliceOf s n).segs := by
  rw [popDesc, sliceOf_setSlice_same]

/-! ## Grants (R86, R87, R107) -/

@[simp] theorem handGrant_outside (n m : Nat) (s : State) : (handGrant n m s).outside = s.outside := by
  unfold handGrant
  split
  · rfl
  · dsimp only
    rw [setSlice_outside, setSlice_outside, modCtx_outside]
    split <;> rfl

@[simp] theorem handGrant_drc (n m : Nat) (s : State) : (handGrant n m s).drc = s.drc :=
  State.drc_of_outside (handGrant_outside n m s)

@[simp] theorem grantPicture_drc (c : Nat) (members : List Nat) (s : State) : (grantPicture c members s).drc = s.drc := by
  unfold grantPicture
  split
  · rfl
  · split
    · dsimp only
      rw [foldS_keeps State.drc (fun _ _ => setSlice_drc _ _ _)]
      exact acceptRef_drc _ _
    · rfl

/-- What a gang of context `c` becomes with the slices `got` reserved: it is granted the picture where they are enough,
and gathers more where not. -/
def gatherMore (c : Nat) (got : List Nat) (s : State) : State :=
  if ctxWidth s c ≤ got.length
  then grantPicture c (gangMembers (match ctxOf s c with | none => [] | some x => x.gang) got (ctxWidth s c))
    { s with dec := { s.dec with gather := none } }
  else { s with dec := { s.dec with gather := some (c, got) } }

@[simp] theorem gatherMore_drc (c : Nat) (got : List Nat) (s : State) : (gatherMore c got s).drc = s.drc := by
  unfold gatherMore
  split_ifs
  · exact grantPicture_drc _ _ _
  · rfl

section
variable {s : State} {n : Nat} (htrip : s.drc.trip = none) (htake : canTake s n = true)
include htrip htake

theorem exec_contextGrant_of_left {m : Nat} (hleft : grantLeft s n = some m) :
    exec (.contextGrant n) s = .next (handGrant m n s).irqSync := by
  rw [exec_contextGrant, execContextGrant]
  refine done_when htake ?_ (by simpa using htrip)
  simp only [hleft]

section
variable (hleft : grantLeft s n = none)
include hleft

theorem exec_contextGrant_of_single {c : Nat} (hgather : s.dec.gather = none) (hpick : pickCtx s = some c)
    (hwidth : ctxWidth s c = 1) : exec (.contextGrant n) s = .next (grantPicture c [n] s).irqSync := by
  rw [exec_contextGrant, execContextGrant]
  refine done_when htake ?_ (by simpa using htrip)
  simp only [hleft, hgather, hpick, hwidth, Option.isSome_none, Bool.false_eq_true, if_false, if_true]

theorem exec_gangGather_of_first {c : Nat} (hgather : s.dec.gather = none) (hpick : pickCtx s = some c)
    (hwidth : 1 < ctxWidth s c) :
    exec (.gangGather n) s = .next ({ s with dec := { s.dec with gather := some (c, [n]) } } : State).irqSync := by
  rw [exec_gangGather, execGangGather]
  refine done_when (by rw [htake, hleft]; rfl) ?_ htrip
  have hshort : ¬ ctxWidth s c ≤ [n].length := Nat.not_le.mpr hwidth
  simp only [hgather, hpick, hwidth, if_true, List.nil_append, if_neg hshort]

theorem exec_gangGather_of_next {c : Nat} {got : List Nat} (hgather : s.dec.gather = some (c, got))
    (hready : ctxReady s c = true) (hnew : n ∉ got) :
    exec (.gangGather n) s = .next (gatherMore c (got ++ [n]) s).irqSync := by
  rw [exec_gangGather, execGangGather]
  refine done_when (by rw [htake, hleft]; rfl) ?_ (by simpa using htrip)
  have hnot : got.contains n = false := by simpa using hnew
  simp only [hgather, hready, hnot, Bool.not_true, Bool.false_eq_true, if_false]
  rfl

end
end

/-! ## The PICTURE descriptor (R134, R153, R161 to R166) -/

/-- What a PICTURE descriptor `d` with format `i` leaves of the picture `p` of its context `x`: its format, the marks its
reference set gives, and the loss of a picture that cannot be decoded. -/
def described (n : Nat) (d : Desc) (x : Ctx) (p : DecPic) (f : PicFacts) (s : State) : State :=
  let i := withSubstitutes x (pictureInfo d.words f)
  let t1 := setPic d.ctx (some { p with info := some i }) (popDesc n d.ctx s)
  let t2 := if i.missing != 0 then t1.inc DS_REFMISS_PICS DS_REFMISS_PICS.PICTURES else t1
  let t3 := applyMarks d.ctx i.refHandle (bitsOf 15 0 (wordAt d.words 5)) t2
  match descriptorLoss t3 x i (bitsOf 15 8 (wordAt d.words 4) * bitsOf 23 16 (wordAt d.words 4)) with
  | some st => setLost d.ctx st t3
  | none => t3

theorem exec_pictureDescriptor_of_first {s : State} {n : Nat} {d : Desc} {x : Ctx} {p : DecPic} {f : PicFacts}
    (hdue : descDue s n = some d) (hctx : ctxOf s d.ctx = some x) (hpic : picOf s d.ctx = some p) (hcls : d.cls = 0)
    (hinfo : p.info = none) (hlost : p.lost = none) (hfit : factsFit d.words (pictureInfo d.words f) = true)
    (htrip : (described n d x p f s).drc.trip = none) :
    exec (.pictureDescriptor n f) s = .next (described n d x p f s).irqSync := by
  rw [exec_pictureDescriptor, execPictureDescriptor]
  simp only [hdue, hctx, hpic]
  refine done_when (by rw [hcls, hfit]; rfl) ?_ htrip
  have hnew : (p.info.isSome || p.lost.isSome) = false := by rw [hinfo, hlost]; rfl
  simp only [hnew, Bool.false_eq_true, if_false]
  rfl

/-! ## The start of a picture (R84, R99 to R101, R105, R153) -/

/-- What starting the picture `p` of context `c` leaves, with the frame buffers `h` and `g` taken: its slots are
DECODING, it is published where output order is due, and its slices decode it. -/
def pictureStarted (c : Nat) (x : Ctx) (p : DecPic) (i : PicInfo) (h g : Word) (s : State) : State :=
  let out := !neverPublished p i
  let slots := if i.grain
    then [newSlot c p i h h false false, newSlot c p i g g out true] else [newSlot c p i h h out false]
  let t2 := setCtx c (some { x with slots := x.slots ++ slots }) s
  let e := if out && orderDue x i then publish c (if i.grain then g else h) peDecoding t2 else (none, t2)
  foldS (fun mn u => sliceStarts c p.members.length mn.2 mn.1 u) p.members.zipIdx
    (setPic c (some { p with started := true, fb := h, disp := g, entry := e.1 }) e.2)

theorem exec_pictureStart_of_room {s t1 : State} {n c : Nat} {x : Ctx} {p : DecPic} {i : PicInfo} {h g : Word}
    (hnext : (sliceOf s n).next = some c) (hctx : ctxOf s c = some x) (hpic : picOf s c = some p)
    (hinfo : p.info = some i) (hlost : p.lost = none) (hstarted : p.started = false) (hhold : holdWaiting s x.pool = false)
    (hbegin : ∀ m ∈ p.members, mayBegin s c m = true) (hslots : x.slots.length + (if i.grain then 2 else 1) ≤ x.fbMax)
    (hsize : pictureBytes i.width i.height i.chroma i.bits10 ≤ poolSize x.pool)
    (halloc : allocFrames n x i.grain s = (stOk, h, g, t1))
    (htrip : (pictureStarted c x p i h g t1).drc.trip = none) :
    exec (.pictureStart n) s = .next (pictureStarted c x p i h g t1).irqSync := by
  rw [exec_pictureStart, execPictureStart]
  simp only [hnext, hctx, hpic, hinfo]
  refine done_when (by rw [hlost, hstarted, hhold, List.all_eq_true.mpr hbegin]; rfl) ?_ htrip
  simp only [if_neg (Nat.not_lt.mpr hslots), if_neg (Nat.not_lt.mpr hsize), halloc, ne_eq, not_true_eq_false, if_false,
    pictureStarted, hinfo]

/-! ## Segments (R112, R135, R166 to R168) -/

section
variable {s : State} {n : Nat} {d : Desc} {x : Ctx} {p : DecPic} {f : SegFacts} (hctx : ctxOf s d.ctx = some x)
  (hpic : picOf s d.ctx = some p) (hdue : descDue s n = some d) (hcls : d.cls = 1)
include hctx hpic hdue hcls

/-- A slice that takes the segment its picture is due to decode decodes it, and the jobs before the segment's are
complete. -/
theorem exec_segmentDescriptor_of_due {i : PicInfo} {data : Option (List Byte)} {u t : State}
    (hinfo : p.info = some i) (hlost : p.lost = none) (hstarted : p.started = true)
    (hcur : (sliceOf s n).cur = some d.ctx) (hsegs : (sliceOf s n).segs = p.segs)
    (hdata : segmentData n d (setSlice n { sliceOf (popDesc n d.ctx s) n with segs := p.segs + 1 } (popDesc n d.ctx s)) =
      (data, u))
    (ht : t = finishBefore d.ctx d.ref (setPic d.ctx (some (decodeSegment x p i d
      (p.walks.getD p.segs (segmentFacts x.codec i d data f)))) u))
    (htrip : t.drc.trip = none) : exec (.segmentDescriptor n f) s = .next t.irqSync := by
  rw [exec_segmentDescriptor, execSegmentDescriptor]
  simp only [hdue, hctx, hpic, hlost, hinfo]
  refine done_when (by rw [hcls, hstarted, hcur]; exact beq_self_eq_true (some d.ctx)) ?_ htrip
  simp only [sliceOf_popDesc_segs, hsegs, if_true, hdata, ht]

/-- A segment of a lost picture is dropped. -/
theorem exec_segmentDescriptor_of_lost (htrip : s.drc.trip = none) (hlost : p.lost.isSome = true) :
    exec (.segmentDescriptor n f) s = .next (popDesc n d.ctx s).irqSync := by
  obtain ⟨st, hst⟩ := Option.isSome_iff_exists.mp hlost
  rw [exec_segmentDescriptor, execSegmentDescriptor]
  simp only [hdue, hctx, hpic, hst]
  exact done_when (by rw [hcls]; rfl) rfl htrip

end

/-! ## Rows (R97, R112, R116) -/

/-- A slice whose row store takes no injected access reads its rows whole. -/
theorem rowCheck_of_idle {s : State} {n : Nat} (lines : List (List Byte))
    (h : bitsOf 7 0 (s.raw (DS_FAULT_STATUS n + 12)) = 0) : rowCheck n lines s = (false, s) := by
  simp only [rowCheck, State.sramFault, sramCheck_of_idle _ _ h]

/-- What a covered row of picture `p` leaves on its slice: it is finished in memory and in the entry, or final already. -/
def rowDone (n c : Nat) (p : DecPic) (bytes : List (List Byte)) (s : State) : State :=
  let r := (sliceOf s n).parts
  let t := setSlice n { sliceOf s n with parts := r + 1 } (setPic c (some p) s)
  if r < p.rows then t else finishRows c r (r + 1) bytes t

theorem exec_rowComplete_of_covered {s : State} {n c : Nat} {x : Ctx} {p : DecPic} {i : PicInfo} {bytes : List (List Byte)}
    (hctx : ctxOf s c = some x) (hpic : picOf s c = some p) (hinfo : p.info = some i) (hcur : (sliceOf s n).cur = some c)
    (hsingle : p.members.length = 1) (hstarted : p.started = true) (hmore : (sliceOf s n).parts < i.rowCount)
    (hfit : (sliceOf s n).parts < p.rows ∨ linesFit i (sliceOf s n).parts ((sliceOf s n).parts + 1) bytes = true)
    (hidle : bitsOf 7 0 (s.raw (DS_FAULT_STATUS n + 12)) = 0)
    (hcovered : rowCovered i p.covered (sliceOf s n).parts = true) (htrip : (rowDone n c p bytes s).drc.trip = none) :
    exec (.rowComplete n bytes) s = .next (rowDone n c p bytes s).irqSync := by
  rw [exec_rowComplete, execRowComplete]
  simp only [hcur, hctx, hpic, hinfo, hsingle, if_true]
  refine done_when ?event ?_ htrip
  case event =>
    simp only [hstarted, decide_eq_true hmore, Bool.true_and, Bool.or_eq_true, decide_eq_true_eq]
    exact hfit
  simp only [rowCheck_of_idle bytes hidle, Bool.false_eq_true, if_false, hcovered, if_true]
  rfl

/-! ## The end of a picture (R89, R99, R166, R168) -/

section
variable {s : State} {n c : Nat} {p : DecPic} {bytes : List (List Byte)} (hslice : sliceCtx s n = some c)
  (hpic : picOf s c = some p)
include hslice hpic

theorem exec_pictureComplete_of_ended (hended : p.ended = true) (htaken : p.lost.isSome = true ∨ consumed s c p = true)
    (htrip : (tryEnd n c bytes [] s).drc.trip = none) :
    exec (.pictureComplete n bytes) s = .next (tryEnd n c bytes [] s).irqSync := by
  rw [exec_pictureComplete, execPictureComplete]
  simp only [hslice, hpic]
  exact done_when (by rw [hended, Bool.true_and, Bool.or_eq_true]; exact htaken) rfl htrip

/-- The picture whose next unit does not come ends, with UNIT_WAIT on its slices. -/
theorem exec_unitWait_of_last {x : Ctx} {u v : State} (hctx : ctxOf s c = some x) (hended : p.ended = false)
    (hparsed : p.jobs.all (fun k => k.parsed) = true) (hwait : waitingOf s x = []) (htaken : consumed s c p = true)
    (hbegun : p.started = true ∨ p.info = none ∨ p.lost.isSome = true)
    (hu : u = tryEnd n c bytes (if p.started then [stConcealed] else []) s) (hgone : picOf u c = none)
    (hv : v = foldS (fun m t => t.setBit (DS_IRQ_STATUS m) 5) p.members u) (htrip : v.drc.trip = none) :
    exec (.unitWait n bytes) s = .next v.irqSync := by
  rw [exec_unitWait, execUnitWait]
  simp only [hslice, hctx, hpic]
  refine done_when ?event ?_ htrip
  case event =>
    simp only [hended, hparsed, hwait, htaken, Bool.not_false, List.isEmpty_nil, Bool.and_self, Bool.true_and,
      Bool.or_eq_true, Option.isNone_iff_eq_none, or_assoc]
    exact hbegun
  simp only [← hu, hgone, Option.isNone_none, if_true, hv]

end

end Sys2Proof.Machine
end

section
open Sys2Proof Sys2Proof.Machine

/-- Settles O32: each event by the conditions under which it takes place. -/
theorem picturesRun : Obligations.PicturesRun := by
  unfold Obligations.PicturesRun
  refine ⟨fun s n => ⟨?left, ?single, ?first, ?next, ?described, ?starts⟩,
    fun s n c x p hctx hpic => ⟨?segment, ?dropped, ?row, ?ends, ?waits⟩⟩
  case left => exact fun htrip htake m => exec_contextGrant_of_left htrip htake
  case single => exact fun htrip htake hleft hgather c => exec_contextGrant_of_single htrip htake hleft hgather
  case first => exact fun htrip htake hleft hgather c => exec_gangGather_of_first htrip htake hleft hgather
  case next => exact fun htrip htake hleft c got => exec_gangGather_of_next htrip htake hleft
  case described =>
    rintro d x p f t hdue hctx hpic hcls hinfo hlost hfit rfl htrip
    exact exec_pictureDescriptor_of_first hdue hctx hpic hcls hinfo hlost hfit htrip
  case starts =>
    rintro c x p i h g t1 t hnext hctx hpic hinfo hlost hstarted hhold hbegin hslots hsize halloc rfl htrip
    exact exec_pictureStart_of_room hnext hctx hpic hinfo hlost hstarted hhold hbegin hslots hsize halloc htrip
  case segment =>
    rintro i d f data u t hinfo hlost hdue rfl hcls hstarted hcur hsegs hdata ht htrip
    exact exec_segmentDescriptor_of_due hctx hpic hdue hcls hinfo hlost hstarted hcur hsegs hdata ht htrip
  case dropped =>
    rintro d f htrip hlost hdue rfl hcls
    exact exec_segmentDescriptor_of_lost hctx hpic hdue hcls htrip hlost
  case row =>
    rintro i bytes t hinfo hcur hsingle hstarted hmore hfit hidle hcovered rfl htrip
    exact exec_rowComplete_of_covered hctx hpic hinfo hcur hsingle hstarted hmore hfit hidle hcovered htrip
  case ends =>
    rintro bytes t hslice hended htaken rfl htrip
    exact exec_pictureComplete_of_ended hslice hpic hended htaken htrip
  case waits =>
    intro bytes u hslice hended hparsed hwait htaken hbegun hu hgone htrip
    exact exec_unitWait_of_last hslice hpic hctx hended hparsed hwait htaken hbegun hu hgone rfl htrip

end

section
/-!
PROOFS. Slice roles (R107 to R114, R486): the slipway's rotation, draining, self-test, and the watchdog with its rerun.
-/
namespace Sys2Proof.Machine

theorem exec_rotation (s : State) : exec .rotation s = execRotation s := rfl
theorem exec_rotationPeriod (s : State) : exec .rotationPeriod s = execRotationPeriod s := rfl
theorem exec_now (data : Word) (s : State) : exec (.now data) s = execNow data s := rfl
theorem exec_drain (n : Nat) (data : Word) (s : State) : exec (.drain n data) s = execDrain n data s := rfl
theorem exec_drainedPictureDone (n : Nat) (s : State) :
    exec (.drainedPictureDone n) s = execDrainedPictureDone n s := rfl
theorem exec_bistStart (n : Nat) (data : Word) (s : State) : exec (.bistStart n data) s = execBistStart n data s := rfl
theorem exec_bistDone (n : Nat) (pass : Bool) (fg : Nat) (s : State) :
    exec (.bistDone n pass fg) s = execBistDone n pass fg s := rfl
theorem exec_wdog (n : Nat) (s : State) : exec (.wdog n) s = execWdog n s := rfl
theorem exec_rerunStart (n : Nat) (s : State) : exec (.rerunStart n) s = execRerunStart n s := rfl
theorem exec_sliceResetDone (n : Nat) (s : State) : exec (.sliceResetDone n) s = execSliceResetDone n s := rfl

/-! ## What a change of role leaves as it was -/

@[simp] theorem setRole_outside (n r : Nat) (s : State) : (setRole n r s).outside = s.outside := by
  unfold setRole
  dsimp only
  split_ifs <;> rfl

@[simp] theorem setRole_drc (n r : Nat) (s : State) : (setRole n r s).drc = s.drc :=
  State.drc_of_outside (setRole_outside n r s)

@[simp] theorem joinRole_outside (n : Nat) (s : State) : (joinRole n s).outside = s.outside := by
  unfold joinRole
  split_ifs <;> simp

@[simp] theorem beginBist_drc (n : Nat) (rot : Bool) (s : State) : (beginBist n rot s).drc = s.drc := setRole_drc _ _ _

@[simp] theorem sliceDomain_drc (n : Nat) (up : Bool) (s : State) : (sliceDomain n up s).drc = s.drc := rfl

@[simp] theorem poweredBist_drc (n : Nat) (s : State) : (poweredBist n s).drc = s.drc := by
  rw [poweredBist, beginBist_drc, sliceDomain_drc, setSlice_drc]

@[simp] theorem endPowered_drc (n : Nat) (s : State) : (endPowered n s).drc = s.drc := by
  unfold endPowered
  dsimp only
  split_ifs <;> rfl

@[simp] theorem passGrant_outside (n : Nat) (heir : Option Nat) (s : State) : (passGrant n heir s).outside = s.outside := by
  unfold passGrant
  dsimp only
  split
  · exact handGrant_outside _ _ _
  · rfl

@[simp] theorem passGrant_drc (n : Nat) (heir : Option Nat) (s : State) : (passGrant n heir s).drc = s.drc :=
  State.drc_of_outside (passGrant_outside n heir s)

/-! ## Rotation (R110) -/

@[simp] theorem commitRotation_drc (s : State) : (commitRotation s).drc = s.drc := by
  unfold commitRotation
  split
  · simp
  · rfl

/-- A rotation is requested. -/
def requestRotation (s : State) : State := { s with dec := { s.dec with rotate := true } }

/-- Whether a rotation can be committed does not depend on whether one is requested. -/
theorem canRotate_requestRotation (s : State) : canRotate (requestRotation s) = canRotate s := rfl

section
variable {s : State} (htrip : s.drc.trip = none)
include htrip

theorem exec_rotation_of_requested (hreq : s.dec.rotate = true) (hcan : canRotate s = true) :
    exec .rotation s = .next (commitRotation s).irqSync := by
  rw [exec_rotation, execRotation]
  exact done_when (by rw [hreq, hcan]; rfl) rfl (by simpa using htrip)

theorem exec_rotationPeriod_of_enabled (hon : s.domOn 1 = true) (hperiod : s.rd DS_ROT_CFG DS_ROT_CFG.PERIOD_H ≠ 0) :
    exec .rotationPeriod s = .next (requestRotation s).irqSync := by
  rw [exec_rotationPeriod, execRotationPeriod]
  exact done_when (by rw [hon, bne_iff_ne.mpr hperiod]; rfl) rfl htrip

theorem exec_now_of_set {data : Word} (hon : s.domOn 1 = true) (hset : bitAt 0 data = true) :
    exec (.now data) s =
      .next (if canRotate s then commitRotation (requestRotation s) else requestRotation s).irqSync := by
  rw [exec_now, execNow, ← canRotate_requestRotation]
  refine done_when (by rw [hset, hon]; rfl) rfl ?_
  split_ifs
  · rw [commitRotation_drc]
    exact htrip
  · exact htrip

end

/-! ## Draining (R107, R108) -/

/-- A slice's role is held in its status register, which a write of its control register leaves alone. -/
@[simp] theorem roleOf_wr_ctl (s : State) (n m : Nat) (f : Fld) (v : Nat) : roleOf (s.wr (DS_CTL n) f v) m = roleOf s m :=
  State.rd_wr_ne s f DS_STATUS.ROLE v (by simp only [DS_CTL, DS_STATUS]; omega)

/-- Slice `n`, ACTIVE, begins to drain. -/
def drainBegun (n : Nat) (s : State) : State :=
  setRole n roDraining (setSlice n { sliceOf s n with rot := false } (s.wr (DS_CTL n) DS_CTL.DRAIN 1))

/-- An ACTIVE slice whose DRAIN rises begins to drain; the slipway becomes ACTIVE and takes the grant it has not begun. -/
theorem writeDrain_of_active {s : State} {n sl : Nat} {rest : List Nat} (hwas : s.flag (DS_CTL n) DS_CTL.DRAIN = false)
    (hrole : roleOf s n = roActive) (hslip : inRole (drainBegun n s) roSlipway = sl :: rest) :
    writeDrain n true s = passGrant n (some sl) (setRole sl roActive (drainBegun n s)) := by
  rw [drainBegun] at hslip
  simp only [writeDrain, hwas, roleOf_wr_ctl, hrole, Bool.not_false, Bool.and_self, if_true, Bool.toNat_true]
  split
  · next sl' rest' h => cases hslip.symm.trans h; rfl
  · next h => cases hslip.symm.trans h

@[simp] theorem writeDrain_outside (n : Nat) (v : Bool) (s : State) : (writeDrain n v s).outside = s.outside := by
  unfold writeDrain
  dsimp only
  split_ifs
  case pos => split <;> simp
  all_goals simp

@[simp] theorem writeDrain_drc (n : Nat) (v : Bool) (s : State) : (writeDrain n v s).drc = s.drc :=
  State.drc_of_outside (writeDrain_outside n v s)

section
variable {s : State} {n : Nat} (htrip : s.drc.trip = none) (hn : n < numSlices s.fuse.variant)
include htrip hn

theorem exec_drain_of_active {sl : Nat} {data : Word} {rest : List Nat} (hon : s.domOn 1 = true)
    (hbist : bitAt 1 data = false) (hset : bitAt 0 data = true) (hwas : s.flag (DS_CTL n) DS_CTL.DRAIN = false)
    (hrole : roleOf s n = roActive) (hslip : inRole (drainBegun n s) roSlipway = sl :: rest) :
    exec (.drain n data) s = .next (passGrant n (some sl) (setRole sl roActive (drainBegun n s))).irqSync := by
  rw [exec_drain, execDrain, hset]
  refine done_when (by rw [decide_eq_true hn, hon, hbist]; rfl) (writeDrain_of_active hwas hrole hslip) ?_
  rw [← writeDrain_of_active hwas hrole hslip, writeDrain_drc]
  exact htrip

section
variable (hrole : roleOf s n = roDraining) (hcur : (sliceOf s n).cur = none)
include hrole hcur

theorem exec_drainedPictureDone_of_rerun (hrerun : (sliceOf s n).rerun ≠ []) : exec (.drainedPictureDone n) s =
    .next (setRole n roActive (setSlice n { sliceOf s n with rot := false } s)).irqSync := by
  rw [exec_drainedPictureDone, execDrainedPictureDone]
  refine done_when (decide_eq_true hn) ?_ (by simpa using htrip)
  have hwaits : ((sliceOf s n).cur.isNone && !(sliceOf s n).rerun.isEmpty) = true := by
    rw [hcur, Option.isNone_none, Bool.true_and, Bool.not_eq_true', List.isEmpty_eq_false_iff]
    exact hrerun
  simp only [hrole, hwaits, if_true]

section
variable (hrerun : (sliceOf s n).rerun = [])
include hrerun

theorem exec_drainedPictureDone_of_drain (hdrain : s.flag (DS_CTL n) DS_CTL.DRAIN = true) :
    exec (.drainedPictureDone n) s = .next (setRole n roOffline s).irqSync := by
  rw [exec_drainedPictureDone, execDrainedPictureDone]
  refine done_when (decide_eq_true hn) ?_ (by simpa using htrip)
  simp [hrole, sliceDone, hcur, hrerun, hdrain]

theorem exec_drainedPictureDone_of_rotation (hdrain : s.flag (DS_CTL n) DS_CTL.DRAIN = false)
    (hrot : (sliceOf s n).rot = true) : exec (.drainedPictureDone n) s = .next (beginBist n true s).irqSync := by
  rw [exec_drainedPictureDone, execDrainedPictureDone]
  refine done_when (decide_eq_true hn) ?_ (by simpa using htrip)
  simp [hrole, sliceDone, hcur, hrerun, hdrain, hrot]

end
end
end

/-! ## Self-test (R107, R109, R110, R486) -/

/-- What BIST_START makes of a slice, with its DRAIN written: a run, on a domain switched on for it where it is off, or the
refusal as BUSY. -/
def bistRequested (n : Nat) (s : State) : State :=
  let r := roleOf s n
  if r = roRetired ∨ (r = roOffline ∧ s.domOn (15 + n) = false) then
    if parentsIn s.fuse.variant s.pwr.doms (15 + n) then poweredBist n s else s.wr (DS_BIST n) DS_BIST.RESULT 3
  else if r = roSlipway ∨ r = roOffline then beginBist n false s
  else s.wr (DS_BIST n) DS_BIST.RESULT 3

@[simp] theorem bistRequested_drc (n : Nat) (s : State) : (bistRequested n s).drc = s.drc := by
  unfold bistRequested
  dsimp only
  split_ifs <;> simp

theorem bistRequested_of_powered {s : State} {n : Nat}
    (h : roleOf s n = roSlipway ∨ roleOf s n = roOffline ∧ s.domOn (15 + n) = true) :
    bistRequested n s = beginBist n false s := by
  unfold bistRequested
  rcases h with hrole | ⟨hrole, hon⟩
  · simp [hrole, roSlipway, roRetired, roOffline]
  · simp [hrole, hon, roRetired, roOffline]

theorem bistRequested_of_dark {s : State} {n : Nat}
    (h : roleOf s n = roRetired ∨ roleOf s n = roOffline ∧ s.domOn (15 + n) = false)
    (hparents : parentsIn s.fuse.variant s.pwr.doms (15 + n) = true) : bistRequested n s = poweredBist n s := by
  simp only [bistRequested, if_pos h, hparents, if_true]

theorem bistRequested_of_orphan {s : State} {n : Nat}
    (h : roleOf s n = roRetired ∨ roleOf s n = roOffline ∧ s.domOn (15 + n) = false)
    (hparents : parentsIn s.fuse.variant s.pwr.doms (15 + n) = false) :
    bistRequested n s = s.wr (DS_BIST n) DS_BIST.RESULT 3 := by
  simp only [bistRequested, if_pos h, hparents, Bool.false_eq_true, if_false]

theorem bistRequested_of_active {s : State} {n : Nat} (h : roleOf s n = roActive) :
    bistRequested n s = s.wr (DS_BIST n) DS_BIST.RESULT 3 := by
  simp [bistRequested, h, roActive, roSlipway, roRetired, roOffline]

/-- What BIST_DONE counts before it judges the run: the run, with the domain off again where it was on for it. -/
def bistRan (n : Nat) (s : State) : State := endPowered n (s.inc (DS_BIST n) DS_BIST.RUNS)

/-- A passed run is recorded. -/
def bistPassed (n : Nat) (s : State) : State :=
  (((bistRan n s).wr (DS_BIST n) DS_BIST.RESULT 1).wr (DS_BIST n) DS_BIST.FAIL_GROUP 0).setBit (DS_IRQ_STATUS n) 1

/-- A failed run is recorded, with the group that failed. -/
def bistFailed (n fg : Nat) (s : State) : State :=
  (((bistRan n s).wr (DS_BIST n) DS_BIST.RESULT 2).wr (DS_BIST n) DS_BIST.FAIL_GROUP fg).setBit (DS_IRQ_STATUS n) 2

@[simp] theorem bistPassed_drc (n : Nat) (s : State) : (bistPassed n s).drc = s.drc := endPowered_drc _ _
@[simp] theorem bistFailed_drc (n fg : Nat) (s : State) : (bistFailed n fg s).drc = s.drc := endPowered_drc _ _

section
variable {s : State} {n : Nat} (htrip : s.drc.trip = none) (hn : n < numSlices s.fuse.variant)
include htrip hn

theorem exec_bistStart_of_set {data : Word} (hon : s.domOn 1 = true) (hset : bitAt 1 data = true) :
    exec (.bistStart n data) s = .next (bistRequested n (writeDrain n (bitAt 0 data) s)).irqSync := by
  rw [exec_bistStart, execBistStart]
  exact done_when (by rw [decide_eq_true hn, hon, hset]; rfl) rfl (by simpa using htrip)

section
variable (hrole : roleOf s n = roBist)
include hrole

theorem exec_bistDone_of_pass (fg : Nat) : exec (.bistDone n true fg) s = .next (setRole n
    (if (bistPassed n s).flag (DS_CTL n) DS_CTL.DRAIN || !(bistPassed n s).domOn (15 + n)
      || !(inRole (bistPassed n s) roSlipway).isEmpty then roOffline else roSlipway) (bistPassed n s)).irqSync := by
  rw [exec_bistDone, execBistDone]
  refine done_when (by rw [hrole, decide_eq_true hn]; rfl) ?_ (by simpa using htrip)
  rw [apply_ite (fun r => setRole n r (bistPassed n s))]
  rfl

theorem exec_bistDone_of_failure (fg : Nat) : exec (.bistDone n false fg) s =
    .next (sliceDomain n false (setRole n roRetired (bistFailed n fg s))).irqSync := by
  rw [exec_bistDone, execBistDone]
  exact done_when (by rw [hrole, decide_eq_true hn]; rfl) rfl (by simpa using htrip)

end
end

/-! ## Watchdog and rerun (R111 to R114) -/

/-- What a watchdog records of slice `n`: it is RESETTING with the fault and the event, its count risen, and a rotation
that could be committed is cancelled. -/
def wdogFired (n : Nat) (s : State) : State :=
  let t0 : State := if canRotate s then { s with dec := { s.dec with rotate := false } } else s
  let t1 := ((setRole n roResetting t0).setBit (DS_IRQ_STATUS n) 0).incSat (DS_WDOG n) DS_WDOG.FIRED_COUNT
  (t1.setFault (DS_FAULT_STATUS n) 3).wr (DS_STATUS n) DS_STATUS.BUSY 0

@[simp] theorem wdogFired_drc (n : Nat) (s : State) : (wdogFired n s).drc = s.drc := by
  simp only [wdogFired, State.wr_drc, setFault_drc, incSat_drc, State.setBit_drc, setRole_drc]
  split_ifs <;> rfl

@[simp] theorem rerunHere_drc (c n : Nat) (p : DecPic) (s : State) : (rerunHere c n p s).drc = s.drc := rfl

/-- The members of a picture whose slice `n` is replaced by slice `m`. -/
def replaceMember (n m k : Nat) (s : State) : State :=
  match picOf s k with
  | none => s
  | some q => setPic k (some { q with members := q.members.map (fun j => if j = n then m else j) }) s

@[simp] theorem replaceMember_drc (n m k : Nat) (s : State) : (replaceMember n m k s).drc = s.drc := by
  unfold replaceMember
  split <;> rfl

@[simp] theorem assignRerun_drc (c n m : Nat) (p : DecPic) (s : State) : (assignRerun c n m p s).drc = s.drc := by
  have hmembers : ∀ xs t, (foldS (replaceMember n m) xs t).drc = t.drc := foldS_keeps State.drc (replaceMember_drc n m)
  unfold assignRerun
  dsimp only
  split_ifs
  · exact hmembers _ _
  · rw [setRole_drc]
    exact hmembers _ _

section
variable {s : State} {n c : Nat} {p : DecPic} (htrip : s.drc.trip = none) (hn : n < numSlices s.fuse.variant)
  (hen : s.flag (DS_WDOG n) DS_WDOG.EN = true) (hrole : roleOf s n = roActive ∨ roleOf s n = roDraining)
  (hcur : (sliceOf s n).cur = some c) (hpic : picOf s c = some p)
include htrip hn hen hrole hcur hpic

theorem exec_wdog_of_heir {m : Nat} (hheir : rerunSlice (wdogFired n s) n = some m) :
    exec (.wdog n) s = .next (passGrant n (some m) (assignRerun c n m p (wdogFired n s))).irqSync := by
  rw [exec_wdog, execWdog]
  refine done_when (by simpa [hn, hen] using hrole) ?_ (by simpa using htrip)
  rw [wdogFired] at hheir ⊢
  simp only [hcur, hpic, hheir]

theorem exec_wdog_of_none (hheir : rerunSlice (wdogFired n s) n = none) :
    exec (.wdog n) s = .next (rerunHere c n p (wdogFired n s)).irqSync := by
  rw [exec_wdog, execWdog]
  refine done_when (by simpa [hn, hen] using hrole) ?_ (by simpa using htrip)
  rw [wdogFired] at hheir ⊢
  simp only [hcur, hpic, hheir]

end

@[simp] theorem forgetContext_drc (c : Nat) (s : State) : (forgetContext c s).drc = s.drc :=
  foldS_keeps State.drc (fun _ _ => setSlice_drc _ _ _) _ _

@[simp] theorem sliceStarts_drc (c width m n : Nat) (s : State) : (sliceStarts c width m n s).drc = s.drc := by
  unfold sliceStarts
  dsimp only
  split_ifs <;> simp

theorem exec_rerunStart_of_waiting {s : State} {n c : Nat} {rest : List Nat} {p : DecPic} (htrip : s.drc.trip = none)
    (hcur : (sliceOf s n).cur = none) (hrole : roleOf s n = roActive) (hrerun : (sliceOf s n).rerun = c :: rest)
    (hpic : picOf s c = some p) : exec (.rerunStart n) s = .next (sliceStarts c p.members.length
      (p.members.findIdx (fun k => k == n)) n
      (setPic c (some (if p.members.length = 1 then restarted p else p)) s)).irqSync := by
  rw [exec_rerunStart, execRerunStart]
  refine done_when (by rw [hcur, hrole]; rfl) ?_ (by simpa using htrip)
  simp only [hrerun, hpic]

section
variable {s : State} {n : Nat} (htrip : s.drc.trip = none) (hn : n < numSlices s.fuse.variant)
  (hrole : roleOf s n = roResetting)
include htrip hn hrole

theorem exec_sliceResetDone_of_handed (hhanded : (sliceOf s n).handed = true) : exec (.sliceResetDone n) s =
    .next (beginBist n false (setSlice n { sliceOf s n with handed := false } s)).irqSync := by
  rw [exec_sliceResetDone, execSliceResetDone]
  exact done_when (by rw [hrole, decide_eq_true hn]; rfl) (if_pos hhanded) (by simpa using htrip)

theorem exec_sliceResetDone_of_kept (hhanded : (sliceOf s n).handed = false) :
    exec (.sliceResetDone n) s = .next (setRole n roActive s).irqSync := by
  rw [exec_sliceResetDone, execSliceResetDone]
  exact done_when (by rw [hrole, decide_eq_true hn]; rfl) (if_neg (Bool.eq_false_iff.mp hhanded)) (by simpa using htrip)

end

end Sys2Proof.Machine
end

section
open Sys2Proof Sys2Proof.Machine

/-- Settles O33: each event of a slice's role, once its conditions hold, and the slice that takes what it leaves. -/
theorem sliceRolesAndReruns : Obligations.SliceRolesAndReruns := by
  unfold Obligations.SliceRolesAndReruns
  refine ⟨fun s htrip => ⟨exec_rotation_of_requested htrip, exec_rotationPeriod_of_enabled htrip,
    fun data => exec_now_of_set htrip, ?drain, ?drained, ?start, ?done⟩, fun s n htrip => ⟨?wdog, ?rerun, ?reset⟩⟩
  case drain =>
    intro n sl data rest hn hon hbist hset hwas hrole t hslip
    exact exec_drain_of_active htrip hn hon hbist hset hwas hrole hslip
  case drained =>
    intro n hn hrole hcur
    exact ⟨exec_drainedPictureDone_of_rerun htrip hn hrole hcur, fun hrerun =>
      ⟨exec_drainedPictureDone_of_drain htrip hn hrole hcur hrerun,
        exec_drainedPictureDone_of_rotation htrip hn hrole hcur hrerun⟩⟩
  case start =>
    intro n data hn hon hset t
    have hstart : exec (.bistStart n data) s = .next (bistRequested n t).irqSync := exec_bistStart_of_set htrip hn hon hset
    have hkept : t.outside = s.outside := writeDrain_outside n (bitAt 0 data) s
    rw [hstart, ← State.fuse_of_outside hkept, ← State.pwr_of_outside hkept]
    exact ⟨fun h => by rw [bistRequested_of_powered h], fun h hparents => by rw [bistRequested_of_dark h hparents]; rfl,
      fun h hparents => by rw [bistRequested_of_orphan h hparents], fun h => by rw [bistRequested_of_active h]⟩
  case done =>
    intro n fg hn hrole
    exact ⟨exec_bistDone_of_pass htrip hn hrole fg, exec_bistDone_of_failure htrip hn hrole fg⟩
  case wdog =>
    intro c p hn hen hrole hcur hpic
    exact ⟨fun m => exec_wdog_of_heir htrip hn hen hrole hcur hpic, exec_wdog_of_none htrip hn hen hrole hcur hpic⟩
  case rerun => exact fun c rest p => exec_rerunStart_of_waiting htrip
  case reset =>
    intro hn hrole
    exact ⟨exec_sliceResetDone_of_handed htrip hn hrole, exec_sliceResetDone_of_kept htrip hn hrole⟩

end

section
/-!
PROOFS. One field of a microword (R126): the sequencers' table under its updates, how a field that is due ends, and the
operations of the ALU (R127).
-/
namespace Sys2Proof.Machine

/-! ## The sequencers under their updates -/

@[simp] theorem hsqOf_setHsq_same (q : Nat) (x : HsqSt) (s : State) : hsqOf (setHsq q x s) q = x :=
  tabGet_tabSet_same _ _ _ _

theorem hsqOf_setHsq_ne {p q : Nat} (x : HsqSt) (s : State) (h : p ≠ q) : hsqOf (setHsq q x s) p = hsqOf s p :=
  tabGet_tabSet_ne _ _ _ h

@[simp] theorem setHsq_drc (q : Nat) (x : HsqSt) (s : State) : (setHsq q x s).drc = s.drc := rfl

theorem hsqOf_irqSync (s : State) (q : Nat) : hsqOf s.irqSync q = hsqOf s q := by
  rw [hsqOf, State.irqSync_hsq, hsqOf]

@[simp] theorem jobParsed_drc (c : Nat) (r : JobRef) (s : State) : (jobParsed c r s).drc = s.drc := by
  unfold jobParsed
  split <;> rfl

@[simp] theorem unitStatus_drc (u : HsqUnit) (st : Nat) (s : State) : (unitStatus u st s).drc = s.drc := by
  simp only [unitStatus]
  rw [apply_ite State.drc, jobParsed_drc, ite_self]
  split
  · rfl
  · split <;> rfl

@[simp] theorem abandonUnit_drc (q st : Nat) (s : State) : (abandonUnit q st s).drc = s.drc := by
  unfold abandonUnit
  dsimp only
  split
  · rfl
  · split
    · rfl
    · exact unitStatus_drc _ _ _

@[simp] theorem trapUnit_drc (q : Nat) (s : State) : (trapUnit q s).drc = s.drc := by
  rw [trapUnit, abandonUnit_drc]
  exact incSat_drc _ _ _

/-! ## How a field that is due ends -/

section
variable {s u : State} {q phase : Nat} {ok : Nat → Bool} {f : Nat → HsqSt → Option HsqSt} (htrip : u.drc.trip = none)
  (hact : mayAct u q phase = true) (hok : ok (curWord u q) = true)
include htrip hact hok

theorem done_wordStep_of_some {x : HsqSt} (hf : f (curWord u q) (hsqOf u q) = some x) :
    done s (wordStep q phase ok f u) = .next (setHsq q { x with phase := phase + 1 } u).irqSync := by
  have hgo : wordStep q phase ok f u = setHsq q { x with phase := phase + 1 } u := by
    rw [wordStep, hact, hok, Bool.and_self, State.when_true, hf]
  rw [hgo]
  exact done_next s _ htrip

theorem done_wordStep_of_none (hf : f (curWord u q) (hsqOf u q) = none) :
    done s (wordStep q phase ok f u) = .next (trapUnit q u).irqSync := by
  have hgo : wordStep q phase ok f u = trapUnit q u := by
    rw [wordStep, hact, hok, Bool.and_self, State.when_true, hf]
  rw [hgo]
  exact done_next s _ (by rw [trapUnit_drc, htrip])

end

/-- A field that is due does the operation its word names. -/
theorem done_wordStep_of_op {s u : State} {q phase op : Nat} {opOf : Nat → Nat} {f : Nat → HsqSt → Option HsqSt}
    {x : HsqSt} (htrip : u.drc.trip = none) (hact : mayAct u q phase = true)
    (hop : opOf (curWord u q) = op) (hf : f (curWord u q) (hsqOf u q) = some x) :
    done s (wordStep q phase (fun w => opOf w == op) f u) = .next (setHsq q { x with phase := phase + 1 } u).irqSync :=
  done_wordStep_of_some (ok := fun w => opOf w == op) htrip hact (beq_iff_eq.mpr hop) hf

theorem phase_of_mayAct {s : State} {q phase : Nat} (h : mayAct s q phase = true) : (hsqOf s q).phase = phase := by
  simp only [mayAct, Bool.and_eq_true, beq_iff_eq] at h
  obtain ⟨⟨-, hphase⟩, -⟩ := h
  exact hphase

theorem mw_lt (w lo n : Nat) : mw w lo n < 2 ^ n := Nat.mod_lt _ (Nat.two_pow_pos n)

/-! ## Flags -/

theorem flagOf_flagPut (fs : List Bool) (i : Nat) (v : Bool) {k : Nat} (hk : k < 6) :
    flagOf (flagPut fs i v) k = if k = i then v else flagOf fs k := by
  simp [flagOf, flagPut, List.getD, hk]

/-! ## What an ALU operation changes (R126, R127) -/

/-- Of a sequencer `h`, the word `w` leaves `x`: its register D holds `reg` where there is one, Z and N are those of
`flagsFrom` where there is one, C is `carry` where that is given, and nothing else has changed. -/
structure AluWrites (w : Nat) (h x : HsqSt) (reg flagsFrom : Option Word) (carry : Option Bool) : Prop where
  regs : ∀ r, tabGet (fun _ => 0) x.regs r = match reg with
    | some v => if r = mw w 6 6 then v else tabGet (fun _ => 0) h.regs r
    | none => tabGet (fun _ => 0) h.regs r
  zn : ∀ v, flagsFrom = some v → flagOf x.flags fZ = (v == 0) ∧ flagOf x.flags fN = v.msb
  flags : flagsFrom = none → x.flags = h.flags
  carry : ∀ c, carry = some c → flagOf x.flags fC = c
  others : ∀ i, 3 ≤ i → i < 6 → flagOf x.flags i = flagOf h.flags i
  frame : { x with regs := h.regs, flags := h.flags } = h

section
variable (w : Nat) (h : HsqSt)

theorem regs_setG (v : Word) (r : Nat) : tabGet (fun _ => 0) (h.setG (mw w 6 6) v).regs r =
    if r = mw w 6 6 then v else tabGet (fun _ => 0) h.regs r := by
  have hreg : mw w 6 6 % 64 = mw w 6 6 := Nat.mod_eq_of_lt (mw_lt w 6 6)
  rw [HsqSt.setG, hreg]
  exact tabGet_tabSet _ _ _ _ _

theorem aluWrites_nop : AluWrites w h h none none none :=
  ⟨fun _ => rfl, nofun, fun _ => rfl, nofun, fun _ _ _ => rfl, rfl⟩

theorem aluWrites_mov (v : Word) : AluWrites w h (h.setG (mw w 6 6) v) (some v) none none :=
  ⟨regs_setG w h v, nofun, fun _ => rfl, nofun, fun _ _ _ => rfl, rfl⟩

section
variable (v : Word) (c : Bool)

theorem flagOf_zn_carry {i : Nat} (hi : i < 6) : flagOf ((zn v h).setFlag fC c).flags i =
    if i = fC then c else if i = fN then v.msb else if i = fZ then v == 0 else flagOf h.flags i := by
  simp only [zn, HsqSt.setFlag, flagOf_flagPut _ _ _ hi]

/-- CMP: the flags of a value, with its carry. -/
theorem aluWrites_flags : AluWrites w h ((zn v h).setFlag fC c) none (some v) (some c) where
  regs _ := rfl
  zn x hx := by
    cases hx
    exact ⟨flagOf_zn_carry h v c (by decide), flagOf_zn_carry h v c (by decide)⟩
  flags := nofun
  carry x hx := by
    cases hx
    exact flagOf_zn_carry h v c (by decide)
  others i hi hlt := by
    rw [flagOf_zn_carry h v c hlt, if_neg (by unfold fC; omega), if_neg (by unfold fN; omega), if_neg (by unfold fZ; omega)]
  frame := rfl

/-- A result written with its flags. -/
theorem aluWrites_result : AluWrites w h ((zn v (h.setG (mw w 6 6) v)).setFlag fC c) (some v) (some v) (some c) :=
  { aluWrites_flags w (h.setG (mw w 6 6) v) v c with
    regs := regs_setG w h v
    flags := nofun
    frame := rfl }

end

variable {w h}

/-- Where no rule gives the carry, any will do. -/
theorem AluWrites.free {x : HsqSt} {reg flagsFrom : Option Word} {carry : Option Bool}
    (hw : AluWrites w h x reg flagsFrom carry) : AluWrites w h x reg flagsFrom none :=
  { hw with carry := nofun }

end

/-- A command leaves the ALU field of sequencer `q`'s word done, in the sense of `AluWrites`, and all else as it was. -/
def AluLeaves (s : State) (q : Nat) (o : Out) (reg flagsFrom : Option Word) (carry : Option Bool) : Prop :=
  ∃ t, o = .next t ∧ AluWrites (curWord s q) (hsqOf s q) { hsqOf t q with phase := 0 } reg flagsFrom carry ∧
    (hsqOf t q).phase = 1 ∧ (∀ p, p ≠ q → hsqOf t p = hsqOf s p) ∧ { t with hsq := s.hsq, free := s.free, icu := s.icu } = s

/-- `State.irqSync` changes nothing but what the interrupt controller has been told. -/
theorem irqSync_eq (s : State) : { s.irqSync with icu := s.icu } = s := by
  unfold State.irqSync
  rfl

section
variable {s : State} {q : Nat} (htrip : s.drc.trip = none) (hact : mayAct s q 0 = true)

include hact in
theorem aluLeaves_next {x : HsqSt} {n : Nat} {reg flagsFrom : Option Word} {carry : Option Bool}
    (hw : AluWrites (curWord s q) (hsqOf s q) x reg flagsFrom carry) :
    AluLeaves s q (.next (setHsq q { x with phase := 1 } { s with free := n }).irqSync) reg flagsFrom carry := by
  have hx : x.phase = 0 := by
    rw [← phase_of_mayAct hact, ← hw.frame]
  refine ⟨_, rfl, ?_, ?_, fun p hp => ?_, ?_⟩
  · rw [hsqOf_irqSync, hsqOf_setHsq_same, ← hx]
    exact hw
  · rw [hsqOf_irqSync, hsqOf_setHsq_same]
  · rw [hsqOf_irqSync, hsqOf_setHsq_ne _ _ hp]
    rfl
  · exact congrArg (fun t : State => { t with hsq := s.hsq, free := s.free })
      (irqSync_eq (setHsq q { x with phase := 1 } { s with free := n }))

include htrip hact

theorem aluLeaves_wordStep {op : Nat} {f : Nat → HsqSt → Option HsqSt} {x : HsqSt} {reg flagsFrom : Option Word}
    {carry : Option Bool} (hop : aluOp (curWord s q) = op) (hf : f (curWord s q) (hsqOf s q) = some x)
    (hw : AluWrites (curWord s q) (hsqOf s q) x reg flagsFrom carry) :
    AluLeaves s q (done s (wordStep q 0 (fun w => aluOp w == op) f s)) reg flagsFrom carry := by
  rw [done_wordStep_of_op htrip hact hop hf]
  exact aluLeaves_next hact hw

variable {op : Nat} (r : Word → Word → Nat → Word) (hop : aluOp (curWord s q) = op)
include hop

/-- An operation of the table that writes its result, with the carry the table gives. -/
theorem aluLeaves_aluResult_of_carry (c : Word → Word → Bool) :
    let a := aluA (curWord s q) (hsqOf s q)
    let b := aluB (curWord s q) (hsqOf s q)
    let v := r a b (aluShift (curWord s q))
    AluLeaves s q (done s (aluResult q op r (some c) s)) (some v) (some v) (some (c a b)) := by
  intro a b v
  have hgo : aluResult q op r (some c) s = wordStep q 0 (fun _ => true) (fun _ h =>
      let a := aluA (curWord s q) h
      let b := aluB (curWord s q) h
      let x := r a b (aluShift (curWord s q))
      some ((zn x (h.setG (mw (curWord s q) 6 6) x)).setFlag fC (c a b))) s := by
    rw [aluResult]
    simp only [hact, hop, beq_self_eq_true, Bool.and_self, State.when_true]
  rw [hgo, done_wordStep_of_some htrip hact rfl rfl]
  exact aluLeaves_next hact (aluWrites_result _ _ _ _)

/-- An operation of the table that writes its result, for which the table gives no carry. -/
theorem aluLeaves_aluResult_of_free :
    let a := aluA (curWord s q) (hsqOf s q)
    let b := aluB (curWord s q) (hsqOf s q)
    let v := r a b (aluShift (curWord s q))
    AluLeaves s q (done s (aluResult q op r none s)) (some v) (some v) none := by
  intro a b v
  have hgo : aluResult q op r none s = wordStep q 0 (fun _ => true) (fun _ h =>
      let a := aluA (curWord s q) h
      let b := aluB (curWord s q) h
      let x := r a b (aluShift (curWord s q))
      some ((zn x (h.setG (mw (curWord s q) 6 6) x)).setFlag fC (s.fresh.1.getLsbD 0))) s.fresh.2 := by
    rw [aluResult]
    simp only [hact, hop, beq_self_eq_true, Bool.and_self, State.when_true]
  rw [hgo, done_wordStep_of_some (u := s.fresh.2) htrip hact rfl rfl]
  exact aluLeaves_next hact (aluWrites_result _ _ _ _).free

end

/-! ## EXT, MIN and MAX as arithmetic -/

/-- EXT as quotient and remainder. -/
theorem ushiftRight_toNat_mod (a : Word) (k n : Nat) : (a >>> k).toNat % 2 ^ n = a.toNat / 2 ^ k % 2 ^ n := by
  rw [BitVec.toNat_ushiftRight, Nat.shiftRight_eq_div_pow]

/-- MIN as the minimum of the two numbers. -/
theorem ite_le_eq_min (a b : Word) : (if a.toNat ≤ b.toNat then a else b) = BitVec.ofNat 32 (min a.toNat b.toNat) := by
  rw [Nat.min_def, apply_ite (BitVec.ofNat 32), BitVec.ofNat_toNat, BitVec.ofNat_toNat, BitVec.setWidth_eq,
    BitVec.setWidth_eq]

/-- MAX as the maximum of the two numbers. -/
theorem ite_le_eq_max (a b : Word) : (if a.toNat ≤ b.toNat then b else a) = BitVec.ofNat 32 (max a.toNat b.toNat) := by
  rw [Nat.max_def, apply_ite (BitVec.ofNat 32), BitVec.ofNat_toNat, BitVec.ofNat_toNat, BitVec.setWidth_eq,
    BitVec.setWidth_eq]

/-! ## Leading zeros (R127) -/

/-- Of a test that holds below where it holds, the count below `n` is where it ends. -/
theorem lt_countP_range_iff {p : Nat → Bool} (hp : ∀ i j, i ≤ j → p j = true → p i = true) (n : Nat) :
    ∀ i, i < n → (i < (List.range n).countP p ↔ p i = true) := by
  induction n with
  | zero => intro i hi; omega
  | succ n ih =>
    intro i hi
    have hle : (List.range n).countP p ≤ n := List.countP_le_length.trans_eq List.length_range
    rw [List.range_succ, List.countP_append, List.countP_singleton]
    by_cases hn : p n = true
    · have hall : (List.range n).countP p = n := by
        rw [List.countP_eq_length.mpr fun j hj => hp j n (List.mem_range.mp hj).le hn, List.length_range]
      rw [hall, if_pos hn]
      exact iff_of_true hi (hp i n (by omega) hn)
    · rw [if_neg hn, Nat.add_zero]
      rcases Nat.lt_succ_iff_lt_or_eq.mp hi with hlt | rfl
      · exact ih i hlt
      · exact iff_of_false (by omega) hn

theorem lt_clz_iff (a : Word) {i : Nat} (hi : i < 32) : i < clz a ↔ a.toNat < 2 ^ (31 - i) := by
  have hp : ∀ i j, i ≤ j → decide (a.toNat / 2 ^ (31 - j) = 0) = true → decide (a.toNat / 2 ^ (31 - i) = 0) = true := by
    intro i j hij hj
    rw [decide_eq_true_eq, Nat.div_eq_zero_iff_lt (Nat.two_pow_pos _)] at hj ⊢
    exact lt_of_lt_of_le hj (Nat.pow_le_pow_right (by decide) (by omega))
  rw [clz, lt_countP_range_iff hp 32 i hi, decide_eq_true_eq, Nat.div_eq_zero_iff_lt (Nat.two_pow_pos _)]

theorem clz_le (a : Word) : clz a ≤ 32 := by
  rw [clz]
  exact List.countP_le_length.trans_eq List.length_range

theorem getLsbD_of_lt_clz (a : Word) {i : Nat} (hi : i < clz a) : a.getLsbD (31 - i) = false :=
  Nat.testBit_lt_two_pow ((lt_clz_iff a (lt_of_lt_of_le hi (clz_le a))).mp hi)

theorem getLsbD_clz_of_lt (a : Word) (hlt : clz a < 32) : a.getLsbD (31 - clz a) = true := by
  have hlow : 2 ^ (31 - clz a) ≤ a.toNat := Nat.not_lt.mp ((lt_clz_iff a hlt).not.mp (lt_irrefl _))
  have hhigh : a.toNat < 2 ^ (31 - clz a + 1) := by
    rcases Nat.eq_zero_or_pos (clz a) with h0 | hpos
    · rw [h0]
      exact a.isLt
    · have h := (lt_clz_iff a (i := clz a - 1) (by omega)).mp (by omega)
      rwa [show 31 - (clz a - 1) = 31 - clz a + 1 by omega] at h
  exact Nat.testBit_of_two_pow_le_and_two_pow_add_one_gt hlow hhigh

end Sys2Proof.Machine
end

section
open Sys2Proof Sys2Proof.Machine

/-- Settles O34: NOP, CMP and MOV are one field each, the other operations one use of the table's common step, and CLZ
counts the zeros above the highest one. -/
theorem aluOperations : Obligations.AluOperations := by
  unfold Obligations.AluOperations
  intro s q htrip hact w h a b k next res
  have hnext : ∀ {c : Instr} {reg flagsFrom : Option Word} {carry : Option Bool},
      AluLeaves s q (exec c s) reg flagsFrom carry → next c reg flagsFrom carry := by
    rintro c reg flagsFrom carry ⟨t, hexec, hw, hphase, hother, hframe⟩
    exact ⟨t, hexec, hw.regs, hw.zn, hw.flags, hw.carry, hw.others, hphase, hw.frame, hother, hframe⟩
  clear_value next
  refine ⟨fun hop => hnext ?nop, fun hop => hnext ?add, fun hop => hnext ?sub, fun hop => hnext ?and,
    fun hop => hnext ?or, fun hop => hnext ?xor, fun hop => hnext ?shl, fun hop => hnext ?shr, fun hop => hnext ?asr,
    fun hop => hnext ?ext, fun hop => hnext ?min, fun hop => hnext ?max, fun hop => ⟨clz a, clz_le a,
      fun i => getLsbD_of_lt_clz a, getLsbD_clz_of_lt a, hnext ?clz⟩, fun hop => hnext ?mul, fun hop => hnext ?cmp,
    fun hop => hnext ?mov, fun hop => ?trap⟩
  case nop => exact aluLeaves_wordStep htrip hact hop rfl (aluWrites_nop w h)
  case cmp => exact aluLeaves_wordStep htrip hact hop rfl (aluWrites_flags w h (a - b) _)
  case mov => exact aluLeaves_wordStep htrip hact hop rfl (aluWrites_mov w h b)
  case add => exact aluLeaves_aluResult_of_carry htrip hact _ hop _
  case sub => exact aluLeaves_aluResult_of_carry htrip hact _ hop _
  case and => exact aluLeaves_aluResult_of_free htrip hact _ hop
  case or => exact aluLeaves_aluResult_of_free htrip hact _ hop
  case xor => exact aluLeaves_aluResult_of_free htrip hact _ hop
  case shl => exact aluLeaves_aluResult_of_free htrip hact _ hop
  case shr => exact aluLeaves_aluResult_of_free htrip hact _ hop
  case asr => exact aluLeaves_aluResult_of_free htrip hact _ hop
  case ext =>
    rw [← ushiftRight_toNat_mod]
    exact aluLeaves_aluResult_of_free htrip hact _ hop
  case min =>
    rw [← ite_le_eq_min]
    exact aluLeaves_aluResult_of_free htrip hact _ hop
  case max =>
    rw [← ite_le_eq_max]
    exact aluLeaves_aluResult_of_free htrip hact _ hop
  case clz => exact aluLeaves_aluResult_of_free htrip hact _ hop
  case mul => exact aluLeaves_aluResult_of_free htrip hact _ hop
  case trap => exact done_wordStep_of_none htrip hact (decide_eq_true hop) rfl

end

section
/-!
PROOFS. Exp-Golomb codes (R128): how long a number is, what the bits of a code are, and what the port reads of them.
-/
namespace Sys2Proof.Machine

/-! ## The length of a number -/

theorem lt_bitLen_iff (n : Nat) {i : Nat} (hi : i < 33) : i < bitLen n ↔ 2 ^ i ≤ n := by
  have hp : ∀ i j, i ≤ j → decide (2 ^ j ≤ n) = true → decide (2 ^ i ≤ n) = true := fun i j hij hj =>
    decide_eq_true ((Nat.pow_le_pow_right (by decide) hij).trans (of_decide_eq_true hj))
  rw [bitLen, lt_countP_range_iff hp 33 i hi, decide_eq_true_eq]

/-- A positive number of at most 32 bits lies between the powers its length names. -/
theorem bitLen_bounds {n : Nat} (hpos : 0 < n) (hlt : n < 2 ^ 32) :
    ∃ z, z ≤ 31 ∧ bitLen n = z + 1 ∧ 2 ^ z ≤ n ∧ n < 2 ^ (z + 1) := by
  have hlow : 0 < bitLen n := (lt_bitLen_iff n (by decide)).mpr hpos
  have hhigh : bitLen n ≤ 32 := Nat.not_lt.mp ((lt_bitLen_iff n (by decide)).not.mpr (Nat.not_le.mpr hlt))
  refine ⟨bitLen n - 1, by omega, by omega, (lt_bitLen_iff n (by omega)).mp (by omega), Nat.not_le.mp ?_⟩
  exact (lt_bitLen_iff n (by omega)).not.mp (by omega)

/-! ## The bits of a code -/

@[simp] theorem bitsOfNat_length (n v : Nat) : (bitsOfNat n v).length = n := by
  rw [bitsOfNat, List.length_map, List.length_range]

theorem bitsOfNat_getD {n i : Nat} (v : Nat) (hi : i < n) : (bitsOfNat n v).getD i false = v.testBit (n - 1 - i) := by
  simp [bitsOfNat, List.getD, hi]

section
variable {v z : Nat} (hlen : bitLen (v + 1) = z + 1)
include hlen

theorem ueBits_length : (ueBits v).length = 2 * z + 1 := by
  simp only [ueBits, hlen, List.length_append, List.length_replicate, bitsOfNat_length]
  omega

theorem ueBits_getD_zeros {i : Nat} (hi : i < z) : (ueBits v).getD i false = false := by
  simp only [ueBits, hlen, Nat.add_sub_cancel]
  rw [List.getD_append _ _ _ _ (by rwa [List.length_replicate]), List.getD_replicate _ hi]

/-- From its first one on a code holds the number it codes, plus one. -/
theorem ueBits_getD_number {i : Nat} (hi : i ≤ z) : (ueBits v).getD (z + i) false = (v + 1).testBit (z - i) := by
  simp only [ueBits, hlen, Nat.add_sub_cancel]
  rw [List.getD_append_right _ _ _ _ (by rw [List.length_replicate]; omega), List.length_replicate, Nat.add_sub_cancel_left,
    bitsOfNat_getD _ (by omega), Nat.add_sub_cancel]

end

/-! ## What the port reads -/

section
variable {h : HsqSt} {p : Nat}

/-- The zeros counted stop at the first one. -/
theorem zeros_of_first_one {z : Nat} (hz : z ≤ 32) (hzeros : ∀ i, i < z → h.bit (p + i) = false)
    (hone : h.bit (p + z) = true) : h.zeros p = z := by
  have hfold : ∀ n, (List.range n).foldl (fun acc i => if acc = i ∧ !(h.bit (p + i)) then i + 1 else acc) 0 = min n z := by
    intro n
    induction n with
    | zero => exact (Nat.zero_min z).symm
    | succ n ih =>
      rw [List.range_succ, List.foldl_append, ih, List.foldl_cons, List.foldl_nil]
      rcases Nat.lt_trichotomy n z with hlt | rfl | hgt
      · rw [if_pos ⟨by omega, by rw [hzeros n hlt]; rfl⟩]
        omega
      · rw [if_neg (by rw [hone]; simp)]
        omega
      · rw [if_neg (by omega)]
        omega
  rw [HsqSt.zeros, hfold, Nat.min_eq_right hz]

/-- Bits that are those of `m` read as `m`. -/
theorem bitsAt_of_testBit {n m : Nat} (hbits : ∀ i, i < n → h.bit (p + i) = m.testBit (n - 1 - i)) :
    h.bitsAt p n = m % 2 ^ n := by
  have hfold : ∀ k, k ≤ n → (List.range k).foldl (fun acc i => 2 * acc + (h.bit (p + i)).toNat) 0 =
      m / 2 ^ (n - k) % 2 ^ k := by
    intro k
    induction k with
    | zero => intro _; rw [Nat.pow_zero, Nat.mod_one]; rfl
    | succ k ih =>
      intro hk
      have hhalf : m / 2 ^ (n - k) = m / 2 ^ (n - (k + 1)) / 2 := by
        rw [Nat.div_div_eq_div_mul, ← Nat.pow_succ, show (n - (k + 1)).succ = n - k by omega]
      have hbit : (h.bit (p + k)).toNat = m / 2 ^ (n - (k + 1)) % 2 := by
        rw [hbits k (by omega), Nat.toNat_testBit, show n - 1 - k = n - (k + 1) by omega]
      rw [List.range_succ, List.foldl_append, ih (by omega), List.foldl_cons, List.foldl_nil, hbit, hhalf, Nat.pow_succ',
        Nat.mod_mul, Nat.add_comm]
  rw [HsqSt.bitsAt, hfold n le_rfl, Nat.sub_self, Nat.pow_zero, Nat.div_one]

/-- A port at the bits of a code reads the number coded, and goes past them. -/
theorem ue_of_ueBits {v : Nat} (hv : v + 1 < 2 ^ 32)
    (hbits : ∀ i, i < (ueBits v).length → h.bit (h.pos0 + i) = (ueBits v).getD i false) :
    h.ue = some (v, h.readTo (h.pos0 + (ueBits v).length)) := by
  obtain ⟨z, hz, hlen, hlow, hhigh⟩ := bitLen_bounds (n := v + 1) (by omega) hv
  rw [ueBits_length hlen] at hbits
  rw [ueBits_length hlen, ← Nat.add_assoc]
  have hnumber : ∀ i, i ≤ z → h.bit (h.pos0 + (z + i)) = (v + 1).testBit (z - i) := fun i hi => by
    rw [hbits (z + i) (by omega), ueBits_getD_number hlen hi]
  have hzeros : h.zeros h.pos0 = z := by
    refine zeros_of_first_one (by omega) (fun i hi => ?_) ?_
    · rw [hbits i (by omega), ueBits_getD_zeros hlen hi]
    · rw [← Nat.add_zero z, hnumber 0 (Nat.zero_le z)]
      exact Nat.testBit_of_two_pow_le_and_two_pow_add_one_gt hlow hhigh
  have hrest : h.bitsAt (h.pos0 + z + 1) z = v + 1 - 2 ^ z := by
    rw [bitsAt_of_testBit (m := v + 1) fun i hi => by
      rw [show h.pos0 + z + 1 + i = h.pos0 + (z + (1 + i)) by omega, hnumber (1 + i) (by omega), Nat.sub_sub]]
    rw [Nat.mod_eq_sub_mod hlow, Nat.mod_eq_of_lt (by rw [Nat.pow_succ] at hhigh; omega)]
  have hpos : 0 < 2 ^ z := Nat.two_pow_pos z
  have hvalue : 2 ^ z - 1 + (v + 1 - 2 ^ z) = v := by omega
  simp only [HsqSt.ue, hzeros, hrest, hvalue, if_neg (Nat.not_lt.mpr hz)]

end

/-- A positive value has an odd code, the others an even one. -/
theorem seValue_seCode (x : Int) : seValue (seCode x) = x := by
  unfold seCode
  split
  · rw [seValue, if_pos (by omega)]
    omega
  · rw [seValue, if_neg (by omega)]
    omega

end Sys2Proof.Machine
end

section
open Sys2Proof Sys2Proof.Machine

/-- Settles O36: the zeros of a code are one fewer than the bits of the number plus one, which follow them. -/
theorem expGolombRoundTrip : Obligations.ExpGolombRoundTrip := by
  unfold Obligations.ExpGolombRoundTrip
  exact ⟨fun h v => ue_of_ueBits, seValue_seCode⟩

end

section
/-!
PROOFS. The stream port and the output field (R123, R128 to R130): the reads of a decode unit, the writes of a header
request, and the words of a descriptor and of the parse area.
-/
namespace Sys2Proof.Machine

theorem flagOf_readTo (h : HsqSt) (e : Nat) : flagOf (h.readTo e).flags fEou = decide (h.unitBits < e) := by
  rw [HsqSt.readTo, HsqSt.setFlag]
  exact (flagOf_flagPut _ _ _ (by decide)).trans (if_pos rfl)

theorem exec_spLeb (q : Nat) (s : State) : exec (.spLeb q) s = execSpLeb q s := rfl
theorem exec_spWtrail (q : Nat) (s : State) : exec (.spWtrail q) s = execSpWtrail q s := rfl
theorem exec_outCrd (q : Nat) (s : State) : exec (.outCrd q) s = execOutCrd q s := rfl

/-! ## Reads of a decode unit -/

/-- With at most 31 leading zeros there is a code at the port. -/
theorem ue_of_zeros {h : HsqSt} (hz : h.zeros h.pos0 ≤ 31) :
    h.ue = some (2 ^ h.zeros h.pos0 - 1 + h.bitsAt (h.pos0 + h.zeros h.pos0 + 1) (h.zeros h.pos0),
      h.readTo (h.pos0 + 2 * h.zeros h.pos0 + 1)) := by
  rw [HsqSt.ue]
  exact if_neg (Nat.not_lt.mpr hz)

section
variable {s : State} {q op : Nat} (htrip : s.drc.trip = none) (hact : mayAct s q 1 = true)
  (hdec : (hsqOf s q).isHeader = false) (hop : spOp (curWord s q) = op)
include htrip hact hdec hop

theorem done_spRead_of_some {f : Nat → HsqSt → Option HsqSt} {x : HsqSt} (hf : f (curWord s q) (hsqOf s q) = some x) :
    done s (spRead q op f s) = .next (setHsq q { x with phase := 2 } s).irqSync :=
  done_wordStep_of_op htrip hact hop ((if_neg (Bool.eq_false_iff.mp hdec)).trans hf)

theorem done_spGolomb_of_some (f : Nat → Word) {k : Nat} {x : HsqSt} (hue : (hsqOf s q).ue = some (k, x)) :
    done s (spGolomb q op f s) = .next (setHsq q { x.setG (spReg (curWord s q)) (f k) with phase := 2 } s).irqSync := by
  rw [spGolomb]
  simp only [hue, Option.isNone_some, Bool.false_and, Bool.false_eq_true, if_false]
  exact done_spRead_of_some htrip hact hdec hop (by simp only [hue])

end

section
variable {s : State} {q : Nat} (htrip : s.drc.trip = none) (hact : mayAct s q 1 = true)
  (hdec : (hsqOf s q).isHeader = false)
include htrip hact hdec

/-- ns(n) in one of its two lengths. -/
theorem exec_spNs_of_pos {n k v : Nat} (hop : spOp (curWord s q) = 7)
    (hn : n = ((hsqOf s q).g (mw (curWord s q) 49 6)).toNat) (hpos : 0 < n) (hk : k = bitLen n)
    (hv : v = (hsqOf s q).bitsAt (hsqOf s q).pos0 (k - 1)) :
    exec (.spNs q) s = .next (setHsq q
      { (if v < 2 ^ k - n
          then ((hsqOf s q).setG (spReg (curWord s q)) (BitVec.ofNat 32 v)).readTo ((hsqOf s q).pos0 + (k - 1))
          else ((hsqOf s q).setG (spReg (curWord s q)) (BitVec.ofNat 32 (2 * v - (2 ^ k - n) +
            ((hsqOf s q).bit ((hsqOf s q).pos0 + (k - 1))).toNat))).readTo ((hsqOf s q).pos0 + k)) with phase := 2 }
      s).irqSync := by
  subst hn hk hv
  exact done_spRead_of_some htrip hact hdec hop ((if_neg hpos.ne').trans (apply_ite some _ _ _).symm)

/-- A leb128() of at most 8 bytes and 32 bits. -/
theorem exec_spLeb_of_fits (hop : spOp (curWord s q) = 8) (hlen : (hsqOf s q).lebLen ≤ 8)
    (hval : (hsqOf s q).lebVal (hsqOf s q).lebLen < 2 ^ 32) :
    exec (.spLeb q) s = .next (setHsq q
      { ((hsqOf s q).readTo ((hsqOf s q).pos0 + 8 * (hsqOf s q).lebLen)).setG (spReg (curWord s q))
          (BitVec.ofNat 32 ((hsqOf s q).lebVal (hsqOf s q).lebLen)) with phase := 2 } s).irqSync := by
  have hgood : (decide (8 < (hsqOf s q).lebLen) || decide (2 ^ 32 ≤ (hsqOf s q).lebVal (min 8 (hsqOf s q).lebLen))) =
      false := by
    rw [Nat.min_eq_right hlen, decide_eq_false (Nat.not_lt.mpr hlen), decide_eq_false (Nat.not_le.mpr hval)]
    rfl
  rw [exec_spLeb, execSpLeb]
  simp only [hgood, Bool.false_and, Bool.false_eq_true, if_false]
  refine done_spRead_of_some htrip hact hdec hop ?_
  rw [if_neg (Bool.eq_false_iff.mp hgood), Nat.min_eq_right hlen]

end

/-! ## Writes of a header request -/

section
variable {h : HsqSt} {u : HsqUnit} {bits : List Bool} (hunit : h.unit = some u)
  (hfits : (headerStream u.codec (h.out ++ bits) h.cuts).length ≤ u.cap)
include hunit hfits

theorem put_of_fits : h.put bits = { h with out := h.out ++ bits, pos := (h.out ++ bits).length } := by
  simp only [HsqSt.put, hunit]
  exact if_neg (Nat.not_lt.mpr hfits)

/-- Bits written end the NAL unit behind them. -/
theorem cut_put_of_fits (hbits : bits ≠ []) : h.cut (h.put bits) =
    { h with out := h.out ++ bits, pos := (h.out ++ bits).length, cuts := h.cuts ++ [(h.out ++ bits).length] } := by
  rw [put_of_fits hunit hfits, HsqSt.cut, if_pos]
  rw [List.length_append]
  exact Nat.lt_add_of_pos_right (List.length_pos_of_ne_nil hbits)

end

section
variable {s : State} {q op : Nat} {u : HsqUnit} {bits : List Bool} (htrip : s.drc.trip = none)
  (hact : mayAct s q 1 = true) (hheader : (hsqOf s q).isHeader = true) (hunit : (hsqOf s q).unit = some u)
  (hfits : (headerStream u.codec ((hsqOf s q).out ++ bits) (hsqOf s q).cuts).length ≤ u.cap)
include htrip hact hheader hunit hfits

theorem done_spWrite_of_fits (hop : spOp (curWord s q) = op) {f : Nat → HsqSt → Option (List Bool)}
    (hf : f (curWord s q) (hsqOf s q) = some bits) :
    done s (spWrite q op f s) = .next (setHsq q { hsqOf s q with
      out := (hsqOf s q).out ++ bits, pos := ((hsqOf s q).out ++ bits).length, phase := 2 } s).irqSync := by
  refine done_wordStep_of_op htrip hact hop
    (x := { hsqOf s q with out := (hsqOf s q).out ++ bits, pos := ((hsqOf s q).out ++ bits).length }) ?_
  rw [if_pos hheader, hf, Option.map_some, put_of_fits hunit hfits]

theorem exec_spWtrail_of_fits (hop : spOp (curWord s q) = 20)
    (hbits : bits = true :: List.replicate ((7 - (hsqOf s q).out.length % 8) % 8) false) :
    exec (.spWtrail q) s = .next (setHsq q { hsqOf s q with
      out := (hsqOf s q).out ++ bits, pos := ((hsqOf s q).out ++ bits).length,
      cuts := (hsqOf s q).cuts ++ [((hsqOf s q).out ++ bits).length], phase := 2 } s).irqSync := by
  have hcut := cut_put_of_fits hunit hfits (hbits ▸ List.cons_ne_nil _ _)
  rw [exec_spWtrail, execSpWtrail, done_wordStep_of_op htrip hact hop (if_pos hheader), ← hbits, hcut]

end

/-! ## Output (R123, R124, R130) -/

theorem stage_of_room {h : HsqSt} {i : Nat} (v : Word)
    (hroom : (h.closed.map (fun d => d.2.length)).sum + max h.curLen (i + 1) ≤ 1024) :
    h.stage i v = { h with cur := tabSet (fun _ => 0) h.cur i v, curLen := max h.curLen (i + 1) } :=
  if_neg (Nat.not_lt.mpr hroom)

theorem isHeader_of_unit {h : HsqSt} {u : HsqUnit} (hunit : h.unit = some u) : h.isHeader = u.header := by
  rw [HsqSt.isHeader, hunit]

/-- A word of the request a header unit serves. -/
theorem reqWord_of_lt {h : HsqSt} {u : HsqUnit} {k : Nat} (v d : Word) (hunit : h.unit = some u) (hk : k < u.req.length) :
    h.reqWord v k = u.req.getD k d := by
  simp only [HsqSt.reqWord, hunit]
  rw [List.getD_eq_getElem _ _ hk, List.getD_eq_getElem _ _ hk]

section
variable {s : State} {q : Nat} (htrip : s.drc.trip = none) (hact : mayAct s q 2 = true)
  (hop : outOp (curWord s q) = 5) (hidle : bitsOf 7 0 (s.raw (HSQ_FAULT_STATUS q + 12)) = 0)
include htrip hact hop hidle

theorem exec_outCrd_of_decode (hdec : (hsqOf s q).isHeader = false) :
    exec (.outCrd q) s = .next (setHsq q { (hsqOf s q).setG (mw (curWord s q) 100 6)
      ((hsqOf s q).area (areaWord (curWord s q) (hsqOf s q))) with phase := 3 } s).irqSync := by
  rw [exec_outCrd, execOutCrd, hact, hop]
  simp only [beq_self_eq_true, Bool.and_self, State.when_true, sramCheck_of_idle _ _ hidle, hdec,
    Bool.false_eq_true, if_false]
  exact done_wordStep_of_some htrip hact rfl rfl

theorem exec_outCrd_of_header {u : HsqUnit} (hunit : (hsqOf s q).unit = some u) (hheader : u.header = true)
    (hlt : areaWord (curWord s q) (hsqOf s q) < u.req.length) :
    exec (.outCrd q) s = .next (setHsq q { (hsqOf s q).setG (mw (curWord s q) 100 6)
      (u.req.getD (areaWord (curWord s q) (hsqOf s q)) 0) with phase := 3 } s.fresh.2).irqSync := by
  rw [exec_outCrd, execOutCrd, hact, hop]
  simp only [beq_self_eq_true, Bool.and_self, State.when_true, sramCheck_of_idle _ _ hidle,
    (isHeader_of_unit hunit).trans hheader, if_true]
  rw [← reqWord_of_lt s.fresh.1 0 hunit hlt]
  exact done_wordStep_of_some (u := s.fresh.2) htrip hact rfl rfl

end

end Sys2Proof.Machine
end

section
open Sys2Proof Sys2Proof.Machine

/-- Settles O35: each read of a decode unit is one use of the port's common read, each write of a header request one of its
common write, and each output operation one field of its word. -/
theorem streamPortAndOutput : Obligations.StreamPortAndOutput := by
  unfold Obligations.StreamPortAndOutput
  refine ⟨fun h e => ⟨flagOf_readTo h e, rfl⟩, fun s q htrip hact hdec => ?reads, fun s q htrip => ⟨?writes, ?output⟩⟩
  case reads =>
    refine ⟨fun hop => ?nop, fun n hn => ⟨fun hop => ?u, fun hop => ?peek, fun hop => ?skip, fun hop => ?su⟩,
      fun hz => ⟨fun hop => ?ue, fun hop => ?se⟩, fun hop hpos => ?ns, fun hop hlen hval => ?leb, fun hop => ?align,
      fun hop => ?pos, fun hop => ?trap⟩
    case nop => exact done_wordStep_of_op htrip hact hop rfl
    case u => exact done_spRead_of_some htrip hact hdec hop (congrArg (Option.map _) hn)
    case peek => exact done_spRead_of_some htrip hact hdec hop (congrArg (Option.map _) hn)
    case skip => exact done_spRead_of_some htrip hact hdec hop (congrArg (Option.map _) hn)
    case su => exact done_spRead_of_some htrip hact hdec hop (congrArg (Option.map _) hn)
    case ue => exact done_spGolomb_of_some htrip hact hdec hop _ (ue_of_zeros hz)
    case se => exact done_spGolomb_of_some htrip hact hdec hop _ (ue_of_zeros hz)
    case ns => exact exec_spNs_of_pos htrip hact hdec hop rfl hpos rfl rfl
    case leb => exact exec_spLeb_of_fits htrip hact hdec hop hlen hval
    case align => exact done_spRead_of_some htrip hact hdec hop rfl
    case pos => exact done_wordStep_of_op htrip hact hop rfl
    case trap =>
      refine done_wordStep_of_none htrip hact ?_ rfl
      simpa only [Bool.or_eq_true, decide_eq_true_eq] using hop
  case writes =>
    intro hact hheader u hunit
    refine ⟨fun n hop hn hfits => ?wu, fun hop hfits => ?wue, fun hop hfits => ?wse, fun hop hfits => ?wleb,
      fun hop hfits => ?wtrail⟩
    case wu => exact done_spWrite_of_fits htrip hact hheader hunit hfits hop (congrArg (Option.map _) hn)
    case wue => exact done_spWrite_of_fits htrip hact hheader hunit hfits hop rfl
    case wse => exact done_spWrite_of_fits htrip hact hheader hunit hfits hop rfl
    case wleb => exact done_spWrite_of_fits htrip hact hheader hunit hfits hop rfl
    case wtrail => exact exec_spWtrail_of_fits htrip hact hheader hunit hfits hop rfl
  case output =>
    intro hact
    refine ⟨fun hop => ?nop, fun hop hroom => ?dw, fun hop hroom => ?dwi, fun hop => ?send, fun hop hdec hlog => ?cwr,
      fun hop hdec hidle => ?crd, fun u hop hunit hheader hlt hidle => ?crdHeader, fun hop => ?trap⟩
    case nop => exact done_wordStep_of_op htrip hact hop rfl
    case dw => exact done_wordStep_of_op htrip hact hop (congrArg some (stage_of_room _ hroom))
    case dwi => exact done_wordStep_of_op htrip hact hop (congrArg some (stage_of_room _ hroom))
    case send => exact done_wordStep_of_op htrip hact hop rfl
    case cwr =>
      exact done_wordStep_of_op htrip hact hop
        ((if_neg (Bool.eq_false_iff.mp hdec)).trans (if_neg (Nat.not_le.mpr hlog)))
    case crd => exact exec_outCrd_of_decode htrip hact hop hidle hdec
    case crdHeader => exact exec_outCrd_of_header htrip hact hop hidle hunit hheader hlt
    case trap => exact done_wordStep_of_none htrip hact (decide_eq_true hop) rfl

end

section
/-!
PROOFS. The sequencing field (R129): the operations that go on to another word, and those that end the unit.
-/
namespace Sys2Proof.Machine

section
variable {s : State} {q op : Nat} (hact : mayAct s q 3 = true) (hop : seqOp (curWord s q) = op)
include hact hop

/-- A sequencing operation that ends the unit, or traps. -/
theorem done_when_seq {f : State → State} {t : State} (hf : f s = t) (htrip : t.drc.trip = none) :
    done s (State.when (mayAct s q 3 && seqOp (curWord s q) == op) f s) = .next t.irqSync :=
  done_when (by rw [hact, hop]; exact beq_self_eq_true op) hf htrip

section
variable {f : Nat → HsqSt → Nat → Option (Nat × List Nat)} (htrip : s.drc.trip = none)
include htrip

theorem done_seqStep_of_some {a : Nat} {stack : List Nat}
    (hf : f (curWord s q) (hsqOf s q) (hsqPc s q) = some (a, stack)) :
    done s (seqStep q op f s) = .next (nextWord q a stack s).irqSync :=
  done_when_seq hact hop (by rw [hf]) htrip

theorem done_seqStep_of_none (hf : f (curWord s q) (hsqOf s q) (hsqPc s q) = none) :
    done s (seqStep q op f s) = .next (trapUnit q s).irqSync :=
  done_when_seq hact hop (by rw [hf]) (by rw [trapUnit_drc, htrip])

end
end

/-! ## CALL (R129) -/

section
variable {s : State} {q : Nat} (htrip : s.drc.trip = none) (hact : mayAct s q 3 = true)
  (hop : seqOp (curWord s q) = 3)
include htrip hact hop

theorem exec_seqCall_of_not (hcond : seqHolds (curWord s q) (hsqOf s q) = false) :
    exec (.seqCall q) s = .next (nextWord q (hsqPc s q + 1) (hsqOf s q).stack s).irqSync :=
  done_seqStep_of_some hact hop htrip (by rw [hcond]; rfl)

section
variable (hcond : seqHolds (curWord s q) (hsqOf s q) = true)
include hcond

theorem exec_seqCall_of_room (hroom : (hsqOf s q).stack.length < 8) : exec (.seqCall q) s =
    .next (nextWord q (seqTarget (curWord s q)) ((hsqPc s q + 1) % 16384 :: (hsqOf s q).stack) s).irqSync :=
  done_seqStep_of_some hact hop htrip (by rw [hcond, if_neg (by decide), if_neg (Nat.not_le.mpr hroom)])

theorem exec_seqCall_of_full (hfull : 8 ≤ (hsqOf s q).stack.length) :
    exec (.seqCall q) s = .next (trapUnit q s).irqSync :=
  done_seqStep_of_none hact hop htrip (by rw [hcond, if_neg (by decide), if_pos hfull])

end
end

end Sys2Proof.Machine
end

section
open Sys2Proof Sys2Proof.Machine

/-- Settles O37: an operation that goes on is one use of `nextWord`, the others end the unit as their rows say. -/
theorem sequencingOperations : Obligations.SequencingOperations := by
  unfold Obligations.SequencingOperations
  intro s q hact w h pc goes
  refine ⟨fun htrip => ⟨fun hop => ?next, fun hop => ?jump, fun hop => ?callNot, fun hop => ?call, fun hop => ?callFull,
    fun a rest hop hstack => ?ret, fun hop hstack => ?retEmpty, fun hop => ?switch, fun hop => ?abandon, fun hop => ?trap⟩,
    fun hop hend => ?finish⟩
  case next => exact done_seqStep_of_some hact hop htrip rfl
  case jump => exact done_seqStep_of_some hact hop htrip rfl
  case callNot => exact exec_seqCall_of_not htrip hact hop
  case call => exact exec_seqCall_of_room htrip hact hop
  case callFull => exact exec_seqCall_of_full htrip hact hop
  case ret => exact done_seqStep_of_some hact hop htrip (by rw [hstack])
  case retEmpty => exact done_seqStep_of_none hact hop htrip (by rw [hstack])
  case switch => exact done_seqStep_of_some hact hop htrip rfl
  case abandon => exact done_when_seq hact hop rfl (by rw [abandonUnit_drc, htrip])
  case trap =>
    refine done_when ?_ rfl (by rw [trapUnit_drc, htrip])
    simpa only [hact, Bool.true_and, Bool.or_eq_true, beq_iff_eq, decide_eq_true_eq] using hop
  case finish => exact done_when_seq hact hop rfl hend

end

section
/-!
PROOFS. Units, headers and control stores (R121 to R124, R136, R137, R142 to R150): what a sequencer takes up at a boundary,
how a unit at END and a header leave it, the machine check and its recovery, and the loads and switches of its banks.
-/
namespace Sys2Proof.Machine

theorem exec_parseUnitStart (q offset length : Nat) (last : Bool) (s : State) :
    exec (.parseUnitStart q offset length last) s = execParseUnitStart q offset length last s := rfl
theorem exec_headerReq (enc : Nat) (elems : List HeaderElem) (s : State) :
    exec (.headerReq enc elems) s = execHeaderReq enc elems s := rfl
theorem exec_descriptorRelease (q : Nat) (s : State) : exec (.descriptorRelease q) s = execDescriptorRelease q s := rfl
theorem exec_headerDone (q : Nat) (s : State) : exec (.headerDone q) s = execHeaderDone q s := rfl
theorem exec_machineCheck (q : Nat) (s : State) : exec (.machineCheck q) s = execMachineCheck q s := rfl
theorem exec_mcReloadDone (q : Nat) (ok : Bool) (s : State) : exec (.mcReloadDone q ok) s = execMcReloadDone q ok s := rfl
theorem exec_microcodeLoad (slot : Nat) (s : State) : exec (.microcodeLoad slot) s = execMicrocodeLoad slot s := rfl
theorem exec_microcodeLoadDone (slot : Nat) (ok : Bool) (s : State) :
    exec (.microcodeLoadDone slot ok) s = execMicrocodeLoadDone slot ok s := rfl
theorem exec_bankSwitch (q : Nat) (s : State) : exec (.bankSwitch q) s = execBankSwitch q s := rfl

/-! ## Units taken at a boundary (R119 to R122, R136) -/

@[simp] theorem enterUnit_drc (q : Nat) (u : HsqUnit) (s : State) : (enterUnit q u s).drc = s.drc := rfl
@[simp] theorem setEncJob_drc (n : Nat) (j : Option EncJob) (s : State) : (setEncJob n j s).drc = s.drc := rfl

section
variable {s : State} {q : Nat} (hrun : hsqRunnable s q = true) (hfree : atBoundary s q = true)
  (hswitch : s.flag (HSQ_STATUS q) HSQ_STATUS.SWITCH_PENDING = false)
include hrun hfree hswitch

theorem exec_parseUnitStart_of_next {c offset length : Nat} {last : Bool} (hq : q < 4) (hno : headerWaits s q = false)
    (hredo : (hsqOf s q).redo = []) (hnext : nextContext s q = some c) (hdue : unitDue q s = (offset, length, last))
    (htrip : (startDecode q c s).drc.trip = none) :
    exec (.parseUnitStart q offset length last) s = .next (startDecode q c s).irqSync := by
  rw [exec_parseUnitStart, execParseUnitStart]
  refine done_when ?event ?_ htrip
  case event =>
    simp only [decide_eq_true hq, hdue, hrun, hfree, hno, hswitch, beq_self_eq_true, Bool.not_false, Bool.and_self]
  simp only [hredo, hnext]

/-- The unit of a header request of encoder `enc` for its job `j`, with the words `record` of its record (R122, R136). -/
def headerUnit (enc : Nat) (j : EncJob) (record : List Word) : HsqUnit :=
  let cap := min 4096 (poolSize (hPool (wordAt j.words 9)))
  ⟨true, enc, recCodec j.sess.words, j.ref, [4, BitVec.ofNat 32 (4 * record.length),
    BitVec.ofNat 32 (j.session + recCodec j.sess.words * 512), 0], true, headerRequest j cap record, [], cap, 0⟩

theorem exec_headerReq_of_waiting {enc : Nat} {j : EncJob} {elems : List HeaderElem} (htrip : s.drc.trip = none)
    (hjob : encJobOf s enc = some j) (hserver : headerServer s enc = q) (hphase : j.phase = .needHeader)
    (hrecord : recordHolds j elems = true) (henc : enc < numEncoders s.fuse.variant)
    (hlen : (elems.filterMap (elemWord j.sess.words)).length ≤ 1016) :
    exec (.headerReq enc elems) s = .next (enterUnit q (headerUnit enc j (elems.filterMap (elemWord j.sess.words)))
      (setEncJob enc (some { j with phase := .header })
        (setHsq q { hsqOf s q with served := (hsqOf s q).served + 1, checked := [] } s))).irqSync := by
  rw [exec_headerReq, execHeaderReq]
  simp only [hjob, hserver]
  refine done_when ?_ rfl (by simpa using htrip)
  simp only [hphase, decide_true, hrecord, decide_eq_true henc, decide_eq_true hlen, hrun, hfree, hswitch, Bool.not_false,
    Bool.and_self]

end

/-! ## The end of a unit and of a header (R123, R132, R136, R137) -/

section
variable {s : State} {q : Nat} (hq : q < 4)
include hq

theorem exec_descriptorRelease_of_room {u : HsqUnit} {st : Nat} (hunit : (hsqOf s q).unit = some u)
    (hending : (hsqOf s q).ending = some st) (hstate : hsqState s q = 1)
    (hroom : ∀ m ∈ picMembers s u.ctx, queueWords (sliceOf s m) +
      ((stagedDescs u (hsqOf s q)).map (fun e => e.words.length)).sum ≤ 4096)
    (htrip : (releaseUnit q st u (queueDescs u.ctx (stagedDescs u (hsqOf s q)) s)).drc.trip = none) :
    exec (.descriptorRelease q) s =
      .next (releaseUnit q st u (queueDescs u.ctx (stagedDescs u (hsqOf s q)) s)).irqSync := by
  rw [exec_descriptorRelease, execDescriptorRelease]
  simp only [hunit, hending]
  refine done_when ?_ rfl htrip
  simp only [decide_eq_true hq, hstate, beq_self_eq_true, Bool.true_and, List.all_eq_true, decide_eq_true_eq]
  exact hroom

theorem exec_headerDone_of_fits {d : HdrDone} {j : EncJob} {t v : State} (hheader : (hsqOf s q).header = some d)
    (hjob : encJobOf s d.enc = some j) (href : j.ref = d.ref) (hphase : j.phase = .header) (hok : d.ok = true)
    (hcap : cMin j.sess.words j.coded (8 * d.bytes.length) ≤ j.c)
    (ht : t = unitOver q (setHsq q { hsqOf s q with header := none } s))
    (hv : v = encInput d.enc (setEncJob d.enc
      (some { j with phase := .coding, hdrBytes := d.bytes.length, bits := 8 * d.bytes.length })
      (dramWr hsqPort t (bufAddr t (ejOutput j.words)) d.bytes)))
    (htrip : v.drc.trip = none) : exec (.headerDone q) s = .next v.irqSync := by
  rw [exec_headerDone, execHeaderDone]
  simp only [hheader]
  refine done_when (decide_eq_true hq) ?_ htrip
  have hsame : encJobOf (unitOver q (setHsq q { hsqOf s q with header := none } s)) d.enc = some j := hjob
  have hmine : ¬ (j.ref ≠ d.ref ∨ j.phase ≠ .header) := not_or.mpr ⟨not_not.mpr href, not_not.mpr hphase⟩
  simp only [hsame, if_neg hmine, if_neg (Nat.not_lt.mpr hcap), hok, Bool.not_true, Bool.false_eq_true, if_false]
  rw [hv, ht]

end

theorem sliceOf_setSlice_ne {m n : Nat} (x : SliceSt) (s : State) (h : m ≠ n) :
    sliceOf (setSlice n x s) m = sliceOf s m := tabGet_tabSet_ne _ _ _ h

/-- Descriptors enter the queue of slice `m` at its end. -/
def giveDescs (ds : List Desc) (m : Nat) (s : State) : State :=
  setSlice m { sliceOf s m with queue := (sliceOf s m).queue ++ ds } s

theorem queue_foldS_giveDescs (ds : List Desc) (m : Nat) (ms : List Nat) (hnodup : ms.Nodup) : ∀ s : State,
    (sliceOf (foldS (giveDescs ds) ms s) m).queue = if m ∈ ms then (sliceOf s m).queue ++ ds else (sliceOf s m).queue := by
  induction ms with
  | nil => intro s; rfl
  | cons k ms ih =>
    intro s
    obtain ⟨hk, hms⟩ := List.nodup_cons.mp hnodup
    rw [foldS, List.foldl_cons, ← foldS, ih hms]
    by_cases hkm : m = k
    · subst hkm
      rw [if_neg hk, if_pos List.mem_cons_self, giveDescs, sliceOf_setSlice_same]
    · rw [giveDescs, sliceOf_setSlice_ne _ _ hkm]
      simp only [List.mem_cons, hkm, false_or]

/-- Every slice of a picture, named once, has the picture's new descriptors at its queue's end. -/
theorem queueDescs_queue {s : State} {c m : Nat} (ds : List Desc) (hnodup : (picMembers s c).Nodup)
    (hm : m ∈ picMembers s c) : (sliceOf (queueDescs c ds s) m).queue = (sliceOf s m).queue ++ ds := by
  have hslices : sliceOf (queueDescs c ds s) m = sliceOf (foldS (giveDescs ds) (picMembers s c) s) m := by
    unfold queueDescs
    dsimp only
    split <;> rfl
  rw [hslices, queue_foldS_giveDescs ds m _ hnodup, if_pos hm]

/-! ## Fields under the updates of a fault -/

theorem State.rd_setFault_ne (s : State) {a fs : Nat} (b : Nat) (f : Fld) (h : a ≠ fs) :
    (s.setFault fs b).rd a f = s.rd a f := by
  unfold State.setFault
  split
  · rfl
  · dsimp only
    split <;> exact State.rd_wr_ne s _ _ _ h

theorem State.rd_incSat_of_apart (s : State) (a : Nat) {f g : Fld} (h : f.lo + f.w ≤ 32) (ha : f.apart g) :
    (s.incSat a f).rd a g = s.rd a g := by
  unfold State.incSat
  split
  · exact State.rd_wr_of_apart s a _ h ha
  · rfl

/-- A fault changes registers and the count of pin events alone. -/
theorem setFault_frame (s : State) (fs b : Nat) : { s.setFault fs b with regs := s.regs, pinEvts := s.pinEvts } = s := by
  unfold State.setFault
  split
  · rfl
  · dsimp only
    split <;> rfl

theorem incSat_frame (s : State) (a : Nat) (f : Fld) : { s.incSat a f with regs := s.regs } = s := by
  unfold State.incSat
  split <;> rfl

/-! ## The machine check (R146 to R148) -/

/-- The fetch of a word that fails is recorded with its address, bank and parity groups (R149, R150). -/
def mcNamed (q : Nat) (s : State) : State :=
  ((s.wr (HSQ_MC q) HSQ_MC.ADDR (hsqPc s q)).wr (HSQ_MC q) HSQ_MC.BANK (activeBank s q)).wr (HSQ_MC q) HSQ_MC.GROUPS
    (storeParity s q (activeBank s q) (hsqPc s q))

/-- The machine check is recorded and counted, and its interrupt and its fault are set. -/
def mcRecorded (q : Nat) (s : State) : State :=
  (((mcNamed q s).incSat (HSQ_MC q) HSQ_MC.COUNT).setBit (HSQ_IRQ_STATUS q) 0).setFault (HSQ_FAULT_STATUS q) 3

/-- What a machine check at a new address leaves: the unit is kept with nothing it produced, and waits for the reload. -/
def mcStopped (q : Nat) (s : State) : State :=
  (setHsq q { (hsqOf s q).halt with checked := (hsqOf s q).checked ++ [hsqPc s q] } (mcRecorded q s)).wr (HSQ_STATUS q)
    HSQ_STATUS.STATE 2

section
variable (q : Nat) (s : State)

theorem mcRecorded_frame : { mcRecorded q s with regs := s.regs, pinEvts := s.pinEvts } = s :=
  (congrArg (fun t : State => { t with regs := s.regs, pinEvts := s.pinEvts })
    (setFault_frame (((mcNamed q s).incSat (HSQ_MC q) HSQ_MC.COUNT).setBit (HSQ_IRQ_STATUS q) 0)
      (HSQ_FAULT_STATUS q) 3)).trans
    (congrArg (fun t : State => { t with regs := s.regs, pinEvts := s.pinEvts })
      (incSat_frame (mcNamed q s) (HSQ_MC q) HSQ_MC.COUNT))

theorem hsqOf_mcRecorded (p : Nat) : hsqOf (mcRecorded q s) p = hsqOf s p := by
  have hkept := congrArg (fun t => hsqOf t p) (mcRecorded_frame q s)
  exact hkept

theorem mcStopped_frame : { mcStopped q s with regs := s.regs, hsq := s.hsq, pinEvts := s.pinEvts } = s :=
  congrArg (fun t : State => { t with hsq := s.hsq }) (mcRecorded_frame q s)

theorem hsqOf_mcStopped : hsqOf (mcStopped q s) q =
    { (hsqOf s q).halt with checked := (hsqOf s q).checked ++ [hsqPc s q] } :=
  hsqOf_setHsq_same _ _ _

theorem hsqState_mcStopped : hsqState (mcStopped q s) q = 2 := State.rd_wr_same _ _ _ _ (by decide)

theorem rd_addr_mcStopped : (mcStopped q s).rd (HSQ_MC q) HSQ_MC.ADDR = hsqPc s q := by
  have hnamed : (mcNamed q s).rd (HSQ_MC q) HSQ_MC.ADDR = hsqPc s q := by
    rw [mcNamed, State.rd_wr_of_apart _ _ _ (by decide) (Or.inr (by decide)),
      State.rd_wr_of_apart _ _ _ (by decide) (Or.inr (by decide)), State.rd_wr_same _ _ _ _ (by decide)]
    exact Nat.mod_eq_of_lt (fget_lt HSQ_STATUS.PC _)
  have hrecorded : (mcRecorded q s).rd (HSQ_MC q) HSQ_MC.ADDR = hsqPc s q := by
    rw [mcRecorded, State.rd_setFault_ne _ _ _ (by simp only [HSQ_MC, HSQ_FAULT_STATUS]; omega), State.setBit,
      State.rd_wr_ne _ _ _ _ (by simp only [HSQ_MC, HSQ_IRQ_STATUS]; omega),
      State.rd_incSat_of_apart _ _ (by decide) (Or.inr (by decide)), hnamed]
  exact (State.rd_wr_ne _ _ _ _ (by simp only [HSQ_MC, HSQ_STATUS]; omega)).trans hrecorded

end

section
variable {s : State} {q : Nat} (hq : q < 4) (hon : s.domOn (13 + q / 2) = true)
include hq hon

theorem exec_machineCheck_of_parity (htrip : s.drc.trip = none) (hstate : hsqState s q = 1)
    (hunit : (hsqOf s q).unit.isSome = true) (hending : (hsqOf s q).ending = none) (hphase : (hsqOf s q).phase = 0)
    (hinject : fetchInjected s q = false) (hbad : storeParity s q (activeBank s q) (hsqPc s q) ≠ 0)
    (hnew : hsqPc s q ∉ (hsqOf s q).checked) : exec (.machineCheck q) s = .next (mcStopped q s).irqSync := by
  have hfetch : fetchBad s q = true := by rw [fetchBad, hinject, Bool.false_or, bne_iff_ne]; exact hbad
  have hfirst : (hsqOf s q).checked.contains (hsqPc s q) = false := by simpa using hnew
  have htrip' : (mcStopped q s).drc.trip = none := (congrArg (fun t => t.drc.trip) (mcRecorded_frame q s)).trans htrip
  rw [exec_machineCheck, execMachineCheck]
  refine done_when ?_ ?_ htrip'
  · simp only [decide_eq_true hq, hon, hstate, hunit, hending, hphase, hfetch, Option.isNone_none, beq_self_eq_true,
      Bool.and_self]
  · simp only [hinject, Bool.false_eq_true, if_false]
    have hkept := hsqOf_mcRecorded q s q
    rw [mcRecorded, mcNamed] at hkept
    rw [hkept, hfirst]
    rfl

theorem exec_mcReloadDone_of_read {u : HsqUnit} {bs : List Byte} {t v : State} (hstate : hsqState s q = 2)
    (haddr : s.rd (HSQ_MC q) HSQ_MC.ADDR < goldenCount s q (activeBank s q))
    (hread : dramRdFor (HSQ_FAULT_STATUS q) hsqPort s (bufAddr s (s.raw (HSQ_BANK_HANDLE q (activeBank s q))) +
      (s.raw (HSQ_BANK_OFFSET q (activeBank s q))).toNat + 64 + 24 * s.rd (HSQ_MC q) HSQ_MC.ADDR) 24 = (bs, false, t))
    (hv : v = enterUnit q u (putWord q (activeBank s q) (s.rd (HSQ_MC q) HSQ_MC.ADDR) (microwordOf bs) t))
    (hunit : (hsqOf t q).unit = some u) (htrip : v.drc.trip = none) :
    exec (.mcReloadDone q true) s = .next v.irqSync := by
  have hkept : ∀ b a w, (hsqOf (putWord q b a w t) q).unit = some u := fun b a w => by
    rw [putWord, hsqOf_setHsq_same, hunit]
  rw [exec_mcReloadDone, execMcReloadDone]
  refine done_when ?_ ?_ htrip
  · rw [decide_eq_true hq, hon, hstate]
    rfl
  · simp only [if_pos haddr, hread, Bool.not_true, Bool.or_self, Bool.false_eq_true, if_false, hkept]
    exact hv.symm

end

/-! ## What a bank's state depends on -/

@[simp] theorem setBank_drc (q b st : Nat) (s : State) : (setBank q b st s).drc = s.drc := by
  unfold setBank
  split <;> rfl

theorem presentRef_regs (r : JobRef) (status : Nat) (results : List Word) (s : State) :
    (presentRef r status results s).regs = s.regs := by
  unfold presentRef
  split_ifs <;> rfl

theorem presentRef_fuse (r : JobRef) (status : Nat) (results : List Word) (s : State) :
    (presentRef r status results s).fuse = s.fuse := by
  unfold presentRef
  split_ifs <;> rfl

section
variable (s : State) (q b : Nat)

theorem bankState_setBank {st : Nat} (hst : st < 4) : bankState (setBank q b st s) q b = st := by
  unfold bankState setBank
  split_ifs <;> exact (State.rd_wr_same _ _ _ _ (by decide)).trans (Nat.mod_eq_of_lt hst)

theorem bankState_setReg_ne {a : Nat} (w : Word) (h : a ≠ HSQ_STATUS q) :
    bankState (s.setReg a w) q b = bankState s q b := by
  simp only [bankState, State.rd, State.reg_setReg_ne s w h.symm]

/-- A field of the status that is neither bank's state. -/
theorem bankState_wr_of_apart {f : Fld} (v : Nat) (hf : f.lo + f.w ≤ 32) (hA : f.apart HSQ_STATUS.BANK_A)
    (hB : f.apart HSQ_STATUS.BANK_B) : bankState (s.wr (HSQ_STATUS q) f v) q b = bankState s q b := by
  simp only [bankState, State.rd_wr_of_apart s _ v hf hA, State.rd_wr_of_apart s _ v hf hB]

theorem bankState_presentRef (r : JobRef) (status : Nat) (results : List Word) :
    bankState (presentRef r status results s) q b = bankState s q b := by
  simp only [bankState, State.rd, State.reg, presentRef_regs, presentRef_fuse]

end

/-! ## Switches (R145) -/

section
variable (q b : Nat) (r : JobRef) (results : List Word) (s : State)

/-- The bank is active, and a FAILED sequencer is IDLE again. -/
def bankActivated (s : State) : State :=
  let t := (s.wr (HSQ_STATUS q) HSQ_STATUS.ACTIVE_BANK b).wr (HSQ_STATUS q) HSQ_STATUS.SWITCH_PENDING 0
  if hsqState t q = 3 then t.wr (HSQ_STATUS q) HSQ_STATUS.STATE 0 else t

theorem switchBank_eq : switchBank q b r results s = presentRef r stOk results
    ((setHsq q { hsqOf (bankActivated q b s) q with switch := none } (bankActivated q b s)).setBit (HSQ_IRQ_STATUS q) 2) :=
  rfl

@[simp] theorem bankActivated_drc : (bankActivated q b s).drc = s.drc := by
  unfold bankActivated
  dsimp only
  split <;> rfl

@[simp] theorem switchBank_drc : (switchBank q b r results s).drc = s.drc := by
  rw [switchBank_eq, presentRef_drc]
  exact bankActivated_drc q b s

theorem bankState_bankActivated (c : Nat) : bankState (bankActivated q b s) q c = bankState s q c := by
  have hactive : bankState
      ((s.wr (HSQ_STATUS q) HSQ_STATUS.ACTIVE_BANK b).wr (HSQ_STATUS q) HSQ_STATUS.SWITCH_PENDING 0) q c =
        bankState s q c := by
    rw [bankState_wr_of_apart _ _ _ _ (by decide) (Or.inl (by decide)) (Or.inl (by decide)),
      bankState_wr_of_apart _ _ _ _ (by decide) (Or.inl (by decide)) (Or.inl (by decide))]
  unfold bankActivated
  dsimp only
  split
  · rw [bankState_wr_of_apart _ _ _ _ (by decide) (Or.inr (by decide)) (Or.inr (by decide)), hactive]
  · exact hactive

theorem bankState_switchBank (c : Nat) : bankState (switchBank q b r results s) q c = bankState s q c := by
  rw [switchBank_eq, bankState_presentRef, State.setBit, State.wr,
    bankState_setReg_ne _ _ _ _ (by simp only [HSQ_IRQ_STATUS, HSQ_STATUS]; omega)]
  exact bankState_bankActivated q b s c

theorem bankState_afterLoad (switch : Bool) (c : Nat) :
    bankState (afterLoad q b switch r results s) q c = bankState s q c := by
  unfold afterLoad
  split_ifs
  · exact bankState_presentRef s q c r stOk results
  · exact bankState_switchBank q b r results s c
  · exact bankState_wr_of_apart _ _ _ _ (by decide) (Or.inl (by decide)) (Or.inl (by decide))

variable {q b r results s}

theorem exec_bankSwitch_of_pending (hq : q < 4) (htrip : s.drc.trip = none)
    (hswitch : (hsqOf s q).switch = some (r, b, results)) (hon : s.domOn (13 + q / 2) = true)
    (hfree : atBoundary s q = true ∨ hsqState s q = 3) :
    exec (.bankSwitch q) s = .next (switchBank q b r results s).irqSync := by
  rw [exec_bankSwitch, execBankSwitch]
  simp only [hswitch]
  refine done_when ?_ rfl (by rw [switchBank_drc, htrip])
  simpa only [decide_eq_true hq, hon, Bool.true_and, Bool.or_eq_true, beq_iff_eq] using hfree

end

/-! ## Loads (R141 to R144) -/

/-- The load that a MICROCODE_LOAD `j` named `r` asks for, of an image with the header words `hd`. -/
def askedLoad (j : Job) (r : JobRef) (hd : List Word) : HsqLoad :=
  ⟨r, bitsOf 0 0 (j.w 2), j.w 3, (j.w 4).toNat, bitsOf 13 0 (j.w 5), bitsOf 14 0 (j.w 6), bitAt 1 (j.w 2),
    decide (bitsOf 13 0 (j.w 5) = 0 ∧ bitsOf 14 0 (j.w 6) = bitsOf 14 0 (wordAt hd 2))⟩

theorem exec_microcodeLoad_of_legal {s t : State} {slot : Nat} {j : Job} {q b : Nat} {hd : List Word} (hj : j = s.job slot)
    (hq : q = j.context) (hb : b = bitsOf 0 0 (j.w 2)) (hstart : s.startable slot opMicrocodeLoad = true)
    (hwords : loadWordsOk j = true) (hcount : bitsOf 14 0 (j.w 6) ≠ 0) (hcurrent : isCurrent s (j.w 3) = true)
    (hhold : mayHold s (2 + q) (j.w 3) = true) (hbank : b ≠ activeBank s q ∨ bankState s q b = 0)
    (hswitch : s.flag (HSQ_STATUS q) HSQ_STATUS.SWITCH_PENDING = false) (hload : (hsqOf s q).load = none)
    (hsize : (j.w 4).toNat + 64 ≤ poolSize (hPool (j.w 3)))
    (hread : dramRdWordsFor (HSQ_FAULT_STATUS q) hsqPort s (bufAddr s (j.w 3) + (j.w 4).toNat) 16 = (hd, false, t))
    (htrip : t.drc.trip = none) (himage : imageBad t j q b hd = false) :
    exec (.microcodeLoad slot) s = .next (setHsq q { hsqOf t q with load := some (askedLoad j (t.jobRef slot) hd) }
      (setBank q b 1 (beginJob slot t))).irqSync := by
  subst hj hq hb
  have hbusy : (bitsOf 0 0 ((s.job slot).w 2) == activeBank s (s.job slot).context &&
      bankState s (s.job slot).context (bitsOf 0 0 ((s.job slot).w 2)) != 0) = false := by
    simpa only [Bool.and_eq_false_iff, beq_eq_false_iff_ne, bne_eq_false_iff_eq] using hbank
  rw [exec_microcodeLoad, execMicrocodeLoad]
  refine done_when hstart ?_ (by rw [setHsq_drc, setBank_drc]; exact htrip)
  -- what the read answers is given: the function is named, so that no check of this proof carries it out
  obtain ⟨readWords, hreadWords⟩ : ∃ f, f = dramRdWordsFor := ⟨_, rfl⟩
  rw [← hreadWords] at hread ⊢
  simp only [hwords, hcurrent, hhold, hbusy, hswitch, hload, hread, himage, hcount, decide_false, Option.isSome_none,
    Bool.not_true, Bool.or_self, Bool.false_eq_true, if_false, if_neg (Nat.not_lt.mpr hsize)]
  rfl

/-- The words of a load are in its bank, and its end is announced. -/
def loadWritten (q : Nat) (ld : HsqLoad) (bs : List Byte) (s : State) : State :=
  (writeBank q ld bs (setHsq q { hsqOf s q with load := none } s)).setBit (HSQ_IRQ_STATUS q) 2

/-- The words of a load as read back have the image's CRC; with a part of an image, the whole bank has (R143). -/
def loadChecked (q : Nat) (ld : HsqLoad) (hd : List Word) (s : State) : Prop :=
  if ld.full then crc32c (readBack s q ld.bank ld.first ld.count) = wordAt hd 5
  else crc32c (readBack s q ld.bank 0 (goldenCount s q ld.bank)) = BitVec.ofNat 32 (goldenCrc s q ld.bank)

theorem loadChecked_iff (q : Nat) (ld : HsqLoad) (hd : List Word) (s : State) : loadChecked q ld hd s ↔
    (if ld.full then crc32c (readBack s q ld.bank ld.first ld.count) == wordAt hd 5
      else crc32c (readBack s q ld.bank 0 (goldenCount s q ld.bank)) == BitVec.ofNat 32 (goldenCrc s q ld.bank)) = true := by
  unfold loadChecked
  split <;> exact beq_iff_eq.symm

theorem exec_microcodeLoadDone_of_checked {s t1 t2 t4 v : State} {slot q : Nat} {ld : HsqLoad} {hd : List Word}
    {bs : List Byte} (hload : loadOf s slot = some (q, ld)) (hon : s.domOn (13 + q / 2) = true)
    (hhead : dramRdWordsFor (HSQ_FAULT_STATUS q) hsqPort s (bufAddr s ld.image + ld.offset) 16 = (hd, false, t1))
    (hwords : dramRdFor (HSQ_FAULT_STATUS q) hsqPort t1 (bufAddr s ld.image + ld.offset + 64 + 24 * ld.first)
      (24 * ld.count) = (bs, false, t2))
    (ht4 : t4 = loadWritten q ld bs t2) (hcheck : loadChecked q ld hd t4)
    (hv : v = loadPassed q ld hd (crc32c (readBack t4 q ld.bank ld.first ld.count)) t4) (htrip : v.drc.trip = none) :
    exec (.microcodeLoadDone slot true) s = .next v.irqSync := by
  subst ht4
  have hgood := (loadChecked_iff q ld hd _).mp hcheck
  rw [loadWritten] at hgood hv
  rw [exec_microcodeLoadDone, execMicrocodeLoadDone]
  -- what the reads answer is given: the functions are named, so that no check of this proof carries them out
  obtain ⟨readWords, hreadWords⟩ : ∃ f, f = dramRdWordsFor := ⟨_, rfl⟩
  obtain ⟨readBytes, hreadBytes⟩ : ∃ f, f = dramRdFor := ⟨_, rfl⟩
  rw [← hreadWords] at hhead ⊢
  rw [← hreadBytes] at hwords ⊢
  simp only [hload]
  refine done_when hon ?_ htrip
  simp only [hhead, hwords, hgood, Bool.not_true, Bool.or_self, Bool.false_eq_true, if_false]
  exact hv.symm

/-- A load that passes, its image retained where it is a full one, leaves its bank VALID (R140, R144). -/
theorem bankState_loadPassed {s : State} {q : Nat} {ld : HsqLoad} (hd : List Word) (crc : Word)
    (hkept : ld.full = false ∨ (bpmRetain s (2 + q) ld.image).1 = stOk) :
    bankState (loadPassed q ld hd crc s) q ld.bank = 2 := by
  have hst : (if ld.full then bpmRetain s (2 + q) ld.image else (stOk, s)).1 = stOk := by
    split
    · next hfull => exact hkept.resolve_left (by rw [hfull]; decide)
    · rfl
  unfold loadPassed
  simp only [hst, ne_eq, not_true_eq_false, if_false]
  rw [bankState_afterLoad, bankState_setReg_ne _ _ _ _ (by simp only [HSQ_BANK_CRC, HSQ_STATUS]; omega),
    bankState_setBank _ _ _ (by decide)]

end Sys2Proof.Machine
end

section
open Sys2Proof Sys2Proof.Machine

/-- Settles O38: each event by the conditions under which it takes place, and what each leaves of the bank it loads. -/
theorem sequencerUnitsAndMicrocode : Obligations.SequencerUnitsAndMicrocode := by
  unfold Obligations.SequencerUnitsAndMicrocode
  intro s q hq
  refine ⟨?parse, ?header, ?release, fun c m ds => queueDescs_queue ds, ?headerDone, ?check, ?reload, ?load, ?loadDone,
    fun r b rs htrip hswitch hon => exec_bankSwitch_of_pending hq htrip hswitch hon,
    fun data htrip => done_next s _ (by rw [State.hostWrite_drc, htrip])⟩
  case parse =>
    intro c hrun hfree hno hswitch hredo hnext htrip offset length last hdue
    exact exec_parseUnitStart_of_next hrun hfree hswitch hq hno hredo hnext hdue htrip
  case header =>
    intro enc j elems htrip hjob record hserver hphase hrecord henc hlen hrun hfree hswitch cap u t
    exact exec_headerReq_of_waiting hrun hfree hswitch htrip hjob hserver hphase hrecord henc hlen
  case release =>
    rintro u st t hunit hending hstate ds hroom rfl htrip
    exact exec_descriptorRelease_of_room hq hunit hending hstate hroom htrip
  case headerDone =>
    intro d j v hheader hjob href hphase hok hcap t hv htrip
    exact exec_headerDone_of_fits hq hheader hjob href hphase hok hcap rfl hv htrip
  case check =>
    intro htrip hon hstate hunit hending hphase hinject hbad hnew
    have hsync := congrArg (fun t : State => { t with regs := s.regs, hsq := s.hsq, pinEvts := s.pinEvts, icu := s.icu })
      (irqSync_eq (mcStopped q s))
    have hframe := hsync.trans (congrArg (fun t : State => { t with icu := s.icu }) (mcStopped_frame q s))
    refine ⟨_, exec_machineCheck_of_parity hq hon htrip hstate hunit hending hphase hinject hbad hnew,
      (State.rd_irqSync _ _ _).trans (hsqState_mcStopped q s), (State.rd_irqSync _ _ _).trans (rd_addr_mcStopped q s), ?_⟩
    rw [hsqOf_irqSync, hsqOf_mcStopped]
    exact ⟨rfl, rfl, rfl, rfl, rfl, hframe⟩
  case reload =>
    intro u bs t v hon hstate a b haddr hread hv hunit htrip
    exact exec_mcReloadDone_of_read hq hon hstate haddr hread hv hunit htrip
  case load =>
    intro slot hd t hstart hq j b hwords hcount hcurrent hhold hbank hswitch hload hsize hread htrip himage
    exact ⟨exec_microcodeLoad_of_legal rfl hq.symm rfl hstart hwords hcount hcurrent hhold hbank hswitch hload hsize hread
      htrip himage, bankState_setBank _ _ _ (by decide)⟩
  case loadDone =>
    intro slot ld hd bs t1 t2 v hload hon hhead hwords t4 crc hcheck hv htrip
    refine ⟨exec_microcodeLoadDone_of_checked hload hon hhead hwords rfl hcheck hv htrip, fun _ hkept => ?_⟩
    rw [hv]
    exact bankState_loadPassed hd crc hkept

end

section
/-!
PROOFS. The sources of the SDI block (R211): what each number from 960 on is pending by, and the fault state by the bits of
FAULT_STATUS and its mask (R471).
-/
namespace Sys2Proof.Machine

/-- The sources pending are the block sources whose condition holds. -/
theorem State.mem_highSources {s : State} {src : Nat} :
    src ∈ s.highSources ↔ src < 992 ∧ s.sourceLevel src = true := by
  rw [State.highSources, List.mem_filter, List.mem_range]

/-- A status bit that is not the FAULT bit is pending as it stands. -/
theorem State.irqBit_iff_of_ne (s : State) (st en fs : Nat) {fb b : Nat} (h : b ≠ fb) :
    s.irqBit st en fs fb b = true ↔ bitAt b (s.raw st) = true ∧ bitAt b (s.reg en) = true := by
  rw [State.irqBit, if_neg h, Bool.and_eq_true]

/-- A conjunction with the complement of a mask is not zero where some bit is set that the mask leaves. -/
theorem land_complement_ne_zero_iff (x m : Word) : Nat.land x.toNat ((2 ^ 32 - 1) - m.toNat) ≠ 0 ↔
    ∃ b, b < 32 ∧ bitAt b x = true ∧ bitAt b m = false := by
  have hbit (b : Nat) : (Nat.land x.toNat ((2 ^ 32 - 1) - m.toNat)).testBit b = true ↔
      b < 32 ∧ bitAt b x = true ∧ bitAt b m = false := by
    have hmask : (2 ^ 32 - 1) - m.toNat = 2 ^ 32 - (m.toNat + 1) := by omega
    have hand : (Nat.land x.toNat ((2 ^ 32 - 1) - m.toNat)).testBit b =
        (x.toNat.testBit b && ((2 ^ 32 - 1) - m.toNat).testBit b) := Nat.testBit_and _ _ _
    rw [hand, hmask, Nat.testBit_two_pow_sub_succ m.isLt]
    simp only [bitAt, Bool.and_eq_true, decide_eq_true_eq, Bool.not_eq_true']
    tauto
  constructor
  · intro h
    obtain ⟨b, hb⟩ := Nat.exists_testBit_of_ne_zero h
    exact ⟨b, (hbit b).mp hb⟩
  · rintro ⟨b, hb⟩ h
    have hset := (hbit b).mpr hb
    rw [h, Nat.zero_testBit] at hset
    exact absurd hset (by decide)

/-- A block is in the fault state while some bit of its FAULT_STATUS is set that its mask leaves (R471). -/
theorem State.faultState_iff (s : State) (fs : Nat) : s.faultState fs = true ↔
    ∃ b, b < 32 ∧ bitAt b (s.raw fs) = true ∧ bitAt b (s.reg (fs + 4)) = false := by
  rw [State.faultState, Bool.and_eq_true, bne_iff_ne, bne_iff_ne, land_complement_ne_zero_iff]
  refine and_iff_right_of_imp ?_
  rintro ⟨b, -, hset, -⟩ hzero
  rw [hzero] at hset
  exact absurd hset (by simp [bitAt])

/-- From 960 on a source is one of the SDI block's (R35, R211). -/
theorem State.sourceLevel_of_sdi (s : State) {src : Nat} (h : 960 ≤ src) : s.sourceLevel src =
    if src < 984 then
      s.irqBit (SDI_IN_IRQ_STATUS ((src - 960) / 3)) (SDI_IN_IRQ_EN ((src - 960) / 3)) 0 9 ((src - 960) % 3)
    else if src < 986 then s.irqBit (SDI_OUT_IRQ_STATUS (src - 984)) (SDI_OUT_IRQ_EN (src - 984)) 0 9 0
    else if src = 986 then s.faultState SDI_FAULT_STATUS
    else false := by
  unfold State.sourceLevel
  repeat rw [if_neg (by omega)]

theorem State.sourceLevel_sdiIn (s : State) {n b : Nat} (hn : n < 8) (hb : b < 3) :
    s.sourceLevel (960 + 3 * n + b) = s.irqBit (SDI_IN_IRQ_STATUS n) (SDI_IN_IRQ_EN n) 0 9 b := by
  have hunit : (960 + 3 * n + b - 960) / 3 = n := by omega
  have hbit : (960 + 3 * n + b - 960) % 3 = b := by omega
  rw [State.sourceLevel_of_sdi s (by omega), if_pos (by omega), hunit, hbit]

theorem State.sourceLevel_sdiOut (s : State) {m : Nat} (hm : m < 2) :
    s.sourceLevel (984 + m) = s.irqBit (SDI_OUT_IRQ_STATUS m) (SDI_OUT_IRQ_EN m) 0 9 0 := by
  rw [State.sourceLevel_of_sdi s (by omega), if_neg (by omega), if_pos (by omega), Nat.add_sub_cancel_left]

theorem State.sourceLevel_of_reserved (s : State) {src : Nat} (h : 987 ≤ src) : s.sourceLevel src = false := by
  rw [State.sourceLevel_of_sdi s (by omega), if_neg (by omega), if_neg (by omega), if_neg (by omega)]

end Sys2Proof.Machine
end

section
open Sys2Proof Sys2Proof.Machine

/-- Settles O27: each source by the level of its number, the fault source by the bits its mask leaves. -/
theorem sdiSourcesFollowTheirBits : Obligations.SdiSourcesFollowTheirBits := by
  unfold Obligations.SdiSourcesFollowTheirBits
  refine fun s => ⟨fun n b hn hb => ?input, fun m hm => ?output, ?fault, fun src hsrc hhigh => ?reserved⟩
  case input =>
    rw [State.mem_highSources, State.sourceLevel_sdiIn s hn hb, State.irqBit_iff_of_ne _ _ _ _ (by omega)]
    exact and_iff_right (by omega)
  case output =>
    rw [State.mem_highSources, State.sourceLevel_sdiOut s hm, State.irqBit_iff_of_ne _ _ _ _ (by omega)]
    exact and_iff_right (by omega)
  case fault =>
    have hlevel : s.sourceLevel 986 = s.faultState SDI_FAULT_STATUS := State.sourceLevel_of_sdi s (by omega)
    rw [State.mem_highSources, hlevel, State.faultState_iff]
    exact and_iff_right (by omega)
  case reserved =>
    have hlow := (State.mem_highSources.mp hhigh).2
    rw [State.sourceLevel_of_reserved s hsrc] at hlow
    exact absurd hlow (by decide)

end

section
/-!
PROOFS. SDI inputs and preview outputs (R189, R202 to R207): the free run EN takes, the picture a frame start publishes, the
lines written into it and its end, carrier and lock, and what a preview output takes, lets go and repeats.
-/
namespace Sys2Proof.Machine

theorem exec_sdiEn (n : Nat) (data : Word) (s : State) : exec (.sdiEn n data) s = execSdiEn n data s := rfl
theorem exec_sdiFrameStart (n : Nat) (s : State) : exec (.sdiFrameStart n) s = execSdiFrameStart n s := rfl
theorem exec_sdiLine (n : Nat) (crcOk overflow : Bool) (bytes chroma : List Byte) (s : State) :
    exec (.sdiLine n crcOk overflow bytes chroma) s = execSdiLine n crcOk overflow bytes chroma s := rfl
theorem exec_sdiRows (n : Nat) (s : State) : exec (.sdiRows n) s = execSdiRows n s := rfl
theorem exec_sdiFrameEnd (n : Nat) (s : State) : exec (.sdiFrameEnd n) s = execSdiFrameEnd n s := rfl
theorem exec_carrier (n : Nat) (present : Bool) (s : State) : exec (.carrier n present) s = execCarrier n present s := rfl
theorem exec_lock (n : Nat) (r : SdiRaster) (s : State) : exec (.lock n r) s = execLock n r s := rfl
theorem exec_previewFrameStart (m : Nat) (s : State) :
    exec (.previewFrameStart m) s = execPreviewFrameStart m s := rfl
theorem exec_previewUnderrun (line : OutLine) (s : State) :
    exec (.previewUnderrun line) s = execPreviewUnderrun line s := rfl

@[simp] theorem setSdiIn_drc (n : Nat) (x : SdiIn) (s : State) : (setSdiIn n x s).drc = s.drc := rfl
@[simp] theorem setSdiOut_drc (m : Nat) (x : SdiOut) (s : State) : (setSdiOut m x s).drc = s.drc := rfl

section
variable {s : State} {n : Nat} (hlive : sdiInLive s n = true)
include hlive

/-! ## EN and the start of a frame (R203, R204) -/

theorem exec_sdiEn_of_run {data : Word} {b : Nat} (htrip : s.drc.trip = none)
    (hoff : s.flag (SDI_IN_CFG n) SDI_IN_CFG.EN = false) (hset : bitAt 0 data = true)
    (hrun : freeRun (s.hostWrite (SDI_IN_CFG n) data) 4 = some b) :
    exec (.sdiEn n data) s = .next ((takeRun b 4 (512 + 1 + n) (s.hostWrite (SDI_IN_CFG n) data)).wr (SDI_IN_STATUS n)
      SDI_IN_STATUS.PPT_BASE b).irqSync := by
  rw [exec_sdiEn, execSdiEn]
  refine done_when hlive ?_ (by simpa using htrip)
  simp only [hoff, hset, Bool.not_false, Bool.and_true, if_true, hrun]

/-- The picture a frame start opens in buffer `hd`, in the entry of its turn (R203). -/
def sdiOpened (n : Nat) (hd : Word) (w h : Nat) (c420 : Bool) (s : State) : State :=
  let x := sdiIn s n
  let chroma := if c420 then 1 else 2
  let e := sdiBase s n + x.seq % 4
  setSdiIn n { x with
      seq := (x.seq + 1) % 65536
      cur := some ⟨hd, e, w, h, c420, 0, [], [], x.psf, []⟩
      named := tabSet (fun _ => 0) x.named (x.seq % 4) hd }
    (gateHold 24 (tabGet (fun _ => 0) x.named (x.seq % 4)) (pptPut e [hd, BitVec.ofNat 32 ((h + 15) / 16 * 2 ^ 16),
      BitVec.ofNat 32 (peDecoding + 4 * 2 ^ 6), BitVec.ofNat 32 x.seq, BitVec.ofNat 32 (w + h * 2 ^ 16),
      BitVec.ofNat 32 (strideOf w true + chroma * 2 ^ 16 + 2 ^ 18), 0, BitVec.ofNat 32 (sdiMicros s)] s))

theorem exec_sdiFrameStart_of_buffer {hd : Word} {t : State} {wh : Nat × Nat} {c420 : Bool}
    (hcapture : sdiCapturing s n = true) (hcur : (sdiIn s n).cur = none)
    (hhold : holdWaiting s (s.rd (SDI_IN_CFG n) SDI_IN_CFG.POOL) = false)
    (hsize : wh = rasterSize (s.rd (SDI_IN_STATUS n) SDI_IN_STATUS.RASTER))
    (hchroma : c420 = s.flag (SDI_IN_CFG n) SDI_IN_CFG.CHROMA420)
    (halloc : allocAt s 24 (s.rd (SDI_IN_CFG n) SDI_IN_CFG.POOL) (s.flag (SDI_IN_CFG n) SDI_IN_CFG.SPILL_UP) true true
      = (stOk, hd, t))
    (hfits : pictureBytes wh.1 wh.2 (if c420 then 1 else 2) true ≤ poolSize (hPool hd))
    (htrip : (sdiOpened n hd wh.1 wh.2 c420 t).drc.trip = none) :
    exec (.sdiFrameStart n) s = .next (sdiOpened n hd wh.1 wh.2 c420 t).irqSync := by
  subst hsize hchroma
  rw [exec_sdiFrameStart, execSdiFrameStart]
  refine done_when ?_ ?_ htrip
  · rw [hlive, hcapture, hcur, hhold]
    rfl
  · simp only [halloc, ne_eq, not_true_eq_false, if_false, if_neg (Nat.not_lt.mpr hfits)]
    rfl

/-! ## Lines (R202 to R204) -/

omit hlive in
/-- The FIFO's check of a line with no access injected finds nothing (R541). -/
theorem sdiCheck_of_idle (luma chroma : List Byte) (hidle : bitsOf 7 0 (s.raw SDI_FAULT_INJECT) = 0) :
    sdiCheck luma chroma s = (false, s) := by
  simp only [sdiCheck, State.sramFault, sramCheck_of_idle (fs := SDI_FAULT_STATUS) _ _ hidle]

/-- A line that is not captured well is counted in field `f`, and its picture is DAMAGED (R204). -/
def sdiHurt (n : Nat) (p : SdiPic) (f : Fld) (s : State) : State :=
  pptDamaged p.entry ((s.inc (SDI_IN_ERRORS n) f).setBit (SDI_IN_IRQ_STATUS n) 2)

section
variable {p : SdiPic} (hcur : (sdiIn s n).cur = some p)
include hcur

section
variable {bytes chroma : List Byte} (hline : p.lines < p.height ∧ bytes.length = lineBytes p.width true ∧
  chroma.length = lineBytes p.width true) (hidle : bitsOf 7 0 (s.raw SDI_FAULT_INJECT) = 0)
include hline hidle

theorem exec_sdiLine_of_good (htrip : (writeSdiLine n p bytes chroma s).drc.trip = none) :
    exec (.sdiLine n true false bytes chroma) s = .next (writeSdiLine n p bytes chroma s).irqSync := by
  rw [exec_sdiLine, execSdiLine]
  refine done_when hlive ?_ htrip
  simp only [hcur, if_pos hline, sdiCheck_of_idle bytes chroma hidle, Bool.not_true,
    Bool.or_self, Bool.false_eq_true, if_false]

theorem exec_sdiLine_of_crc
    (htrip : (writeSdiLine n p bytes chroma (sdiHurt n p SDI_IN_ERRORS.CRC_LINES s)).drc.trip = none) :
    exec (.sdiLine n false false bytes chroma) s =
      .next (writeSdiLine n p bytes chroma (sdiHurt n p SDI_IN_ERRORS.CRC_LINES s)).irqSync := by
  rw [exec_sdiLine, execSdiLine]
  refine done_when hlive ?_ htrip
  simp only [hcur, if_pos hline, sdiCheck_of_idle bytes chroma hidle, Bool.not_false,
    Bool.or_true, Bool.or_false, Bool.false_eq_true, if_false, if_true]
  rfl

/-- A line the FIFO lost, not the first, is a copy of the one above, whatever its CRC. -/
theorem exec_sdiLine_of_fifo (crcOk : Bool) (hpos : 0 < p.lines)
    (htrip : (writeSdiLine n p p.above.1 p.above.2 (sdiHurt n p SDI_IN_ERRORS.FIFO_LINES s)).drc.trip = none) :
    exec (.sdiLine n crcOk true bytes chroma) s =
      .next (writeSdiLine n p p.above.1 p.above.2 (sdiHurt n p SDI_IN_ERRORS.FIFO_LINES s)).irqSync := by
  rw [exec_sdiLine, execSdiLine]
  refine done_when hlive ?_ htrip
  simp only [hcur, if_pos hline, sdiCheck_of_idle bytes chroma hidle,
    if_neg hpos.ne', Bool.true_or, if_true]
  rfl

end

theorem exec_sdiRows_of_more (htrip : s.drc.trip = none) (hrows : 16 * (pptRowsDone s p.entry + 1) ≤ p.top) :
    exec (.sdiRows n) s = .next (pptRows p.entry (pptRowsDone s p.entry + 1) s).irqSync := by
  rw [exec_sdiRows, execSdiRows]
  refine done_when hlive ?_ htrip
  simp only [hcur, decide_eq_true hrows, State.when_true]

theorem exec_sdiFrameEnd_of_last (hlast : p.lines = p.height) (hbehind : encBehind 1 n p.handle s = false)
    (htrip : (sdiComplete n p s).drc.trip = none) :
    exec (.sdiFrameEnd n) s = .next (sdiComplete n p s).irqSync := by
  rw [exec_sdiFrameEnd, execSdiFrameEnd]
  refine done_when hlive ?_ htrip
  simp only [hcur, decide_eq_true hlast, hbehind, Bool.not_false, Bool.and_true, State.when_true]

end

/-! ## Carrier and lock (R190, R205) -/

theorem exec_carrier_of_change {present : Bool} (htrip : s.drc.trip = none)
    (hchange : sdiFlag s n SDI_IN_STATUS.CARRIER ≠ present) : exec (.carrier n present) s = .next
      ((s.wr (SDI_IN_STATUS n) SDI_IN_STATUS.CARRIER present.toNat).setBit (SDI_IN_IRQ_STATUS n) 0).irqSync := by
  rw [exec_carrier, execCarrier]
  exact done_when (by rw [hlive, bne_iff_ne.mpr hchange]; rfl) rfl htrip

/-- Input `n` shows what it has detected in its status fields (R205). -/
def sdiShown (n : Nat) (r : SdiRaster) (s : State) : State :=
  let a := SDI_IN_STATUS n
  let t := ((((s.wr a SDI_IN_STATUS.LOCKED r.locked.toNat).wr a SDI_IN_STATUS.SUPPORTED (sdiSupported r).toNat).wr a
    SDI_IN_STATUS.LINK r.link).wr a SDI_IN_STATUS.RASTER r.raster).wr a SDI_IN_STATUS.RATE r.rate
  (setSdiIn n { sdiIn t n with odd := r.odd, psf := r.psf } t).setBit (SDI_IN_IRQ_STATUS n) 1

theorem exec_lock_of_gain {r : SdiRaster} (htrip : s.drc.trip = none)
    (hwas : sdiFlag s n SDI_IN_STATUS.LOCKED = false) (hnow : r.locked = true) :
    exec (.lock n r) s = .next (sdiShown n r s).irqSync := by
  rw [exec_lock, execLock]
  refine done_when hlive ?_ htrip
  simp only [hwas, hnow, Bool.false_beq, Bool.not_true, Bool.false_and, Bool.false_eq_true, if_false, if_true]
  rw [sdiShown, hnow]

/-- With lock lost the frame in progress is filled black, waiting jobs lose their input, and the fields clear. -/
theorem exec_lock_of_loss {r : SdiRaster} (hwas : sdiFlag s n SDI_IN_STATUS.LOCKED = true) (hnow : r.locked = false)
    (htrip : (sdiShown n ⟨false, true, 0, 0, 0, false⟩ (sdiBlack n (encInputLost 1 n s))).drc.trip = none) :
    exec (.lock n r) s =
      .next (sdiShown n ⟨false, true, 0, 0, 0, false⟩ (sdiBlack n (encInputLost 1 n s))).irqSync := by
  rw [exec_lock, execLock]
  refine done_when hlive ?_ htrip
  simp only [hwas, hnow, Bool.true_beq, Bool.not_false, Bool.false_and, Bool.and_self, Bool.false_eq_true, if_false,
    if_true]
  rfl

end

/-! ## Preview outputs (R206, R207) -/

section
variable {s : State} {m : Nat} (hlive : sdiOutLive s m = true)
include hlive

/-- Output `m` starts a frame with picture `pic` of format `fmt`, locked to gate `gate` or free (R206, R207). -/
def previewStarted (m : Nat) (pic : Option EncSource) (fmt : Nat) (gate : Option Nat) (free : Bool) (s : State) : State :=
  (setSdiOut m ⟨pic, fmt, bitsOf 15 0 (s.reg (SDI_OUT_WIN m)), bitsOf 31 16 (s.reg (SDI_OUT_WIN m)), gate, []⟩ s).wr
    (SDI_OUT_STATUS m) SDI_OUT_STATUS.FREE free.toNat

theorem exec_previewFrameStart_of_picture {e : Nat} {t u : State} {free : Bool}
    (hon : s.flag (SDI_OUT_CFG m) SDI_OUT_CFG.EN = true)
    (hok : sdiOutOk (s.rd (SDI_OUT_CFG m) SDI_OUT_CFG.RASTER) (s.rd (SDI_OUT_CFG m) SDI_OUT_CFG.RATE) = true)
    (hrun : s.cmp.wb.run = true)
    (hnewest : newestComplete s (s.rd CMP_WB_STATUS CMP_WB_STATUS.PPT_BASE) = some e) (hdue : previewDue s m = true)
    (hhold : holdWaiting s (hPool (ppt s e 0)) = false) (ht : t = releaseNZ 24 (sdiOut s m).handle s)
    (hretain : bpmRetain t 24 (ppt t e 0) = (stOk, u)) (htrip : u.drc.trip = none)
    (hfree : free = (previewRatio u m (rateHz (rateNow u)).1 (rateHz (rateNow u)).2 == 0)) :
    exec (.previewFrameStart m) s = .next (previewStarted m (some (entrySource t e))
      (tabGet (fun _ => 0) t.cmp.wb.fmts (e - s.rd CMP_WB_STATUS CMP_WB_STATUS.PPT_BASE))
      (if free then none else some (u.rd CMP_STATUS CMP_STATUS.FRAME)) free u).irqSync := by
  subst ht
  rw [exec_previewFrameStart, execPreviewFrameStart]
  refine done_when ?_ ?_ htrip
  · simp only [hlive, hon, hok, hrun, hnewest, hdue, hhold, Bool.and_self, Bool.not_true, Bool.not_false, Bool.or_true,
      if_true]
  · simp only [hon, hok, hrun, hnewest, hretain, Bool.and_self, Bool.true_and, if_true]
    rw [← hfree]
    cases free <;> rfl

/-- An output that is off lets its picture go and sends black. -/
theorem exec_previewFrameStart_of_off (hoff : s.flag (SDI_OUT_CFG m) SDI_OUT_CFG.EN = false)
    (htrip : (releaseNZ 24 (sdiOut s m).handle s).drc.trip = none) : exec (.previewFrameStart m) s =
      .next (previewStarted m none 0 none false (releaseNZ 24 (sdiOut s m).handle s)).irqSync := by
  rw [exec_previewFrameStart, execPreviewFrameStart]
  refine done_when ?_ ?_ htrip
  · simp only [hlive, hoff, Bool.false_and, Bool.not_false, Bool.true_or, Bool.and_self, Bool.false_eq_true, if_false]
  · simp only [hoff, Bool.false_and, Bool.false_eq_true, if_false]
    rfl

theorem exec_previewUnderrun_of_live (line : Nat) (htrip : s.drc.trip = none) :
    exec (.previewUnderrun ⟨m, line⟩) s = .next
      (((setSdiOut m { sdiOut s m with repeated := line :: (sdiOut s m).repeated } s).inc (SDI_OUT_STATUS m)
        SDI_OUT_STATUS.UNDERRUN_LINES).setBit (SDI_OUT_IRQ_STATUS m) 0).irqSync := by
  rw [exec_previewUnderrun, execPreviewUnderrun]
  exact done_when hlive rfl htrip

end

end Sys2Proof.Machine
end

section
open Sys2Proof Sys2Proof.Machine

/-- Settles O40: each event of an input or an output by the conditions under which it takes place. -/
theorem sdiInputsAndOutputs : Obligations.SdiInputsAndOutputs := by
  unfold Obligations.SdiInputsAndOutputs
  refine fun s => ⟨fun n hlive => ?input, fun m hlive => ⟨?takes, ?off, ?underrun⟩⟩
  case' input => refine ⟨?en, ?start, ?picture, ?carrier, ?gain, ?loss⟩
  case en => exact fun data b htrip hoff hset hrun => exec_sdiEn_of_run hlive htrip hoff hset hrun
  case start =>
    rintro hd t u hcapture hcur hhold wh c420 chroma halloc hfits x e rfl htrip
    exact exec_sdiFrameStart_of_buffer hlive hcapture hcur hhold rfl rfl halloc hfits htrip
  case picture =>
    intro p hcur
    refine ⟨fun bytes chroma hmore hbytes hchroma hidle => ⟨?good, ?crc, ?fifo⟩,
      fun htrip hrows => exec_sdiRows_of_more hlive hcur htrip hrows,
      fun hlast hbehind htrip => exec_sdiFrameEnd_of_last hlive hcur hlast hbehind htrip⟩
    case good => exact exec_sdiLine_of_good hlive hcur ⟨hmore, hbytes, hchroma⟩ hidle
    case crc => exact exec_sdiLine_of_crc hlive hcur ⟨hmore, hbytes, hchroma⟩ hidle
    case fifo => exact fun ok hpos => exec_sdiLine_of_fifo hlive hcur ⟨hmore, hbytes, hchroma⟩ hidle ok hpos
  case carrier => exact fun b htrip hchange => exec_carrier_of_change hlive htrip hchange
  case gain => exact fun r htrip hwas hnow => exec_lock_of_gain hlive htrip hwas hnow
  case loss =>
    rintro r v hwas hnow rfl htrip
    exact exec_lock_of_loss hlive hwas hnow htrip
  case takes =>
    intro e t u hon hok hrun hnewest hdue hhold ht hretain htrip free
    exact exec_previewFrameStart_of_picture hlive hon hok hrun hnewest hdue hhold ht hretain htrip rfl
  case off =>
    rintro t hoff rfl htrip
    exact exec_previewFrameStart_of_off hlive hoff htrip
  case underrun => exact fun line htrip => exec_previewUnderrun_of_live hlive line htrip

end

section
/-!
PROOFS. The encoders (R182, R186 to R200): a job taken whose checks all pass, the rows of its picture, the coded data and the
reconstruction at its end, its RTP packets, and a job whose input is lost.
-/
namespace Sys2Proof.Machine

theorem exec_encodePicture (slot : Nat) (s : State) : exec (.encodePicture slot) s = execEncodePicture slot s := rfl
theorem exec_encoderRow (enc : Nat) (row : RowFacts) (s : State) :
    exec (.encoderRow enc row) s = execEncoderRow enc row s := rfl
theorem exec_encodeDone (enc : Nat) (bytes : List Byte) (recon : List (List Byte)) (s : State) :
    exec (.encodeDone enc bytes recon) s = execEncodeDone enc bytes recon s := rfl
theorem exec_rtpPacket (enc length : Nat) (last : Bool) (s : State) :
    exec (.rtpPacket enc length last) s = execRtpPacket enc length last s := rfl
theorem exec_sourceLost (enc : Nat) (s : State) : exec (.sourceLost enc) s = execSourceLost enc s := rfl

theorem encJobOf_setEncJob_same (n : Nat) (j : Option EncJob) (s : State) : encJobOf (setEncJob n j s) n = j :=
  tabGet_tabSet_same _ _ _ _

theorem encJobOf_setEncJob_ne {m n : Nat} (j : Option EncJob) (s : State) (h : m ≠ n) :
    encJobOf (setEncJob n j s) m = encJobOf s m := tabGet_tabSet_ne _ _ _ h

theorem encJobOf_irqSync (s : State) (n : Nat) : encJobOf s.irqSync n = encJobOf s n := by
  rw [encJobOf, State.irqSync_enc, encJobOf]

/-! ## Rows (R194 to R197) -/

/-- The quantiser of the next row draws a free value at most. -/
theorem rowQp_enc (j : EncJob) (s : State) : (rowQp j s).2.enc = s.enc := by
  unfold rowQp
  dsimp only
  split_ifs <;> rfl

theorem rowQp_drc (j : EncJob) (s : State) : (rowQp j s).2.drc = s.drc := by
  unfold rowQp
  dsimp only
  split_ifs <;> rfl

/-- The check of a row's words with no access injected finds nothing (R541). -/
theorem encCheck_of_idle {s : State} {n : Nat} (k : Nat) (hidle : bitsOf 7 0 (s.raw (EN_FAULT_STATUS n + 12)) = 0) :
    encCheck n k s = (false, s) := by
  simp only [encCheck, State.sramFault, sramCheck_of_idle _ _ hidle]

/-- The QP of the next row, 51 in ebb mode, and the state after the free value it may draw (R194). -/
def rowQuant (j : EncJob) (s : State) : Nat × State := if rowEbb j then (51, s) else rowQp j s

theorem rowQuant_enc (j : EncJob) (s : State) : (rowQuant j s).2.enc = s.enc := by
  unfold rowQuant
  split
  · rfl
  · exact rowQp_enc j s

theorem rowQuant_drc (j : EncJob) (s : State) : (rowQuant j s).2.drc = s.drc := by
  unfold rowQuant
  split
  · rfl
  · exact rowQp_drc j s

/-- The row is coded in ebb mode, or a CTU of it takes the last resort. -/
def rowPart (j : EncJob) (row : RowFacts) : Bool := rowEbb j || decide (0 < (rowResult j row).2)

/-- The job after a row coded at `q`. -/
def rowCoded (j : EncJob) (row : RowFacts) (q : Nat) : EncJob :=
  let n := (encRows j.sess.words).getD j.row 0
  let r := rowResult j row
  { j with
    row := j.row + 1
    bits := r.1
    ebb := rowPart j row
    qpSum := j.qpSum + (n - r.2) * q + r.2 * 51
    quant := j.quant ++ [quantOf j.sess.words q]
    ebbRows := j.ebbRows + (rowPart j row).toNat
    forced := j.forced + r.2 }

/-- What a row leaves; the first one in ebb mode sets its status bit. -/
def encRowDone (n : Nat) (j : EncJob) (row : RowFacts) (s : State) : State :=
  let t := (rowQuant j s).2
  setEncJob n (some (rowCoded j row (rowQuant j s).1))
    (if rowPart j row && !j.ebb then t.setBit (EN_IRQ_STATUS n) 1 else t)

theorem encRowDone_drc (n : Nat) (j : EncJob) (row : RowFacts) (s : State) : (encRowDone n j row s).drc = s.drc := by
  unfold encRowDone
  dsimp only
  split <;> exact rowQuant_drc j s

theorem encJobOf_encRowDone_same (n : Nat) (j : EncJob) (row : RowFacts) (s : State) :
    encJobOf (encRowDone n j row s) n = some (rowCoded j row (rowQuant j s).1) := encJobOf_setEncJob_same _ _ _

theorem encJobOf_encRowDone_ne {m n : Nat} (j : EncJob) (row : RowFacts) (s : State) (h : m ≠ n) :
    encJobOf (encRowDone n j row s) m = encJobOf s m := by
  have henc : (if rowPart j row && !j.ebb then (rowQuant j s).2.setBit (EN_IRQ_STATUS n) 1
      else (rowQuant j s).2).enc = s.enc := by
    split <;> exact rowQuant_enc j s
  rw [encRowDone, encJobOf_setEncJob_ne _ _ h, encJobOf, henc, encJobOf]

/-! ## The end of a picture (R184, R187, R188, R194) -/

/-- The bits of a coded picture, headers included. -/
def codedBits (j : EncJob) (bytes : List Byte) : Nat := 8 * (j.hdrBytes + bytes.length)

/-- The coded data `data` is behind the headers of the output buffer at `out`, and the reconstruction in its buffer. -/
def pictureStored (n : Nat) (j : EncJob) (out : Nat) (data : List Byte) (recon : List (List Byte)) (s : State) : State :=
  let t := dramWr (encPort n) s (out + j.hdrBytes) data
  foldS (fun l u => dramWr (encPort n) u (bufAddr t j.recon + l.1) l.2) ((reconLines j.sess.words).zip recon) t

/-- The counts of a picture: of all, of those with an ebb row or a forced CTU, and of those whose filler the cap cut. -/
def pictureCounted (n : Nat) (j : EncJob) (cut : Bool) (s : State) : State :=
  let t1 := s.inc (EN_PIC_COUNT n) EN_PIC_COUNT.PICTURES
  let t2 := if 0 < j.ebbRows then t1.inc (EN_EBB_COUNT n) EN_EBB_COUNT.EBB_PICS else t1
  let t3 := if 0 < j.forced then t2.inc (EN_EBB_COUNT n) EN_EBB_COUNT.FORCED_PICS else t2
  if cut then t3.inc (EN_HRD_SHORT n) EN_HRD_SHORT.PICTURES else t3

/-- The job and its session both ask for RTP egress. -/
def sendsPackets (j : EncJob) : Bool := ejEgress j.words && bitAt 0 (wordAt j.sess.words 16)

/-- The session a picture leaves: with rate control, the base QP of its type is `qb`. -/
def pictureSession (j : EncJob) (x : EncSess) (qb : Nat) : EncSess :=
  if recMode j.sess.words = 0 then x else x.setQpBase j.coded qb

/-- The job with its picture of `total` bits coded under session `x`; `out` is what its packets carry. -/
def jobCoded (j : EncJob) (x : EncSess) (out : List Byte) (total : Nat) : EncJob :=
  { j with
    sess := x
    src := 0
    phase := .egress
    units := egressUnits (recCodec j.sess.words == 0) out
    results := [BitVec.ofNat 32 total, BitVec.ofNat 32 (j.ebbRows % 65536 + j.forced % 65536 * 2 ^ 16),
      BitVec.ofNat 32 j.qpMean, BitVec.ofNat 32 (total / 8),
      BitVec.ofNat 32 (j.coded + j.fallback.toNat * 4 + ejOrder j.words * 2 ^ 16)] }

/-- The source is let go, and the job's packets begin or it commits. -/
def pictureEnded (n : Nat) (j : EncJob) (x : EncSess) (out : List Byte) (total : Nat) (s : State) : State :=
  let u := setEncJob n (some (jobCoded j x out total)) (releaseNZ (17 + n) j.src s)
  if sendsPackets j && !(egressUnits (recCodec j.sess.words == 0) out).isEmpty then u.wr (EN_STATUS n) EN_STATUS.WAITING 1
  else encCommit n u

/-! ## RTP packets (R199, R200) -/

/-- The port a session's packets leave by. -/
def packetPort (j : EncJob) : Nat := bitsOf 1 1 (wordAt j.sess.words 16)

/-- The Ethernet frame of piece `p` of the job's picture behind the RTP header `hd`. -/
def packetFrame (j : EncJob) (p : Piece) (hd : List Word) (s : State) : List Byte :=
  egressFrame s (packetPort j) j.sess.words ((hd.map (fun w => beBytes 4 w.toNat)).flatten ++
    if recCodec j.sess.words == 0 then hevcPayload p else av1Payload (decide (j.coded = 0) && !j.begun) p)

/-- The job after a packet with piece `p` behind header `hd`; the next packet is due at `pace`. -/
def jobSent (j : EncJob) (p : Piece) (hd : List Word) (pace : Nat) : EncJob :=
  { j with
    sess := { j.sess with rtpSeq := (j.sess.rtpSeq + 1) % 65536, lastRtp := hd, paceAt := pace }
    begun := true
    units := if p.ends then j.units.drop 1 else j.units
    sent := if p.ends then 0 else j.sent + p.take }

/-- The job's port has counted and taken `frame`, and the encoder's job is `k`. -/
def packetTaken (n : Nat) (j k : EncJob) (frame : List Byte) (s : State) : State :=
  let t := s.inc (IGR_PORT_TX_FRAMES (packetPort j)) IGR_PORT_TX_FRAMES.COUNT
  setEncJob n (some k) { t with enc := { t.enc with wire := tabSet (fun _ => []) t.enc.wire (packetPort j) frame } }

/-! ## The events of a job under way -/

section
variable {s : State} {n : Nat} {j : EncJob} (hjob : encJobOf s n = some j) (hrun : encStopped s j = false)
include hjob hrun

theorem exec_encoderRow_of_next {row : RowFacts} (htrip : s.drc.trip = none) (hphase : j.phase = .coding)
    (hmore : j.row < (encRows j.sess.words).length) (hrow : rowAllowed j row = true)
    (hidle : bitsOf 7 0 (s.raw (EN_FAULT_STATUS n + 12)) = 0) :
    exec (.encoderRow n row) s = .next (encRowDone n j row s).irqSync := by
  rw [exec_encoderRow, execEncoderRow]
  simp only [hjob]
  refine done_when ?_ ?_ (by rw [encRowDone_drc, htrip])
  · simp only [hphase, decide_true, decide_eq_true hmore, hrun, hrow, Bool.not_false, Bool.and_self]
  · simp only [encCheck_of_idle _ hidle, Bool.false_eq_true, if_false]
    rfl

theorem exec_encodeDone_of_fits {bytes fill out : List Byte} {recon : List (List Byte)} {x : EncSess} {hrd fl qb : Nat}
    {cut : Bool} {t1 t2 t5 t10 v : State} (hphase : j.phase = .coding) (hrow : j.row = (encRows j.sess.words).length)
    (hcoded : codedAllowed j bytes = true) (hrecon : recon.length = (reconLines j.sess.words).length)
    (hlines : ∀ l ∈ recon, l.length = lineBytes (recWidth j.sess.words) (recBits10 j.sess.words))
    (hhrd : hrdFill j.sess.words s = (hrd, t1)) (hafter : afterPicture j (codedBits j bytes) hrd = (x, fl, cut))
    (hfill : fillerBytes (recCodec j.sess.words == 0) (fl / 8) t1 = (fill, t2))
    (hbase : (if recMode j.sess.words = 0 then (0, pictureStored n j (bufAddr s (ejOutput j.words)) (bytes ++ fill) recon t2)
      else nextQpBase j j.qpMean (codedBits j bytes + fl)
        (pictureStored n j (bufAddr s (ejOutput j.words)) (bytes ++ fill) recon t2)) = (qb, t5))
    (hread : (if sendsPackets j then dramRdFor (EN_FAULT_STATUS n) (encPort n) (pictureCounted n j cut t5)
        (bufAddr s (ejOutput j.words)) ((codedBits j bytes + fl) / 8) else ([], false, pictureCounted n j cut t5)) =
      (out, false, t10))
    (hv : v = pictureEnded n j (pictureSession j x qb) out (codedBits j bytes + fl) t10) (htrip : v.drc.trip = none) :
    exec (.encodeDone n bytes recon) s = .next v.irqSync := by
  have hall : recon.all (fun l => l.length == lineBytes (recWidth j.sess.words) (recBits10 j.sess.words)) = true := by
    simpa only [List.all_eq_true, beq_iff_eq] using hlines
  rw [exec_encodeDone, execEncodeDone]
  -- what the read answers is given: the function is named, so that no check of this proof carries it out
  obtain ⟨readBytes, hreadBytes⟩ : ∃ f, f = dramRdFor := ⟨_, rfl⟩
  rw [← hreadBytes] at hread ⊢
  simp only [hjob]
  refine done_when ?_ ?_ htrip
  · simp only [hphase, decide_true, decide_eq_true hrow, hrun, hcoded, decide_eq_true hrecon, hall, Bool.not_false,
      Bool.and_self]
  · simp only [codedBits] at hafter hbase hread
    simp only [pictureStored] at hbase
    unfold sendsPackets at hread
    simp only [pictureCounted] at hread
    simp only [hhrd, hafter, hfill, hbase, hread, Bool.false_eq_true, if_false]
    exact hv.symm

theorem exec_rtpPacket_of_due {take : Nat} {last : Bool} {p : Piece} {ts : Word} {hd : List Word} {frame : List Byte}
    {t u v : State} (hphase : j.phase = .egress) (hnext : nextPiece j take = (p, last))
    (hpiece : pieceOk (recCodec j.sess.words == 0) p = true) (hstamp : rtpStamp j s = (ts, t))
    (hhd : hd = rtpHeader j.sess.words j.sess.rtpSeq last ts) (hframe : frame = packetFrame j p hd s)
    (hmtu : frame.length ≤ 14 + bitsOf 31 16 (wordAt j.sess.words 16)) (hdue : j.sess.paceAt ≤ s.cyc)
    (hport : packetPort j < numPorts s.fuse.variant) (hon : s.domOn (37 + packetPort j) = true)
    (hu : u = packetTaken n j (jobSent j p hd (s.cyc + paceCycles j.sess.words frame.length)) frame t)
    (hv : v = if last then encCommit n u else u) (htrip : v.drc.trip = none) :
    exec (.rtpPacket n take last) s = .next v.irqSync := by
  subst hhd hframe hu hv
  rw [exec_rtpPacket, execRtpPacket]
  simp only [hjob, hnext, hstamp]
  refine done_when ?_ rfl htrip
  simp only [packetFrame, packetPort] at hmtu hport hon
  simp only [hphase, decide_true, hrun, hpiece, decide_eq_true hmtu, decide_eq_true hdue, decide_eq_true hport, hon,
    beq_self_eq_true, Bool.not_false, Bool.and_self]

theorem exec_sourceLost_of_waiting (hphase : j.phase = .waiting) (hlost : j.lost = true)
    (htrip : (encEnd n stSourceLost s).drc.trip = none) :
    exec (.sourceLost n) s = .next (encEnd n stSourceLost s).irqSync := by
  rw [exec_sourceLost, execSourceLost]
  simp only [hjob]
  exact done_when (by simp only [hphase, decide_true, hlost, hrun, Bool.not_false, Bool.and_self]) rfl htrip

end

/-! ## A job taken (R181, R182, R186, R187, R194) -/

/-- The session job `j` runs under: a fresh one of its record `ws` at START, else its own. -/
def jobSession (j : Job) (ws : List Word) (s : State) : EncSess :=
  if ejStart j.words then freshSession ws (ejOrder j.words) else sessOf s j.context

/-- The references the picture of job `j` may use: none for an IDR. -/
def jobRefs (j : Job) (x : EncSess) : List (Nat × Word) := if ejType j.words = 0 then [] else x.refs

/-- The encoder's job of `j`, named `r`, under session `x` with the target and the cap of `rate`. -/
def jobTaken (r : JobRef) (j : Job) (x : EncSess) (rate : Nat × Nat × Nat × Nat) (s : State) : EncJob :=
  let (tt, tEff, carry, c) := rate
  let refs := jobRefs j x
  let ty := codedType (ejType j.words) (ejOrder j.words) refs
  { ref := r, words := j.words, session := j.context, sess := { x with carry := carry, refs := refs }, phase := .waiting
    gates := 0, lost := false, src := 0, source := ⟨0, 0, 0, 0, 0, false⟩, input := ⟨[], [], []⟩, recon := 0
    lists := refLists ty.1 (ejOrder j.words) refs
    leaving := if ejType j.words = 0 then (sessOf s j.context).refs.map (fun e => e.2) else []
    coded := ty.1, fallback := ty.2, t := tt, tEff := tEff, c := c, hdrBytes := 0, row := 0, bits := 0, qpSum := 0
    quant := [], ebbRows := 0, forced := 0, ebb := false, units := [], sent := 0, begun := false, results := [] }

/-- Encoder `n` is BUSY under session `k` with `job`, which goes for its source. -/
def encTakesUp (n slot k : Nat) (job : EncJob) (s : State) : State :=
  encSource n (setEncJob n (some job)
    (beginJob slot ((s.wr (EN_STATUS n) EN_STATUS.BUSY 1).wr (EN_STATUS n) EN_STATUS.SESSION k)))

theorem exec_encodePicture_of_legal {s t1 t2 v : State} {slot n tt tEff carry c : Nat} {j : Job} {ws : List Word}
    {x : EncSess} (hj : j = s.job slot) (hn : n = bitsOf 0 0 (wordAt ws 0)) (hx : x = jobSession j ws t1)
    (hstart : s.startable slot opEncodePicture = true) (hturn : encTurn s (s.jobRef slot) = true)
    (hheld : encHeld s (jobRecord s j) (sourceHandle s j.words) = false) (hinternal : encodeInternal s j = false)
    (hoff : encOff s j = false)
    (hread : (if ejStart j.words then dramRdWordsFor (EN_FAULT_STATUS (jobEncoder (encTaken (s.jobRef slot) s) j))
        (encPort (jobEncoder (encTaken (s.jobRef slot) s) j)) (encTaken (s.jobRef slot) s)
        (sessRecord (encTaken (s.jobRef slot) s) j.context) 64
      else ((sessOf (encTaken (s.jobRef slot) s) j.context).words, false, encTaken (s.jobRef slot) s)) = (ws, false, t1))
    (hsource : ejKind j.words = 0 → isCurrent t1 (wordAt j.words 2) = true ∧ mayHold t1 (17 + n) (wordAt j.words 2) = true)
    (houtput : isCurrent t1 (ejOutput j.words) = true)
    (hsession : if ejStart j.words then recordBad t1 ws = false else (sessOf t1 j.context).started = true)
    (hlevel : sessionExceeds ws = false) (hrate : acceptRate j.words x t1 = (tt, tEff, carry, c, t2))
    (hv : v = encTakesUp n slot j.context (jobTaken (s.jobRef slot) j x (tt, tEff, carry, c) t1) t2)
    (htrip : v.drc.trip = none) : exec (.encodePicture slot) s = .next v.irqSync := by
  have hcurrent : (ejKind j.words == 0 && !isCurrent t1 (wordAt j.words 2)) = false := by
    simpa only [Bool.and_eq_false_imp, beq_iff_eq, Bool.not_eq_false'] using fun h => (hsource h).1
  have hhold : (ejKind j.words == 0 && !mayHold t1 (17 + n) (wordAt j.words 2)) = false := by
    simpa only [Bool.and_eq_false_imp, beq_iff_eq, Bool.not_eq_false'] using fun h => (hsource h).2
  have hstate : (if ejStart j.words then recordBad t1 ws else !(sessOf t1 j.context).started) = false := by
    split at hsession
    · next h => rw [if_pos h, hsession]
    · next h => rw [if_neg h, hsession, Bool.not_true]
  subst hn hx hj
  rw [exec_encodePicture, execEncodePicture]
  refine done_when ?_ ?_ htrip
  · rw [hstart, hturn, hheld]
    rfl
  -- what the read answers is given: the function is named, so that no check of this proof carries it out
  obtain ⟨readWords, hreadWords⟩ : ∃ f, f = dramRdWordsFor := ⟨_, rfl⟩
  rw [← hreadWords] at hread ⊢
  unfold jobSession at hrate
  simp only [hinternal, hoff, hread, hcurrent, houtput, hhold, hstate, hlevel, hrate, Bool.not_true, Bool.or_self,
    Bool.false_eq_true, if_false]
  exact hv.symm

end Sys2Proof.Machine
end

section
open Sys2Proof Sys2Proof.Machine

/-- Settles O39: each event of a job by the conditions under which it takes place, and a row by the job it leaves. -/
theorem encodersRun : Obligations.EncodersRun := by
  unfold Obligations.EncodersRun
  refine ⟨fun s n j hjob hrun => ⟨?row, ?coded, ?packet, ?lost⟩, ?taken⟩
  case row =>
    intro row htrip hphase hmore hrow hidle ebb q' qs r
    refine ⟨_, _, exec_encoderRow_of_next hjob hrun htrip hphase hmore hrow hidle,
      (encJobOf_irqSync _ _).trans (encJobOf_encRowDone_same n j row s), rfl, rfl, rfl, rfl, rfl, rfl, rfl, fun m hm => ?_⟩
    exact (encJobOf_irqSync _ _).trans (encJobOf_encRowDone_ne j row s hm)
  case coded =>
    intro bytes fill out recon x fl cut qb t1 t2 t5 t10 u v hphase hrow hcoded hrecon hlines ws hevc bits hhrd hafter hfill
      t3 t4 hbase t6 t7 t8 t9 send hread hu hv htrip
    subst hu
    exact exec_encodeDone_of_fits hjob hrun hphase hrow hcoded hrecon hlines hhrd hafter hfill hbase hread hv htrip
  case packet =>
    intro take t v ts hphase ws hevc port p last hd payload frame hpiece hmtu hdue hport hon hstamp t1 k hv htrip
    exact exec_rtpPacket_of_due hjob hrun hphase rfl hpiece hstamp rfl rfl hmtu hdue hport hon rfl hv htrip
  case lost =>
    rintro v hphase hlost rfl htrip
    exact exec_sourceLost_of_waiting hjob hrun hphase hlost htrip
  case taken =>
    intro s slot ws t1 hstart hturn j jw k t0 n hheld hinternal hoff hread hsource houtput hsession hlevel x refs leaving ty
      tt tEff carry c t2 v hrate hv htrip
    exact exec_encodePicture_of_legal rfl rfl rfl hstart hturn hheld hinternal hoff hread hsource houtput hsession hlevel
      hrate hv htrip

end

section
/-!
PROOFS. The compositor's arithmetic (R222, R223): how far its multiply is from the exact quotient, and what a sample applied
over a value leaves.
-/
namespace Sys2Proof.Machine

/-! ## The multiply (R222) -/

theorem mul1023_eq_shift (x y : Nat) : mul1023 x y = (x * y + 512 + ((x * y + 512) >>> 10)) >>> 10 := by
  simp only [mul1023, Nat.shiftRight_eq_div_pow, Nat.reducePow]

section
variable {x y : Nat}

/-- Of 10-bit operands the product is the exact quotient by 1,023 to the nearest integer. -/
theorem mul1023_nearest (hx : x ≤ 1023) (hy : y ≤ 1023) :
    x * y ≤ 1023 * mul1023 x y + 511 ∧ 1023 * mul1023 x y ≤ x * y + 511 := by
  have hprod : x * y ≤ 1023 * 1023 := Nat.mul_le_mul hx hy
  unfold mul1023
  omega

/-- Of a 12-bit and a 10-bit operand it is less than one unit off. -/
theorem mul1023_near (hx : x ≤ 4095) (hy : y ≤ 1023) :
    x * y ≤ 1023 * mul1023 x y + 515 ∧ 1023 * mul1023 x y ≤ x * y + 515 := by
  have hprod : x * y ≤ 4095 * 1023 := Nat.mul_le_mul hx hy
  unfold mul1023
  omega

/-- Times 1,023 is the identity: the one multiple of 1,023 that near the product is the operand's own. -/
theorem mul1023_full (hx : x ≤ 4095) : mul1023 x 1023 = x := by
  have hnear := mul1023_near hx (le_refl 1023)
  omega

@[simp] theorem mul1023_zero (x : Nat) : mul1023 x 0 = 0 := by simp only [mul1023, Nat.mul_zero, Nat.reduceAdd, Nat.reduceDiv]

end

/-! ## Blending (R223) -/

/-- An opaque sample replaces what lies under it. -/
theorem blend_opaque {p : Pix} (d : Pix) (hr : p.1 ≤ 4095) (hg : p.2.1 ≤ 4095) (hb : p.2.2.1 ≤ 4095)
    (ha : p.2.2.2 = 1023) : blend p d = p := by
  obtain ⟨r, g, b, a⟩ := p
  subst ha
  simp only [blend, Nat.sub_self, mul1023_zero, Nat.add_zero, Nat.min_self, Nat.min_eq_right hr, Nat.min_eq_right hg,
    Nat.min_eq_right hb]

/-- A sample of zeros leaves what lies under it. -/
theorem blend_clear {d : Pix} (hr : d.1 ≤ 4095) (hg : d.2.1 ≤ 4095) (hb : d.2.2.1 ≤ 4095) (ha : d.2.2.2 ≤ 1023) :
    blend (0, 0, 0, 0) d = d := by
  simp only [blend, Nat.sub_zero, Nat.zero_add, mul1023_full hr, mul1023_full hg, mul1023_full hb,
    mul1023_full (ha.trans (by decide)), Nat.min_eq_right hr, Nat.min_eq_right hg, Nat.min_eq_right hb, Nat.min_eq_right ha]

/-- No component and no alpha leaves its range. -/
theorem blend_range (p d : Pix) : (blend p d).1 ≤ 4095 ∧ (blend p d).2.1 ≤ 4095 ∧ (blend p d).2.2.1 ≤ 4095 ∧
    (blend p d).2.2.2 ≤ 1023 :=
  ⟨Nat.min_le_left _ _, Nat.min_le_left _ _, Nat.min_le_left _ _, Nat.min_le_left _ _⟩

end Sys2Proof.Machine
end

section
open Sys2Proof Sys2Proof.Machine

/-- Settles O41: the bounds by what the two divisions by 1,024 leave, the identities of blending by those of the multiply. -/
theorem compositionArithmetic : Obligations.CompositionArithmetic :=
  ⟨mul1023_eq_shift, fun _ _ => mul1023_nearest, fun _ _ => mul1023_near, fun x hx => ⟨mul1023_full hx, mul1023_zero x⟩,
    fun _ d => blend_opaque d, fun _ => blend_clear, blend_range⟩

end

section
/-!
PROOFS. LAYER_UPDATE (R214, R215, R241) and the write of CMP_CTL (R233): the shadow a job writes, and how a refused, a plain
and a waiting job end.
-/
namespace Sys2Proof.Machine

theorem exec_layerUpdate (slot : Nat) (s : State) : exec (.layerUpdate slot) s = execLayerUpdate slot s := rfl
theorem exec_hold (data : Word) (s : State) : exec (.hold data) s = execHold data s := rfl

/-! ## What leaves the memory system's own state as it was -/

@[simp] theorem updErr_drc (i cause : Nat) (s : State) : (updErr i cause s).drc = s.drc := rfl
@[simp] theorem setLayer_drc (i : Nat) (x : LayerSt) (s : State) : (setLayer i x s).drc = s.drc := rfl
@[simp] theorem putShd_drc (i : Nat) (ws : List Word) (s : State) : (putShd i ws s).drc = s.drc :=
  foldS_keeps State.drc (fun _ _ => State.setReg_drc _ _ _) _ s

@[simp] theorem wbAbandon_drc (s : State) : (wbAbandon s).drc = s.drc := by
  unfold wbAbandon
  split <;> rfl

@[simp] theorem enterHold_drc (s : State) : (enterHold s).drc = s.drc := by
  unfold enterHold
  split
  · rfl
  · exact wbAbandon_drc _

/-! ## LAYER_UPDATE (R214, R215, R241) -/

/-- ARMED of layer `i` is set or cleared as word 2 of a job says. -/
def armedBy (i : Nat) (w2 : Word) (s : State) : State :=
  if bitAt 16 w2 then s.wr (CMP_L_STATE i) CMP_L_STATE.ARMED 1
  else if bitAt 17 w2 then s.wr (CMP_L_STATE i) CMP_L_STATE.ARMED 0 else s

@[simp] theorem armedBy_drc (i : Nat) (w2 : Word) (s : State) : (armedBy i w2 s).drc = s.drc := by
  unfold armedBy
  split_ifs <;> rfl

/-- The shadow words of layer `i` written, ARMED as the job says, and GUARD_SET noted where word 15 is among the words. -/
def layerWritten (i : Nat) (w2 : Word) (ws : List Word) (s : State) : State :=
  let t := armedBy i w2 (putShd i ws s)
  if bitAt 12 w2 then setLayer i { layerOf t i with setting := lGuardSet ws } t else t

@[simp] theorem layerWritten_drc (i : Nat) (w2 : Word) (ws : List Word) (s : State) :
    (layerWritten i w2 ws s).drc = s.drc := by
  have hdrc : (armedBy i w2 (putShd i ws s)).drc = s.drc := by rw [armedBy_drc, putShd_drc]
  unfold layerWritten
  generalize armedBy i w2 (putShd i ws s) = t at hdrc ⊢
  split_ifs <;> exact hdrc

/-- The result word of a job: the COMMIT_GEN of the copy that will take the update. -/
def nextGen (i : Nat) (s : State) : Word := BitVec.ofNat 32 ((s.rd (CMP_L_STATE i) CMP_L_STATE.COMMIT_GEN + 1) % 65536)

/-- A job with GUARD_WAIT goes on to wait for the guarded regions of its copy. -/
def waitsForRegions (slot i : Nat) (s : State) : State :=
  let t := s.setJob slot { s.job slot with begun := true, results := [nextGen i s] }
  { t with cmp := { t.cmp with waits := t.cmp.waits ++ [⟨s.jobRef slot, i, false, [], false, 0⟩] } }

section
variable {slot i : Nat} {w2 : Word} {ws : List Word} {s : State} (htrip : s.drc.trip = none)
  (hstart : s.startable slot opLayerUpdate = true) (hi : i = (s.job slot).context % 64) (hw2 : w2 = (s.job slot).w 2)
  (hws : ws = mergeShadow s (s.job slot) i)
include htrip hstart hi hw2 hws

theorem exec_layerUpdate_of_refused (hcause : updCause s i w2 ws ≠ 0) :
    exec (.layerUpdate slot) s = .next (fail slot stInternal (updErr i (updCause s i w2 ws) s)).irqSync := by
  subst hi hw2 hws
  rw [exec_layerUpdate, execLayerUpdate]
  exact done_when hstart (if_pos hcause) (by rw [fail, present_drc, updErr_drc, htrip])

section
variable (hcause : updCause s i w2 ws = 0)
include hcause

theorem exec_layerUpdate_of_plain (hwait : bitAt 18 w2 = false) : exec (.layerUpdate slot) s =
    .next (present slot stOk [nextGen i (layerWritten i w2 ws s)] (layerWritten i w2 ws s)).irqSync := by
  have hdrc := layerWritten_drc i w2 ws s
  subst hi hw2 hws
  rw [exec_layerUpdate, execLayerUpdate]
  refine done_when hstart ((if_neg (not_not_intro hcause)).trans (if_neg ?_)) ?_
  · rw [hwait]; decide
  · rw [present_drc, hdrc, htrip]

theorem exec_layerUpdate_of_wait (hwait : bitAt 18 w2 = true) : exec (.layerUpdate slot) s =
    .next (waitsForRegions slot i (layerWritten i w2 ws s)).irqSync := by
  have hdrc := layerWritten_drc i w2 ws s
  subst hi hw2 hws
  rw [exec_layerUpdate, execLayerUpdate]
  exact done_when hstart ((if_neg (not_not_intro hcause)).trans (if_pos hwait)) ((congrArg DrcSt.trip hdrc).trans htrip)

end

end

/-! ## HOLD (R233) -/

section
variable {s : State} {data : Word} (htrip : s.drc.trip = none) (hon : s.domOn 26 = true)
include htrip hon

theorem exec_hold_of_set (hset : bitAt 0 data = true) :
    exec (.hold data) s = .next (enterHold (s.hostWrite CMP_CTL data)).irqSync := by
  rw [exec_hold, execHold]
  exact done_when hon (if_pos hset) (by rw [enterHold_drc, State.hostWrite_drc, htrip])

theorem exec_hold_of_clear (hclear : bitAt 0 data = false) :
    exec (.hold data) s = .next (s.hostWrite CMP_CTL data).irqSync := by
  rw [exec_hold, execHold]
  exact done_when hon (if_neg (by rw [hclear]; decide)) (by rw [State.hostWrite_drc, htrip])

end

end Sys2Proof.Machine
end

section
open Sys2Proof Sys2Proof.Machine

/-- Settles O42: a job by what its merged words break and by GUARD_WAIT, a write of CMP_CTL by HOLD. -/
theorem layerUpdates : Obligations.LayerUpdates := by
  unfold Obligations.LayerUpdates
  refine ⟨fun s slot htrip hstart => ⟨?refused, ?legal⟩, fun s data htrip hon => ⟨?set, ?clear⟩⟩
  case refused => exact exec_layerUpdate_of_refused htrip hstart rfl rfl rfl
  case legal =>
    rintro hcause t1 t2 t3 rfl rfl rfl
    exact ⟨exec_layerUpdate_of_plain htrip hstart rfl rfl rfl hcause,
      exec_layerUpdate_of_wait htrip hstart rfl rfl rfl hcause⟩
  case set => exact exec_hold_of_set htrip hon
  case clear => exact exec_hold_of_clear htrip hon

end

section
/-!
PROOFS. Guarded regions (R238, R239, R241): the check of a region by whether its CRC is the one expected, and what the writes
of the FORCED bits and of an expectation keep aside for the next gate.
-/
namespace Sys2Proof.Machine

theorem exec_guardCheck (n : Nat) (s : State) : exec (.guardCheck n) s = execGuardCheck n s := rfl
theorem exec_cmpGrForced (half : Nat) (data : Word) (s : State) :
    exec (.cmpGrForced half data) s = execCmpGrForced half data s := rfl
theorem exec_cmpGrnExpect (n : Nat) (data : Word) (s : State) :
    exec (.cmpGrnExpect n data) s = execCmpGrnExpect n data s := rfl

/-! ## The check of a region (R238, R239) -/

/-- The CRC of check `d`, which is due no longer, is shown. -/
def guardShown (n : Nat) (d : GuardDue) (s : State) : State :=
  ({ s with cmp := { s.cmp with due := s.cmp.due.erase d } } : State).setReg (CMP_GR_CRC n) (BitVec.ofNat 32 d.crc)

/-- A mismatch of region `n` is counted and reported. -/
def guardMissed (n : Nat) (s : State) : State :=
  ((s.inc (CMP_GR_CFG n) CMP_GR_CFG.MISS_COUNT).incSat (CMP_GR_CFG n) CMP_GR_CFG.MISS_RUN).setBit CMP_IRQ_STATUS 1

/-- Region `n` is listed to be forced at the next gate, where its run of mismatches is long enough and forcing is enabled. -/
def listForced (n : Nat) (s : State) : State :=
  if 2 ≤ s.rd (CMP_GR_CFG n) CMP_GR_CFG.MISS_RUN ∧ bitAt 2 (cmpIn s (CMP_GR_CFG n)) = true ∧ n ∉ s.cmp.toForce
  then { s with cmp := { s.cmp with toForce := s.cmp.toForce ++ [n] } } else s

section
variable {s v : State} {n : Nat} {d : GuardDue} (hon : s.domOn 26 = true)
  (hdue : s.cmp.due.find? (fun x => x.region == n) = some d) (htrip : v.drc.trip = none)
include hon hdue htrip

theorem exec_guardCheck_of_match (hcrc : BitVec.ofNat 32 d.crc = d.expect)
    (hv : v = waitsTake n d.frame false ((guardShown n d s).wr (CMP_GR_CFG n) CMP_GR_CFG.MISS_RUN 0)) :
    exec (.guardCheck n) s = .next v.irqSync := by
  obtain rfl : d.region = n := by simpa using List.find?_some hdue
  rw [exec_guardCheck, execGuardCheck]
  refine done_when hon ?_ htrip
  simp only [hdue, hcrc, bne_self_eq_false, Bool.false_eq_true, if_false]
  rw [hv, guardShown, hcrc]

theorem exec_guardCheck_of_miss (hcrc : BitVec.ofNat 32 d.crc ≠ d.expect)
    (hv : v = waitsTake n d.frame true (listForced n (guardMissed n (guardShown n d s)))) :
    exec (.guardCheck n) s = .next v.irqSync := by
  obtain rfl : d.region = n := by simpa using List.find?_some hdue
  rw [exec_guardCheck, execGuardCheck]
  refine done_when hon ?_ htrip
  simp only [hdue, bne_iff_ne.mpr hcrc, if_true]
  rw [hv, listForced]
  refine congrArg (waitsTake d.region d.frame true) (if_congr ?_ rfl rfl)
  simp only [Bool.and_eq_true, decide_eq_true_eq, Bool.not_eq_true', List.contains_eq_mem, decide_eq_false_iff_not, and_assoc,
    guardMissed, guardShown]

end

/-! ## What the next gate takes (R238, R239) -/

/-- The forced regions of one half that a write of their FORCED bits newly lists to be released. -/
def newlyFreed (half : Nat) (data : Word) (s : State) : List Nat :=
  (((List.range 32).filter (fun b => bitAt b data)).map (fun b => 32 * half + b)).filter
    (fun n => regionForced s n && !s.cmp.toFree.contains n)

theorem mem_newlyFreed {half n : Nat} {data : Word} {s : State} : n ∈ newlyFreed half data s ↔
    (n / 32 = half ∧ bitAt (n % 32) data = true ∧ regionForced s n = true) ∧ n ∉ s.cmp.toFree := by
  have hbit : n ∈ ((List.range 32).filter (fun b => bitAt b data)).map (fun b => 32 * half + b) ↔
      n / 32 = half ∧ bitAt (n % 32) data = true := by
    simp only [List.mem_map, List.mem_filter, List.mem_range]
    constructor
    · rintro ⟨b, ⟨hb, hset⟩, rfl⟩
      rw [show (32 * half + b) % 32 = b by omega]
      exact ⟨by omega, hset⟩
    · rintro ⟨rfl, hset⟩
      exact ⟨n % 32, ⟨by omega, hset⟩, by omega⟩
  simp only [newlyFreed, List.mem_filter, hbit, Bool.and_eq_true, Bool.not_eq_true', List.contains_eq_mem,
    decide_eq_false_iff_not, and_assoc]

section
variable {s : State} (hon : s.domOn 26 = true) (htrip : s.drc.trip = none)
include hon htrip

theorem exec_cmpGrForced_of_half {half : Nat} (data : Word) (hhalf : half < 2) : exec (.cmpGrForced half data) s =
    .next ({ s with cmp := { s.cmp with toFree := s.cmp.toFree ++ newlyFreed half data s } } : State).irqSync := by
  rw [exec_cmpGrForced, execCmpGrForced]
  exact done_when (by rw [decide_eq_true hhalf, hon]; rfl) rfl htrip

theorem exec_cmpGrnExpect_of_region {n : Nat} (data : Word) (hn : n < 64) : exec (.cmpGrnExpect n data) s =
    .next ({ s with cmp := { s.cmp with expect := tabSet (fun _ => none) s.cmp.expect n (some data) } } : State).irqSync := by
  rw [exec_cmpGrnExpect, execCmpGrnExpect]
  exact done_when (by rw [decide_eq_true hn, hon]; rfl) rfl htrip

end

end Sys2Proof.Machine
end

section
open Sys2Proof Sys2Proof.Machine

/-- Settles O43: a check by its CRC, the lists by what `newlyFreed` holds and the expectations by the table they stand in. -/
theorem guardedRegions : Obligations.GuardedRegions := by
  unfold Obligations.GuardedRegions
  refine fun s hon => ⟨?check, ?forced, ?expect⟩
  case check =>
    rintro n d v hdue ⟨hmatch, hmiss⟩ htrip
    by_cases hcrc : BitVec.ofNat 32 d.crc = d.expect
    · exact exec_guardCheck_of_match hon hdue htrip hcrc (hmatch hcrc)
    · obtain ⟨u, rfl, hv⟩ := hmiss hcrc
      exact exec_guardCheck_of_miss hon hdue htrip hcrc hv
  case forced =>
    intro half data htrip hhalf
    refine ⟨_, exec_cmpGrForced_of_half hon htrip data hhalf, fun n => ?_,
      congrArg (fun t : State => { t with cmp := { t.cmp with toFree := s.cmp.toFree } }) (State.irqSync_frame _)⟩
    change n ∈ s.cmp.toFree ++ newlyFreed half data s ↔ _
    rw [List.mem_append, mem_newlyFreed]
    exact or_and_left.trans (and_iff_left (Classical.em _))
  case expect =>
    intro n data htrip hn
    exact ⟨_, exec_cmpGrnExpect_of_region hon htrip data hn, fun m => tabGet_tabSet _ _ _ _ _,
      congrArg (fun t : State => { t with cmp := { t.cmp with expect := s.cmp.expect } }) (State.irqSync_frame _)⟩

end

section
/-!
PROOFS. Loads from DRAM: conversion sets (R217), the touch sprite (R247), the EOTF table (R262) and the matrices (R263); how
each begins and what its end leaves.
-/
namespace Sys2Proof.Machine

theorem exec_xferLoad (k : Nat) (data : Word) (s : State) : exec (.xferLoad k data) s = execXferLoad k data s := rfl
theorem exec_xferLoadDone (k : Nat) (s : State) : exec (.xferLoadDone k) s = execXferLoadDone k s := rfl
theorem exec_touchSpriteLoad (data : Word) (s : State) :
    exec (.touchSpriteLoad data) s = execTouchSpriteLoad data s := rfl
theorem exec_lmpEotfLoad (data : Word) (s : State) : exec (.lmpEotfLoad data) s = execLmpEotfLoad data s := rfl
theorem exec_lmpEotfLoadDone (s : State) : exec .lmpEotfLoadDone s = execLmpEotfLoadDone s := rfl
theorem exec_lmpMtxGo (data : Word) (s : State) : exec (.lmpMtxGo data) s = execLmpMtxGo data s := rfl
theorem exec_lmpMtxLoadDone (s : State) : exec .lmpMtxLoadDone s = execLmpMtxLoadDone s := rfl

@[simp] theorem State.flag_irqSync (s : State) (a : Nat) (f : Fld) : s.irqSync.flag a f = s.flag a f := by
  simp only [State.flag, State.rd_irqSync]

/-! ## Conversion sets (R217) -/

@[simp] theorem setXfer_drc (k : Nat) (x : XferSt) (s : State) : (setXfer k x s).drc = s.drc := rfl

/-- The address a conversion set's registers give. -/
def xferSource (k : Nat) (s : State) : Nat :=
  s.rd (CMP_XFER_SRC_LO k) CMP_XFER_SRC_LO.ADDR_LO * 64 + (s.reg (CMP_XFER_SRC_HI k)).toNat * 2 ^ 32

theorem exec_xferLoad_of_set {s : State} {k : Nat} {data : Word} (htrip : s.drc.trip = none) (hk : k < 4)
    (hset : bitAt 0 data = true) (hon : s.domOn 26 = true) :
    exec (.xferLoad k data) s = .next (setXfer k { xferOf s k with loading := some (xferSource k s), idle := none }
      (s.wr (CMP_XFER_CTL k) CMP_XFER_CTL.PENDING 0)).irqSync := by
  rw [exec_xferLoad, execXferLoad]
  exact done_when (by rw [decide_eq_true hk, hset, hon]; rfl) rfl htrip

section
variable {s t : State} {k a : Nat} {bs : List Byte} (hload : (xferOf s k).loading = some a) (hhold : inHold s = false)
  (htrip : t.drc.trip = none)
include hload hhold htrip

theorem exec_xferLoadDone_of_read (hread : dramRdFor CMP_FAULT_STATUS cmpPort s a 4226 = (bs, false, t)) :
    exec (.xferLoadDone k) s = .next (setXfer k { xferOf t k with loading := none, idle := some (readXfer bs) }
      ((t.wr (CMP_XFER_CTL k) CMP_XFER_CTL.PENDING 1).wr (CMP_XFER_CTL k) CMP_XFER_CTL.ERROR 0)).irqSync := by
  rw [exec_xferLoadDone, execXferLoadDone]
  simp only [hload, hhold, hread, Bool.false_eq_true, if_false]
  exact done_next s _ htrip

theorem exec_xferLoadDone_of_lost (hread : dramRdFor CMP_FAULT_STATUS cmpPort s a 4226 = (bs, true, t)) :
    exec (.xferLoadDone k) s = .next (setXfer k { xferOf t k with loading := none }
      (t.wr (CMP_XFER_CTL k) CMP_XFER_CTL.ERROR 1)).irqSync := by
  rw [exec_xferLoadDone, execXferLoadDone]
  simp only [hload, hhold, hread, if_true]
  exact done_next s _ htrip

end

/-- In HOLD no conversion set ends its load. -/
theorem exec_xferLoadDone_of_inHold {s : State} (k : Nat) (hhold : inHold s = true) (htrip : s.drc.trip = none) :
    exec (.xferLoadDone k) s = .next s.irqSync := by
  rw [exec_xferLoadDone, execXferLoadDone, hhold]
  cases (xferOf s k).loading <;> exact done_next s s htrip

/-! ## The touch sprite (R247) -/

theorem exec_touchSpriteLoad_of_set {s : State} {data : Word} (hon : s.domOn 26 = true) (hset : bitAt 31 data = true)
    (htrip : s.drc.trip = none) :
    exec (.touchSpriteLoad data) s =
      let u := s.hostWrite CMP_TOUCH_SPRITE_SIZE data
      .next ({ u with cmp := { u.cmp with spriteDue := true } } : State).irqSync := by
  rw [exec_touchSpriteLoad, execTouchSpriteLoad]
  exact done_when hon (if_pos hset) ((congrArg DrcSt.trip (State.hostWrite_drc s _ data)).trans htrip)

/-- The state a gate loads the sprite in: the load no longer waits. -/
def spriteTaken (s : State) : State := { s with cmp := { s.cmp with spriteDue := false } }

/-- A gate reads a sprite that waits by the values in force. -/
theorem spriteGate_of_read {s t : State} {ws : List Word} (hdue : s.cmp.spriteDue = true)
    (hread : dramRdWordsFor CMP_FAULT_STATUS cmpPort (spriteTaken s) (bufAddr (spriteTaken s) (cmpIn s CMP_TOUCH_SPRITE))
      (bitsOf 6 0 (cmpIn s CMP_TOUCH_SPRITE_SIZE) * bitsOf 14 8 (cmpIn s CMP_TOUCH_SPRITE_SIZE)) = (ws, false, t)) :
    spriteGate s = { t with cmp := { t.cmp with sprite := ws } } := by
  have hload : spriteGate s = loadSprite (spriteTaken s) := if_pos hdue
  have hin (b : Nat) : cmpIn (spriteTaken s) b = cmpIn s b := rfl
  rw [hload, loadSprite]
  simp only [hin, hread, Bool.false_eq_true, if_false]

/-! ## The EOTF table (R262) -/

/-- LOAD of the EOTF table taken: the load begins at the address the registers give. -/
def eotfLoading (s : State) : State :=
  let a := s.rd LMP_EOTF_SRC_LO LMP_EOTF_SRC_LO.ADDR_LO * 64 + (s.reg LMP_EOTF_SRC_HI).toNat * 2 ^ 32
  let t := s.wr LMP_EOTF_CTL LMP_EOTF_CTL.PENDING 0
  { t with lmp := { t.lmp with eotfAt := some a } }

theorem exec_lmpEotfLoad_of_set {s : State} {data : Word} (htrip : s.drc.trip = none) (hset : bitAt 0 data = true)
    (hon : s.domOn 32 = true) : exec (.lmpEotfLoad data) s = .next (eotfLoading s).irqSync := by
  rw [exec_lmpEotfLoad, execLmpEotfLoad]
  exact done_when (by rw [hset, hon]; rfl) rfl htrip

theorem pending_eotfLoading (s : State) : (eotfLoading s).flag LMP_EOTF_CTL LMP_EOTF_CTL.PENDING = false := by
  change (s.wr LMP_EOTF_CTL LMP_EOTF_CTL.PENDING 0).flag LMP_EOTF_CTL LMP_EOTF_CTL.PENDING = false
  rw [State.flag, State.rd_wr_same _ _ _ _ (by decide)]
  rfl

/-- A loaded EOTF table is shown to wait for a gate. -/
def eotfPends (s : State) : State := (s.wr LMP_EOTF_CTL LMP_EOTF_CTL.PENDING 1).wr LMP_EOTF_CTL LMP_EOTF_CTL.ERROR 0

theorem pending_eotfPends (s : State) : (eotfPends s).flag LMP_EOTF_CTL LMP_EOTF_CTL.PENDING = true := by
  rw [State.flag, eotfPends, State.rd_wr_of_apart _ _ _ (by decide) (Or.inr (by decide)), State.rd_wr_same _ _ _ _ (by decide)]
  rfl

theorem error_eotfPends (s : State) : (eotfPends s).flag LMP_EOTF_CTL LMP_EOTF_CTL.ERROR = false := by
  rw [State.flag, eotfPends, State.rd_wr_same _ _ _ _ (by decide)]
  rfl

theorem reg_eotfPends (s : State) {b : Nat} (hb : b ≠ LMP_EOTF_CTL) : (eotfPends s).reg b = s.reg b :=
  (State.reg_wr_ne _ _ _ hb).trans (State.reg_wr_ne s _ _ hb)

/-- The EOTF table's image `ws` in the idle copy. -/
def eotfLoaded (ws : List Word) (s : State) : State :=
  let t := eotfPends s
  { t with lmp := { t.lmp with eotfAt := none, idle := tabSetRange (fun _ => 0) [] 0 (ws.map (bitsOf 19 0)) } }

theorem exec_lmpEotfLoadDone_of_read {s t : State} {a : Nat} {ws : List Word} (hload : s.lmp.eotfAt = some a)
    (hread : dramRdWordsFor LMP_FAULT_STATUS lampPort s a 4096 = (ws, false, t)) (htrip : t.drc.trip = none) :
    exec .lmpEotfLoadDone s = .next (eotfLoaded ws t).irqSync := by
  rw [exec_lmpEotfLoadDone, execLmpEotfLoadDone]
  simp only [hload, hread, Bool.false_eq_true, if_false]
  exact done_next s _ htrip

theorem idle_eotfLoaded {ws : List Word} {v : Nat} (s : State) (hv : v < ws.length) :
    tabGet (fun _ => 0) (eotfLoaded ws s).lmp.idle v = bitsOf 19 0 (wordAt ws v) := by
  have hword := tabGet_tabSetRange_in (fun _ => 0) (ws.map (bitsOf 19 0)) [] 0 v (by rwa [List.length_map])
  rw [Nat.zero_add, List.getElem_map] at hword
  rw [wordAt, List.getD_eq_getElem _ _ hv]
  exact hword

/-! ## The matrices (R263) -/

section
variable {s t : State} {data : Word} (htrip : s.drc.trip = none) (hon : s.domOn 32 = true) (hgo : bitAt 31 data = true)
  (ht : t = s.hostWrite LMP_MTX_CTL data) (hidle : t.flag LMP_MTX_CTL LMP_MTX_CTL.BUSY = false)
include htrip hon hgo ht hidle

/-- A load of entries outside the store starts nothing. -/
theorem exec_lmpMtxGo_of_outside
    (hout : 65536 < t.rd LMP_MTX_CTL LMP_MTX_CTL.FIRST + t.rd LMP_MTX_COUNT LMP_MTX_COUNT.COUNT) :
    exec (.lmpMtxGo data) s = .next (t.wr LMP_MTX_CTL LMP_MTX_CTL.ERROR 1).irqSync := by
  have hdrc : t.drc = s.drc := by rw [ht, State.hostWrite_drc]
  rw [exec_lmpMtxGo, execLmpMtxGo]
  refine done_when hon ?_ (by rw [State.wr_drc, hdrc, htrip])
  simp only [← ht, hgo, hidle, Bool.not_true, Bool.or_self, Bool.false_eq_true, if_false, if_pos hout]

theorem exec_lmpMtxGo_of_inside
    (hin : t.rd LMP_MTX_CTL LMP_MTX_CTL.FIRST + t.rd LMP_MTX_COUNT LMP_MTX_COUNT.COUNT ≤ 65536) :
    exec (.lmpMtxGo data) s =
      let u := (t.wr LMP_MTX_CTL LMP_MTX_CTL.BUSY 1).wr LMP_MTX_CTL LMP_MTX_CTL.ERROR 0
      let a := t.rd LMP_MTX_SRC_LO LMP_MTX_SRC_LO.ADDR_LO * 32 + (t.reg LMP_MTX_SRC_HI).toNat * 2 ^ 32
      let load := (a, t.rd LMP_MTX_CTL LMP_MTX_CTL.FIRST, t.rd LMP_MTX_COUNT LMP_MTX_COUNT.COUNT)
      .next ({ u with lmp := { u.lmp with mtxLoad := some load } } : State).irqSync := by
  have hdrc : t.drc = s.drc := by rw [ht, State.hostWrite_drc]
  rw [exec_lmpMtxGo, execLmpMtxGo]
  refine done_when hon ?_ ((congrArg DrcSt.trip hdrc).trans htrip)
  simp only [← ht, hgo, hidle, Bool.not_true, Bool.or_self, Bool.false_eq_true, if_false, if_neg (Nat.not_lt.mpr hin)]

end

theorem exec_lmpMtxLoadDone_of_load {s t : State} {a first count : Nat} (hload : s.lmp.mtxLoad = some (a, first, count))
    (ht : t = loadMatrices count a first (s.wr LMP_MTX_CTL LMP_MTX_CTL.BUSY 0)) (htrip : t.drc.trip = none) :
    exec .lmpMtxLoadDone s = .next ({ t with lmp := { t.lmp with mtxLoad := none } } : State).irqSync := by
  rw [exec_lmpMtxLoadDone, execLmpMtxLoadDone]
  simp only [hload, ← ht]
  exact done_next s _ htrip

end Sys2Proof.Machine
end

section
open Sys2Proof Sys2Proof.Machine

/-- Settles O44: each load by the conditions under which it begins or ends, and the parts of the EOTF table's states. -/
theorem imagesAreLoaded : Obligations.ImagesAreLoaded := by
  unfold Obligations.ImagesAreLoaded
  refine fun s => ⟨fun k data => exec_xferLoad_of_set,
    fun k a bs t hload hhold hread htrip => exec_xferLoadDone_of_read hload hhold htrip hread,
    fun k a bs t hload hhold hread htrip => exec_xferLoadDone_of_lost hload hhold htrip hread,
    exec_xferLoadDone_of_inHold, fun data => exec_touchSpriteLoad_of_set, fun ws t => spriteGate_of_read,
    ?eotf, ?eotfDone, fun data t htrip hon hgo ht hidle => ⟨?outside, ?inside⟩,
    fun a first count t => exec_lmpMtxLoadDone_of_load⟩
  case eotf =>
    intro data htrip hset hon
    refine ⟨_, exec_lmpEotfLoad_of_set htrip hset hon, rfl, ?_, fun b hb => ?_, ?_⟩
    · exact (State.flag_irqSync _ _ _).trans (pending_eotfLoading s)
    · exact (State.reg_irqSync _ _).trans (State.reg_wr_ne s _ _ hb)
    · exact congrArg (fun u : State => { u with lmp := { u.lmp with eotfAt := s.lmp.eotfAt }, regs := s.regs })
        (State.irqSync_frame (eotfLoading s))
  case eotfDone =>
    intro a ws t hload hread htrip
    refine ⟨_, exec_lmpEotfLoadDone_of_read hload hread htrip, rfl, fun v => idle_eotfLoaded t, ?_, ?_, fun b hb => ?_, ?_⟩
    · exact (State.flag_irqSync _ _ _).trans (pending_eotfPends t)
    · exact (State.flag_irqSync _ _ _).trans (error_eotfPends t)
    · exact (State.reg_irqSync _ _).trans (reg_eotfPends t hb)
    · exact congrArg (fun u : State =>
        { u with lmp := { u.lmp with eotfAt := t.lmp.eotfAt, idle := t.lmp.idle }, regs := t.regs })
        (State.irqSync_frame (eotfLoaded ws t))
  case outside => exact exec_lmpMtxGo_of_outside htrip hon hgo ht hidle
  case inside => exact exec_lmpMtxGo_of_inside htrip hon hgo ht hidle

end

section
/-!
PROOFS. The start and the end of a canvas line, the lock gate (R223 to R234) and a TOUCH frame (R243 to R245): each event by
the conditions under which it takes place.
-/
namespace Sys2Proof.Machine

theorem exec_canvasLineStart (s : State) : exec .canvasLineStart s = execCanvasLineStart s := rfl
theorem exec_lineComposed (s : State) : exec .lineComposed s = execLineComposed s := rfl
theorem exec_lockGate (s : State) : exec .lockGate s = execLockGate s := rfl
theorem exec_touch (mac : MacFacts) (pos : Nat) (contacts : List Contact) (s : State) :
    exec (.touch mac pos contacts) s = execTouch mac pos contacts s := rfl

/-! ## Lines (R223, R228, R229, R231) -/

/-- What the start of the next line does: its chasing layers are checked where it holds composed positions. -/
def lineStarted (s : State) : State :=
  if lineUsed s s.cmp.scan.line
  then foldS (chase s.cmp.scan.line) (List.range 64) (setScan { s.cmp.scan with started := true } s) else nextLine s

theorem exec_canvasLineStart_of_granted {s v : State} (hon : s.domOn 26 = true) (hactive : s.cmp.scan.active = true)
    (hstarted : s.cmp.scan.started = false) (hhold : s.cmp.hold = []) (hv : v = lineStarted s) (htrip : v.drc.trip = none) :
    exec .canvasLineStart s = .next v.irqSync := by
  rw [exec_canvasLineStart, execCanvasLineStart]
  exact done_when (by rw [hon, hactive, hstarted, hhold]; rfl) hv.symm htrip

/-- Each tile that composed line `y` crosses takes it, with lamp correction on. -/
def lampsTake (y : Nat) (line : List (Nat × Nat × Nat)) (s : State) : State :=
  if lampsOn s then foldS (lampLine y line) (enTiles s.lmp.active) s else s

theorem exec_lineComposed_of_started {s t v : State} {line : List (Nat × Nat × Nat)} (hon : s.domOn 26 = true)
    (hactive : s.cmp.scan.active = true) (hstarted : s.cmp.scan.started = true)
    (hline : composeLine s.cmp.scan.line s = (line, t))
    (hv : v = nextLine (lampsTake s.cmp.scan.line line (wbLine s.cmp.scan.line line (guardLine s.cmp.scan.line line t))))
    (htrip : v.drc.trip = none) : exec .lineComposed s = .next v.irqSync := by
  rw [exec_lineComposed, execLineComposed]
  refine done_when (by rw [hon, hactive, hstarted]; rfl) ?_ htrip
  simp only [hline]
  exact hv.symm

/-! ## The lock gate (R226 to R234) -/

/-- The frame in progress ended and HOLD decided; outside HOLD what the hold queue still holds is granted first. -/
def gateEntered (s : State) : State :=
  let t := gateHolds (closeFrame s)
  if inHold t then t else drainHold t

/-- What the gate does once the next frame is open, given the handles each layer had left. -/
def gateWorks (left : List (List Word)) (s : State) : State :=
  showCoverage (if inHold s then holdGate s else fullGate left (spriteGate s))

theorem exec_lockGate_of_on {s t u v : State} {changed : Bool} (hon : s.domOn 26 = true)
    (hopen : gateOpens (gateEntered s) = (changed, t)) (hu : u = if changed then disableToFit (allowance (rateNow t)) t else t)
    (hv : v = gateWorks ((List.range 64).map (fun i => (layerOf (gateEntered s) i).leaving)) u)
    (htrip : v.drc.trip = none) : exec .lockGate s = .next v.irqSync := by
  rw [exec_lockGate, execLockGate]
  refine done_when hon ?_ htrip
  rw [hv, hu]
  unfold gateEntered at hopen ⊢
  simp only [hopen]
  rfl

/-! ## A TOUCH frame (R243 to R245) -/

/-- A frame the engine takes, on a lane that holds block lock and has no injected access, is counted and handled. -/
theorem rxFrame_of_taken {mac : MacFacts} {s : State} (f : State → State) (htaken : macTaken mac = true)
    (hfcs : mac.fcsOk = true) (hlive : laneLive s mac.lane = true) (hlock : lsSettling ≤ laneState s mac.lane)
    (hidle : bitsOf 7 0 (s.raw (PLK_LANE_FAULT_INJECT mac.lane)) = 0) :
    rxFrame mac f s = f (s.inc (PLK_LANE_RX_FRAMES mac.lane) PLK_LANE_RX_FRAMES.COUNT) := by
  have haddr : PLK_LANE_FAULT_INJECT mac.lane = PLK_LANE_FAULT_STATUS mac.lane + 12 := by
    rw [PLK_LANE_FAULT_INJECT, PLK_LANE_FAULT_STATUS]
    omega
  rw [haddr] at hidle
  have hfifo : s.sramFault (PLK_LANE_FAULT_STATUS mac.lane) 16 = (false, s) := by
    rw [State.sramFault, sramCheck_of_idle _ _ hidle]
  simp only [rxFrame, hlive, decide_eq_true hlock, Bool.and_self, State.when_true, hfcs, htaken, hfifo, Bool.not_true,
    Bool.false_eq_true, if_false]

theorem exec_touch_of_tile {s t v : State} {mac : MacFacts} {pos place i : Nat} {contacts : List Contact}
    (hrx : ∀ f, rxFrame mac f s = f t) (hplace : placeOf t mac.lane pos = some place)
    (htile : (enTiles t.lmp.active).find? (fun k => tPlace (actTile t k) == place) = some i) (hon : t.domOn 26 = true)
    (hen : bitAt 0 (cmpIn t CMP_TOUCH_CFG) = true) (hdriven : drivenState (tileState t i) = true)
    (hv : v = foldS (touchOne i) contacts t) (htrip : v.drc.trip = none) :
    exec (.touch mac pos contacts) s = .next v.irqSync := by
  rw [exec_touch, execTouch, hrx]
  simp only [hplace, htile, hon, hen, hdriven, Bool.and_self, if_true, ← hv]
  exact done_next s v htrip

end Sys2Proof.Machine
end

section
open Sys2Proof Sys2Proof.Machine

/-- Settles O46: each event by the conditions under which it takes place, a TOUCH frame through what its lane takes. -/
theorem framesAndGates : Obligations.FramesAndGates := by
  unfold Obligations.FramesAndGates
  refine fun s hon => ⟨fun v => exec_canvasLineStart_of_granted hon, ?line, ?gate, ?touch⟩
  case line =>
    rintro line t u v hactive hstarted hline rfl hv htrip
    exact exec_lineComposed_of_started hon hactive hstarted hline hv htrip
  case gate =>
    rintro changed t0 t1 t u v rfl rfl hopen hu hv htrip
    exact exec_lockGate_of_on hon hopen hu hv htrip
  case touch =>
    rintro pos place i mac contacts t v htaken hfcs lane hlive hlock hidle rfl hplace htile hon' hen hdriven hv htrip
    exact exec_touch_of_tile (fun f => rxFrame_of_taken f htaken hfcs hlive hlock hidle) hplace htile hon' hen hdriven hv
      htrip

end

section
/-!
PROOFS. Lamp correction: TILEMAP_UPDATE (R252 to R254), the granted serial writes (R256, R259), the end of a frame's
correction (R268) and the headroom manager (R269).
-/
namespace Sys2Proof.Machine

theorem exec_tilemapUpdate (slot : Nat) (s : State) : exec (.tilemapUpdate slot) s = execTilemapUpdate slot s := rfl
theorem exec_serialWrite (tile : Nat) (s : State) : exec (.serialWrite tile) s = execSerialWrite tile s := rfl
theorem exec_exhausted (s : State) : exec .exhausted s = execExhausted s := rfl
theorem exec_headroomManager (s : State) : exec .headroomManager s = execHeadroomManager s := rfl

/-! ## TILEMAP_UPDATE (R252 to R254) -/

@[simp] theorem tmErr_drc (tile cause : Nat) (s : State) : (tmErr tile cause s).drc = s.drc := rfl

/-- The shadow map with the entries `ws` of `count` tiles from `first` on merged in. -/
def mergedMap (first count : Nat) (ws : List Word) (s : State) : Tab (List Word) :=
  (List.range count).foldl (fun m i => tabSet (fun _ => []) m (first + i) ((ws.drop (8 * i)).take 8)) s.lmp.shadow

/-- The merged map `m` in the shadow, with the damage of its new entries cleared. -/
def mapTaken (first count : Nat) (m : Tab (List Word)) (s : State) : State :=
  { s with lmp := { s.lmp with
    shadow := m, damaged := s.lmp.damaged.filter (fun x => !(decide (first ≤ x) && decide (x < first + count))) } }

/-- How a job whose entries were read ends: as the check of its merged map says. -/
def mapAnswered (slot first count : Nat) (m : Tab (List Word)) (s : State) : State :=
  match mapCheck s m first count with
  | some (tile, cause) => fail slot stInternal (tmErr tile cause s)
  | none => present slot stOk [BitVec.ofNat 32 ((frameNo s + 1) % 2 ^ 24)] (mapTaken first count m s)

section
variable {slot first count : Nat} {m : Tab (List Word)} {s : State}

theorem mapAnswered_of_passes (hcheck : mapCheck s m first count = none) : mapAnswered slot first count m s =
    present slot stOk [BitVec.ofNat 32 ((frameNo s + 1) % 2 ^ 24)] (mapTaken first count m s) := by
  simp only [mapAnswered, hcheck]

theorem mapAnswered_of_fails {tile cause : Nat} (hcheck : mapCheck s m first count = some (tile, cause)) :
    mapAnswered slot first count m s = fail slot stInternal (tmErr tile cause s) := by
  simp only [mapAnswered, hcheck]

theorem mapAnswered_drc : (mapAnswered slot first count m s).drc = s.drc := by
  cases hcheck : mapCheck s m first count with
  | none => rw [mapAnswered_of_passes hcheck, present_drc, mapTaken]
  | some x => rw [mapAnswered_of_fails hcheck, fail, present_drc, tmErr_drc]

end

theorem exec_tilemapUpdate_of_read {s t : State} {slot : Nat} {ws : List Word}
    (hstart : s.startable slot opTilemapUpdate = true) (hw1 : bitsOf 31 16 ((s.job slot).w 1) = 0)
    (hw2 : bitsOf 31 17 ((s.job slot).w 2) = 0) (hheld : isCurrent s ((s.job slot).w 3) = true)
    (hcount : 0 < bitsOf 16 0 ((s.job slot).w 2)) (haligned : ((s.job slot).w 4).toNat % 32 = 0)
    (hfits : ((s.job slot).w 4).toNat + 32 * bitsOf 16 0 ((s.job slot).w 2) ≤ poolSize (hPool ((s.job slot).w 3)))
    (hread : dramRdWordsFor LMP_FAULT_STATUS lampPort s (bufAddr s ((s.job slot).w 3) + ((s.job slot).w 4).toNat)
      (8 * bitsOf 16 0 ((s.job slot).w 2)) = (ws, false, t)) (htrip : t.drc.trip = none) :
    exec (.tilemapUpdate slot) s = .next (mapAnswered slot (s.job slot).context (bitsOf 16 0 ((s.job slot).w 2))
      (mergedMap (s.job slot).context (bitsOf 16 0 ((s.job slot).w 2)) ws t) t).irqSync := by
  have hreserved : ¬ (bitsOf 31 16 ((s.job slot).w 1) ≠ 0 ∨ bitsOf 31 17 ((s.job slot).w 2) ≠ 0) := by omega
  have hrange : ¬ (bitsOf 16 0 ((s.job slot).w 2) = 0 ∨ ((s.job slot).w 4).toNat % 32 ≠ 0 ∨
      poolSize (hPool ((s.job slot).w 3)) < ((s.job slot).w 4).toNat + 32 * bitsOf 16 0 ((s.job slot).w 2)) := by omega
  rw [exec_tilemapUpdate, execTilemapUpdate]
  refine done_when hstart ?_ (by rw [mapAnswered_drc, htrip])
  simp only [if_neg hreserved, hheld, Bool.not_true, Bool.false_eq_true, if_false, if_neg hrange, hread]
  rfl

/-! ## Serial writes (R256, R259) -/

/-- The serial write `x` taken from those that wait. -/
def serialTaken (x : SerialWr) (s : State) : State := { s with lmp := { s.lmp with serials := s.lmp.serials.erase x } }

/-- The serial of `x` in the entry of `tile`, which owes a replacement until the gate sees it. -/
def serialSet (tile : Nat) (x : SerialWr) (s : State) : State :=
  { s with lmp := { s.lmp with
    shadow := tabSet (fun _ => []) s.lmp.shadow tile ((shdTile s tile).take 4
      ++ [BitVec.ofNat 32 x.serial, BitVec.ofNat 32 (x.serial / 2 ^ 32)] ++ (shdTile s tile).drop 6)
    owed := if tile ∈ s.lmp.owed then s.lmp.owed else s.lmp.owed ++ [tile] } }

section
variable {s : State} {tile : Nat} {x : SerialWr} (htrip : s.drc.trip = none)
  (hwaits : s.lmp.serials.find? (fun y => y.tile == tile) = some x)
include htrip hwaits

theorem exec_serialWrite_of_placed (hentry : shdTile s tile ≠ [])
    (hplace : tPlace (shdTile s tile) = x.lane * 1024 + x.pos) :
    exec (.serialWrite tile) s = .next (serialSet tile x (serialTaken x s)).irqSync := by
  rw [exec_serialWrite, execSerialWrite, ← done_next s (serialSet tile x (serialTaken x s)) htrip]
  simp only [hwaits]
  refine congrArg (done s) ((if_neg ?_).trans ?_)
  · change ¬ ((shdTile s tile).isEmpty || tPlace (shdTile s tile) != x.lane * 1024 + x.pos) = true
    simp [hentry, hplace]
  · simp only [List.contains_iff_mem]
    rfl

theorem exec_serialWrite_of_moved (hmoved : shdTile s tile = [] ∨ tPlace (shdTile s tile) ≠ x.lane * 1024 + x.pos) :
    exec (.serialWrite tile) s = .next ((serialTaken x s).inc LMP_TM_ERR LMP_TM_ERR.COUNT).irqSync := by
  rw [exec_serialWrite, execSerialWrite, ← done_next s ((serialTaken x s).inc LMP_TM_ERR LMP_TM_ERR.COUNT) htrip]
  simp only [hwaits]
  refine congrArg (done s) (if_pos ?_)
  change ((shdTile s tile).isEmpty || tPlace (shdTile s tile) != x.lane * 1024 + x.pos) = true
  simpa using hmoved

end

/-! ## The end of a frame's correction (R268) -/

theorem exec_exhausted_of_due {s : State} (hdue : s.lmp.exhDue = true) (htrip : (endExhausted s).drc.trip = none) :
    exec .exhausted s = .next (endExhausted s).irqSync := by
  rw [exec_exhausted, execExhausted]
  exact done_when hdue rfl htrip

/-! ## The headroom manager's target (R269) -/

/-- The least of `a` and the bounds of those of `ks` that need anything. -/
def leastBound (need bound : Nat → Nat) : List Nat → Nat → Nat
  | [], a => a
  | k :: ks, a => leastBound need bound ks (if 0 < need k then min a (bound k) else a)

section
variable (need bound : Nat → Nat)

theorem leastBound_le (ks : List Nat) (a : Nat) : leastBound need bound ks a ≤ a := by
  induction ks generalizing a with
  | nil => exact le_refl a
  | cons k ks ih =>
    refine (ih _).trans ?_
    split_ifs
    · exact Nat.min_le_left _ _
    · exact le_refl a

theorem leastBound_le_bound (ks : List Nat) (a : Nat) {k : Nat} (hk : k ∈ ks) (hneed : 0 < need k) :
    leastBound need bound ks a ≤ bound k := by
  induction ks generalizing a with
  | nil => cases hk
  | cons k' ks ih =>
    rcases List.mem_cons.mp hk with rfl | hk
    · refine (leastBound_le need bound ks _).trans ?_
      rw [if_pos hneed]
      exact Nat.min_le_right _ _
    · exact ih _ hk

theorem leastBound_eq (ks : List Nat) (a : Nat) :
    leastBound need bound ks a = a ∨ ∃ k ∈ ks, 0 < need k ∧ leastBound need bound ks a = bound k := by
  induction ks generalizing a with
  | nil => exact Or.inl rfl
  | cons k ks ih =>
    rw [leastBound]
    rcases ih (if 0 < need k then min a (bound k) else a) with hfirst | ⟨k', hk', hleast⟩
    · rw [hfirst]
      split_ifs with hneed
      · exact (min_choice a (bound k)).imp_right (fun h => ⟨k, List.mem_cons_self, hneed, h⟩)
      · exact Or.inl rfl
    · exact Or.inr ⟨k', List.mem_cons_of_mem k hk', hleast⟩

end

/-- LEVEL in force. -/
def hrmLevel (s : State) : Nat := min 8388608 (s.rd LMP_LEVEL LMP_LEVEL.LEVEL)

/-- The level at which channel `k` meets its headroom with what it needed in the minute. -/
def hrmBound (s : State) (k : Nat) : Nat := hrmLevel s * headroom s k / s.lmp.minute.getD k 0

/-- The highest level at which no channel needs more than its headroom, within full scale and LEVEL_MAX. -/
def hrmTarget (s : State) : Nat :=
  min (min 8388608 (s.rd LMP_LEVEL_MAX LMP_LEVEL_MAX.LEVEL_MAX))
    (leastBound (fun k => s.lmp.minute.getD k 0) (hrmBound s) [0, 1, 2] 8388608)

theorem hrmTarget_le (s : State) : hrmTarget s ≤ 8388608 := (Nat.min_le_left _ _).trans (Nat.min_le_left _ _)

theorem hrmTarget_le_max (s : State) : hrmTarget s ≤ s.rd LMP_LEVEL_MAX LMP_LEVEL_MAX.LEVEL_MAX :=
  (Nat.min_le_left _ _).trans (Nat.min_le_right _ _)

theorem hrmTarget_le_bound (s : State) {k : Nat} (hk : k < 3) (hneed : 0 < s.lmp.minute.getD k 0) :
    hrmTarget s ≤ hrmBound s k :=
  (Nat.min_le_right _ _).trans (leastBound_le_bound _ _ _ _ (List.mem_range.mpr hk) hneed)

/-- The target is one of its bounds. -/
theorem hrmTarget_eq (s : State) :
    hrmTarget s = 8388608 ∨ hrmTarget s = s.rd LMP_LEVEL_MAX LMP_LEVEL_MAX.LEVEL_MAX ∨
      ∃ k, k < 3 ∧ 0 < s.lmp.minute.getD k 0 ∧ hrmTarget s = hrmBound s k := by
  rcases min_choice (min 8388608 (s.rd LMP_LEVEL_MAX LMP_LEVEL_MAX.LEVEL_MAX))
    (leastBound (fun k => s.lmp.minute.getD k 0) (hrmBound s) [0, 1, 2] 8388608) with hleft | hright
  · rw [hrmTarget, hleft]
    exact (min_choice _ _).imp_right Or.inl
  · rw [hrmTarget, hright]
    rcases leastBound_eq (fun k => s.lmp.minute.getD k 0) (hrmBound s) [0, 1, 2] 8388608 with hfull | ⟨k, hk, hneed, heq⟩
    · exact Or.inl hfull
    · exact Or.inr (Or.inr ⟨k, List.mem_range.mp hk, hneed, heq⟩)

/-! ## The headroom manager's step (R269) -/

def hrmStep (s : State) : Nat := max 1 (hrmLevel s * 5 / 60000)

/-- `level` moved by `step` towards `target`, downwards not below `low`. -/
def steppedLevel (level target step low : Nat) : Nat :=
  let l := if target < level then max (max target (level - step)) low else level
  if l < target then min target (l + step) else l

theorem steppedLevel_of_above {level target : Nat} (step low : Nat) (h : target < level) :
    steppedLevel level target step low = max (max target (level - step)) low := by
  rw [steppedLevel, if_pos h, if_neg (by omega)]

theorem steppedLevel_of_le {level target : Nat} (step low : Nat) (h : level ≤ target) :
    steppedLevel level target step low = min target (level + step) := by
  rw [steppedLevel, if_neg (Nat.not_lt.mpr h)]
  split_ifs <;> omega

/-- The level the next gate takes. -/
def hrmNext (s : State) : Nat :=
  steppedLevel (hrmLevel s) (hrmTarget s) (hrmStep s) (s.rd LMP_LEVEL_MIN LMP_LEVEL_MIN.LEVEL_MIN)

/-- The target lies under LEVEL_MIN, and the next level stands on it. -/
def hrmAtFloor (s : State) : Bool :=
  let low := s.rd LMP_LEVEL_MIN LMP_LEVEL_MIN.LEVEL_MIN
  decide (hrmTarget s < low) && hrmNext s == low

/-- TARGET and AT_FLOOR shown. -/
def hrmShown (s : State) : State :=
  (s.wr LMP_HRM_STATUS LMP_HRM_STATUS.TARGET (hrmTarget s)).wr LMP_HRM_STATUS LMP_HRM_STATUS.AT_FLOOR (hrmAtFloor s).toNat

/-- TARGET and AT_FLOOR shown, with the interrupt of a level on its floor. -/
def hrmTold (s : State) : State := if hrmAtFloor s then (hrmShown s).setBit LMP_IRQ_STATUS 5 else hrmShown s

/-- The manager's minute ended: the next minute's needs start from zero, and the level waits for a gate. -/
def hrmEnded (s : State) : State :=
  let t := hrmTold s
  { t with lmp := { t.lmp with minute := [0, 0, 0], level := some (hrmNext s) } }

/-- The manager's outputs change registers alone. -/
theorem hrmTold_frame (s : State) : { hrmTold s with regs := s.regs } = s := by
  unfold hrmTold
  split <;> rfl

theorem reg_hrmTold (s : State) {a : Nat} (ha : a ≠ LMP_IRQ_STATUS) : (hrmTold s).reg a = (hrmShown s).reg a := by
  unfold hrmTold
  split
  · exact State.reg_wr_ne _ _ _ ha
  · rfl

theorem rd_hrmEnded_status (s : State) (f : Fld) : (hrmEnded s).rd LMP_HRM_STATUS f = (hrmShown s).rd LMP_HRM_STATUS f :=
  congrArg (fget f) (reg_hrmTold s (by decide))

theorem target_hrmEnded (s : State) : (hrmEnded s).rd LMP_HRM_STATUS LMP_HRM_STATUS.TARGET = hrmTarget s := by
  have hle := hrmTarget_le s
  rw [rd_hrmEnded_status, hrmShown, State.rd_wr_of_apart _ _ _ (by decide) (Or.inr (by decide)),
    State.rd_wr_same _ _ _ _ (by decide)]
  exact Nat.mod_eq_of_lt (hle.trans_lt (by decide))

theorem atFloor_hrmEnded (s : State) : (hrmEnded s).flag LMP_HRM_STATUS LMP_HRM_STATUS.AT_FLOOR = hrmAtFloor s := by
  rw [State.flag, rd_hrmEnded_status, hrmShown, State.rd_wr_same _ _ _ _ (by decide)]
  cases hrmAtFloor s <;> rfl

theorem reg_hrmEnded (s : State) {a : Nat} (hstatus : a ≠ LMP_HRM_STATUS) (hirq : a ≠ LMP_IRQ_STATUS) :
    (hrmEnded s).reg a = s.reg a :=
  (reg_hrmTold s hirq).trans ((State.reg_wr_ne _ _ _ hstatus).trans (State.reg_wr_ne s _ _ hstatus))

/-- The end of the minute changes the minute, the level and registers alone. -/
theorem hrmEnded_frame (s : State) : { hrmEnded s with
    regs := s.regs, lmp := { (hrmEnded s).lmp with minute := s.lmp.minute, level := s.lmp.level } } = s :=
  congrArg (fun t : State => { t with lmp := { t.lmp with minute := s.lmp.minute, level := s.lmp.level } }) (hrmTold_frame s)

theorem exec_headroomManager_of_on {s : State} (htrip : s.drc.trip = none) (hon : s.domOn 32 = true)
    (hen : s.flag LMP_HRM_CTL LMP_HRM_CTL.EN = true) : exec .headroomManager s = .next (hrmEnded s).irqSync := by
  rw [exec_headroomManager, execHeadroomManager]
  refine done_when (by rw [hon, hen]; rfl) rfl ?_
  exact (congrArg (fun t : State => t.drc.trip) (hrmTold_frame s)).trans htrip

end Sys2Proof.Machine
end

section
open Sys2Proof Sys2Proof.Machine

/-- Settles O47: a job by the check of its merged map, a serial write by the entry of its tile, and the headroom manager by
what bounds its target and the step it takes. -/
theorem lampCommands : Obligations.LampCommands := by
  unfold Obligations.LampCommands
  refine fun s => ⟨?map, ?serial, ?exhausted, ?headroom⟩
  case map =>
    rintro slot hstart j first count ofs hw1 hw2 hheld hcount haligned hfits ws t m hread rfl htrip
    have hends {u : State} (hu : mapAnswered slot first count (mergedMap first count ws t) t = u) :
        exec (.tilemapUpdate slot) s = .next u.irqSync :=
      hu ▸ exec_tilemapUpdate_of_read hstart hw1 hw2 hheld hcount haligned hfits hread htrip
    exact ⟨fun hcheck => hends (mapAnswered_of_passes hcheck), fun _ _ hcheck => hends (mapAnswered_of_fails hcheck)⟩
  case serial =>
    rintro tile x t htrip hwaits rfl w
    exact ⟨exec_serialWrite_of_placed htrip hwaits, exec_serialWrite_of_moved htrip hwaits⟩
  case exhausted =>
    rintro v hdue rfl htrip
    exact exec_exhausted_of_due hdue htrip
  case headroom =>
    intro htrip hon hen
    have htarget : (hrmEnded s).irqSync.rd LMP_HRM_STATUS LMP_HRM_STATUS.TARGET = hrmTarget s :=
      (State.rd_irqSync _ _ _).trans (target_hrmEnded s)
    refine ⟨_, exec_headroomManager_of_on htrip hon hen, ?_⟩
    simp only [htarget]
    refine ⟨hrmTarget_le s, hrmTarget_le_max s, fun k => hrmTarget_le_bound s, hrmTarget_eq s, ?_, ?_, ?_, rfl, rfl, ?_⟩
    · rintro l ⟨⟩
      exact ⟨steppedLevel_of_above _ _, steppedLevel_of_le _ _⟩
    · rw [State.flag_irqSync, atFloor_hrmEnded, hrmAtFloor, Bool.and_eq_true, decide_eq_true_iff, beq_iff_eq]
      exact and_congr_right' Option.some_inj.symm
    · exact fun a hstatus hirq => (State.reg_irqSync _ _).trans (reg_hrmEnded s hstatus hirq)
    · exact (congrArg (fun t : State => { t with
        regs := s.regs, icu := s.icu, lmp := { t.lmp with minute := s.lmp.minute, level := s.lmp.level } })
        (State.irqSync_frame (hrmEnded s))).trans (congrArg (fun t : State => { t with icu := s.icu }) (hrmEnded_frame s))

end

section
/-!
PROOFS. What the commands of the ledger store write reads back: the pieces of a write, the words of a header sector with
their check, and the summary commit (R285, R293, R296).
-/
namespace Sys2Proof.Machine

/-! ## Bytes of the user area under a write -/

theorem emPut_append (bs cs : List Byte) : ∀ (m : Tab Byte) (a : Nat),
    emPut m a (bs ++ cs) = emPut (emPut m a bs) (a + bs.length) cs := by
  induction bs with
  | nil => intro m a; rfl
  | cons b bs ih =>
    intro m a
    have h := ih (tabSet (fun _ => 0) m a b) (a + 1)
    rw [Nat.add_right_comm] at h
    exact h

theorem emGet_emPut_inside (m : Tab Byte) (a : Nat) {bs : List Byte} {i n : Nat} (h : i + n ≤ bs.length) :
    emGet (emPut m a bs) (a + i) n = (bs.drop i).take n := by
  refine List.ext_getElem (by simp [emGet, tabGetRange]; omega) fun j hj _ => ?_
  have hj' : i + j < bs.length := by
    simp only [emGet, tabGetRange, List.length_map, List.length_range] at hj
    omega
  simp [emGet, emPut, tabGetRange, Nat.add_assoc, tabGet_tabSetRange_in _ bs m a (i + j) hj']

theorem emGet_emPut_same (m : Tab Byte) (a : Nat) {bs : List Byte} {n : Nat} (h : bs.length = n) :
    emGet (emPut m a bs) a n = bs := h ▸ tabGetRange_tabSetRange _ bs m a

theorem emGet_emPut_apart (m : Tab Byte) {a b n : Nat} {bs : List Byte} (h : b + n ≤ a ∨ a + bs.length ≤ b) :
    emGet (emPut m a bs) b n = emGet m b n := by
  refine List.map_congr_left fun i hi => tabGet_tabSetRange_out _ bs m a (b + i) ?_
  have := List.mem_range.mp hi
  omega

/-! ## The store once commands are written (R296) -/

/-- The user area once the commands `ws` have been written in their order. -/
def emWritten (ws : List EmWrite) (m : Tab Byte) : Tab Byte := ws.foldl (fun m w => emPut m w.addr w.data) m

theorem emWritten_append (vs ws : List EmWrite) (m : Tab Byte) :
    emWritten (vs ++ ws) m = emWritten ws (emWritten vs m) := List.foldl_append

/-- The pieces of a byte list, written one after the other from piece `k` on, write the whole list. -/
theorem foldl_emPieces (a n : Nat) : ∀ (k : Nat) (bs : List Byte) (m : Tab Byte), bs.length ≤ 65536 * n →
    ((List.range' k (emPieces n bs).length).zip (emPieces n bs)).foldl (fun m p => emPut m (a + 65536 * p.1) p.2) m =
      emPut m (a + 65536 * k) bs := by
  induction n with
  | zero =>
    intro k bs m h
    rw [List.eq_nil_of_length_eq_zero (Nat.le_zero.mp h)]
    rfl
  | succ n ih =>
    intro k bs m h
    cases bs with
    | nil => rfl
    | cons b bs =>
      set cs := b :: bs
      have hpieces : emPieces (n + 1) cs = cs.take 65536 :: emPieces n (cs.drop 65536) := rfl
      have hrest : (cs.drop 65536).length ≤ 65536 * n := by rw [List.length_drop]; omega
      rw [hpieces, List.length_cons, List.range'_succ, List.zip_cons_cons, List.foldl_cons, ih _ _ _ hrest]
      conv_rhs => rw [← List.take_append_drop 65536 cs, emPut_append]
      by_cases hlong : 65536 ≤ cs.length
      · rw [List.length_take_of_le hlong, Nat.mul_add_one, Nat.add_assoc]
      · rw [List.drop_eq_nil_of_le (by omega)]
        rfl

theorem emWritten_writesFor (cls a item : Nat) (last : Bool) (bs : List Byte) (m : Tab Byte) :
    emWritten (writesFor cls a item last bs) m = emPut m a bs := by
  have h := foldl_emPieces a (bs.length / 65536 + 1) 0 bs m (by omega)
  rw [emWritten, writesFor, List.foldl_map, List.range_eq_range']
  exact h

/-! ## Words by their bytes (R9) -/

theorem ofNat_bytesNat_wordBytes (w : Word) : BitVec.ofNat 32 (bytesNat (wordBytes w)) = w := by
  apply BitVec.eq_of_toNat_eq
  have hw := w.isLt
  simp only [wordBytes, bytesNat, BitVec.toNat_ofNat, BitVec.toNat_setWidth, BitVec.toNat_ushiftRight,
    Nat.shiftRight_eq_div_pow]
  omega

theorem bytesWords_wordsBytes (ws : List Word) : bytesWords (wordsBytes ws) = ws := by
  induction ws with
  | nil => rfl
  | cons w ws ih =>
    calc bytesWords (wordsBytes (w :: ws)) =
        BitVec.ofNat 32 (bytesNat (wordBytes w)) :: bytesWords (wordsBytes ws) := rfl
      _ = w :: ws := by rw [ofNat_bytesNat_wordBytes, ih]

theorem length_natBytes (n : Nat) : ∀ x : Nat, (natBytes n x).length = n := by
  induction n with
  | zero => exact fun _ => rfl
  | succ n ih => exact fun x => congrArg (· + 1) (ih (x / 256))

theorem bytesNat_natBytes (n : Nat) : ∀ x : Nat, bytesNat (natBytes n x) = x % 256 ^ n := by
  induction n with
  | zero => exact fun x => (Nat.mod_one x).symm
  | succ n ih =>
    intro x
    rw [natBytes, bytesNat, ih, Nat.pow_succ', Nat.mod_mul, BitVec.toNat_ofNat]

/-! ## Header sectors (R285, R294, R295) -/

/-- The words of a header sector: those given, zero up to word 126, and the check over them and `more`. -/
def sectorWords (ws : List Word) (more : List Byte) : List Word :=
  let head := ws ++ List.replicate (127 - ws.length) 0
  head ++ [crc32c (wordsBytes head ++ more)]

theorem headerSector_eq (ws : List Word) (more : List Byte) : headerSector ws more = wordsBytes (sectorWords ws more) := by
  simp [headerSector, sectorWords, wordsBytes]

theorem wordAt_sectorWords {ws : List Word} (more : List Byte) {i : Nat} (hi : i < ws.length) :
    wordAt (sectorWords ws more) i = wordAt ws i := by
  simp only [wordAt, sectorWords, List.append_assoc, List.getD_append _ _ _ _ hi]

section
variable {ws : List Word} (h : ws.length ≤ 127) (more : List Byte)
include h

theorem length_sectorWords : (sectorWords ws more).length = 128 := by
  simp only [sectorWords, List.length_append, List.length_replicate, List.length_singleton]
  omega

theorem length_headerSector : (headerSector ws more).length = 512 := by
  rw [headerSector_eq, length_wordsBytes, length_sectorWords h]

theorem headerOk_sectorWords (hpos : 0 < ws.length) : headerOk (wordAt ws 0) (sectorWords ws more) more = true := by
  have hhead : (ws ++ List.replicate (127 - ws.length) (0 : Word)).length = 127 := by
    rw [List.length_append, List.length_replicate]
    omega
  have hcheck : wordAt (sectorWords ws more) 127 = crc32c (wordsBytes ((sectorWords ws more).take 127) ++ more) := by
    simp only [sectorWords, wordAt, List.take_left' hhead, List.getD_append_right _ _ _ _ hhead.le, hhead, Nat.sub_self,
      List.getD_cons_zero]
  rw [headerOk, wordAt_sectorWords more hpos, hcheck, beq_self_eq_true, beq_self_eq_true]
  rfl

theorem emWords_emPut_headerSector (m : Tab Byte) (a : Nat) :
    emWords (emPut m a (headerSector ws more)) a 128 = sectorWords ws more := by
  rw [emWords, emGet_emPut_same m a (length_headerSector h more), headerSector_eq, bytesWords_wordsBytes]

end

/-! ## The newest commit (R285) -/

/-- The newest commit by which slots hold a valid one. -/
theorem newestCommit_eq (m : Tab Byte) : newestCommit m =
    if commitValid m 0 = true ∧ (commitValid m 1 = true → commitSeq m 1 ≤ commitSeq m 0) then some 0
    else if commitValid m 1 = true then some 1 else none := by
  unfold newestCommit
  generalize commitSeq m 0 = p, commitSeq m 1 = q
  cases commitValid m 0 <;> cases commitValid m 1 <;> by_cases h : q ≤ p <;> simp [h]

theorem newestCommit_lt {m : Tab Byte} {c : Nat} (h : newestCommit m = some c) : c < 2 := by
  rw [newestCommit_eq] at h
  split_ifs at h <;> cases h <;> decide

/-- A valid commit whose sequence no valid commit of the other slot reaches is the newest. -/
theorem newestCommit_of_above {m : Tab Byte} {c : Nat} (hc : c < 2) (hvalid : commitValid m c = true)
    (habove : commitValid m (1 - c) = true → commitSeq m (1 - c) < commitSeq m c) : newestCommit m = some c := by
  rw [newestCommit_eq]
  obtain rfl | rfl : c = 0 ∨ c = 1 := by omega
  · exact if_pos ⟨hvalid, fun h => (habove h).le⟩
  · rw [if_neg fun h => (h.2 hvalid).not_gt (habove h.1), if_pos hvalid]

/-! ## A summary commit (R285) -/

/-- The slot a commit goes to. -/
def commitSlot (m : Tab Byte) : Nat := (newestCommit m).elim 0 fun c => 1 - c

/-- The sequence a commit takes. -/
def commitNext (m : Tab Byte) : Nat := (newestCommit m).elim 1 fun c => commitSeq m c + 1

/-- The summary words of tiles 0 to TILES_HI − 1 as bytes. -/
def sumBytes (s : State) : List Byte :=
  ((List.range (3 * s.ldg.hi)).map (fun i => natBytes 4 (tabGet (fun _ => 0) s.ldg.sums i))).flatten

/-- The bytes that fill the last sector of a commit, and the state that has drawn them. -/
def commitPad (s : State) : List Byte × State := freshBytes ((512 - (sumBytes s).length % 512) % 512) s

/-- The words a commit's header gives. -/
def commitWords (pf : Bool) (s : State) : List Word :=
  [magicCommit, BitVec.ofNat 32 (commitNext s.ldg.store), BitVec.ofNat 32 (s.ldg.hi + pf.toNat * 2 ^ 31),
    BitVec.ofNat 32 (frameNo (commitPad s).2), crc32c (sumBytes s ++ (commitPad s).1)]

@[simp] theorem length_commitWords (pf : Bool) (s : State) : (commitWords pf s).length = 5 := rfl

/-- The store once the commands of a commit have been written. -/
def committedStore (pf : Bool) (s : State) : Tab Byte :=
  let a := emCommitAddr (commitSlot s.ldg.store)
  emPut (emPut (emPut s.ldg.store a (List.replicate 512 0)) (a + 512) (sumBytes s ++ (commitPad s).1)) a
    (headerSector (commitWords pf s) [])

theorem commitPad_ldg (s : State) : (commitPad s).2.ldg = s.ldg := by
  have h := congrArg State.ldg (freshBytes_state ((512 - (sumBytes s).length % 512) % 512) s)
  exact h

/-- The commands of a commit: an invalid header, the summary words, and the header last. -/
def commitCommands (pf : Bool) (s : State) : List EmWrite :=
  let a := emCommitAddr (commitSlot s.ldg.store)
  let cls := if pf then 0 else 1
  let item := (commitPad s).2.ldg.commits + 1
  writesFor cls a item false (List.replicate 512 0)
    ++ writesFor cls (a + 512) item false (sumBytes s ++ (commitPad s).1)
    ++ writesFor cls a item true (headerSector (commitWords pf s) [])

theorem queueWrites_writes (ws : List EmWrite) (s : State) : (queueWrites ws s).ldg.writes = s.ldg.writes ++ ws := rfl

theorem startCommit_writes (pf : Bool) (s : State) :
    (startCommit pf s).ldg.writes = (commitPad s).2.ldg.writes ++ commitCommands pf s := by
  cases hnew : newestCommit s.ldg.store <;>
    simp only [startCommit, queueWrites_writes, commitCommands, commitWords, commitSlot, commitNext, commitPad, sumBytes,
      hnew, Option.elim]

theorem emWritten_startCommit {pf : Bool} {s : State} (hempty : s.ldg.writes = []) :
    emWritten (startCommit pf s).ldg.writes s.ldg.store = committedStore pf s := by
  rw [startCommit_writes, commitPad_ldg, hempty, List.nil_append]
  simp only [commitCommands, emWritten_append, emWritten_writesFor, committedStore]

theorem length_sumBytes (s : State) : (sumBytes s).length = 12 * s.ldg.hi := by
  rw [sumBytes, List.length_flatten, List.map_map]
  simp only [Function.comp_def, length_natBytes, List.map_const', List.length_range, List.sum_replicate, smul_eq_mul]
  omega

/-- Blocks of four bytes, one after the other. -/
theorem flatten_block (f : Nat → List Byte) (hf : ∀ i, (f i).length = 4) {i n : Nat} (hi : i < n) :
    ((((List.range n).map f).flatten).drop (4 * i)).take 4 = f i := by
  obtain ⟨k, rfl⟩ := Nat.exists_eq_add_of_lt hi
  have hbefore : (((List.range i).map f).flatten).length = 4 * i := by
    rw [List.length_flatten, List.map_map]
    simp [Function.comp_def, hf, Nat.mul_comm]
  rw [Nat.add_assoc, List.range_add, List.map_append, List.flatten_append, List.drop_left' hbefore, List.range_succ_eq_map]
  simp only [List.map_cons, List.flatten_cons, Nat.add_zero]
  exact List.take_left' (hf i)

section
variable (pf : Bool) {s : State}

/-- The header of a commit reads back. -/
theorem commitHeader_committedStore :
    commitHeader (committedStore pf s) (commitSlot s.ldg.store) = sectorWords (commitWords pf s) [] :=
  emWords_emPut_headerSector (by simp) [] _ _

theorem commitValid_committedStore : commitValid (committedStore pf s) (commitSlot s.ldg.store) = true := by
  have hmagic : wordAt (commitWords pf s) 0 = magicCommit := rfl
  rw [commitValid, commitHeader_committedStore, ← hmagic]
  exact headerOk_sectorWords (by simp) [] (by simp)

theorem commitSeq_committedStore (hnext : commitNext s.ldg.store < 2 ^ 32) :
    commitSeq (committedStore pf s) (commitSlot s.ldg.store) = commitNext s.ldg.store := by
  rw [commitSeq, commitHeader_committedStore, wordAt_sectorWords [] (by simp)]
  have hword : wordAt (commitWords pf s) 1 = BitVec.ofNat 32 (commitNext s.ldg.store) := rfl
  rw [hword, BitVec.toNat_ofNat, Nat.mod_eq_of_lt hnext]

/-- The header's tile count reads back beside the mark of a power-fail commit. -/
theorem tiles_committedStore (hhi : s.ldg.hi ≤ 65536) :
    bitsOf 16 0 (wordAt (commitHeader (committedStore pf s) (commitSlot s.ldg.store)) 2) = s.ldg.hi := by
  rw [commitHeader_committedStore, wordAt_sectorWords [] (by simp)]
  have hword : wordAt (commitWords pf s) 2 = BitVec.ofNat 32 (s.ldg.hi + pf.toNat * 2 ^ 31) := rfl
  have hmark := pf.toNat_le
  rw [hword, bitsOf, BitVec.toNat_ofNat]
  omega

/-- The summary words of a commit read back. -/
theorem emGet_committedStore {i : Nat} (hi : i < 3 * s.ldg.hi) :
    emGet (committedStore pf s) (emCommitAddr (commitSlot s.ldg.store) + 512 + i * 4) 4 =
      natBytes 4 (tabGet (fun _ => 0) s.ldg.sums i) := by
  have hlen := length_sumBytes s
  have hhead : (headerSector (commitWords pf s) []).length = 512 := length_headerSector (by simp) []
  rw [committedStore, emGet_emPut_apart _ (Or.inr (by omega)),
    emGet_emPut_inside _ _ (by rw [List.length_append]; omega), List.drop_append_of_le_length (by omega),
    List.take_append_of_le_length (by rw [List.length_drop]; omega), Nat.mul_comm i 4]
  rw [sumBytes]
  exact flatten_block _ (fun _ => length_natBytes 4 _) hi

/-- The slots of the commits lie apart: a commit leaves the header of the other slot. -/
theorem commitHeader_committedStore_other (hhi : s.ldg.hi ≤ 65536) {c : Nat} (hne : c ≠ commitSlot s.ldg.store) :
    commitHeader (committedStore pf s) c = commitHeader s.ldg.store c := by
  have hhead : (headerSector (commitWords pf s) []).length = 512 := length_headerSector (by simp) []
  have hdata : (sumBytes s ++ (commitPad s).1).length ≤ 786944 := by
    rw [List.length_append, length_sumBytes, commitPad, freshBytes_length]
    omega
  simp only [commitHeader, emWords, committedStore, emCommitAddr]
  rw [emGet_emPut_apart _ (by omega), emGet_emPut_apart _ (by omega),
    emGet_emPut_apart _ (by rw [List.length_replicate]; omega)]

end

theorem commitSlot_lt (m : Tab Byte) : commitSlot m < 2 := by
  cases hnew : newestCommit m with
  | none => simp [commitSlot, hnew]
  | some c => simp only [commitSlot, hnew, Option.elim]; omega

/-- A commit goes to the slot that does not hold the newest one, so its sequence is above that of the other slot's, where
that one is valid. -/
theorem commitSeq_other_lt {m : Tab Byte} (hvalid : commitValid m (1 - commitSlot m) = true) :
    commitSeq m (1 - commitSlot m) < commitNext m := by
  cases hnew : newestCommit m with
  | none =>
    have hsome : newestCommit m ≠ none := by
      simp only [commitSlot, hnew, Option.elim] at hvalid
      rw [newestCommit_eq, if_pos hvalid]
      split_ifs <;> exact Option.some_ne_none _
    exact absurd hnew hsome
  | some c =>
    have hc := newestCommit_lt hnew
    simp only [commitSlot, commitNext, hnew, Option.elim]
    rw [show 1 - (1 - c) = c by omega]
    exact Nat.lt_succ_self _

/-- Where the sequence and the tiles fit their fields, the newest commit is then the one written. -/
theorem newestCommit_committedStore (pf : Bool) {s : State} (hhi : s.ldg.hi ≤ 65536)
    (hnext : commitNext s.ldg.store < 2 ^ 32) :
    newestCommit (committedStore pf s) = some (commitSlot s.ldg.store) := by
  have hslot := commitSlot_lt s.ldg.store
  have hother : commitHeader (committedStore pf s) (1 - commitSlot s.ldg.store) = _ :=
    commitHeader_committedStore_other pf hhi (by omega)
  refine newestCommit_of_above hslot (commitValid_committedStore pf) fun hvalid => ?_
  rw [commitValid, hother] at hvalid
  rw [commitSeq_committedStore pf hnext, commitSeq, hother]
  exact commitSeq_other_lt hvalid

theorem committedSum_committedStore (pf : Bool) {s : State} (hhi : s.ldg.hi ≤ 65536)
    (hnext : commitNext s.ldg.store < 2 ^ 32) {t k : Nat} (ht : t < s.ldg.hi) (hk : k < 3) (hsum : sumOf s t k < 2 ^ 32) :
    committedSum (committedStore pf s) t k = sumOf s t k := by
  unfold committedSum
  rw [newestCommit_committedStore pf hhi hnext]
  change (if t < bitsOf 16 0 (wordAt (commitHeader (committedStore pf s) (commitSlot s.ldg.store)) 2) then _ else 0) = _
  rw [tiles_committedStore pf hhi, if_pos ht]
  rw [emGet_committedStore pf (by omega), bytesNat_natBytes]
  exact Nat.mod_eq_of_lt hsum

end Sys2Proof.Machine
end

section
open Sys2Proof Sys2Proof.Machine

/-- Settles O50: the commands of a commit write its header and summary words into a slot apart from the newest commit's,
with a sequence above it. -/
theorem summaryCommitReadsBack : Obligations.SummaryCommitReadsBack := by
  unfold Obligations.SummaryCommitReadsBack
  intro s pf hhi hempty hseq hsums m slot
  have hm : m = committedStore pf s := emWritten_startCommit hempty
  have hslot : slot = commitSlot s.ldg.store := by
    cases hnew : newestCommit s.ldg.store <;> simp only [slot, commitSlot, hnew, Option.elim]
  have hnext : commitNext s.ldg.store < 2 ^ 32 := by
    cases hnew : newestCommit s.ldg.store with
    | none => simp [commitNext, hnew]
    | some c => simpa only [commitNext, hnew, Option.elim] using hseq c hnew
  rw [hm, hslot]
  refine ⟨newestCommit_committedStore pf hhi hnext, ?_,
    fun t k ht hk => committedSum_committedStore pf hhi hnext ht hk (hsums _)⟩
  rw [commitSeq_committedStore pf hnext]
  cases hnew : newestCommit s.ldg.store <;> simp only [commitNext, hnew, Option.elim]

end

section
/-!
PROOFS. LEDGER_OP (R277 to R280): what every operation shares, and each operation's own work.
-/
namespace Sys2Proof.Machine

theorem exec_ledgerOpStart (slot : Nat) (s : State) : exec (.ledgerOpStart slot) s = execLedgerOpStart slot s := rfl
theorem exec_ledgerOpStop (slot : Nat) (s : State) : exec (.ledgerOpStop slot) s = execLedgerOpStop slot s := rfl
theorem exec_ledgerOpSave (slot : Nat) (s : State) : exec (.ledgerOpSave slot) s = execLedgerOpSave slot s := rfl
theorem exec_ledgerOpRebase (slot : Nat) (s : State) : exec (.ledgerOpRebase slot) s = execLedgerOpRebase slot s := rfl
theorem exec_ledgerOpReplace (slot : Nat) (s : State) : exec (.ledgerOpReplace slot) s = execLedgerOpReplace slot s := rfl
theorem exec_ledgerOpLoadClasses (slot : Nat) (s : State) :
    exec (.ledgerOpLoadClasses slot) s = execLedgerOpLoadClasses slot s := rfl
theorem exec_ledgerOpFormat (slot : Nat) (s : State) : exec (.ledgerOpFormat slot) s = execLedgerOpFormat slot s := rfl
theorem exec_ledgerOpTest (slot : Nat) (pass : Bool) (s : State) :
    exec (.ledgerOpTest slot pass) s = execLedgerOpTest slot pass s := rfl

/-! ## What every operation shares (R280) -/

/-- The job at `slot` is a LEDGER_OP of operation `op` that may start, with no reserved bit set. -/
structure LedgerJob (s : State) (slot op : Nat) : Prop where
  startable : s.startable slot opLedgerOp = true
  op_eq : bitsOf 7 0 ((s.job slot).w 2) = op
  reserved : bitsOf 31 8 ((s.job slot).w 2) = 0

section
variable {s : State} {slot op : Nat} {tile : Bool} {states : List Nat} {pre : Job → State → Nat}
  {body : Job → State → State} (hjob : LedgerJob s slot op) (htile : tile = true ∨ (s.job slot).context = 0)
  (hpre : pre (s.job slot) s = stOk)
include hjob htile hpre

/-- A job that passes the checks before it ends with LEDGER_STATE, or does its work in a state that accepts it. -/
theorem ledgerOp_of_checked {t : State}
    (ht : (if !states.contains (ldgState s) then fail slot stLedgerState s else body (s.job slot) s) = t)
    (htrip : t.drc.trip = none) : ledgerOp slot op tile states pre body s = .next t.irqSync := by
  obtain ⟨hstart, hop, hreserved⟩ := hjob
  have hformed : ¬ (bitsOf 31 8 ((s.job slot).w 2) ≠ 0 ∨ (!tile && (s.job slot).context != 0) = true) := by
    rintro (h | h)
    · exact h hreserved
    · obtain rfl | hctx := htile
      · exact Bool.false_ne_true h
      · simp [hctx] at h
  refine done_when (by rw [hstart, hop, beq_self_eq_true]; rfl) ?_ htrip
  dsimp only
  rwa [if_neg hformed, if_neg (not_not_intro hpre)]

theorem ledgerOp_of_accepted {t : State} (hst : ldgState s ∈ states) (ht : body (s.job slot) s = t)
    (htrip : t.drc.trip = none) : ledgerOp slot op tile states pre body s = .next t.irqSync :=
  ledgerOp_of_checked hjob htile hpre (by rwa [List.contains_iff_mem.mpr hst]) htrip

theorem ledgerOp_of_refused (hst : ldgState s ∉ states) (htrip : (fail slot stLedgerState s).drc.trip = none) :
    ledgerOp slot op tile states pre body s = .next (fail slot stLedgerState s).irqSync :=
  ledgerOp_of_checked hjob htile hpre (if_pos (by simpa using hst)) htrip

end

/-! ## FORMAT (R277, R293) -/

theorem mem_writesFor {cls a item : Nat} {last : Bool} {bs : List Byte} {w : EmWrite}
    (h : w ∈ writesFor cls a item last bs) : w.cls = cls ∧ w.item = item := by
  obtain ⟨p, _, rfl⟩ := List.mem_map.mp h
  exact ⟨rfl, rfl⟩

/-- What fits one command is written by one. -/
theorem writesFor_of_short (cls a item : Nat) (last : Bool) {bs : List Byte} (hpos : bs ≠ [])
    (hshort : bs.length < 65536) : writesFor cls a item last bs = [⟨cls, a, bs, last, item⟩] := by
  have hone : emPieces (bs.length / 65536 + 1) bs = [bs] := by
    rw [Nat.div_eq_of_lt hshort, emPieces, List.isEmpty_eq_false_iff.mpr hpos, List.take_of_length_le hshort.le]
    rfl
  rw [writesFor, hone]
  simp

/-- The commands of a FORMAT before its label: an invalid sector over each header the store holds. -/
def formatErasures (s : State) : List EmWrite :=
  (([emGenAddr 0, emGenAddr 1, emCommitAddr 0, emCommitAddr 1] ++ (journalScan s.ldg.store).map (fun e => jAddr e.2.1)).map
    (fun a => writesFor 3 a itemFormat false (List.replicate 512 0))).flatten

/-- The command that writes the label. -/
def labelWrite : EmWrite := ⟨3, 0, headerSector [magicLabel, 1] [], true, itemFormat⟩

theorem writesFor_label : writesFor 3 0 itemFormat true (headerSector [magicLabel, 1] []) = [labelWrite] := by
  have hlen : (headerSector [magicLabel, 1] []).length = 512 := length_headerSector (by decide) []
  exact writesFor_of_short _ _ _ _ (List.ne_nil_of_length_pos (by omega)) (by omega)

theorem mem_formatErasures {s : State} {w : EmWrite} (h : w ∈ formatErasures s) : w.cls = 3 ∧ w.item = itemFormat := by
  obtain ⟨l, hl, hw⟩ := List.mem_flatten.mp h
  obtain ⟨a, _, rfl⟩ := List.mem_map.mp hl
  exact mem_writesFor hw

/-- The commands of a FORMAT, the label last (assumption 81). -/
def formatWrites (s : State) : List EmWrite := formatErasures s ++ [labelWrite]

theorem mem_formatWrites {s : State} {w : EmWrite} (h : w ∈ formatWrites s) : w.cls = 3 ∧ w.item = itemFormat := by
  obtain h | h := List.mem_append.mp h
  · exact mem_formatErasures h
  · rw [List.mem_singleton.mp h]
    exact ⟨rfl, rfl⟩

/-- Every generation and commit header is made invalid. -/
theorem erasure_mem_formatWrites (s : State) {a : Nat}
    (ha : a ∈ [emGenAddr 0, emGenAddr 1, emCommitAddr 0, emCommitAddr 1]) :
    (⟨3, a, List.replicate 512 0, false, itemFormat⟩ : EmWrite) ∈ formatWrites s := by
  refine List.mem_append_left _ (List.mem_flatten.mpr ⟨_, List.mem_map_of_mem (List.mem_append_left _ ha), ?_⟩)
  rw [writesFor_of_short _ _ _ _ (List.ne_nil_of_length_pos (by rw [List.length_replicate]; decide))
    (by rw [List.length_replicate]; decide)]
  exact List.mem_singleton_self _

/-- A FORMAT under way: its commands wait, and its job for their end. -/
def formatBegun (slot : Nat) (s : State) : State :=
  { beginJob slot s with ldg := { s.ldg with
    writes := s.ldg.writes ++ formatWrites s, formats := s.ldg.formats ++ [s.jobRef slot] } }

/-! ## Each operation in the states that do not accept it (R276, R280) -/

section
variable {s : State} {slot : Nat} (htrip : (fail slot stLedgerState s).drc.trip = none)
include htrip

theorem exec_ledgerOpStart_of_state (hjob : LedgerJob s slot 0) (hctx : (s.job slot).context = 0)
    (hst : ldgState s = lgRestoring ∨ ldgState s = lgRunning) :
    exec (.ledgerOpStart slot) s = .next (fail slot stLedgerState s).irqSync := by
  rw [exec_ledgerOpStart]
  exact ledgerOp_of_refused hjob (.inr hctx) rfl (by rcases hst with h | h <;> rw [h] <;> decide) htrip

theorem exec_ledgerOpStop_of_state (hjob : LedgerJob s slot 1) (hctx : (s.job slot).context = 0)
    (hst : ldgState s ≠ lgRunning) : exec (.ledgerOpStop slot) s = .next (fail slot stLedgerState s).irqSync := by
  rw [exec_ledgerOpStop]
  exact ledgerOp_of_refused hjob (.inr hctx) rfl (mt List.mem_singleton.mp hst) htrip

theorem exec_ledgerOpSave_of_state (hjob : LedgerJob s slot 2) (hctx : (s.job slot).context = 0)
    (hst : ldgState s ≠ lgRunning) : exec (.ledgerOpSave slot) s = .next (fail slot stLedgerState s).irqSync := by
  rw [exec_ledgerOpSave]
  exact ledgerOp_of_refused hjob (.inr hctx) rfl (mt List.mem_singleton.mp hst) htrip

theorem exec_ledgerOpRebase_of_state (hjob : LedgerJob s slot 3)
    (himage : imagePre (4 * tLamps (actTile s (s.job slot).context)) (s.job slot) s = stOk)
    (hst : ldgState s ≠ lgRunning) : exec (.ledgerOpRebase slot) s = .next (fail slot stLedgerState s).irqSync := by
  rw [exec_ledgerOpRebase]
  exact ledgerOp_of_refused hjob (.inl rfl) himage (mt List.mem_singleton.mp hst) htrip

theorem exec_ledgerOpReplace_of_state (hjob : LedgerJob s slot 4) (hst : ldgState s ≠ lgRunning) :
    exec (.ledgerOpReplace slot) s = .next (fail slot stLedgerState s).irqSync := by
  rw [exec_ledgerOpReplace]
  exact ledgerOp_of_refused hjob (.inl rfl) rfl (mt List.mem_singleton.mp hst) htrip

theorem exec_ledgerOpLoadClasses_of_state (hjob : LedgerJob s slot 5) (hctx : (s.job slot).context = 0)
    (himage : imagePre 131072 (s.job slot) s = stOk) (hst : ldgState s = lgRestoring) :
    exec (.ledgerOpLoadClasses slot) s = .next (fail slot stLedgerState s).irqSync := by
  rw [exec_ledgerOpLoadClasses]
  exact ledgerOp_of_refused hjob (.inr hctx) himage (by rw [hst]; decide) htrip

theorem exec_ledgerOpFormat_of_state (hjob : LedgerJob s slot 6) (hctx : (s.job slot).context = 0)
    (hkey : (s.job slot).w 3 = 0x464D5431) (hst : ldgState s = lgRestoring ∨ ldgState s = lgRunning) :
    exec (.ledgerOpFormat slot) s = .next (fail slot stLedgerState s).irqSync := by
  rw [exec_ledgerOpFormat]
  exact ledgerOp_of_refused hjob (.inr hctx) (if_pos hkey) (by rcases hst with h | h <;> rw [h] <;> decide) htrip

end

/-! ## Each operation in the states that accept it (R277) -/

section
variable {s : State} {slot : Nat}

theorem exec_ledgerOpStart_of_adopt (hjob : LedgerJob s slot 0) (hctx : (s.job slot).context = 0)
    (hst : ldgState s = lgOff ∨ ldgState s = lgStopped) (hrestore : bitAt 0 ((s.job slot).w 3) = false)
    (htrip : (adopt (s.jobRef slot) (beginJob slot s)).drc.trip = none) :
    exec (.ledgerOpStart slot) s = .next (adopt (s.jobRef slot) (beginJob slot s)).irqSync := by
  rw [exec_ledgerOpStart]
  exact ledgerOp_of_accepted hjob (.inr hctx) rfl (by simpa using hst) (if_pos (by rw [hrestore]; rfl)) htrip

/-- A restore under way: the label and each generation are to be read. -/
def restoreAsked (slot : Nat) (s : State) : State :=
  let u := queueWrites [⟨3, 0, [], true, itemRead⟩, ⟨3, emGenAddr 0, [], true, itemRead + 1⟩,
    ⟨3, emGenAddr 1, [], true, itemRead + 2⟩] ((beginJob slot s).wr LDG_STATUS LDG_STATUS.STATE lgRestoring)
  { u with ldg := { u.ldg with restore := some ⟨s.jobRef slot, 0, 2, none, [], 0, 0, 0⟩ } }

theorem exec_ledgerOpStart_of_restore (hjob : LedgerJob s slot 0) (hctx : (s.job slot).context = 0)
    (hst : ldgState s = lgOff ∨ ldgState s = lgStopped) (hrestore : bitAt 0 ((s.job slot).w 3) = true)
    (htrip : (restoreAsked slot s).drc.trip = none) :
    exec (.ledgerOpStart slot) s = .next (restoreAsked slot s).irqSync := by
  rw [exec_ledgerOpStart]
  exact ledgerOp_of_accepted hjob (.inr hctx) rfl (by simpa using hst) (if_neg (by rw [hrestore]; decide)) htrip

/-- A STOP waits for its commit. -/
def stopWaits (slot : Nat) (s : State) : State :=
  let t := beginJob slot s
  { t with ldg := { t.ldg with stops := t.ldg.stops ++ [(s.jobRef slot, 0)] } }

theorem exec_ledgerOpStop_of_running (hjob : LedgerJob s slot 1) (hctx : (s.job slot).context = 0)
    (hst : ldgState s = lgRunning) (htrip : (serveStops (stopWaits slot s)).drc.trip = none) :
    exec (.ledgerOpStop slot) s = .next (serveStops (stopWaits slot s)).irqSync := by
  rw [exec_ledgerOpStop]
  exact ledgerOp_of_accepted hjob (.inr hctx) rfl (List.mem_singleton.mpr hst) rfl htrip

/-- A SAVE waits for an epoch. -/
def saveWaits (slot : Nat) (s : State) : State :=
  let t := beginJob slot s
  { t with ldg := { t.ldg with saves := t.ldg.saves ++ [s.jobRef slot] } }

theorem exec_ledgerOpSave_of_running (hjob : LedgerJob s slot 2) (hctx : (s.job slot).context = 0)
    (hst : ldgState s = lgRunning) (htrip : (saveWaits slot s).drc.trip = none) :
    exec (.ledgerOpSave slot) s = .next (saveWaits slot s).irqSync := by
  rw [exec_ledgerOpSave]
  exact ledgerOp_of_accepted hjob (.inr hctx) rfl (List.mem_singleton.mpr hst) rfl htrip

theorem exec_ledgerOpRebase_of_lit (hjob : LedgerJob s slot 3) (hst : ldgState s = lgRunning)
    (himage : imagePre (4 * tLamps (actTile s (s.job slot).context)) (s.job slot) s = stOk)
    (hfree : opOn s (s.job slot).context = false)
    (htile : tileState s (s.job slot).context ∈ [tsLit, tsAwaited, tsSilent]) {t : State}
    (ht : beginOp ⟨some (s.jobRef slot), 3, (s.job slot).context, .asking, (s.job slot).w 3, ((s.job slot).w 4).toNat,
      bitsOf 0 0 ((s.job slot).w 5), 0, 0, 0, 0, 0, [], false⟩ (beginJob slot s) = t) (htrip : t.drc.trip = none) :
    exec (.ledgerOpRebase slot) s = .next t.irqSync := by
  have hshown : ¬ (!(tileState s (s.job slot).context == tsLit || tileState s (s.job slot).context == tsAwaited
      || tileState s (s.job slot).context == tsSilent)) = true := by
    simpa [or_iff_not_imp_left] using htile
  rw [exec_ledgerOpRebase]
  refine ledgerOp_of_accepted (pre := fun j t => imagePre (4 * tLamps (actTile t j.context)) j t) hjob (.inl rfl) himage
    (List.mem_singleton.mpr hst) ?_ htrip
  dsimp only
  rw [if_neg hshown, if_neg (by rw [hfree]; decide), ht]

theorem exec_ledgerOpReplace_of_replaced (hjob : LedgerJob s slot 4) (hst : ldgState s = lgRunning)
    (htile : tileState s (s.job slot).context = tsReplaced) (hfree : opOn s (s.job slot).context = false) {t : State}
    (ht : beginReplace (some (s.jobRef slot)) (s.job slot).context (beginJob slot s) = t) (htrip : t.drc.trip = none) :
    exec (.ledgerOpReplace slot) s = .next t.irqSync := by
  rw [exec_ledgerOpReplace]
  refine ledgerOp_of_accepted hjob (.inl rfl) rfl (List.mem_singleton.mpr hst) ?_ htrip
  rw [if_neg (by rw [htile]; decide), if_neg (by rw [hfree]; decide), ht]

/-- The class image `bs` taken: into the idle copy while the ledger runs, else into the copy in use. -/
def classesTaken (bs : List Byte) (s : State) : State :=
  let img := tabSetRange (fun _ => 0) [] 0 bs
  if ldgState s = lgRunning then { s with ldg := { s.ldg with idle := img, idleNew := true, loaded := true } }
  else { s with ldg := { s.ldg with classes := img, idleNew := false, loaded := true } }

theorem exec_ledgerOpLoadClasses_of_read {bs : List Byte} {u : State} (hjob : LedgerJob s slot 5)
    (hctx : (s.job slot).context = 0) (hst : ldgState s = lgOff ∨ ldgState s = lgRunning ∨ ldgState s = lgStopped)
    (himage : imagePre 131072 (s.job slot) s = stOk)
    (hread : dramRdFor LDG_FAULT_STATUS ledgerPort s (bufAddr s ((s.job slot).w 3) + ((s.job slot).w 4).toNat) 131072 =
      (bs, false, u)) (htrip : (present slot stOk [64] (classesTaken bs u)).drc.trip = none) :
    exec (.ledgerOpLoadClasses slot) s = .next (present slot stOk [64] (classesTaken bs u)).irqSync := by
  rw [exec_ledgerOpLoadClasses]
  refine ledgerOp_of_accepted hjob (.inr hctx) himage (by simpa using hst) ?_ htrip
  rw [hread]
  exact if_neg Bool.false_ne_true

theorem exec_ledgerOpFormat_of_key (hjob : LedgerJob s slot 6) (hctx : (s.job slot).context = 0)
    (hst : ldgState s = lgOff ∨ ldgState s = lgStopped) (hkey : (s.job slot).w 3 = 0x464D5431)
    (htrip : s.drc.trip = none) : exec (.ledgerOpFormat slot) s = .next (formatBegun slot s).irqSync := by
  rw [exec_ledgerOpFormat]
  refine ledgerOp_of_accepted hjob (.inr hctx) (if_pos hkey) (by simpa using hst) ?_ htrip
  rw [writesFor_label]
  rfl

/-- The ledger's summary store after its test. -/
def summaryTested (s : State) : State :=
  let u := s.wr LDG_STATUS LDG_STATUS.SUM_VALID 0
  { u with ldg := { u.ldg with sums := [], rsd := [], lost := [] } }

theorem exec_ledgerOpTest_of_off {pass : Bool} (hjob : LedgerJob s slot 7) (hctx : (s.job slot).context = 0)
    (hst : ldgState s = lgOff)
    (htrip : (present slot stOk [BitVec.ofNat 32 pass.toNat] (summaryTested s)).drc.trip = none) :
    exec (.ledgerOpTest slot pass) s =
      .next (present slot stOk [BitVec.ofNat 32 pass.toNat] (summaryTested s)).irqSync := by
  rw [exec_ledgerOpTest]
  exact ledgerOp_of_accepted hjob (.inr hctx) rfl (by rw [hst]; decide) (if_neg (not_not_intro hst)) htrip

theorem exec_ledgerOpTest_of_busy {pass : Bool} (hjob : LedgerJob s slot 7) (hctx : (s.job slot).context = 0)
    (hst : ldgState s ∈ [lgRestoring, lgRunning, lgStopped]) (htrip : (fail slot stBusy s).drc.trip = none) :
    exec (.ledgerOpTest slot pass) s = .next (fail slot stBusy s).irqSync := by
  have hon : ldgState s ≠ lgOff := fun hoff => absurd (hoff ▸ hst : lgOff ∈ _) (by decide)
  rw [exec_ledgerOpTest]
  exact ledgerOp_of_accepted hjob (.inr hctx) rfl (List.mem_cons_of_mem _ hst) (if_pos hon) htrip

end

end Sys2Proof.Machine
end

section
open Sys2Proof Sys2Proof.Machine

/-- Settles O48: each operation by its own work in the states that accept it, and by LEDGER_STATE in the others. -/
theorem ledgerJobs : Obligations.LedgerJobs := by
  unfold Obligations.LedgerJobs
  intro s slot hstart j op ref t st leads hreserved
  have hjob {n : Nat} (hop : op = n) : LedgerJob s slot n := ⟨hstart, hop, hreserved⟩
  refine ⟨?start, ?stop, ?save, ?rebase, ?replace, ?classes, ?format, ?test, ?states, ?rebaseState, ?replaceState⟩
  case start =>
    exact fun hop hctx hst => ⟨exec_ledgerOpStart_of_adopt (hjob hop) hctx hst,
      exec_ledgerOpStart_of_restore (hjob hop) hctx hst⟩
  case stop =>
    exact fun hop hctx hst => exec_ledgerOpStop_of_running (hjob hop) hctx hst
  case save =>
    exact fun hop hctx hst => exec_ledgerOpSave_of_running (hjob hop) hctx hst
  case rebase =>
    exact fun hop hst himage hfree htile => exec_ledgerOpRebase_of_lit (hjob hop) hst himage hfree htile rfl
  case replace =>
    exact fun hop hst htile hfree => exec_ledgerOpReplace_of_replaced (hjob hop) hst htile hfree rfl
  case classes =>
    exact fun hop hctx hst himage bs u hread => exec_ledgerOpLoadClasses_of_read (hjob hop) hctx hst himage hread
  case format =>
    intro hop hctx hst hkey htrip
    refine ⟨_, exec_ledgerOpFormat_of_key (hjob hop) hctx hst hkey htrip, ?_, ⟨formatWrites s, ?_,
      fun w => mem_formatWrites, List.getLast?_concat, fun a => erasure_mem_formatWrites s⟩, ?_⟩
    · rw [State.irqSync_ldg]
      rfl
    · rw [State.irqSync_ldg]
      rfl
    · exact congrArg (fun v : State => { v with
        ldg := { v.ldg with writes := s.ldg.writes, formats := s.ldg.formats }
        hq := { v.hq with jobs := s.hq.jobs }
        icu := s.icu }) (State.irqSync_frame (formatBegun slot s))
  case test =>
    exact fun pass hop hctx => ⟨exec_ledgerOpTest_of_off (hjob hop) hctx, exec_ledgerOpTest_of_busy (hjob hop) hctx⟩
  case states =>
    refine fun hctx => ⟨?_, fun hop hst htrip => exec_ledgerOpStart_of_state htrip (hjob hop) hctx hst,
      fun hop himage hst htrip => exec_ledgerOpLoadClasses_of_state htrip (hjob hop) hctx himage hst,
      fun hop hkey hst htrip => exec_ledgerOpFormat_of_state htrip (hjob hop) hctx hkey hst⟩
    rintro (hop | hop) hst htrip
    · rw [if_pos hop]
      exact exec_ledgerOpStop_of_state htrip (hjob hop) hctx hst
    · rw [if_neg (by omega)]
      exact exec_ledgerOpSave_of_state htrip (hjob hop) hctx hst
  case rebaseState => exact fun hop himage hst htrip => exec_ledgerOpRebase_of_state htrip (hjob hop) himage hst
  case replaceState => exact fun hop hst htrip => exec_ledgerOpReplace_of_state htrip (hjob hop) hst

end

section
/-!
PROOFS. The ledger's tile steps (R290, R291, R299, R300), its calibration records (R299, R328), the store's commands (R296),
and what starts commits and epochs and ends a pass (R285, R289, R290).
-/
namespace Sys2Proof.Machine

theorem exec_tileStep (s : State) : exec .tileStep s = execTileStep s := rfl
theorem exec_journalWrite (s : State) : exec .journalWrite s = execJournalWrite s := rfl
theorem exec_calibUp (mac : MacFacts) (arg : Nat) (last : Bool) (bytes : List Byte) (s : State) :
    exec (.calibUp mac arg last bytes) s = execCalibUp mac arg last bytes s := rfl
theorem exec_calibTimeout (s : State) : exec .calibTimeout s = execCalibTimeout s := rfl
theorem exec_calibRecordComplete (s : State) : exec .calibRecordComplete s = execCalibRecordComplete s := rfl
theorem exec_emmcCommand (s : State) : exec .emmcCommand s = execEmmcCommand s := rfl
theorem exec_emmcCommandDone (ok : Bool) (s : State) : exec (.emmcCommandDone ok) s = execEmmcCommandDone ok s := rfl
theorem exec_summaryCommit (s : State) : exec .summaryCommit s = execSummaryCommit s := rfl
theorem exec_epoch (s : State) : exec .epoch s = execEpoch s := rfl
theorem exec_generationDone (s : State) : exec .generationDone s = execGenerationDone s := rfl

/-! ## Tile steps (R290, R291, R299, R300) -/

section
variable {s : State} (hon : s.domOn 32 = true) (hframe : s.ldg.sampled = false) (hstops : s.ldg.stops = [])
include hon hframe hstops

theorem exec_tileStep_of_restore {r : LdgRestore} (hrestore : (classRead s).ldg.restore = some r) (hread : r.newer < 2)
    (htrip : (restoreTile r (classRead s)).drc.trip = none) :
    exec .tileStep s = .next (restoreTile r (classRead s)).irqSync := by
  rw [exec_tileStep, execTileStep]
  refine done_when (by rw [hon, hframe, hstops]; rfl) ?_ htrip
  simp only [hrestore, if_pos hread]

section
variable (hrestore : (classRead s).ldg.restore = none) (hrun : ldgState (classRead s) = lgRunning)
include hrestore hrun

theorem exec_tileStep_of_op {o : LdgOp} {v : State} (hready : readyOp (classRead s) = some o)
    (hv : (if o.kind = 3 then stepRebase o (classRead s) else stepReplaced o (classRead s)) = v)
    (htrip : v.drc.trip = none) : exec .tileStep s = .next v.irqSync := by
  rw [exec_tileStep, execTileStep]
  refine done_when (by rw [hon, hframe, hstops]; rfl) ?_ htrip
  simp only [hrestore, if_neg (not_not_intro hrun), hready, hv]

theorem exec_tileStep_of_pass {p : LdgPass} (hready : readyOp (classRead s) = none)
    (hpass : (classRead s).ldg.pass = some p) (hopen : p.closing = false)
    (htrip : (stepPass p (classRead s)).drc.trip = none) :
    exec .tileStep s = .next (stepPass p (classRead s)).irqSync := by
  rw [exec_tileStep, execTileStep]
  refine done_when (by rw [hon, hframe, hstops]; rfl) ?_ htrip
  simp only [hrestore, if_neg (not_not_intro hrun), hready, hpass, hopen, Bool.false_eq_true, if_false]

end

end

/-- An operation whose journal entry is durable has ended; under AUTO_ACCEPT the serial write of a replacement follows. -/
def journalled (o : LdgOp) (s : State) : State :=
  let t := endOp o stOk o.results s
  if o.kind = 4 ∧ (o.auto = true ∨ t.flag LMP_CTL LMP_CTL.AUTO_ACCEPT = true) then
    { t with lmp := { t.lmp with serials := t.lmp.serials ++ [⟨o.tile, o.lane, o.pos, o.serial⟩] } }
  else t

theorem exec_journalWrite_of_durable {s : State} {o : LdgOp}
    (hdurable : s.ldg.ops.find? (fun x => decide (x.stage = .durable)) = some o)
    (htrip : (journalled o s).drc.trip = none) : exec .journalWrite s = .next (journalled o s).irqSync := by
  rw [exec_journalWrite, execJournalWrite, ← done_next s _ htrip]
  simp only [hdurable, journalled, Bool.or_eq_true]

/-! ## Calibration records (R299, R328) -/

/-- The fragment `bytes` at `arg` of the record asked for is in the staging region. -/
def fragmentTaken (o : LdgOp) (arg : Nat) (last : Bool) (bytes : List Byte) (s : State) : State :=
  let got := if arg = o.got then o.got + bytes.length else o.got
  putOp { o with got := got, stage := if last ∧ arg + bytes.length = got then .complete else .receiving }
    (dramWr ledgerPort s (stageAddr s arg) bytes)

theorem exec_calibUp_of_fragment {s t : State} {mac : MacFacts} {arg : Nat} {last : Bool} {bytes : List Byte} {o : LdgOp}
    (hframe : ∀ f : State → State, rxFrame mac f s = f t) (hrec : receiving t = some o)
    (hlane : mac.lane ∈ endsOf t (ownerOf t o.lane)) (hlen : bytes.length ≤ 8192) (hend : arg + bytes.length ≤ 2 ^ 26)
    (htrip : (fragmentTaken o arg last bytes t).drc.trip = none) :
    exec (.calibUp mac arg last bytes) s = .next (fragmentTaken o arg last bytes t).irqSync := by
  have htaken : ¬ (!(endsOf t (ownerOf t o.lane)).contains mac.lane || decide (8192 < bytes.length)
      || decide (2 ^ 26 < arg + bytes.length)) = true := by
    rw [List.contains_iff_mem.mpr hlane, decide_eq_false hlen.not_gt, decide_eq_false hend.not_gt]
    decide
  rw [exec_calibUp, execCalibUp, hframe, ← done_next s _ htrip]
  simp only [hrec, if_neg htaken, fragmentTaken, Bool.and_eq_true, beq_iff_eq]

theorem exec_calibTimeout_of_receiving {s : State} {o : LdgOp} (hrec : receiving s = some o)
    (htrip : (promoteOps (endOp o stCalibTimeout [] s)).drc.trip = none) :
    exec .calibTimeout s = .next (promoteOps (endOp o stCalibTimeout [] s)).irqSync := by
  rw [exec_calibTimeout, execCalibTimeout, ← done_next s _ htrip]
  simp only [hrec]

/-- A record read as the header `hw` and the lamps `lw`: one that checks waits for its tile step, one that does not ends its
operation. -/
def recordJudged (o : LdgOp) (hw lw : List Word) (bad1 bad2 : Bool) (s : State) : State :=
  if bad1 = false ∧ bad2 = false ∧ calibOk s o hw lw = true then seekSpace (putOp { o with stage := .ready } s)
  else promoteOps (endOp o stCalibBad [] s)

theorem exec_calibRecordComplete_of_read {s t u : State} {o : LdgOp} {hw lw : List Word} {bad1 bad2 : Bool}
    (hdone : s.ldg.ops.find? (fun x => decide (x.stage = .complete)) = some o)
    (hhead : dramRdWords ledgerPort s (stageAddr s 0) 8 = (hw, bad1, t))
    (hlamps : dramRdWords ledgerPort t (stageAddr t 32) (4 * tLamps (actTile t o.tile)) = (lw, bad2, u))
    (htrip : (recordJudged o hw lw bad1 bad2 u).drc.trip = none) :
    exec .calibRecordComplete s = .next (recordJudged o hw lw bad1 bad2 u).irqSync := by
  have hbad : (bad1 || bad2 || !calibOk u o hw lw) = true ↔
      ¬ (bad1 = false ∧ bad2 = false ∧ calibOk u o hw lw = true) := by
    cases bad1 <;> cases bad2 <;> simp
  -- The read gets a name of its own, or the kernel would run it to compare two matches on what it returns.
  obtain ⟨rd, hrd⟩ : ∃ rd, rd = dramRdWords ledgerPort := ⟨_, rfl⟩
  rw [← hrd] at hhead hlamps
  rw [exec_calibRecordComplete, execCalibRecordComplete, ← done_next s _ htrip, ← hrd]
  simp only [hdone, hhead, hlamps, recordJudged, hbad, ite_not]

/-! ## The store's commands (R296) -/

/-- The first waiting command of the lowest class is the next. -/
theorem nextCommand_of_lowest {ws : List EmWrite} {c : Nat} {w : EmWrite} (hc : c < 4) (hlow : ∀ x ∈ ws, c ≤ x.cls)
    (hfirst : ws.find? (fun x => x.cls == c) = some w) : nextCommand ws = some w := by
  have hbelow : ∀ d ∈ List.range c, ws.find? (fun x => x.cls == d) = none := fun d hd =>
    List.find?_eq_none.mpr fun x hx h => (beq_iff_eq.mp h ▸ hlow x hx).not_gt (List.mem_range.mp hd)
  obtain ⟨k, hk⟩ := Nat.exists_eq_add_of_lt hc
  rw [nextCommand, hk, Nat.add_assoc, List.range_add, List.findSome?_append, List.findSome?_eq_none_iff.mpr hbelow,
    List.range_succ_eq_map]
  simp [hfirst]

theorem exec_emmcCommand_of_lowest {s : State} {c : Nat} {w : EmWrite} (htrip : s.drc.trip = none)
    (hidle : s.ldg.cmd = none) (hmode : s.pwr.mode ≠ .porst) (hc : c < 4) (hlow : ∀ x ∈ s.ldg.writes, c ≤ x.cls)
    (hfirst : s.ldg.writes.find? (fun x => x.cls == c) = some w) :
    exec .emmcCommand s = .next ({ s with ldg := { s.ldg with
      cmd := some w, tries := 0, writes := s.ldg.writes.erase w } } : State).irqSync := by
  rw [exec_emmcCommand, execEmmcCommand]
  refine done_when (by rw [hidle, decide_eq_true hmode]; rfl) ?_ htrip
  simp only [nextCommand_of_lowest hc hlow hfirst]

theorem exec_emmcCommandDone_of_cmd {s : State} {w : EmWrite} {ok : Bool} {t : State} (hcmd : s.ldg.cmd = some w)
    (ht : (if ok then emmcOk w s else emmcFails w s) = t) (htrip : (powerFailCommit t).drc.trip = none) :
    exec (.emmcCommandDone ok) s = .next (powerFailCommit t).irqSync := by
  rw [exec_emmcCommandDone, execEmmcCommandDone, ← done_next s _ htrip, ← ht]
  simp only [hcmd]

/-- A power-fail commit waits while a command is in progress. -/
theorem powerFailCommit_of_cmd {s : State} {w : EmWrite} (hcmd : s.ldg.cmd = some w) : powerFailCommit s = s := by
  rw [powerFailCommit, hcmd, Option.isNone_some, Bool.and_false]
  rfl

theorem exec_emmcCommandDone_of_retry {s : State} {w : EmWrite} (hcmd : s.ldg.cmd = some w) (htrip : s.drc.trip = none)
    (htries : s.ldg.tries < 2) : exec (.emmcCommandDone false) s =
      .next ({ s with ldg := { s.ldg with tries := s.ldg.tries + 1 } } : State).irqSync := by
  have hretry : powerFailCommit { s with ldg := { s.ldg with tries := s.ldg.tries + 1 } } = _ :=
    powerFailCommit_of_cmd hcmd
  rw [← hretry]
  exact exec_emmcCommandDone_of_cmd hcmd (if_pos htries) (by rw [hretry]; exact htrip)

/-! ## Commits, epochs and the end of a pass (R285, R289, R290) -/

theorem exec_summaryCommit_of_valid {s : State} (hvalid : sumValid s = true) (hst : ldgState s ≠ lgRestoring)
    (hpf : s.ldg.pfail = false) (hidle : emBusy s (fun c => decide (c ≤ 1)) = false) (hmode : s.pwr.mode ≠ .porst)
    (href : s.pwr.refStopped = false)
    (htrip : (startCommit false (s.wr CLK_STATUS CLK_STATUS.MAIN_LOCK 1)).drc.trip = none) :
    exec .summaryCommit s = .next (startCommit false (s.wr CLK_STATUS CLK_STATUS.MAIN_LOCK 1)).irqSync := by
  rw [exec_summaryCommit, execSummaryCommit]
  exact done_when (by rw [hvalid, bne_iff_ne.mpr hst, hpf, hidle, decide_eq_true hmode, href]; rfl) rfl htrip

section
variable {s : State} (hon : s.domOn 32 = true) (hrun : ldgState s = lgRunning) (hstops : s.ldg.stops = [])
include hon hrun hstops

theorem exec_epoch_of_idle (hpass : s.ldg.pass = none) (htrip : (startPass s).drc.trip = none) :
    exec .epoch s = .next (startPass s).irqSync := by
  rw [exec_epoch, execEpoch]
  exact done_when (by rw [hon, hrun, hstops]; rfl) (if_neg (by rw [hpass]; decide)) htrip

/-- An epoch that waits for the pass in progress. -/
def epochDue (s : State) : State :=
  let t := s.setBit LDG_IRQ_STATUS 5
  { t with ldg := { t.ldg with due := true } }

theorem exec_epoch_of_pass (hpass : s.ldg.pass ≠ none) (htrip : (epochDue s).drc.trip = none) :
    exec .epoch s = .next (epochDue s).irqSync := by
  rw [exec_epoch, execEpoch]
  exact done_when (by rw [hon, hrun, hstops]; rfl) (if_pos (Option.isSome_iff_ne_none.mpr hpass)) htrip

end

/-- The generation of pass `p` shown as the newest, and usable again. -/
def generationShown (p : LdgPass) (s : State) : State :=
  let t := (s.setReg LDG_EPOCH (BitVec.ofNat 32 p.epoch)).setBit LDG_IRQ_STATUS 0
  { t with ldg := { t.ldg with badGen := t.ldg.badGen.filter (fun g => g != p.slot) } }

theorem exec_generationDone_of_closing {s v : State} {p : LdgPass} (hpass : s.ldg.pass = some p)
    (hclosing : p.closing = true) (hidle : emBusy s (fun c => c == 3) = false)
    (hv : seekSpace (endPass (freeEntries (foldS (fun r u => presentRef r stOk [BitVec.ofNat 32 p.epoch] u) p.saves
      (generationShown p s)))) = v) (htrip : v.drc.trip = none) : exec .generationDone s = .next v.irqSync := by
  rw [exec_generationDone, execGenerationDone]
  simp only [hpass]
  exact done_when (by rw [hclosing, hidle]; rfl) hv htrip

end Sys2Proof.Machine
end

section
open Sys2Proof Sys2Proof.Machine

/-- Settles O49: steps by what waits for one, records by their fragments and checks, store commands by their class and
outcome. -/
theorem ledgerStore : Obligations.LedgerStore := by
  unfold Obligations.LedgerStore
  intro s leads
  refine ⟨?steps, ?journal, ?fragment, ?timeout, ?record, ?command, ?ends, ?commit, ?epoch, ?generation⟩
  case steps =>
    rintro hon hframe hstops t rfl
    exact ⟨fun r => exec_tileStep_of_restore hon hframe hstops, fun hrestore hrun =>
      ⟨fun o hready => exec_tileStep_of_op hon hframe hstops hrestore hrun hready rfl,
        fun p => exec_tileStep_of_pass hon hframe hstops hrestore hrun⟩⟩
  case journal => exact fun o => exec_journalWrite_of_durable
  case fragment =>
    rintro arg mac last bytes o t htaken hfcs lane hlive hlock hidle rfl hrec hlane hlen hend got
    exact exec_calibUp_of_fragment (fun f => rxFrame_of_taken f htaken hfcs hlive hlock hidle) hrec hlane hlen hend
  case timeout => exact fun o => exec_calibTimeout_of_receiving
  case record => exact fun o hw lw bad1 bad2 t u => exec_calibRecordComplete_of_read
  case command =>
    exact fun htrip hidle hmode c w _ _ hc hlow hfirst => exec_emmcCommand_of_lowest htrip hidle hmode hc hlow hfirst
  case ends =>
    exact fun w hcmd => ⟨exec_emmcCommandDone_of_cmd hcmd rfl, exec_emmcCommandDone_of_cmd hcmd rfl,
      exec_emmcCommandDone_of_retry hcmd⟩
  case commit => exact exec_summaryCommit_of_valid
  case epoch =>
    exact fun hon hrun hstops => ⟨exec_epoch_of_idle hon hrun hstops, exec_epoch_of_pass hon hrun hstops⟩
  case generation =>
    rintro p hpass hclosing hidle t rfl
    exact exec_generationDone_of_closing hpass hclosing hidle rfl

end

section
/-!
PROOFS. Lanes coming up and going down (R304, R313, R338), discovery (R321, R339, R341, R342), and a lane's self-test and
eye scans (R345): each event by the conditions under which it takes place.
-/
namespace Sys2Proof.Machine

theorem exec_laneEn (n : Nat) (data : Word) (s : State) : exec (.laneEn n data) s = execLaneEn n data s := rfl
theorem exec_rateAlternation (n : Nat) (s : State) : exec (.rateAlternation n) s = execRateAlternation n s := rfl
theorem exec_blockLock (n : Nat) (s : State) : exec (.blockLock n) s = execBlockLock n s := rfl
theorem exec_blockLockLoss (n : Nat) (s : State) : exec (.blockLockLoss n) s = execBlockLockLoss n s := rfl
theorem exec_settlingEnd (n : Nat) (s : State) : exec (.settlingEnd n) s = execSettlingEnd n s := rfl
theorem exec_discover (n : Nat) (data : Word) (s : State) : exec (.discover n data) s = execDiscover n data s := rfl
theorem exec_discoveryWindow (n : Nat) (s : State) : exec (.discoveryWindow n) s = execDiscoveryWindow n s := rfl
theorem exec_discoverReply (mac : MacFacts) (r : ReplyFacts) (s : State) :
    exec (.discoverReply mac r) s = execDiscoverReply mac r s := rfl
theorem exec_laneBistStart (n : Nat) (data : Word) (s : State) :
    exec (.laneBistStart n data) s = execLaneBistStart n data s := rfl
theorem exec_laneBistDone (n : Nat) (pass : Bool) (s : State) :
    exec (.laneBistDone n pass) s = execLaneBistDone n pass s := rfl
theorem exec_eyeScan (n : Nat) (data : Word) (s : State) : exec (.eyeScan n data) s = execEyeScan n data s := rfl
theorem exec_eyeScanDone (n w h : Nat) (s : State) : exec (.eyeScanDone n w h) s = execEyeScanDone n w h s := rfl

section
variable {s v : State} {n : Nat} (hlive : laneLive s n = true) (htrip : v.drc.trip = none)
include hlive htrip

/-! ## EN of a lane (R304, R338) -/

section
variable {data : Word} {t : State} (ht : t = s.hostWrite (PLK_LANE_CFG n) data) (hbist : (laneOf t n).bist = false)
include ht hbist

theorem exec_laneEn_of_enable (hwas : s.flag (PLK_LANE_CFG n) PLK_LANE_CFG.EN = false)
    (hen : t.flag (PLK_LANE_CFG n) PLK_LANE_CFG.EN = true)
    (hv : v = setLaneState n lsDown (setLane n { laneOf t n with rate := 2 } t)) :
    exec (.laneEn n data) s = .next v.irqSync := by
  subst ht
  rw [exec_laneEn, execLaneEn]
  refine done_when hlive ?_ htrip
  simp only [hbist, hwas, hen, hv, Bool.false_eq_true, if_false, Bool.not_false, Bool.and_self, if_true]

theorem exec_laneEn_of_disable (hwas : s.flag (PLK_LANE_CFG n) PLK_LANE_CFG.EN = true)
    (hen : t.flag (PLK_LANE_CFG n) PLK_LANE_CFG.EN = false) (hv : v = laneLeave n lsDisabled t) :
    exec (.laneEn n data) s = .next v.irqSync := by
  subst ht
  rw [exec_laneEn, execLaneEn]
  refine done_when hlive ?_ htrip
  simp only [hbist, hwas, hen, hv, Bool.false_eq_true, if_false, Bool.not_false, Bool.false_and, Bool.and_self, if_true]

/-- A lane without block lock holds no rate that the write could take from it. -/
theorem exec_laneEn_of_same
    (hsame : s.flag (PLK_LANE_CFG n) PLK_LANE_CFG.EN = t.flag (PLK_LANE_CFG n) PLK_LANE_CFG.EN)
    (hdown : laneState t n ≤ lsDown) (hv : v = t) : exec (.laneEn n data) s = .next v.irqSync := by
  have hlock : ¬ lsSettling ≤ laneState t n := Nat.not_le.mpr (Nat.lt_succ_of_le hdown)
  subst ht
  rw [exec_laneEn, execLaneEn]
  refine done_when hlive ?_ htrip
  simp only [hbist, hsame, hv, decide_eq_false hlock, Bool.and_not_self, Bool.false_and, Bool.false_eq_true, if_false]

end

/-! ## Block lock (R304, R313, R338, R377) -/

theorem exec_rateAlternation_of_down (hdown : laneState s n = lsDown)
    (hrate : s.rd (PLK_LANE_CFG n) PLK_LANE_CFG.RATE = 0)
    (hv : v = setLane n { laneOf s n with rate := if (laneOf s n).rate = 2 then 1 else 2 } s) :
    exec (.rateAlternation n) s = .next v.irqSync := by
  rw [exec_rateAlternation, execRateAlternation]
  exact done_when (by rw [hlive, hdown, hrate]; rfl) hv.symm htrip

/-- Lane `l` with block lock at rate `r`: SEQ, credits and deficits start over. -/
def LaneSt.locked (l : LaneSt) (r : Nat) : LaneSt :=
  { l with lock := true, rate := r, seq := 0, credit1 := 0, credit2 := 0, deficit := [0, 0, 0, 0], looped := false }

theorem exec_blockLock_of_down (hdown : laneState s n = lsDown)
    (hv : v = setLaneState n lsSettling ((setLane n ((laneOf s n).locked (laneRate s n)) s).wr (PLK_LANE_STATUS n)
      PLK_LANE_STATUS.SPEED (laneRate s n))) : exec (.blockLock n) s = .next v.irqSync := by
  rw [exec_blockLock, execBlockLock]
  exact done_when (by rw [hlive, hdown]; rfl) hv.symm htrip

theorem exec_blockLockLoss_of_lock (hlock : lsSettling ≤ laneState s n) (hv : v = laneLeave n lsDown s) :
    exec (.blockLockLoss n) s = .next v.irqSync := by
  rw [exec_blockLockLoss, execBlockLockLoss]
  exact done_when (by rw [hlive, decide_eq_true hlock]; rfl) hv.symm htrip

/-! ## Discovery (R321, R338, R339) -/

theorem exec_settlingEnd_of_settling (hst : laneState s n = lsSettling)
    (hv : v = discover n (setLaneState n lsDiscovering s)) : exec (.settlingEnd n) s = .next v.irqSync := by
  rw [exec_settlingEnd, execSettlingEnd]
  exact done_when (by rw [hlive, hst]; rfl) hv.symm htrip

theorem exec_discover_of_set {data : Word} (hset : bitAt 0 data = true) (hst : lsDiscovering ≤ laneState s n)
    (hv : v = discover n s) : exec (.discover n data) s = .next v.irqSync := by
  rw [exec_discover, execDiscover]
  exact done_when (by rw [hlive, hset, decide_eq_true hst]; rfl) hv.symm htrip

/-- The discovery window of the roster of lane `o` closes on the replies `ps`: slots that sent none empty. -/
def windowClosed (o : Nat) (ps : List (Nat × Nat)) (s : State) : State :=
  let t := foldS (fun k u => if ps.any (fun r => r.2 == k % 1024) then u else emptySlot k u) (filledOf s o) s
  setLane o { laneOf t o with replies := none } t

/-- The lanes that reach the roster of lane `o` have no request of software left, and those that discovered are UP. -/
def endsUp (o : Nat) (s : State) : State :=
  foldS (fun m u => comeUp m (u.wr (PLK_LANE_STATUS m) PLK_LANE_STATUS.REDISCOVER 0)) (endsOf s o) s

theorem exec_discoveryWindow_of_open {ps : List (Nat × Nat)} (hopen : (laneOf s (ownerOf s n)).replies = some ps)
    (hv : v = endsUp (ownerOf s n) (windowClosed (ownerOf s n) ps s)) :
    exec (.discoveryWindow n) s = .next v.irqSync := by
  rw [exec_discoveryWindow, execDiscoveryWindow]
  refine done_when hlive ?_ htrip
  simp only [hopen, hv, endsUp, windowClosed]

/-! ## Self-test and eye scans (R345) -/

/-- Lane `n` carries nothing: it is disabled, or the SPLIT of its loop leaves it no position. -/
def carriesNothing (s : State) (n : Nat) : Bool :=
  !s.flag (PLK_LANE_CFG n) PLK_LANE_CFG.EN
    || ((partnerOf s n).isSome && s.rd (PLK_LANE_LOOP n) PLK_LANE_LOOP.SPLIT == 0)
    || (match primaryOf s n with | some p => s.rd (PLK_LANE_LOOP p) PLK_LANE_LOOP.SPLIT == loopLen s p | none => false)

omit hlive htrip in
theorem carriesNothing_iff : carriesNothing s n = true ↔ s.flag (PLK_LANE_CFG n) PLK_LANE_CFG.EN = false
    ∨ ((partnerOf s n).isSome = true ∧ s.rd (PLK_LANE_LOOP n) PLK_LANE_LOOP.SPLIT = 0)
    ∨ ∃ p, primaryOf s n = some p ∧ s.rd (PLK_LANE_LOOP p) PLK_LANE_LOOP.SPLIT = loopLen s p := by
  unfold carriesNothing
  cases primaryOf s n with
  | none => simp
  | some p => simp [or_assoc]

section
variable {data : Word} (hset : bitAt 1 data = true)
include hset

theorem exec_laneBistStart_of_running (hidle : carriesNothing s n = true) (hbist : (laneOf s n).bist = true)
    (hv : v = s) : exec (.laneBistStart n data) s = .next v.irqSync := by
  have hrun : (carriesNothing s n && (laneOf s n).bist) = true := by rw [hidle, hbist]; rfl
  rw [exec_laneBistStart, execLaneBistStart]
  exact done_when (by rw [hlive, hset]; rfl) ((if_pos hrun).trans hv.symm) htrip

theorem exec_laneBistStart_of_idle (hidle : carriesNothing s n = true) (hbist : (laneOf s n).bist = false)
    (hv : v = setLane n { laneOf (laneLeave n lsDisabled s) n with bist := true } (laneLeave n lsDisabled s)) :
    exec (.laneBistStart n data) s = .next v.irqSync := by
  have hrun : ¬ (carriesNothing s n && (laneOf s n).bist) = true := by rw [hidle, hbist]; decide
  rw [exec_laneBistStart, execLaneBistStart]
  exact done_when (by rw [hlive, hset]; rfl) (((if_neg hrun).trans (if_pos hidle)).trans hv.symm) htrip

theorem exec_laneBistStart_of_busy (hbusy : ¬ carriesNothing s n = true)
    (hv : v = s.wr (PLK_LANE_BIST n) PLK_LANE_BIST.RESULT 3) : exec (.laneBistStart n data) s = .next v.irqSync := by
  have hrun : ¬ (carriesNothing s n && (laneOf s n).bist) = true := fun h => hbusy (Bool.and_elim_left h)
  rw [exec_laneBistStart, execLaneBistStart]
  exact done_when (by rw [hlive, hset]; rfl) (((if_neg hrun).trans (if_neg hbusy)).trans hv.symm) htrip

end

/-- The self-test of lane `n` has ended with its result, and is counted. -/
def laneTested (n : Nat) (pass : Bool) (s : State) : State :=
  ((setLane n { laneOf s n with bist := false, rate := 2 } s).wr (PLK_LANE_BIST n) PLK_LANE_BIST.RESULT
    (if pass then 1 else 2)).inc (PLK_LANE_BIST n) PLK_LANE_BIST.RUNS

theorem exec_laneBistDone_of_running {pass : Bool} (hbist : (laneOf s n).bist = true)
    (hv : v = if (laneTested n pass s).flag (PLK_LANE_CFG n) PLK_LANE_CFG.EN
      then setLaneState n lsDown (laneTested n pass s) else laneTested n pass s) :
    exec (.laneBistDone n pass) s = .next v.irqSync := by
  rw [exec_laneBistDone, execLaneBistDone]
  exact done_when (by rw [hlive, hbist]; rfl) hv.symm htrip

theorem exec_eyeScan_of_set {data : Word} (hset : bitAt 2 data = true)
    (hv : v = setLane n { laneOf s n with scan := true } (s.wr (PLK_LANE_EYE n) PLK_LANE_EYE.DONE 0)) :
    exec (.eyeScan n data) s = .next v.irqSync := by
  rw [exec_eyeScan, execEyeScan]
  exact done_when (by rw [hlive, hset]; rfl) hv.symm htrip

theorem exec_eyeScanDone_of_scan {w h : Nat} (hscan : (laneOf s n).scan = true)
    (hv : v = (((setLane n { laneOf s n with scan := false } s).wr (PLK_LANE_EYE n) PLK_LANE_EYE.WIDTH w).wr
      (PLK_LANE_EYE n) PLK_LANE_EYE.HEIGHT h).wr (PLK_LANE_EYE n) PLK_LANE_EYE.DONE 1) :
    exec (.eyeScanDone n w h) s = .next v.irqSync := by
  rw [exec_eyeScanDone, execEyeScanDone]
  exact done_when (by rw [hlive, hscan]; rfl) hv.symm htrip

end

/-! ## A reply within the discovery window (R339, R341) -/

/-- The reply heard on lane `n` from roster place `k` joins the replies `ps` of the window, once. -/
def replyHeard (n k : Nat) (ps : List (Nat × Nat)) (s : State) : State :=
  setLane (ownerOf s n) { laneOf s (ownerOf s n) with
    replies := some (if (n, k % 1024) ∈ ps then ps else ps ++ [(n, k % 1024)]) } s

/-- The roster slot of a receiver that has just replied. -/
def repliedSlot (r : ReplyFacts) : RosterSlot :=
  ⟨r.serial, r.wM1, r.hM1, r.caps, r.leadNs, r.fw, 0, false, 0, 0, 0, none, 0, r.maker, r.calib⟩

theorem exec_discoverReply_of_empty {s t v : State} {mac : MacFacts} {r : ReplyFacts} {ps : List (Nat × Nat)} {k : Nat}
    (hrx : ∀ f, rxFrame mac f s = f t) (hopen : (laneOf t (ownerOf t mac.lane)).replies = some ps)
    (hplace : placeOf t mac.lane r.pos = some k) (hempty : slotAt (replyHeard mac.lane k ps t) k = none)
    (hv : v = laneIrq (ownerOf t mac.lane) 1 (putSlot k (some (repliedSlot r)) (replyHeard mac.lane k ps t)))
    (htrip : v.drc.trip = none) : exec (.discoverReply mac r) s = .next v.irqSync := by
  rw [exec_discoverReply, execDiscoverReply, hrx, ← done_next s v htrip, hv]
  unfold replyHeard at hempty ⊢
  simp only [hopen, hplace, List.contains_iff_mem, hempty]
  rfl

end Sys2Proof.Machine
end

section
open Sys2Proof Sys2Proof.Machine

/-- Settles O51: each event of a lane by the state the lane is in; a reply through what its lane takes, BIST through what
it means that a lane carries nothing. -/
theorem lanesComeUpAndGoDown : Obligations.LanesComeUpAndGoDown := by
  unfold Obligations.LanesComeUpAndGoDown
  intro s n hlive l st leads
  refine ⟨?enable, ?alternate, ?lock, ?loss, ?settled, ?request, ?window, ?reply, ?bist, ?tested, ?eye, ?measured⟩
  case enable =>
    exact fun data t ht hbist => ⟨fun hwas hen htrip => exec_laneEn_of_enable hlive htrip ht hbist hwas hen rfl,
      fun hwas hen htrip => exec_laneEn_of_disable hlive htrip ht hbist hwas hen rfl,
      fun hsame hdown htrip => exec_laneEn_of_same hlive htrip ht hbist hsame hdown rfl⟩
  case alternate => exact fun hdown hrate htrip => exec_rateAlternation_of_down hlive htrip hdown hrate rfl
  case lock => exact fun hdown htrip => exec_blockLock_of_down hlive htrip hdown rfl
  case loss => exact fun hlock htrip => exec_blockLockLoss_of_lock hlive htrip hlock rfl
  case settled => exact fun hst htrip => exec_settlingEnd_of_settling hlive htrip hst rfl
  case request => exact fun data hset hst htrip => exec_discover_of_set hlive htrip hset hst rfl
  case window =>
    rintro ps t u hopen rfl rfl htrip
    exact exec_discoveryWindow_of_open hlive htrip hopen rfl
  case reply =>
    rintro r mac ps k t u htaken hfcs hlock hidle rfl hopen hplace rfl hempty htrip
    exact exec_discoverReply_of_empty (mac := { mac with lane := n })
      (fun f => rxFrame_of_taken f htaken hfcs hlive hlock hidle) hopen hplace hempty rfl htrip
  case bist =>
    refine fun data hset => ?_
    rw [← carriesNothing_iff]
    exact ⟨fun hidle hbist htrip => exec_laneBistStart_of_running hlive htrip hset hidle hbist rfl,
      fun hidle hbist htrip => exec_laneBistStart_of_idle hlive htrip hset hidle hbist rfl,
      fun hbusy htrip => exec_laneBistStart_of_busy hlive htrip hset hbusy rfl⟩
  case tested =>
    rintro pass t hbist rfl htrip
    exact exec_laneBistDone_of_running hlive htrip hbist rfl
  case eye => exact fun data hset htrip => exec_eyeScan_of_set hlive htrip hset rfl
  case measured => exact fun w h hscan htrip => exec_eyeScanDone_of_scan hlive htrip hscan rfl

end

section
/-!
PROOFS. What arrives on a lane (R325, R330, R331, R340, R348), STATUS checks (R340, R343), POP and the SPLIT of a loop
(R341, R344, R354), and the frame clock (R333, R334): each event by the conditions under which it takes place.
-/
namespace Sys2Proof.Machine

theorem exec_status (mac : MacFacts) (x : StatusFacts) (s : State) : exec (.status mac x) s = execStatus mac x s := rfl
theorem exec_alert (mac : MacFacts) (pos code : Nat) (detail : List Word) (s : State) :
    exec (.alert mac pos code detail) s = execAlert mac pos code detail s := rfl
theorem exec_loopFrame (mac : MacFacts) (src : Nat) (s : State) :
    exec (.loopFrame mac src) s = execLoopFrame mac src s := rfl
theorem exec_towpathDrop (n : Nat) (s : State) : exec (.towpathDrop n) s = execTowpathDrop n s := rfl
theorem exec_crcReport (mac : MacFacts) (pos frame : Nat) (es : List (Nat × Nat × Word)) (s : State) :
    exec (.crcReport mac pos frame es) s = execCrcReport mac pos frame es s := rfl
theorem exec_statusCheck (frame : Nat) (s : State) : exec (.statusCheck frame) s = execStatusCheck frame s := rfl
theorem exec_pop (n : Nat) (data : Word) (s : State) : exec (.pop n data) s = execPop n data s := rfl
theorem exec_splitWrite (n : Nat) (data : Word) (s : State) :
    exec (.splitWrite n data) s = execSplitWrite n data s := rfl
theorem exec_rate (data : Word) (s : State) : exec (.rate data) s = execRate data s := rfl
theorem exec_genlockEdge (s : State) : exec .genlockEdge s = execGenlockEdge s := rfl
theorem exec_genlockLoss (s : State) : exec .genlockLoss s = execGenlockLoss s := rfl

/-! ## Frames that a lane takes (R325, R330, R331, R340, R348, R354)

`t` is the state in which the frame is counted, as `rxFrame_of_taken` has it. -/

/-- A STATUS heard on lane `n` is recorded for its frame, once, where its frame is one of the last four. -/
def statusRecorded (n : Nat) (x : StatusFacts) (s : State) : State :=
  if x.frame ∈ s.plk.frames ∧ (x.frame, n, x.pos) ∉ s.plk.status
  then { s with plk := { s.plk with status := s.plk.status ++ [(x.frame, n, x.pos)] } } else s

theorem statusRecorded_eq (n : Nat) (x : StatusFacts) (s : State) : statusRecorded n x s =
    if s.plk.frames.contains x.frame && !s.plk.status.contains (x.frame, n, x.pos)
    then { s with plk := { s.plk with status := s.plk.status ++ [(x.frame, n, x.pos)] } } else s := by
  simp only [statusRecorded, Bool.and_eq_true, Bool.not_eq_true', ← Bool.not_eq_true, List.contains_iff_mem]

theorem statusRecorded_cyc (n : Nat) (x : StatusFacts) (s : State) : (statusRecorded n x s).cyc = s.cyc := by
  unfold statusRecorded
  split <;> rfl

/-- What a roster slot keeps of a STATUS heard at cycle `now`. -/
def RosterSlot.heardStatus (r : RosterSlot) (x : StatusFacts) (now : Nat) : RosterSlot :=
  { r with temp := x.temp % 256, homeB := x.homeB, missed := x.missed % 65536, ctlSeq := x.ctlSeq % 65536,
           result := x.ctlResult % 256, heard := some now }

/-- A STATUS heard on lane `n` is kept with the roster slot at its place, if that is filled. -/
def statusKept (n : Nat) (x : StatusFacts) (s : State) : State :=
  match placeOf s n x.pos with
  | none => s
  | some k => match slotAt s k with
    | none => s
    | some r => putSlot k (some (r.heardStatus x s.cyc)) s

section
variable {s t v : State} {mac : MacFacts} (hrx : ∀ f, rxFrame mac f s = f t) (htrip : v.drc.trip = none)
include hrx htrip

theorem exec_status_of_slot {x : StatusFacts} {u : State} {k : Nat} {r : RosterSlot}
    (hu : u = statusRecorded mac.lane x t) (hplace : placeOf u mac.lane x.pos = some k) (hslot : slotAt u k = some r)
    (hv : v = putSlot k (some (r.heardStatus x t.cyc)) u) : exec (.status mac x) s = .next v.irqSync := by
  have hkept : statusKept mac.lane x u = v := by
    have hcyc : u.cyc = t.cyc := by rw [hu, statusRecorded_cyc]
    simp only [statusKept, hplace, hslot, hcyc, hv]
  rw [exec_status, execStatus, hrx, ← done_next s v htrip, ← hkept, hu, statusRecorded_eq]
  rfl

section
variable {pos code : Nat} {d : List Word} (hcode : code % 256 ≠ 3)
include hcode

theorem exec_alert_of_room (hroom : (laneOf t mac.lane).alerts.length < 16)
    (hv : v = showAlert mac.lane (setLane mac.lane { laneOf t mac.lane with
      alerts := (laneOf t mac.lane).alerts ++ [(pos, code, d)] } t)) :
    exec (.alert mac pos code d) s = .next v.irqSync := by
  rw [exec_alert, execAlert, hrx, ← done_next s v htrip, hv]
  simp only [if_neg (Nat.not_le.mpr hroom), decide_eq_false hcode, Bool.false_and, Bool.false_eq_true, if_false]

theorem exec_alert_of_full (hfull : 16 ≤ (laneOf t mac.lane).alerts.length)
    (hv : v = t.inc (PLK_LANE_ALERT_LOST mac.lane) PLK_LANE_ALERT_LOST.COUNT) :
    exec (.alert mac pos code d) s = .next v.irqSync := by
  rw [exec_alert, execAlert, hrx, ← done_next s v htrip, hv]
  simp only [if_pos hfull, decide_eq_false hcode, Bool.false_and, Bool.false_eq_true, if_false]

end

/-- Lane `n` has heard a forward frame of lane `src` come back. -/
def loopSeen (n src : Nat) (s : State) : State :=
  (s.wr (PLK_LANE_STATUS n) PLK_LANE_STATUS.LOOP_SEEN 1).wr (PLK_LANE_STATUS n) PLK_LANE_STATUS.LOOP_FROM src

theorem exec_loopFrame_of_taken {src : Nat} {u : State} (hu : u = loopSeen mac.lane src t)
    (hv : v = loopCheck mac.lane (setLane mac.lane { laneOf u mac.lane with looped := true } u)) :
    exec (.loopFrame mac src) s = .next v.irqSync := by
  rw [exec_loopFrame, execLoopFrame, hrx, ← done_next s v htrip, hv, hu]
  rfl

theorem exec_crcReport_of_place {pos frame k : Nat} {es : List (Nat × Nat × Word)}
    (hplace : placeOf t mac.lane pos = some k) (hv : v = foldS (farReport k frame) es t) :
    exec (.crcReport mac pos frame es) s = .next v.irqSync := by
  rw [exec_crcReport, execCrcReport, hrx, ← done_next s v htrip, hv]
  simp only [hplace]

end

section
variable {s v : State} (htrip : v.drc.trip = none)
include htrip

/-! ## STATUS checks (R340, R343) -/

theorem exec_statusCheck_of_frame {frame : Nat} (hframe : frame ∈ s.plk.frames)
    (hv : v = foldS (fun n u => if laneLive u n then checkRoster frame n u else u) (List.range 64) s) :
    exec (.statusCheck frame) s = .next v.irqSync := by
  rw [exec_statusCheck, execStatusCheck]
  exact done_when (List.contains_iff_mem.mpr hframe) hv.symm htrip

/-! ## A lane's receive FIFO, its alerts and its loop (R331, R341, R344, R354) -/

section
variable {n : Nat} (hlive : laneLive s n = true)
include hlive

theorem exec_towpathDrop_of_lock (hlock : lsSettling ≤ laneState s n) (hv : v = rxLost n s) :
    exec (.towpathDrop n) s = .next v.irqSync := by
  rw [exec_towpathDrop, execTowpathDrop]
  exact done_when (by rw [hlive, decide_eq_true hlock]; rfl) hv.symm htrip

variable {data : Word}

theorem exec_pop_of_set (hset : bitAt 0 data = true)
    (hv : v = showAlert n (setLane n { laneOf s n with alerts := (laneOf s n).alerts.drop 1 } s)) :
    exec (.pop n data) s = .next v.irqSync := by
  rw [exec_pop, execPop]
  exact done_when (by rw [hlive, hset]; rfl) hv.symm htrip

theorem exec_splitWrite_of_enabled (hen : loopEn s n = true) (hset : bitAt 0 data = true)
    (hv : v = s.wr (PLK_LANE_LOOP n) PLK_LANE_LOOP.SPLIT (fget PLK_LANE_LOOP.SPLIT data)) :
    exec (.splitWrite n data) s = .next v.irqSync := by
  rw [exec_splitWrite, execSplitWrite]
  exact done_when hlive ((if_pos (by rw [hen, hset]; rfl)).trans hv.symm) htrip

section
variable {t : State} (hwrite : loopEn s n = false ∨ bitAt 0 data = false) (ht : t = s.hostWrite (PLK_LANE_LOOP n) data)
include hwrite ht

theorem exec_splitWrite_of_unset (hpartner : partnerOf t n = none) (hv : v = t) :
    exec (.splitWrite n data) s = .next v.irqSync := by
  rw [exec_splitWrite, execSplitWrite]
  subst ht
  refine done_when hlive ((if_neg ?_).trans ?_) htrip
  · rwa [Bool.and_eq_true, not_and_or, Bool.not_eq_true, Bool.not_eq_true]
  · simp only [hpartner, hv]

theorem exec_splitWrite_of_set {q : Nat} (hpartner : partnerOf t n = some q)
    (hv : v = foldS emptySlot (filledOf t q) t) : exec (.splitWrite n data) s = .next v.irqSync := by
  rw [exec_splitWrite, execSplitWrite]
  subst ht
  refine done_when hlive ((if_neg ?_).trans ?_) htrip
  · rwa [Bool.and_eq_true, not_and_or, Bool.not_eq_true, Bool.not_eq_true]
  · simp only [hpartner, hv]

end
end

/-! ## The frame clock (R333, R334) -/

section
variable (hon : s.domOn 1 = true)
include hon

theorem exec_rate_of_refused {data : Word} (hbad : 14 ≤ bitsOf 3 0 data
      ∨ lampsFit s.fuse.variant (s.rd LMP_LAMPS LMP_LAMPS.LAMPS) (bitsOf 3 0 data) = false)
    (hv : v = s.wr PLK_FRAME_STATUS PLK_FRAME_STATUS.RATE_REFUSED 1) : exec (.rate data) s = .next v.irqSync := by
  rw [exec_rate, execRate]
  refine done_when hon ((if_pos ?_).trans hv.symm) htrip
  rwa [Bool.or_eq_true, decide_eq_true_eq, Bool.not_eq_true']

/-- The rate of code `c` waits for a gate, unless it is in force; software's write ends the identify count. -/
def rateAsked (c : Nat) (s : State) : State :=
  { s with pwr := { s.pwr with identCount := false }
           plk := { s.plk with newRate := if c = rateNow s then none else some c } }

theorem exec_rate_of_fits {data : Word} (hcode : bitsOf 3 0 data < 14)
    (hfits : lampsFit s.fuse.variant (s.rd LMP_LAMPS LMP_LAMPS.LAMPS) (bitsOf 3 0 data) = true)
    (hv : v = rateAsked (bitsOf 3 0 data) (s.hostWrite PLK_FRAME_CFG data)) : exec (.rate data) s = .next v.irqSync := by
  rw [exec_rate, execRate]
  refine done_when hon ((if_neg ?_).trans hv.symm) htrip
  rw [hfits, decide_eq_false (Nat.not_le.mpr hcode)]
  decide

theorem exec_genlockEdge_of_enabled (hen : s.flag PLK_FRAME_CFG PLK_FRAME_CFG.GENLOCK_EN = true)
    (hv : v = { s with plk := { s.plk with edge := some (s.cyc + 2) } }) :
    exec .genlockEdge s = .next v.irqSync := by
  rw [exec_genlockEdge, execGenlockEdge]
  exact done_when (by rw [hon, hen]; rfl) hv.symm htrip

theorem exec_genlockLoss_of_locked (hlocked : s.flag PLK_FRAME_STATUS PLK_FRAME_STATUS.LOCKED = true)
    (hv : v = loseLock s) : exec .genlockLoss s = .next v.irqSync := by
  rw [exec_genlockLoss, execGenlockLoss]
  exact done_when (by rw [hon, hlocked]; rfl) hv.symm htrip

end
end

end Sys2Proof.Machine
end

section
open Sys2Proof Sys2Proof.Machine

/-- Settles O52: frames through what their lane takes, a write of a loop by what it sets, a RATE by whether it can be
served. -/
theorem towpathAndFrameClock : Obligations.TowpathAndFrameClock := by
  unfold Obligations.TowpathAndFrameClock
  intro s leads
  refine ⟨?frames, ?check, ?lane, ?rate, ?edge, ?loss⟩
  case frames =>
    intro mac htaken hfcs n hlive hlock hidle t l
    have hrx : ∀ f, rxFrame mac f s = f t := fun f => rxFrame_of_taken f htaken hfcs hlive hlock hidle
    exact ⟨fun x u k r hu hplace hslot htrip => exec_status_of_slot hrx htrip hu hplace hslot rfl,
      fun pos code d hcode => ⟨fun hroom htrip => exec_alert_of_room hrx htrip hcode hroom rfl,
        fun hfull htrip => exec_alert_of_full hrx htrip hcode hfull rfl⟩,
      fun src u hu htrip => exec_loopFrame_of_taken hrx htrip hu rfl,
      fun htrip => exec_towpathDrop_of_lock htrip hlive hlock rfl,
      fun pos frame k es hplace htrip => exec_crcReport_of_place hrx htrip hplace rfl⟩
  case check => exact fun frame hframe htrip => exec_statusCheck_of_frame htrip hframe rfl
  case lane =>
    exact fun n data hlive => ⟨fun hset htrip => exec_pop_of_set htrip hlive hset rfl,
      fun hen hset htrip => exec_splitWrite_of_enabled htrip hlive hen hset rfl,
      fun hwrite t ht => ⟨fun hpartner htrip => exec_splitWrite_of_unset htrip hlive hwrite ht hpartner rfl,
        fun q hpartner htrip => exec_splitWrite_of_set htrip hlive hwrite ht hpartner rfl⟩⟩
  case rate =>
    refine fun data hon => ⟨fun hbad htrip => exec_rate_of_refused htrip hon hbad rfl, ?_⟩
    rintro hcode hfits t rfl htrip
    exact exec_rate_of_fits htrip hon hcode hfits rfl
  case edge => exact fun hon hen htrip => exec_genlockEdge_of_enabled htrip hon hen rfl
  case loss => exact fun hon hlocked htrip => exec_genlockLoss_of_locked htrip hon hlocked rfl

end

section
/-!
PROOFS. Egress of the panel links: PIXEL frames (R316, R317, R342), LINK_SEND (R351 to R353, R375), the refill of a lane's
credits (R377, R378) and the scheduler's choice on the wire (R313, R315, R376, R377).
-/
namespace Sys2Proof.Machine

theorem exec_pixel (key : Nat) (s : State) : exec (.pixel key) s = execPixel key s := rfl
theorem exec_linkSend (slot : Nat) (s : State) : exec (.linkSend slot) s = execLinkSend slot s := rfl
theorem exec_linkSendDone (n : Nat) (s : State) : exec (.linkSendDone n) s = execLinkSendDone n s := rfl
theorem exec_creditRefill (n : Nat) (s : State) : exec (.creditRefill n) s = execCreditRefill n s := rfl
theorem exec_laneEgressSelect (n : Nat) (s : State) : exec (.laneEgressSelect n) s = execLaneEgressSelect n s := rfl

/-! ## The lane table -/

@[simp] theorem laneOf_setLane_same (n : Nat) (l : LaneSt) (s : State) : laneOf (setLane n l s) n = l :=
  tabGet_tabSet_same _ _ _ _

theorem laneOf_setLane_ne {k n : Nat} (l : LaneSt) (s : State) (h : k ≠ n) : laneOf (setLane n l s) k = laneOf s k :=
  tabGet_tabSet_ne _ _ _ h

@[simp] theorem laneOf_irqSync (s : State) (n : Nat) : laneOf s.irqSync n = laneOf s n := by
  unfold laneOf
  rw [State.irqSync_plk]

/-! ## PIXEL (R316, R317, R342) -/

/-- The rows that wait once the next `r` have gone. -/
def PixRows.after (x : PixRows) (r : Nat) : PixRows := { x with start := x.start + r, rows := x.rows.drop r }

/-- The next `r` rows of tile or stranger `key` wait no longer. -/
def pixelsGone (key r : Nat) (s : State) : State :=
  { s with lmp := { s.lmp with pix := tabSet (fun _ => ⟨0, 0, []⟩) s.lmp.pix key ((pixOf s key).after r) } }

/-- The PIXEL frame of the next `r` rows of `key`, for the position `pos` of a tile of height `fh`. -/
def pixelFrame (s : State) (key pos serial fh : Nat) (d12 : Bool) (r : Nat) : LinkFrame :=
  ⟨1, 0, 0x02, if (pixOf s key).start + r = fh then 2 else 0, pos, (pixOf s key).frame, d12.toNat, (pixOf s key).start, r,
    0, serial, drivePayload d12 ((pixOf s key).rows.take r), none, false, 0⟩

theorem exec_pixel_of_target {s v : State} {key place serial fw fh r : Nat} {d12 : Bool}
    (htarget : pixelTarget s key = some (place, serial, fw, fh, d12))
    (hr : r = pixelRows d12 fw (fh - (pixOf s key).start)) (hon : lampsOn s = true) (hpos : 0 < r) (hrows : r ≤ (pixOf s key).rows.length)
    (hup : laneUp s (routeOf s place).1 = true) (hframe : (pixOf s key).frame = frameNo s)
    (hv : v = enqueue (routeOf s place).1 (pixelFrame s key (routeOf s place).2 serial fh d12 r) (pixelsGone key r s))
    (htrip : v.drc.trip = none) : exec (.pixel key) s = .next v.irqSync := by
  have hdue : (lampsOn s && decide (0 < r) && decide (r ≤ (pixOf s key).rows.length) && laneUp s (routeOf s place).1
      && (pixOf s key).frame == frameNo s) = true := by
    rw [hon, decide_eq_true hpos, decide_eq_true hrows, hup, hframe, beq_self_eq_true]
    rfl
  rw [exec_pixel, execPixel]
  simp only [htarget, ← hr]
  exact done_when hdue hv.symm htrip

/-! ## LINK_SEND (R351 to R353, R375) -/

/-- A LINK_SEND at `slot` that has room on its lanes, and whose words, handle and length are legal (R351 to R353). -/
structure LinkSendLegal (s : State) (slot : Nat) : Prop where
  start    : s.startable slot opLinkSend = true
  room     : lkRoom s (s.job slot) = true
  word2    : bitsOf 31 21 ((s.job slot).w 2) = 0
  word5    : bitsOf 31 14 ((s.job slot).w 5) = 0
  aligned  : ((s.job slot).w 4).toNat % 16 = 0
  current  : isCurrent s ((s.job slot).w 3) = true
  inBuffer : ((s.job slot).w 4).toNat + 16 + lkLength (s.job slot) ≤ poolSize (hPool ((s.job slot).w 3))
  length   : lkLength (s.job slot) ≤ 9166
  typ      : lkType (s.job slot) = 0x11 ∨ lkType (s.job slot) = 0x30

namespace LinkSendLegal
variable {s : State} {slot : Nat} (h : LinkSendLegal s slot)
include h

theorem notReserved : ¬ (bitsOf 31 21 ((s.job slot).w 2) ≠ 0 ∨ bitsOf 31 14 ((s.job slot).w 5) ≠ 0
    ∨ ((s.job slot).w 4).toNat % 16 ≠ 0) := by
  rintro (h2 | h5 | h4)
  exacts [h2 h.word2, h5 h.word5, h4 h.aligned]

theorem headInBuffer : ((s.job slot).w 4).toNat + 16 ≤ poolSize (hPool ((s.job slot).w 3)) :=
  le_trans (Nat.le_add_right _ _) h.inBuffer

theorem dataInBuffer : min (lkLength (s.job slot)) (poolSize (hPool ((s.job slot).w 3)) - (((s.job slot).w 4).toNat + 16))
    = lkLength (s.job slot) :=
  min_eq_left (Nat.le_sub_of_add_le' h.inBuffer)

theorem notTooLong : ¬ (9166 < lkLength (s.job slot)
    ∨ poolSize (hPool ((s.job slot).w 3)) < ((s.job slot).w 4).toNat + 16 + lkLength (s.job slot)) :=
  not_or.mpr ⟨h.length.not_gt, h.inBuffer.not_gt⟩

/-- Its type is one that software may send, and neither of those whose contents are checked. -/
theorem typeAllowed : [0x10, 0x11, 0x20, 0x30].contains (lkType (s.job slot)) = true
    ∧ (lkType (s.job slot) == 0x20) = false ∧ (lkType (s.job slot) == 0x10) = false := by
  rcases h.typ with htyp | htyp <;> rw [htyp] <;> decide

end LinkSendLegal

/-- Job `j` may send on its lanes: it names a roster's own lane and a position of it, and each lane it goes out on is UP
(R341, R342, R353). -/
structure LinkSendRoutes (s : State) (j : Job) : Prop where
  own    : primaryOf s j.context = none
  inLoop : (partnerOf s j.context).isSome = true → lkPos j < loopLen s j.context
  up     : ∀ r ∈ lkRoutes s j, (laneOf s r.1).bist = false ∧ laneUp s r.1 = true

namespace LinkSendRoutes
variable {s : State} {j : Job} (h : LinkSendRoutes s j)
include h

theorem notOutside : ((partnerOf s j.context).isSome && decide (loopLen s j.context ≤ lkPos j)) = false :=
  Bool.and_eq_false_imp.mpr fun hloop => decide_eq_false (h.inLoop hloop).not_ge

theorem noBist : (lkRoutes s j).any (fun r => (laneOf s r.1).bist) = false :=
  List.any_eq_false.mpr fun r hr => by rw [(h.up r hr).1]; decide

theorem allUp : (lkRoutes s j).all (fun r => laneUp s r.1) = true :=
  List.all_eq_true.mpr fun r hr => (h.up r hr).2

end LinkSendRoutes

/-- The frame of a LINK_SEND `j` named `r`, from the 16 bytes before its data in the buffer; `both` where two lanes send
it. -/
def linkFrame (j : Job) (r : JobRef) (pre data : List Byte) (both : Bool) : LinkFrame :=
  ⟨lkClass j, j.sq % 4, lkType j, (lkBcast j).toNat + (bitAt 19 (j.w 2)).toNat * 2 + (bitAt 20 (j.w 2)).toNat * 4, 0, 0, 0,
    0, 0, bytesNat (pre.take 4), bytesNat ((pre.drop 4).take 8), data, some r, both, 0⟩

theorem exec_linkSend_of_legal {s t1 t2 v : State} {slot : Nat} {j : Job} {pre data : List Byte} (hj : j = s.job slot)
    (hlegal : LinkSendLegal s slot) (hroutes : LinkSendRoutes t2 j)
    (hpre : dramRdFor (PLK_LANE_FAULT_STATUS j.context) lanePort s (bufAddr s (j.w 3) + (j.w 4).toNat) 16
      = (pre, false, t1))
    (hdata : dramRdFor (PLK_LANE_FAULT_STATUS j.context) lanePort t1 (bufAddr t1 (j.w 3) + (j.w 4).toNat + 16) (lkLength j)
      = (data, false, t2))
    (hv : v = foldS (fun r u => enqueue r.1
      { linkFrame j (s.jobRef slot) pre data (decide ((lkRoutes t2 j).length = 2)) with pos := r.2 } u) (lkRoutes t2 j)
      (beginJob slot t2))
    (htrip : v.drc.trip = none) : exec (.linkSend slot) s = .next v.irqSync := by
  subst hj
  obtain ⟨hlisted, hnot20, hnot10⟩ := hlegal.typeAllowed
  rw [exec_linkSend, execLinkSend]
  refine done_when (by rw [hlegal.start, hlegal.room]; rfl) ?_ htrip
  -- what the reads answer is given: the function is named, so that no check of this proof carries them out
  obtain ⟨readBytes, hreadBytes⟩ : ∃ f, f = dramRdFor := ⟨_, rfl⟩
  rw [← hreadBytes] at hpre hdata ⊢
  simp only [if_neg hlegal.notReserved, hlegal.current, if_pos hlegal.headInBuffer, hpre, hlegal.dataInBuffer, hdata,
    hlisted, hnot20, hnot10, if_neg hlegal.notTooLong, hroutes.own, hroutes.notOutside, hroutes.noBist, hroutes.allUp,
    Option.isSome_none, Bool.not_true, Bool.false_and, Bool.or_self, Bool.false_eq_true, if_false]
  exact hv.symm

theorem exec_linkSendDone_of_wire {s v : State} {n : Nat} {f : LinkFrame} (hwire : (laneOf s n).wire = some f)
    (hv : v = frameLeft n f (setLane n { laneOf s n with wire := none } s)) (htrip : v.drc.trip = none) :
    exec (.linkSendDone n) s = .next v.irqSync := by
  rw [exec_linkSendDone, execLinkSendDone, ← done_next s v htrip, hv]
  simp only [hwire]

/-! ## The refill of credits (R377, R378) -/

/-- What a refill adds for the rate register value `r`: a lane at 10GBASE-R takes two fifths of it. -/
def LaneSt.refillOf (l : LaneSt) (r : Nat) : Nat := if l.rate = 1 then r * 2 / 5 else r

/-- The most credit for the burst register value `b`: a burst is at least as long as any frame. -/
def creditCap (s : State) (n b : Nat) : Nat := max b (9216 + s.rd (PLK_LANE_SHAPE n) PLK_LANE_SHAPE.OVERHEAD) * 256

/-- Lane `n` after a refill. -/
def refilled (s : State) (n : Nat) : LaneSt :=
  let l := laneOf s n
  { l with
    shape := shapeRegs s n
    credit1 := min (l.credit1 + l.refillOf (s.rd (PLK_LANE_PIX_RATE n) PLK_LANE_PIX_RATE.RATE))
      (creditCap s n (s.rd (PLK_LANE_PIX_BURST n) PLK_LANE_PIX_BURST.BURST))
    credit2 := min (l.credit2 + l.refillOf (s.rd (PLK_LANE_CTL_RATE n) PLK_LANE_CTL_RATE.RATE))
      (creditCap s n (s.rd (PLK_LANE_CTL_BURST n) PLK_LANE_CTL_BURST.BURST)) }

theorem exec_creditRefill_of_live {s : State} {n : Nat} (htrip : s.drc.trip = none) (hlive : laneLive s n = true) :
    exec (.creditRefill n) s = .next (setLane n (refilled s n) s).irqSync := by
  rw [exec_creditRefill, execCreditRefill]
  exact done_when hlive rfl htrip

/-- A lane's part of the state and the messages sent are all that a synchronised write of a lane changes. -/
theorem setLane_irqSync_frame (n : Nat) (l : LaneSt) (s : State) : { (setLane n l s).irqSync with
    plk := { (setLane n l s).irqSync.plk with lanes := s.plk.lanes }, icu := s.icu } = s := by
  rw [State.irqSync_plk]
  exact congrArg (fun u : State => { u with plk := s.plk }) (State.irqSync_frame (setLane n l s))

/-! ## The egress scheduler (R313, R315, R376, R377) -/

/-- Where no access of the lane is injected, the words of its FIFOs are read whole. -/
theorem laneFifo_of_idle {s : State} {n : Nat} (words : Nat) (hidle : bitsOf 7 0 (s.raw (PLK_LANE_FAULT_INJECT n)) = 0) :
    s.sramFault (PLK_LANE_FAULT_STATUS n) words = (false, s) := by
  have haddr : PLK_LANE_FAULT_INJECT n = PLK_LANE_FAULT_STATUS n + 12 := by
    rw [PLK_LANE_FAULT_INJECT, PLK_LANE_FAULT_STATUS]
    omega
  rw [State.sramFault, sramCheck_of_idle words _ (haddr ▸ hidle)]

theorem exec_laneEgressSelect_of_selected {s v : State} {n : Nat} {f0 : LinkFrame} {l0 : LaneSt}
    (hlive : laneLive s n = true) (hlock : lsSettling ≤ laneState s n)
    (hfree : ∀ f, (laneOf s n).wire = some f → f.job = none)
    (hidle : bitsOf 7 0 (s.raw (PLK_LANE_FAULT_INJECT n)) = 0)
    (hselect : selectFrame (laneState s n == lsUp) { laneOf s n with wire := none } = some (f0, l0))
    (hv : v = sendFrame n f0 l0.takeRoom s) (htrip : v.drc.trip = none) :
    exec (.laneEgressSelect n) s = .next v.irqSync := by
  rw [exec_laneEgressSelect, execLaneEgressSelect]
  refine done_when ?due ?_ htrip
  case due =>
    rw [hlive, decide_eq_true hlock, Bool.and_self, Bool.true_and]
    cases hwire : (laneOf s n).wire with
    | none => rfl
    | some f => exact Option.isNone_iff_eq_none.mpr (hfree f hwire)
  simp only [hselect, Option.map_some, laneFifo_of_idle _ hidle, hv]

end Sys2Proof.Machine
end

section
open Sys2Proof Sys2Proof.Machine

/-- Settles O53: each event by the conditions under which it takes place, LINK_SEND with what its two reads answer, and the
scheduler's frame with what `sendFrame` leaves. -/
theorem egressQueuesAndSends : Obligations.EgressQueuesAndSends := by
  unfold Obligations.EgressQueuesAndSends
  refine fun s => ⟨?pixel, ?send, ?sent, ?refill, ?select⟩
  case pixel =>
    intro key place serial fw fh d12 htarget x r lane hon hpos hrows hup hframe f pix htrip
    exact exec_pixel_of_target htarget rfl hon hpos hrows hup hframe rfl htrip
  case send =>
    intro slot pre data t1 t2 hstart hroom j ofs len size hword2 hword5 haligned hcurrent hbuffer hlength hpre hdata arg
      htyp hown hloop hup f htrip
    exact exec_linkSend_of_legal rfl ⟨hstart, hroom, hword2, hword5, haligned, hcurrent, hbuffer, hlength, htyp⟩
      ⟨hown, hloop, hup⟩ hpre hdata rfl htrip
  case sent => exact fun n f hwire htrip => exec_linkSendDone_of_wire hwire rfl htrip
  case refill =>
    intro n htrip hlive
    refine ⟨_, exec_creditRefill_of_live htrip hlive, ?_⟩
    rw [laneOf_irqSync, laneOf_setLane_same]
    exact ⟨rfl, rfl, rfl, rfl, fun k hk => by rw [laneOf_irqSync, laneOf_setLane_ne _ _ hk], setLane_irqSync_frame n _ s⟩
  case select =>
    rintro n f0 l0 l hlive hlock hfree hidle hselect rfl f b htrip
    exact exec_laneEgressSelect_of_selected hlive hlock hfree hidle hselect rfl htrip

end

section
/-!
PROOFS. The meter (R363): what the two buckets hold as a packet arrives, and what it leaves in them for each colour.
-/
namespace Sys2Proof.Machine

/-- The committed bucket as a packet arrives: refilled at CIR since the last one, up to CBS. -/
def committedAt (w : List Word) (now : Nat) (x : FlowSt) : Nat :=
  min (x.tc + (now - x.last) * fCir w) (fCbs w * bucketUnit)

/-- The peak bucket as a packet arrives: refilled at PIR since the last one, up to PBS. -/
def peakAt (w : List Word) (now : Nat) (x : FlowSt) : Nat :=
  min (x.tp + (now - x.last) * fPir w) (fPbs w * bucketUnit)

section
variable {w : List Word} {overhead now len : Nat} {x : FlowSt}

theorem meter_of_red (hpeak : peakAt w now x < (len + overhead) * bucketUnit) :
    meter w overhead now len x = (.red, { x with tc := committedAt w now x, tp := peakAt w now x, last := now }) :=
  if_pos hpeak

theorem meter_of_yellow (hpeak : (len + overhead) * bucketUnit ≤ peakAt w now x)
    (hcommitted : committedAt w now x < (len + overhead) * bucketUnit) :
    meter w overhead now len x = (.yellow, { x with
      tc := committedAt w now x, tp := peakAt w now x - (len + overhead) * bucketUnit, last := now }) :=
  (if_neg (Nat.not_lt.mpr hpeak)).trans (if_pos hcommitted)

theorem meter_of_green (hpeak : (len + overhead) * bucketUnit ≤ peakAt w now x)
    (hcommitted : (len + overhead) * bucketUnit ≤ committedAt w now x) :
    meter w overhead now len x = (.green, { x with
      tc := committedAt w now x - (len + overhead) * bucketUnit,
      tp := peakAt w now x - (len + overhead) * bucketUnit, last := now }) :=
  (if_neg (Nat.not_lt.mpr hpeak)).trans (if_neg (Nat.not_lt.mpr hcommitted))

end

end Sys2Proof.Machine
end

section
open Sys2Proof Sys2Proof.Machine

/-- Settles O55: by the two comparisons that choose the colour. -/
theorem meterMarksPackets : Obligations.MeterMarksPackets := by
  unfold Obligations.MeterMarksPackets
  intro w overhead now len x b tc tp r
  have hcbs : tc ≤ fCbs w * 9600000 := Nat.min_le_right _ _
  have hpbs : tp ≤ fPbs w * 9600000 := Nat.min_le_right _ _
  have hred : tp < b → r = (.red, { x with tc := tc, tp := tp, last := now }) := meter_of_red
  have hyellow : b ≤ tp → tc < b → r = (.yellow, { x with tc := tc, tp := tp - b, last := now }) := meter_of_yellow
  have hgreen : b ≤ tp → b ≤ tc → r = (.green, { x with tc := tc - b, tp := tp - b, last := now }) := meter_of_green
  clear_value r tc tp b
  rcases Nat.lt_or_ge tp b with hpeak | hpeak
  · simp [hred hpeak, hpeak, hcbs, hpbs]
  rcases Nat.lt_or_ge tc b with hcommitted | hcommitted
  · simp [hyellow hpeak hcommitted, hpeak, hcommitted, hcbs, Nat.le_add_right_of_le hpbs]
  · simp [hgreen hpeak hcommitted, hpeak, hcommitted, Nat.le_add_right_of_le hcbs, Nat.le_add_right_of_le hpbs]

end

section
/-!
PROOFS. What memory, the buffer pools and the completion rings leave of the ingress ports' own state: all of it.
-/
namespace Sys2Proof.Machine

/-- What every step of a fold keeps of its accumulator, the fold keeps. -/
theorem foldl_keeps {α β γ : Type} (g : γ → β) {f : γ → α → γ} (h : ∀ c x, g (f c x) = g c) (xs : List α) :
    ∀ c : γ, g (xs.foldl f c) = g c := by
  induction xs with
  | nil => intro c; rfl
  | cons x xs ih => intro c; exact (ih (f c x)).trans (h c x)

/-! ## Faults and checks of words (R471, R473, R541) -/

@[simp] theorem setFault_igr (s : State) (fs b : Nat) : (s.setFault fs b).igr = s.igr := by
  have h := congrArg State.igr (setFault_frame s fs b)
  exact h

@[simp] theorem incSat_igr (s : State) (a : Nat) (f : Fld) : (s.incSat a f).igr = s.igr := by
  have h := congrArg State.igr (incSat_frame s a f)
  exact h

@[simp] theorem takeInjection_igr (s : State) (fs : Nat) (sites : List Nat) :
    (s.takeInjection fs sites).2.igr = s.igr := by
  unfold State.takeInjection
  dsimp only
  split <;> rfl

@[simp] theorem takeInjections_igr (s : State) (fs : Nat) (sites : List Nat) (n : Nat) :
    (s.takeInjections fs sites n).2.igr = s.igr := by
  unfold State.takeInjections
  dsimp only
  split <;> rfl

@[simp] theorem fabricCheck_igr (s : State) (fs n : Nat) : (s.fabricCheck fs n).2.igr = s.igr := by
  have h := takeInjections_igr s fs [0, 2] n
  unfold State.fabricCheck
  split <;> next e => rw [e] at h; simpa using h

@[simp] theorem sramCheck_igr (s : State) (fs n : Nat) (sites : List Nat) :
    (s.sramCheck fs n sites).2.igr = s.igr := by
  have h := takeInjections_igr s fs sites n
  unfold State.sramCheck
  split <;> next e => rw [e] at h; simpa using h

/-! ## Memory (R421 to R439) -/

@[simp] theorem trip_igr (s : State) (t : Trip) : (s.trip t).igr = s.igr := by
  unfold State.trip
  split <;> rfl

@[simp] theorem unmapped_igr (s : State) (a : Nat) : (unmapped s a).igr = s.igr := rfl

@[simp] theorem correctedWord_igr (s : State) (c : Nat) : (correctedWord s c).igr = s.igr := by
  unfold correctedWord
  dsimp only
  split <;> simp

@[simp] theorem noteBurst_igr (cmd port burst : Nat) (s : State) : (noteBurst cmd port burst s).igr = s.igr := rfl

@[simp] theorem noteAccess_igr (r : DramReq) (s : State) : (noteAccess r s).igr = s.igr := by
  unfold noteAccess
  dsimp only
  split <;> rfl

@[simp] theorem checkWords_igr (s : State) (c p n : Nat) : (checkWords s c p n).2.igr = s.igr := by
  refine foldl_keeps (fun a : Option Nat × State => a.2.igr) (fun a i => ?_) _ (none, s)
  dsimp only
  split <;> simp

@[simp] theorem checkParts_igr (c : Nat) (parts : List Nat) (s : State) : (checkParts c parts s).2.igr = s.igr := by
  unfold checkParts
  refine foldl_keeps (fun a : Option Nat × State => a.2.igr) (fun a k => ?_) parts (none, s)
  exact checkWords_igr a.2 c (4 * k) 4

@[simp] theorem serveRead_igr (r : DramReq) (s : State) : (serveRead r s).2.2.igr = s.igr := by
  unfold serveRead
  dsimp only
  split <;> simp

@[simp] theorem serveWrite_igr (released : Bool) (r : DramReq) (s : State) : (serveWrite released r s).2.igr = s.igr := by
  unfold serveWrite
  dsimp only
  split
  · simp
  · split_ifs <;> simp

@[simp] theorem takeBack_igr (r : DramReq) (s : State) : (takeBack r s).2.igr = s.igr := by
  unfold takeBack
  split <;> rfl

@[simp] theorem requestCheck_igr (back : Option Nat) (c n : Nat) (s : State) :
    (requestCheck back c n s).2.igr = s.igr := by
  unfold requestCheck issueCheck
  split <;> simp

@[simp] theorem deadRead_igr (s : State) (a n : Nat) : (deadRead s a n).2.2.igr = s.igr := by
  have h := congrArg State.igr (freshBytes_state n (unmapped s a))
  exact h

@[simp] theorem dramRdBurst_igr (port : Nat) (s : State) (a n : Nat) : (dramRdBurst port s a n).2.2.igr = s.igr := by
  unfold dramRdBurst
  split
  · exact deadRead_igr s a n
  · dsimp only
    repeat' split
    all_goals simp

@[simp] theorem dramWrBurst_igr (port : Nat) (s : State) (a : Nat) (bs : List Byte) :
    (dramWrBurst port s a bs).igr = s.igr := by
  unfold dramWrBurst
  split
  · rfl
  · dsimp only
    repeat' split
    all_goals simp

@[simp] theorem dramRd_igr (port : Nat) (s : State) (a n : Nat) : (dramRd port s a n).2.2.igr = s.igr := by
  unfold dramRd
  refine foldl_keeps (fun r : List Byte × Bool × State => r.2.2.igr) (fun r b => ?_) _ ([], false, s)
  have h := dramRdBurst_igr port r.2.2 b.1 b.2
  generalize dramRdBurst port r.2.2 b.1 b.2 = q at h ⊢
  exact h

@[simp] theorem dramWr_igr (port : Nat) (s : State) (a : Nat) (bs : List Byte) : (dramWr port s a bs).igr = s.igr :=
  foldl_keeps State.igr (fun _ _ => dramWrBurst_igr _ _ _ _) _ s

@[simp] theorem dramRdFor_igr (fs port : Nat) (s : State) (a n : Nat) : (dramRdFor fs port s a n).2.2.igr = s.igr := by
  have h := dramRd_igr port s a n
  unfold dramRdFor
  generalize dramRd port s a n = r at h ⊢
  obtain ⟨bs, bad, t⟩ := r
  dsimp only
  exact (fabricCheck_igr t fs _).trans h

@[simp] theorem dramRdWords_igr (port : Nat) (s : State) (a n : Nat) : (dramRdWords port s a n).2.2.igr = s.igr := by
  have h := dramRd_igr port s a (4 * n)
  unfold dramRdWords
  generalize dramRd port s a (4 * n) = r at h ⊢
  exact h

/-! ## Buffer pools (R387, R394, R398, R414) -/

@[simp] theorem setCache_igr (s : State) (p : Nat) (c : List Nat) : (setCache s p c).igr = s.igr := rfl
@[simp] theorem setRing_igr (s : State) (p head len : Nat) : (setRing s p head len).igr = s.igr := rfl
@[simp] theorem bstPut_igr (s : State) (e : Nat) (w : Word) : (bstPut s e w).igr = s.igr := rfl
@[simp] theorem withdrawLost_igr (s : State) (e : Nat) : (withdrawLost s e).igr = s.igr := rfl

@[simp] theorem poolFreeChanged_igr (s : State) (p : Nat) : (poolFreeChanged s p).igr = s.igr := by
  unfold poolFreeChanged poolLow
  dsimp only
  split <;> rfl

@[simp] theorem misuse_igr (s : State) (req op code : Nat) (h : Word) : (misuse s req op code h).igr = s.igr := by
  simp [misuse, apply_ite State.igr]

@[simp] theorem withdraw_igr (s : State) (p e : Nat) : (withdraw s p e).igr = s.igr := by
  unfold withdraw
  dsimp only
  rw [poolFreeChanged_igr]
  split <;> exact setFault_igr _ _ _

@[simp] theorem entryCheck_igr (s : State) (p e : Nat) : (entryCheck s p e).2.igr = s.igr := by
  have h := sramCheck_igr s BPM_FAULT_STATUS 1 [0, 1, 3]
  unfold entryCheck
  split <;> next e => rw [e] at h; simpa using h

@[simp] theorem cacheCheck_igr (s : State) (p e : Nat) : (cacheCheck s p e).2.igr = s.igr := by
  have h := sramCheck_igr s BPM_FAULT_STATUS 1 [0, 1]
  unfold cacheCheck
  split <;> next e => rw [e] at h; simpa using h

@[simp] theorem ringCheck_igr (s : State) (p : Nat) (single bad : Bool) : (ringCheck s p single bad).2.igr = s.igr := by
  unfold ringCheck
  dsimp only
  split_ifs <;> simp

@[simp] theorem dramWrWords_igr (port : Nat) (s : State) (a : Nat) (ws : List Word) :
    (dramWrWords port s a ws).igr = s.igr := dramWr_igr port s a (wordsBytes ws)

/- The read, the check and the write of a ring's words stand for any function that keeps the ingress state: written out,
the DRAM access would be unrolled burst by burst. -/

@[simp] theorem ringRead_igr (p n : Nat) : ∀ s : State, (ringRead p n s).2.igr = s.igr := by
  obtain ⟨read, hread⟩ : ∃ f, f = dramRdWords := ⟨_, rfl⟩
  obtain ⟨check, hcheck⟩ : ∃ f, f = ringCheck := ⟨_, rfl⟩
  have hr : ∀ port s a n, (read port s a n).2.2.igr = s.igr := hread ▸ dramRdWords_igr
  have hc : ∀ s p a b, (check s p a b).2.igr = s.igr := hcheck ▸ ringCheck_igr
  delta ringRead ringRead._f
  rw [← hread, ← hcheck]
  induction n with
  | zero => exact fun s => rfl
  | succ n ih =>
    intro s
    change (ite (poolRingLen s p = 0) _ _ : List Nat × State).2.igr = s.igr
    split
    · rfl
    · refine (ih _).trans ?_
      split <;> exact (hc _ _ _ _).trans (hr _ _ _ _)

@[simp] theorem ringAppend_igr (p : Nat) (xs : List Nat) : ∀ s : State, (ringAppend p xs s).igr = s.igr := by
  obtain ⟨write, hwrite⟩ : ∃ f, f = dramWrWords := ⟨_, rfl⟩
  have hkeep : ∀ port s a ws, (write port s a ws).igr = s.igr := hwrite ▸ dramWrWords_igr
  delta ringAppend ringAppend._f
  rw [← hwrite]
  induction xs with
  | nil => exact fun s => rfl
  | cons x xs ih => exact fun s => (ih _).trans (hkeep _ _ _ _)

@[simp] theorem refill_igr (s : State) (p : Nat) : (refill s p).igr = s.igr := by
  have h := ringRead_igr p 16 s
  unfold refill
  generalize ringRead p 16 s = r at h ⊢
  simp only [apply_ite State.igr, setCache_igr, poolFreeChanged_igr, h, ite_self]

@[simp] theorem refillMore_igr (p n : Nat) : ∀ s : State, (refillMore p n s).igr = s.igr := by
  induction n with
  | zero => exact fun s => rfl
  | succ n ih =>
    intro s
    rw [refillMore]
    split
    · rw [ih, refill_igr]
    · rfl

@[simp] theorem ensureCache_igr (s : State) (p : Nat) : (ensureCache s p).igr = s.igr := refillMore_igr p _ s

@[simp] theorem takeHandle_igr (s : State) (p req : Nat) (share : Bool) : (takeHandle s p req share).2.igr = s.igr := by
  simp only [takeHandle]
  split
  · rfl
  · split
    · simp
    · split <;> split <;> simp

@[simp] theorem allocAt_igr (s : State) (req p : Nat) (spill share rr : Bool) :
    (allocAt s req p spill share rr).2.2.igr = s.igr := by
  have hnote : (if rr then noteGrant s p req else s).igr = s.igr := by split <;> rfl
  unfold allocAt
  extract_lets s0
  have htake := takeHandle_igr s0 p req share
  split
  · next h => rw [h] at htake; exact htake.trans hnote
  · next s1 h =>
    rw [h] at htake
    extract_lets s2
    split
    · next q hq =>
      have hspill := takeHandle_igr s2 q req share
      split <;> next h => rw [h] at hspill; exact hspill.trans (htake.trans hnote)
    · exact htake.trans hnote

@[simp] theorem giveBack_igr (s : State) (p i : Nat) : (giveBack s p i).igr = s.igr := by
  simp only [giveBack, poolFreeChanged_igr, State.wr_igr, setCache_igr]
  split <;> simp [writeBack]

@[simp] theorem bpmRetain_igr (s : State) (req : Nat) (h : Word) : (bpmRetain s req h).2.igr = s.igr := by
  simp only [bpmRetain]
  split
  · simp
  · split
    · simp
    · split
      · split_ifs <;> simp
      · simp

@[simp] theorem bpmRelease_igr (s : State) (req : Nat) (h : Word) : (bpmRelease s req h).2.igr = s.igr := by
  simp only [bpmRelease]
  split
  · simp
  · split
    · simp
    · split
      · split_ifs <;> simp
      · simp
      · simp

@[simp] theorem releaseS_igr (req : Nat) (h : Word) (s : State) : (releaseS req h s).igr = s.igr := by
  unfold releaseS
  split
  · rfl
  · exact bpmRelease_igr s req h

@[simp] theorem releaseNZ_igr (req : Nat) (h : Word) (s : State) : (releaseNZ req h s).igr = s.igr := by
  unfold releaseNZ
  split
  · rfl
  · exact releaseS_igr req h s

/-! ## Completion rings (R47 to R49, R63) -/

@[simp] theorem writeEntry_igr (k : Nat) (ws : List Word) (s : State) : (writeEntry k ws s).igr = s.igr := by
  simp [writeEntry, apply_ite State.igr]

@[simp] theorem countEntry_igr (k : Nat) (s : State) : (countEntry k s).igr = s.igr := by
  unfold countEntry
  dsimp only
  split <;> rfl

@[simp] theorem portVisit_igr (p : Nat) (s : State) : (portVisit p s).igr = s.igr := rfl

end Sys2Proof.Machine
end

section
/-!
PROOFS. Ingress: a packet leaves the pending part of a flow write alone (R362), and each event by the conditions under
which it takes place: a frame (R356, R357), a reorder timeout (R365), a flow entry written or read (R361, R362, R380),
the link (R356, R380).
-/
namespace Sys2Proof.Machine

/-! ## A packet leaves the pending part of a flow write -/

@[simp] theorem setFlow_late (k : Nat) (x : FlowSt) (s : State) : (setFlow k x s).igr.late = s.igr.late := rfl
@[simp] theorem countFlow_late (k c n : Nat) (s : State) : (countFlow k c n s).igr.late = s.igr.late := rfl
@[simp] theorem igrIrq_late (p b : Nat) (s : State) : (igrIrq p b s).igr.late = s.igr.late := rfl
@[simp] theorem unitDrop_late (k : Nat) (s : State) : (unitDrop k s).igr.late = s.igr.late := rfl
@[simp] theorem passNumber_late (k n : Nat) (s : State) : (passNumber k n s).igr.late = s.igr.late := rfl
@[simp] theorem loseNumber_late (k n : Nat) (s : State) : (loseNumber k n s).igr.late = s.igr.late := rfl
@[simp] theorem firstPacket_late (k : Nat) (reset : Bool) (f : RtpPacket) (s : State) :
    (firstPacket k reset f s).igr.late = s.igr.late := rfl

@[simp] theorem noteArrival_late (k arr : Nat) (s : State) : (noteArrival k arr s).igr.late = s.igr.late := by
  unfold noteArrival
  dsimp only
  split
  · rfl
  · split <;> rfl

@[simp] theorem latchKey_igr (k : Nat) (s : State) : (latchKey k s).2.igr = s.igr := by
  simp only [latchKey]
  split <;> split <;> simp

@[simp] theorem handUnit_late (k : Nat) (eop : Bool) (u : ReadyUnit) (s : State) :
    (handUnit k eop u s).igr.late = s.igr.late := by
  unfold handUnit
  split
  · rfl
  · next a ha =>
    split
    · rfl
    · have hret := congrArg IgrSt.late (bpmRetain_igr s (igrReq (fPort (flowWords s k))) a.handle)
      extract_lets w req
      generalize bpmRetain s req a.handle = r at hret ⊢
      obtain ⟨st, t⟩ := r
      dsimp only
      split
      · exact hret
      · split
        · split <;> simpa using hret
        · split
          · simpa using hret
          · split <;> simpa using hret

@[simp] theorem writeBytes_late (k : Nat) (bs : List Byte) (a : AccessUnit) (s : State) :
    (writeBytes k bs a s).igr.late = s.igr.late := by
  simp only [writeBytes, setFlow_late, dramWr_igr]

theorem putBytes_late {f : AccessUnit → State → State} (h : ∀ a t, (f a t).igr.late = t.igr.late) (k n : Nat)
    (s : State) : (putBytes k n f s).igr.late = s.igr.late := by
  unfold putBytes
  split
  · rfl
  · split
    · rfl
    · split
      · rfl
      · exact h _ s

@[simp] theorem putUnit_late (k arr : Nat) (u : NetUnit) (s : State) : (putUnit k arr u s).igr.late = s.igr.late := by
  refine putBytes_late (fun a t => ?_) k _ s
  dsimp only
  split
  · exact writeBytes_late _ _ _ _
  · split <;> simp

@[simp] theorem putStream_late (k : Nat) (bs : List Byte) (s : State) : (putStream k bs s).igr.late = s.igr.late := by
  unfold putStream
  dsimp only
  split
  · exact putBytes_late (writeBytes_late k bs) k _ s
  · exact putBytes_late (fun _ _ => setFlow_late _ _ _) k _ s

@[simp] theorem flushStream_late (k : Nat) (s : State) : (flushStream k s).igr.late = s.igr.late := by
  unfold flushStream
  split
  · rfl
  · split
    · exact putBytes_late (fun a t => writeBytes_late k _ a t) k _ s
    · rfl

@[simp] theorem handReady_late (k : Nat) (s : State) : (handReady k s).igr.late = s.igr.late := by
  have hunits : ∀ us, (foldS (handUnit k false) us s).igr.late = s.igr.late := fun us =>
    foldS_keeps (fun t => t.igr.late) (handUnit_late k false) us s
  unfold handReady
  split
  · rfl
  · dsimp only
    split <;> exact hunits _

@[simp] theorem endAccess_late (k : Nat) (s : State) : (endAccess k s).igr.late = s.igr.late := by
  have hunits : ∀ us t, (foldS (handUnit k false) us t).igr.late = t.igr.late :=
    foldS_keeps (fun t => t.igr.late) (handUnit_late k false)
  unfold endAccess
  dsimp only
  split
  · exact flushStream_late k s
  · rw [releaseNZ_igr, setFlow_late]
    split <;> simp [hunits]

@[simp] theorem startAccess_late (k stamp time arr : Nat) (gap : Bool) (s : State) :
    (startAccess k stamp time arr gap s).igr.late = s.igr.late := by
  have halloc := allocAt_igr s (igrReq (fPort (flowWords s k))) (fPool (flowWords s k))
    (bitAt 23 (wordAt (flowWords s k) 0)) true true
  unfold startAccess
  extract_lets w p
  generalize allocAt s (igrReq p) (fPool w) (bitAt 23 (wordAt w 0)) true true = r at halloc ⊢
  obtain ⟨st, h, t⟩ := r
  dsimp only
  have hkey : (if fCrypt w = 0 then (some [], t) else latchKey (fKeySlot w) t).2.igr.late = s.igr.late := by
    split <;> simpa using congrArg IgrSt.late halloc
  generalize (if fCrypt w = 0 then (some [], t) else latchKey (fKeySlot w) t) = q at hkey ⊢
  obtain ⟨key, u⟩ := q
  have hirq : (if key.isNone then igrIrq p 6 u else u).igr.late = s.igr.late := by split <;> exact hkey
  dsimp only
  split
  · exact hirq
  · rw [unitDrop_late, setFlow_late]
    split
    · exact (congrArg IgrSt.late (releaseS_igr _ _ _)).trans hirq
    · exact hirq

@[simp] theorem takePayload_late (k arr : Nat) (p : List Byte) (s : State) :
    (takePayload k arr p s).igr.late = s.igr.late :=
  foldS_keeps (fun t => t.igr.late) (putUnit_late k arr) _ _

@[simp] theorem takeTs_late (k time arr : Nat) (gap : Bool) (p : List Byte) (s : State) :
    (takeTs k time arr gap p s).igr.late = s.igr.late := by
  unfold takeTs
  extract_lets x
  split
  next part place _ =>
  extract_lets s1 s2
  have h2 : s2.igr.late = s.igr.late := by
    unfold s2
    split
    · cases part.pts <;> simp [s1]
    · rfl
  split
  · exact h2
  · rw [putStream_late, h2]

@[simp] theorem deliver_late (k arr : Nat) (f : RtpPacket) (s : State) : (deliver k arr f s).igr.late = s.igr.late := by
  unfold deliver
  extract_lets ts x gap s0 y s1 u s2
  have h0 : s0.igr.late = s.igr.late := rfl
  have h1 : s1.igr.late = s.igr.late := by
    unfold s1
    split
    · exact h0
    · split <;> simp [h0]
  have hu : u.igr.late = s.igr.late := by
    unfold u
    split <;> simp [h1]
  have h2 : s2.igr.late = s.igr.late := by
    unfold s2
    split
    · exact (foldS_keeps (fun t => t.igr.late) (takeTs_late k f.time arr gap) _ _).trans h1
    · rw [takePayload_late, noteArrival_late, hu]
  split
  · rw [endAccess_late, h2]
  · exact h2

/-! ## Reordering (R365, R366) -/

@[simp] theorem takeHeld_late (k : Nat) (e : HeldPacket) (s : State) : (takeHeld k e s).2.igr.late = s.igr.late := by
  unfold takeHeld
  extract_lets p x
  split
  next bs bad t h =>
  have ht := congrArg (fun r : List Byte × Bool × State => r.2.2.igr.late) h
  simp only [dramRdFor_igr, setFlow_late] at ht
  split <;> simpa using ht.symm

@[simp] theorem deliverNext_late (k arr : Nat) (f : RtpPacket) (s : State) :
    (deliverNext k arr f s).igr.late = s.igr.late := by
  rw [deliverNext, passNumber_late, deliver_late]

@[simp] theorem deliverHeldOne_late (k : Nat) (e : HeldPacket) (s : State) :
    (deliverHeldOne k e s).igr.late = s.igr.late := by
  have htake := takeHeld_late k e s
  unfold deliverHeldOne
  split <;> next h => rw [h] at htake; simpa using htake

@[simp] theorem deliverRun_late (n k : Nat) : ∀ s : State, (deliverRun n k s).igr.late = s.igr.late := by
  induction n with
  | zero => exact fun _ => rfl
  | succ n ih =>
    intro s
    rw [deliverRun]
    split
    · rfl
    · rw [ih, deliverHeldOne_late]

@[simp] theorem passGap_late (d k : Nat) : ∀ s : State, (passGap d k s).igr.late = s.igr.late := by
  induction d with
  | zero => exact fun _ => rfl
  | succ d ih =>
    intro s
    rw [passGap]
    split
    · rw [ih, deliverHeldOne_late]
    · rw [ih, loseNumber_late]

@[simp] theorem deliverHeld_late (k : Nat) (s : State) : (deliverHeld k s).igr.late = s.igr.late :=
  deliverRun_late _ k s

@[simp] theorem inSequence_late (k : Nat) (f : RtpPacket) (s : State) : (inSequence k f s).igr.late = s.igr.late := by
  rw [inSequence, deliverHeld_late, deliverNext_late]

@[simp] theorem holdPacket_late (k : Nat) (bs : List Byte) (f : RtpPacket) (s : State) :
    (holdPacket k bs f s).igr.late = s.igr.late := by
  unfold holdPacket
  dsimp only
  split
  · rfl
  · split <;> simp

@[simp] theorem reorderPacket_late (k : Nat) (bs : List Byte) (f : RtpPacket) (s : State) :
    (reorderPacket k bs f s).igr.late = s.igr.late := by
  unfold reorderPacket
  extract_lets x w d s0 s1
  have h1 : s1.igr.late = s.igr.late := by
    unfold s1
    split <;> simp [s0]
  split_ifs <;> simp [h1]

@[simp] theorem flowPacket_late (k : Nat) (bs : List Byte) (f : RtpPacket) (s : State) :
    (flowPacket k bs f s).igr.late = s.igr.late := by
  unfold flowPacket
  extract_lets w p
  split
  · rfl
  · generalize meter w _ _ _ _ = r
    obtain ⟨c, x⟩ := r
    cases c with
    | red => rfl
    | yellow =>
      dsimp only
      split <;> simp
    | green => simp

/-! ## Frames (R356, R357, R362) -/

theorem exec_ingressFrame (p : Nat) (f : NetFrame) (s : State) : exec (.ingressFrame p f) s = execIngressFrame p f s := rfl
theorem exec_reorderTimeout (k : Nat) (s : State) : exec (.reorderTimeout k) s = execReorderTimeout k s := rfl
theorem exec_igrFlowWrite (wr : FlowWrite) (s : State) : exec (.igrFlowWrite wr) s = execIgrFlowWrite wr s := rfl
theorem exec_igrFlowRead (data : Word) (s : State) : exec (.igrFlowRead data) s = execIgrFlowRead data s := rfl
theorem exec_igrLink (p : Nat) (up fec : Bool) (s : State) : exec (.igrLink p up fec) s = execIgrLink p up fec s := rfl

/-- Without a part of a flow write that waits, a frame grants none. -/
theorem lateWrite_of_none {s : State} (h : s.igr.late = none) : lateWrite s = s := by
  rw [lateWrite, h]

theorem flowAccess_of_idle {p : Nat} {s : State} (k : Option Nat)
    (hidle : bitsOf 7 0 (s.raw (IGR_PORT_FAULT_STATUS p + 12)) = 0) : flowAccess p k s = (k, s) := by
  rw [flowAccess, State.sramFault, sramCheck_of_idle 16 _ hidle]

/-- The address with which port `p` compares a frame's destination. -/
def portMac (p : Nat) (s : State) : Nat :=
  s.rd (IGR_PORT_MAC_HI p) IGR_PORT_MAC_HI.MAC_0_1 * 2 ^ 32 + (s.reg (IGR_PORT_MAC_LO p)).toNat

/-- Port `p` is on, enabled and linked: it takes what arrives (R356). -/
structure PortTakes (s : State) (p : Nat) : Prop where
  present : p < numPorts s.fuse.variant
  on : s.domOn (37 + p) = true
  en : s.flag (IGR_PORT_CFG p) IGR_PORT_CFG.EN = true
  linked : s.flag (IGR_PORT_STATUS p) IGR_PORT_STATUS.LINK_UP = true

/-- The frame, counted in state `t`, is whole and meant for the port, and its FIFO has room (R356, R357). -/
structure FrameTaken (t : State) (p : Nat) (f : NetFrame) : Prop where
  fcs : f.fcsOk = true
  long : 14 ≤ f.bytes.length
  short : f.bytes.length + 4 ≤ 9216
  tags : frameTags f.bytes < 2
  type : frameType f.bytes ≠ 0x8808
  mine : macMine (portMac p t) (t.flag (IGR_PORT_CFG p) IGR_PORT_CFG.ACCEPT_MCAST) f.bytes = true
  room : f.fifoRoom = true

theorem PortTakes.guard {s : State} {p : Nat} (h : PortTakes s p) : (decide (p < numPorts s.fuse.variant) && s.domOn (37 + p)
    && s.flag (IGR_PORT_CFG p) IGR_PORT_CFG.EN && s.flag (IGR_PORT_STATUS p) IGR_PORT_STATUS.LINK_UP) = true := by
  simp [h.present, h.on, h.en, h.linked]

theorem FrameTaken.not_damaged {t : State} {p : Nat} {f : NetFrame} (h : FrameTaken t p f) :
    (!f.fcsOk || decide (9216 < f.bytes.length + 4) || decide (f.bytes.length < 14)) = false := by
  simp [h.fcs, h.long, h.short]

theorem FrameTaken.not_foreign {t : State} {p : Nat} {f : NetFrame} (h : FrameTaken t p f) :
    (decide (2 ≤ frameTags f.bytes) || !macMine (portMac p t) (t.flag (IGR_PORT_CFG p) IGR_PORT_CFG.ACCEPT_MCAST) f.bytes
      || frameType f.bytes == 0x8808) = false := by
  simp [h.tags, h.mine, h.type]

/-- What a frame of port `p` with bytes `bs` leaves once it is parsed, from `t`, where it is counted; `s` is the state before
it, to which it waits (R357, R20). -/
def frameParsed (p : Nat) (bs : List Byte) (s t : State) : Parsed → State
  | .bad => t.inc (IGR_PORT_BAD_FRAME p) IGR_PORT_BAD_FRAME.COUNT
  | .other => t.inc (IGR_PORT_UNMATCHED p) IGR_PORT_UNMATCHED.COUNT
  | .udp v6 ip dport len data =>
    let (i, u) := flowAccess p (findFlow t p (flowKey p v6 ip dport)) t
    match i with
    | none => lateWrite (u.inc (IGR_PORT_UNMATCHED p) IGR_PORT_UNMATCHED.COUNT)
    | some k => if igrAwaits s k then s else lateWrite (flowPacket k bs (parseRtp len data) u)

section
variable {s t : State} {p v6 ip dport len} {data bs : List Byte} (hlate : t.igr.late = none)
  (hidle : bitsOf 7 0 (t.raw (IGR_PORT_FAULT_STATUS p + 12)) = 0)
include hlate hidle

theorem frameParsed_udp_of_flow {k : Nat} (hflow : findFlow t p (flowKey p v6 ip dport) = some k)
    (hwait : igrAwaits s k = false) :
    frameParsed p bs s t (.udp v6 ip dport len data) = flowPacket k bs (parseRtp len data) t := by
  simp only [frameParsed, flowAccess_of_idle _ hidle, hflow, hwait, Bool.false_eq_true, if_false]
  exact lateWrite_of_none ((flowPacket_late _ _ _ _).trans hlate)

theorem frameParsed_udp_of_no_flow (hflow : findFlow t p (flowKey p v6 ip dport) = none) :
    frameParsed p bs s t (.udp v6 ip dport len data) = t.inc (IGR_PORT_UNMATCHED p) IGR_PORT_UNMATCHED.COUNT := by
  simp only [frameParsed, flowAccess_of_idle _ hidle, hflow]
  exact lateWrite_of_none hlate

end

section
variable {s t v : State} {p : Nat} {f : NetFrame} (htake : PortTakes s p)
  (ht : t = s.inc (IGR_PORT_RX_FRAMES p) IGR_PORT_RX_FRAMES.COUNT) (htrip : v.drc.trip = none)
include htake ht htrip

theorem exec_ingressFrame_of_damaged (hbad : f.fcsOk = false ∨ 9216 < f.bytes.length + 4 ∨ f.bytes.length < 14)
    (hv : v = t.inc (IGR_PORT_BAD_FRAME p) IGR_PORT_BAD_FRAME.COUNT) :
    exec (.ingressFrame p f) s = .next v.irqSync := by
  rw [exec_ingressFrame, execIngressFrame]
  refine done_when htake.guard ?_ htrip
  rw [hv, ht]
  exact if_pos (by simpa [or_assoc] using hbad)

theorem exec_ingressFrame_of_taken (hframe : FrameTaken t p f)
    (hv : v = frameParsed p f.bytes s t (parseFrame f.bytes)) : exec (.ingressFrame p f) s = .next v.irqSync := by
  subst ht hv
  rw [exec_ingressFrame, execIngressFrame]
  refine done_when htake.guard ?_ htrip
  have hforeign := hframe.not_foreign
  rw [portMac] at hforeign
  simp only [hframe.not_damaged, hforeign, hframe.room, Bool.not_true, Bool.false_eq_true, if_false]
  cases parseFrame f.bytes <;> rfl

end

/-! ## Reorder timeouts and the link (R365, R356, R380) -/

theorem exec_reorderTimeout_of_held {s v : State} {k : Nat} {e : HeldPacket} (hheld : (flowSt s k).held.head? = some e)
    (hon : s.domOn (37 + k / 4096) = true) (hwait : igrAwaits s k = false)
    (hv : v = deliverHeld k (passGap ((e.seq + 65536 - (flowSt s k).next) % 65536) k s)) (htrip : v.drc.trip = none) :
    exec (.reorderTimeout k) s = .next v.irqSync := by
  rw [exec_reorderTimeout, execReorderTimeout]
  simp only [hheld]
  exact done_when (by rw [hon, hwait]; rfl) hv.symm htrip

theorem exec_igrLink_of_on {s t : State} {p : Nat} {up fec : Bool} (htrip : s.drc.trip = none)
    (hport : p < numPorts s.fuse.variant) (hon : s.domOn (37 + p) = true)
    (ht : t = (s.wr (IGR_PORT_STATUS p) IGR_PORT_STATUS.LINK_UP up.toNat).wr (IGR_PORT_STATUS p) IGR_PORT_STATUS.FEC_LOCK
      (fec && s.flag (IGR_PORT_CFG p) IGR_PORT_CFG.FEC).toNat) :
    exec (.igrLink p up fec) s = .next (if s.flag (IGR_PORT_STATUS p) IGR_PORT_STATUS.LINK_UP = up then t
      else t.setBit (IGR_PORT_IRQ_STATUS p) 0).irqSync := by
  subst ht
  rw [exec_igrLink, execIgrLink]
  refine done_when (by rw [decide_eq_true hport, hon]; rfl) ?effect ?trip
  case effect => simp only [beq_iff_eq, igrIrq]
  case trip => split <;> exact htrip

/-! ## Flow entries written and read (R361, R362, R380) -/

section
variable {s v : State} {data : Word} {late : Option Nat} {i : Nat} {w : List Word} (hon : s.domOn 1 = true)
  (hset : bitAt 0 data = true) (hlate : s.igr.late = none) (hi : i = s.rd IGR_FLOW_SEL IGR_FLOW_SEL.INDEX)
  (hw : w = (List.range 12).map (fun j => s.reg (IGR_FLOW_W j))) (htrip : v.drc.trip = none)
include hon hset hlate hi hw htrip

theorem exec_igrFlowWrite_of_stays (hcause : flowCause s i w = 0)
    (hstays : flowOf s i / 4096 = fPort w ∨ flowWords s (flowOf s i) = []) (hv : v = putEntry (fPort w) i w s) :
    exec (.igrFlowWrite ⟨data, late⟩) s = .next v.irqSync := by
  subst hi hw hv
  rw [exec_igrFlowWrite, execIgrFlowWrite]
  refine done_when (by rw [hset, hon, hlate]; rfl) ?_ htrip
  exact (if_neg (not_not.mpr hcause)).trans (if_pos (hstays.imp_right List.isEmpty_iff.mpr))

theorem exec_igrFlowWrite_of_moves (hcause : flowCause s i w = 0)
    (hmoves : ¬ (flowOf s i / 4096 = fPort w ∨ flowWords s (flowOf s i) = [])) (hnone : late = none)
    (hv : v = putEntry (fPort w) i w (putEntry (flowOf s i / 4096) i [] s)) :
    exec (.igrFlowWrite ⟨data, late⟩) s = .next v.irqSync := by
  subst hi hw hv hnone
  rw [exec_igrFlowWrite, execIgrFlowWrite]
  refine done_when (by rw [hset, hon, hlate]; rfl) ?_ htrip
  simp only [ne_eq, hcause, not_true_eq_false, if_false, List.isEmpty_iff, hmoves, reduceCtorEq]

theorem exec_igrFlowWrite_of_refused {t : State} (hcause : flowCause s i w ≠ 0)
    (ht : t = ((s.wr IGR_FLOW_ERR IGR_FLOW_ERR.INDEX i).wr IGR_FLOW_ERR IGR_FLOW_ERR.CAUSE (flowCause s i w)).inc
      IGR_FLOW_ERR IGR_FLOW_ERR.COUNT) (hv : v = if t.domOn (37 + fPort w) then igrIrq (fPort w) 9 t else t) :
    exec (.igrFlowWrite ⟨data, late⟩) s = .next v.irqSync := by
  subst hi hw hv ht
  rw [exec_igrFlowWrite, execIgrFlowWrite]
  exact done_when (by rw [hset, hon, hlate]; rfl) (if_pos hcause) htrip

end

section
variable {a : Nat → Nat} (w : Nat → Word) {js : List Nat}

theorem reg_foldS_setReg_ne {b : Nat} (hb : ∀ j ∈ js, b ≠ a j) :
    ∀ s : State, (foldS (fun j u => u.setReg (a j) (w j)) js s).reg b = s.reg b := by
  induction js with
  | nil => exact fun s => rfl
  | cons x xs ih =>
    intro s
    rw [foldS_cons, ih (fun j hj => hb j (List.mem_cons_of_mem x hj)), State.reg_setReg_ne _ _ (hb x List.mem_cons_self)]

/-- Registers set in turn: each holds what it was given. -/
theorem reg_foldS_setReg_same (ha : Function.Injective a) {j : Nat} (hj : j ∈ js) :
    ∀ s : State, (foldS (fun j u => u.setReg (a j) (w j)) js s).reg (a j) = w j := by
  induction js with
  | nil => exact absurd hj List.not_mem_nil
  | cons x xs ih =>
    intro s
    rw [foldS_cons]
    by_cases hxs : j ∈ xs
    · exact ih hxs _
    · obtain rfl : j = x := (List.mem_cons.mp hj).resolve_right hxs
      rw [reg_foldS_setReg_ne (b := a j) w (fun y hy h => hxs ((ha h).symm ▸ hy)), State.reg_setReg_same]

theorem foldS_setReg_frame (s : State) :
    { foldS (fun j u => u.setReg (a j) (w j)) js s with regs := s.regs } = s := by
  have h := foldS_keeps (f := fun j u => u.setReg (a j) (w j)) (fun u : State => { u with regs := s.regs })
    (fun _ _ => rfl) js s
  exact h

end

/-- The staging words loaded with the words of an entry. -/
def stageLoaded (w : List Word) (s : State) : State :=
  foldS (fun j u => u.setReg (IGR_FLOW_W j) (wordAt w j)) (List.range 12) s

theorem reg_stageLoaded_same (w : List Word) (s : State) {j : Nat} (hj : j < 12) :
    (stageLoaded w s).reg (IGR_FLOW_W j) = wordAt w j :=
  reg_foldS_setReg_same (a := fun j => IGR_FLOW_W j) _ (fun x y h => by simpa [IGR_FLOW_W] using h) (List.mem_range.mpr hj) s

theorem reg_stageLoaded_ne (w : List Word) (s : State) {a : Nat} (ha : ∀ j, j < 12 → a ≠ IGR_FLOW_W j) :
    (stageLoaded w s).reg a = s.reg a :=
  reg_foldS_setReg_ne (a := fun j => IGR_FLOW_W j) _ (fun j hj => ha j (List.mem_range.mp hj)) s

theorem stageLoaded_frame (w : List Word) (s : State) : { stageLoaded w s with regs := s.regs } = s :=
  foldS_setReg_frame (a := fun j => IGR_FLOW_W j) (wordAt w) s

theorem exec_igrFlowRead_of_set {s : State} {data : Word} (htrip : s.drc.trip = none) (hon : s.domOn 1 = true)
    (hset : bitAt 1 data = true) (hlate : s.igr.late = none) : exec (.igrFlowRead data) s =
      .next (stageLoaded (flowWords s (flowOf s (s.rd IGR_FLOW_SEL IGR_FLOW_SEL.INDEX))) s).irqSync := by
  rw [exec_igrFlowRead, execIgrFlowRead]
  refine done_when (by rw [hset, hon, hlate]; rfl) rfl ?_
  have hdrc := congrArg State.drc (stageLoaded_frame (flowWords s (flowOf s (s.rd IGR_FLOW_SEL IGR_FLOW_SEL.INDEX))) s)
  exact (congrArg DrcSt.trip hdrc).trans htrip

theorem stageLoaded_irqSync_frame (w : List Word) (s : State) :
    { (stageLoaded w s).irqSync with regs := s.regs, icu := s.icu } = s := by
  have hicu := congrArg State.icu (stageLoaded_frame w s)
  have hsync := congrArg (fun u : State => { u with regs := s.regs }) (State.irqSync_frame (stageLoaded w s))
  rw [← hicu]
  exact hsync.trans (stageLoaded_frame w s)

end Sys2Proof.Machine
end

section
open Sys2Proof Sys2Proof.Machine

/-- Settles O54: a frame by what parsing leaves of it, a flow write by its cause and the port its entry stands in. -/
theorem ingressAndFlows : Obligations.IngressAndFlows := by
  unfold Obligations.IngressAndFlows
  refine fun s => ⟨?frame, ?timeout, ?write, ?read, ?link⟩
  case frame =>
    intro p f hport hon hen hlink t mac
    have htake : PortTakes s p := ⟨hport, hon, hen, hlink⟩
    refine ⟨fun hbad htrip => exec_ingressFrame_of_damaged htake rfl htrip hbad rfl, ?_⟩
    intro hfcs hlong hshort htags htype hmine hroom
    have hframe : FrameTaken t p f := ⟨hfcs, hlong, hshort, htags, htype, hmine, hroom⟩
    refine ⟨fun hparse htrip => ?bad, fun hparse htrip => ?other, fun v6 ip dport len data hparse hlate hidle => ?udp⟩
    case bad => exact exec_ingressFrame_of_taken htake rfl htrip hframe (by rw [hparse]; rfl)
    case other => exact exec_ingressFrame_of_taken htake rfl htrip hframe (by rw [hparse]; rfl)
    case udp =>
      have hlatet : t.igr.late = none := hlate
      exact ⟨fun k hflow hwait htrip => exec_ingressFrame_of_taken htake rfl htrip hframe
          (by rw [hparse]; exact (frameParsed_udp_of_flow hlatet hidle hflow hwait).symm),
        fun hflow htrip => exec_ingressFrame_of_taken htake rfl htrip hframe
          (by rw [hparse]; exact (frameParsed_udp_of_no_flow hlatet hidle hflow).symm)⟩
  case timeout => exact fun k e hheld hon hwait htrip => exec_reorderTimeout_of_held hheld hon hwait rfl htrip
  case write =>
    intro data late hon hset hlate i w c old stays
    refine ⟨fun hcause => ⟨fun hstays htrip => ?_, fun hmoves hnone htrip => ?_⟩, fun hcause t ht htrip => ?_⟩
    · exact exec_igrFlowWrite_of_stays hon hset hlate rfl rfl htrip hcause hstays rfl
    · exact exec_igrFlowWrite_of_moves hon hset hlate rfl rfl htrip hcause hmoves hnone rfl
    · exact exec_igrFlowWrite_of_refused hon hset hlate rfl rfl htrip hcause ht rfl
  case read =>
    intro data htrip hon hset hlate
    refine ⟨_, exec_igrFlowRead_of_set htrip hon hset hlate, fun j hj => ?_, fun a ha => ?_,
      stageLoaded_irqSync_frame _ s⟩
    · rw [State.reg_irqSync, reg_stageLoaded_same _ _ hj]
    · rw [State.reg_irqSync, reg_stageLoaded_ne _ _ ha]
  case link => exact fun p up fec htrip hport hon => exec_igrLink_of_on htrip hport hon rfl

end

section
/-!
PROOFS. How a step ends: every command's meaning ends in `done`, so that every step answers with the due messages sent and
nothing held up; and what `done` and `irqSync` leave, branch by branch.
-/
namespace Sys2Proof.Machine

/-! ## Every meaning ends in `done` -/

/-- Each row's meaning ends in `done` over the state its command began in. -/
theorem exec_eq_done (c : Instr) (s : State) : ∃ u, exec c s = done s u := by
  cases c
  all_goals exact ⟨_, rfl⟩

/-- The sources announced after `irqSync` are those whose condition holds. -/
theorem State.inv_irqSync (s : State) : s.irqSync.Inv := State.told_irqSync s

/-- A command answers a next state in which the due messages are sent. -/
theorem exec_settles (c : Instr) (s : State) : ∃ t, exec c s = .next t ∧ t.Inv := by
  obtain ⟨u, hu⟩ := exec_eq_done c s
  obtain ⟨t, ht⟩ := done_completes s u
  exact ⟨t, hu.trans ht, done_told s u t ht⟩

/-! ## A step by the front of the queue -/

theorem step_of_command (c : Instr) (s : State) : step { s with pending := c :: s.pending } = exec c s := rfl

theorem step_of_front {s : State} {c : Instr} {rest : List Instr} (h : s.pending = c :: rest) :
    step s = exec c { s with pending := rest } := by
  rw [step, h]

theorem step_of_idle {s : State} (h : s.pending = []) : step s = .next s.tick := by
  rw [step, h]

/-! ## Nothing stays held up -/

@[simp] theorem leaveSelfRefresh_trip (c : Nat) (s : State) : (leaveSelfRefresh c s).drc.trip = s.drc.trip := rfl

@[simp] theorem holdRequest_trip (c : Nat) (r : DramReq) (s : State) : (holdRequest c r s).drc.trip = s.drc.trip := rfl

/-- The cliff record is all that a freeze writes, beside the registers and the compositor. -/
@[simp] theorem freezeChannel_drc (s : State) (c cause phys eng syn : Nat) :
    (freezeChannel s c cause phys eng syn).drc = s.drc := by
  unfold freezeChannel
  have hcmds (js : List Nat) (w : Nat → Word) (t : State) :
      (js.foldl (fun u j => u.setReg (DRC_CLIFF_CMD c j) (w j)) t).drc = t.drc :=
    foldl_keeps State.drc (f := fun (u : State) j => u.setReg (DRC_CLIFF_CMD c j) (w j)) (fun _ _ => rfl) js t
  simp [hcmds]

@[simp] theorem freezeOn_trip (c cause phys syn : Nat) (r : DramReq) (s : State) :
    (freezeOn c cause phys syn r s).drc.trip = s.drc.trip := by
  rw [freezeOn, freezeChannel_drc, holdRequest_trip]

/-! ## `done`, branch by branch (R433, R436, R438; assumption 23) -/

section
variable {s t : State}

theorem done_of_wait (h : t.drc.trip = some .wait) : done s t = .next s.irqSync := by
  rw [done, h]

theorem done_of_exit {c : Nat} (h : t.drc.trip = some (.exit c)) : done s t = .next (leaveSelfRefresh c s).irqSync := by
  rw [done, h]

/-- The state in which a channel freezes for `cause`: an error on the command path is found by the check of the queue word. -/
def freezeSeen (c cause : Nat) (s : State) : State :=
  if cause = 2 then (s.sramCheck (DRC_CH_FAULT_STATUS c) 1 [0, 1]).2 else s

@[simp] theorem freezeSeen_drc (c cause : Nat) (s : State) : (freezeSeen c cause s).drc = s.drc := by
  unfold freezeSeen
  split
  · exact sramCheck_drc s _ _ _
  · rfl

theorem done_of_freeze {c cause p : Nat} {r : DramReq} (h : t.drc.trip = some (.freeze c cause p r)) :
    done s t = .next (freezeOn c cause p (freezeSeen c cause s).fresh.1.toNat r (freezeSeen c cause s).fresh.2).irqSync := by
  rw [done, h]
  rfl

/-- A meaning over a state with nothing held up leaves nothing held up. -/
theorem done_trip {u : State} (hs : s.drc.trip = none) (h : done s t = .next u) : u.drc.trip = none := by
  cases ht : t.drc.trip with
  | none =>
    rw [done_next s t ht] at h
    cases h
    rwa [State.irqSync_drc]
  | some x =>
    cases x with
    | wait =>
      rw [done_of_wait ht] at h
      cases h
      rwa [State.irqSync_drc]
    | exit c =>
      rw [done_of_exit ht] at h
      cases h
      rwa [State.irqSync_drc, leaveSelfRefresh_trip]
    | freeze c cause p r =>
      rw [done_of_freeze ht] at h
      cases h
      rwa [State.irqSync_drc, freezeOn_trip, State.fresh_drc, freezeSeen_drc]

end

theorem exec_trip {c : Instr} {s t : State} (hs : s.drc.trip = none) (h : exec c s = .next t) : t.drc.trip = none := by
  obtain ⟨u, hu⟩ := exec_eq_done c s
  exact done_trip hs (hu.symm.trans h)

/-! ## The messages due -/

/-- `irqSync` changes the interrupt controller alone. -/
theorem State.irqSync_eq_icu (s : State) : s.irqSync = { s with icu := s.irqSync.icu } := by
  unfold State.irqSync
  rfl

/-- While PD_CTL is on and the engine is awake every change of a condition is sent, the retract messages first. -/
theorem State.irqSync_of_awake {s : State} (hmode : s.pwr.mode ≠ .asleep) (hon : s.domOn 1 = true) :
    s.irqSync = { s with icu := { s.icu with
      told := s.highSources
      msgs := s.icu.msgs
        ++ (s.icu.told.filter (fun x => !s.highSources.contains x)).map (fun x => (x, true))
        ++ (s.highSources.filter (fun x => !s.icu.told.contains x)).map (fun x => (x, false)) } } := by
  unfold State.irqSync
  dsimp only
  split
  · next h => exact absurd h hmode
  · rw [hon, if_pos rfl, List.append_assoc]

end Sys2Proof.Machine
end

section
open Sys2Proof Sys2Proof.Machine

/-- Settles O3: a command's meaning ends in `done`, an idle cycle in `irqSync`, and both send every due message. -/
theorem everyStepKeepsSourcesAnnounced : Obligations.EveryStepKeepsSourcesAnnounced := by
  unfold Obligations.EveryStepKeepsSourcesAnnounced
  intro s
  cases h : s.pending with
  | nil => exact ⟨s.tick, step_of_idle h, State.inv_irqSync _⟩
  | cons c rest =>
    rw [step_of_front h]
    exact exec_settles c _

/-- Settles O1: the two branches of a step. -/
theorem stepRunsFrontCommand : Obligations.StepRunsFrontCommand :=
  ⟨step_of_command, fun _ => step_of_idle⟩

/-- Settles O4: by what `done` and `irqSync` leave in each of their branches. -/
theorem commandsEndSettled : Obligations.CommandsEndSettled := by
  unfold Obligations.CommandsEndSettled
  refine ⟨fun c s t => exec_trip, ?ends, fun s => State.irqSync_of_awake⟩
  case ends =>
    intro s t
    exact ⟨fun h => ⟨done_of_wait h, s.irqSync_eq_icu⟩, fun c h => done_of_exit h, fun c p r h => done_of_freeze h,
      fun c p r h => done_of_freeze h⟩

end

section
/-!
PROOFS. What no access of DRAM reaches: everything but the registers, the pin events, the count of free values and the
memory system's own state.
-/
namespace Sys2Proof.Machine

/-- The state without what an access of DRAM can change. -/
def State.beyondMemory (s : State) : State := { s with regs := [], pinEvts := 0, free := 0, drc := State.reset.drc }

theorem State.bpm_of_beyondMemory {s t : State} (h : t.beyondMemory = s.beyondMemory) : t.bpm = s.bpm := by
  have hbpm := congrArg State.bpm h
  exact hbpm

/-! ## Registers, faults and checks of words (R471, R473, R541) -/

@[simp] theorem State.setReg_beyondMemory (s : State) (a : Nat) (w : Word) :
    (s.setReg a w).beyondMemory = s.beyondMemory := rfl

@[simp] theorem State.wr_beyondMemory (s : State) (a : Nat) (f : Fld) (v : Nat) :
    (s.wr a f v).beyondMemory = s.beyondMemory := rfl

@[simp] theorem State.setBit_beyondMemory (s : State) (a b : Nat) : (s.setBit a b).beyondMemory = s.beyondMemory := rfl

@[simp] theorem setFault_beyondMemory (s : State) (fs b : Nat) : (s.setFault fs b).beyondMemory = s.beyondMemory := by
  have h := congrArg State.beyondMemory (setFault_frame s fs b)
  exact h

@[simp] theorem incSat_beyondMemory (s : State) (a : Nat) (f : Fld) : (s.incSat a f).beyondMemory = s.beyondMemory := by
  have h := congrArg State.beyondMemory (incSat_frame s a f)
  exact h

@[simp] theorem takeInjection_beyondMemory (s : State) (fs : Nat) (sites : List Nat) :
    (s.takeInjection fs sites).2.beyondMemory = s.beyondMemory := by
  unfold State.takeInjection
  dsimp only
  split <;> rfl

@[simp] theorem takeInjections_beyondMemory (s : State) (fs : Nat) (sites : List Nat) (n : Nat) :
    (s.takeInjections fs sites n).2.beyondMemory = s.beyondMemory := by
  unfold State.takeInjections
  dsimp only
  split <;> rfl

@[simp] theorem fabricCheck_beyondMemory (s : State) (fs n : Nat) :
    (s.fabricCheck fs n).2.beyondMemory = s.beyondMemory := by
  have h := takeInjections_beyondMemory s fs [0, 2] n
  unfold State.fabricCheck
  split <;> next e => rw [e] at h; simpa using h

@[simp] theorem sramCheck_beyondMemory (s : State) (fs n : Nat) (sites : List Nat) :
    (s.sramCheck fs n sites).2.beyondMemory = s.beyondMemory := by
  have h := takeInjections_beyondMemory s fs sites n
  unfold State.sramCheck
  split <;> next e => rw [e] at h; simpa using h

/-! ## Bursts (R421 to R439) -/

@[simp] theorem trip_beyondMemory (s : State) (t : Trip) : (s.trip t).beyondMemory = s.beyondMemory := by
  unfold State.trip
  split <;> rfl

@[simp] theorem correctedWord_beyondMemory (s : State) (c : Nat) :
    (correctedWord s c).beyondMemory = s.beyondMemory := by
  unfold correctedWord
  dsimp only
  split <;> simp

@[simp] theorem noteAccess_beyondMemory (r : DramReq) (s : State) : (noteAccess r s).beyondMemory = s.beyondMemory := by
  unfold noteAccess
  dsimp only
  split <;> rfl

@[simp] theorem checkWords_beyondMemory (s : State) (c p n : Nat) :
    (checkWords s c p n).2.beyondMemory = s.beyondMemory := by
  refine foldl_keeps (fun a : Option Nat × State => a.2.beyondMemory) (fun a i => ?_) _ (none, s)
  dsimp only
  split <;> simp

@[simp] theorem checkParts_beyondMemory (c : Nat) (parts : List Nat) (s : State) :
    (checkParts c parts s).2.beyondMemory = s.beyondMemory := by
  unfold checkParts
  refine foldl_keeps (fun a : Option Nat × State => a.2.beyondMemory) (fun a k => ?_) parts (none, s)
  exact checkWords_beyondMemory a.2 c (4 * k) 4

@[simp] theorem serveRead_beyondMemory (r : DramReq) (s : State) :
    (serveRead r s).2.2.beyondMemory = s.beyondMemory := by
  unfold serveRead
  dsimp only
  split <;> simp

@[simp] theorem serveWrite_beyondMemory (released : Bool) (r : DramReq) (s : State) :
    (serveWrite released r s).2.beyondMemory = s.beyondMemory := by
  unfold serveWrite
  extract_lets c p n drc parts s0 chk inj s2
  split
  · exact noteAccess_beyondMemory r _
  · have hread : s0.beyondMemory = s.beyondMemory := by
      unfold s0
      split
      · rfl
      · exact noteAccess_beyondMemory _ s
    have hchk : chk.2.beyondMemory = s.beyondMemory := (checkParts_beyondMemory c parts s0).trans hread
    split
    · exact hchk
    · refine (noteAccess_beyondMemory r _).trans ?_
      exact (takeInjection_beyondMemory chk.2 _ _).trans hchk

@[simp] theorem takeBack_beyondMemory (r : DramReq) (s : State) : (takeBack r s).2.beyondMemory = s.beyondMemory := by
  unfold takeBack
  split <;> rfl

@[simp] theorem requestCheck_beyondMemory (back : Option Nat) (c n : Nat) (s : State) :
    (requestCheck back c n s).2.beyondMemory = s.beyondMemory := by
  unfold requestCheck issueCheck
  split <;> simp

@[simp] theorem deadRead_beyondMemory (s : State) (a n : Nat) : (deadRead s a n).2.2.beyondMemory = s.beyondMemory := by
  have h := congrArg State.beyondMemory (freshBytes_state n (unmapped s a))
  exact h

@[simp] theorem dramRdBurst_beyondMemory (port : Nat) (s : State) (a n : Nat) :
    (dramRdBurst port s a n).2.2.beyondMemory = s.beyondMemory := by
  unfold dramRdBurst
  split
  · exact deadRead_beyondMemory s a n
  · dsimp only
    repeat' split
    all_goals simp

@[simp] theorem dramWrBurst_beyondMemory (port : Nat) (s : State) (a : Nat) (bs : List Byte) :
    (dramWrBurst port s a bs).beyondMemory = s.beyondMemory := by
  unfold dramWrBurst
  split
  · rfl
  · dsimp only
    repeat' split
    case isTrue => rfl
    all_goals simp

/-! ## Runs of bytes and words -/

@[simp] theorem dramRd_beyondMemory (port : Nat) (s : State) (a n : Nat) :
    (dramRd port s a n).2.2.beyondMemory = s.beyondMemory := by
  refine foldl_keeps (fun r : List Byte × Bool × State => r.2.2.beyondMemory) (fun r b => ?_) _ ([], false, s)
  have h := dramRdBurst_beyondMemory port r.2.2 b.1 b.2
  generalize dramRdBurst port r.2.2 b.1 b.2 = q at h ⊢
  exact h

@[simp] theorem dramWr_beyondMemory (port : Nat) (s : State) (a : Nat) (bs : List Byte) :
    (dramWr port s a bs).beyondMemory = s.beyondMemory :=
  foldl_keeps State.beyondMemory (fun _ _ => dramWrBurst_beyondMemory _ _ _ _) _ s

@[simp] theorem dramRdWords_beyondMemory (port : Nat) (s : State) (a n : Nat) :
    (dramRdWords port s a n).2.2.beyondMemory = s.beyondMemory := by
  have h := dramRd_beyondMemory port s a (4 * n)
  unfold dramRdWords
  generalize dramRd port s a (4 * n) = r at h ⊢
  exact h

@[simp] theorem dramWrWords_beyondMemory (port : Nat) (s : State) (a : Nat) (ws : List Word) :
    (dramWrWords port s a ws).beyondMemory = s.beyondMemory := dramWr_beyondMemory port s a (wordsBytes ws)

@[simp] theorem dramRdWords_bpm (port : Nat) (s : State) (a n : Nat) : (dramRdWords port s a n).2.2.bpm = s.bpm :=
  State.bpm_of_beyondMemory (dramRdWords_beyondMemory port s a n)

@[simp] theorem dramWrWords_bpm (port : Nat) (s : State) (a : Nat) (ws : List Word) :
    (dramWrWords port s a ws).bpm = s.bpm := State.bpm_of_beyondMemory (dramWrWords_beyondMemory port s a ws)

end Sys2Proof.Machine
end

section
/-!
PROOFS. The buffer pools: what each operation of a pool leaves, how a grant ends, and the grants of ALLOC, RETAIN, RELEASE
and FREE with no access injected (R387 to R398).
-/
namespace Sys2Proof.Machine

theorem exec_alloc (req : Nat) (byPool : Bool) (arg : Nat) (spill share : Bool) (s : State) :
    exec (.alloc req byPool arg spill share) s = execAlloc req byPool arg spill share s := rfl
theorem exec_retain (req : Nat) (h : Word) (s : State) : exec (.retain req h) s = execRetain req h s := rfl
theorem exec_release (req : Nat) (h : Word) (s : State) : exec (.release req h) s = execRelease req h s := rfl
theorem exec_free (req : Nat) (h : Word) (s : State) : exec (.free req h) s = execFree req h s := rfl

/-! ## Caches, rings and table entries -/

@[simp] theorem poolCache_setCache_same (s : State) (p : Nat) (c : List Nat) : poolCache (setCache s p c) p = c :=
  tabGet_tabSet_same _ _ _ _

theorem poolCache_setCache_ne (s : State) {p q : Nat} (c : List Nat) (h : q ≠ p) :
    poolCache (setCache s p c) q = poolCache s q := tabGet_tabSet_ne _ _ _ h

@[simp] theorem poolRingLen_setCache (s : State) (p q : Nat) (c : List Nat) :
    poolRingLen (setCache s p c) q = poolRingLen s q := rfl

@[simp] theorem poolRingLen_setRing_same (s : State) (p head len : Nat) : poolRingLen (setRing s p head len) p = len :=
  tabGet_tabSet_same _ _ _ _

@[simp] theorem bstGet_bstPut_same (s : State) (e : Nat) (w : Word) : bstGet (bstPut s e w) e = w :=
  tabGet_tabSet_same _ _ _ _

theorem bstGet_bstPut_ne (s : State) {e x : Nat} (w : Word) (h : x ≠ e) : bstGet (bstPut s e w) x = bstGet s x :=
  tabGet_tabSet_ne _ _ _ h

/-- The pools' contents are the manager's own state. -/
theorem poolCache_of_bpm {s t : State} (h : t.bpm = s.bpm) (p : Nat) : poolCache t p = poolCache s p := by
  rw [poolCache, h, ← poolCache]

theorem poolRingLen_of_bpm {s t : State} (h : t.bpm = s.bpm) (p : Nat) : poolRingLen t p = poolRingLen s p := by
  rw [poolRingLen, h, ← poolRingLen]

theorem bstGet_of_bpm {s t : State} (h : t.bpm = s.bpm) (e : Nat) : bstGet t e = bstGet s e := by
  rw [bstGet, h, ← bstGet]

/-! ## MIN_FREE and LOW (R389, R414) -/

theorem poolLow_frame (s : State) (p : Nat) : { poolLow s p with regs := s.regs } = s := by
  unfold poolLow
  split <;> rfl

theorem poolFreeChanged_frame (s : State) (p : Nat) : { poolFreeChanged s p with regs := s.regs } = s := by
  have h := congrArg (fun u : State => { u with regs := s.regs }) (poolLow_frame (s.wr (BPM_POOL_MIN_FREE p)
    BPM_POOL_MIN_FREE.MIN_FREE (min (s.rd (BPM_POOL_MIN_FREE p) BPM_POOL_MIN_FREE.MIN_FREE) (poolFree s p))) p)
  exact h

@[simp] theorem poolFreeChanged_drc (s : State) (p : Nat) : (poolFreeChanged s p).drc = s.drc := by
  rw [poolFreeChanged, poolLow_drc, State.wr_drc]

@[simp] theorem poolFreeChanged_bpm (s : State) (p : Nat) : (poolFreeChanged s p).bpm = s.bpm := by
  have h := congrArg State.bpm (poolFreeChanged_frame s p)
  exact h

theorem reg_poolLow_ne (s : State) {p a : Nat} (h : a ≠ BPM_POOL_IRQ_STATUS p) : (poolLow s p).reg a = s.reg a := by
  unfold poolLow
  split
  · exact State.reg_wr_ne s _ 1 h
  · rfl

theorem reg_poolFreeChanged_ne (s : State) {p a : Nat} (hmin : a ≠ BPM_POOL_MIN_FREE p)
    (hirq : a ≠ BPM_POOL_IRQ_STATUS p) : (poolFreeChanged s p).reg a = s.reg a := by
  rw [poolFreeChanged, reg_poolLow_ne _ hirq, State.reg_wr_ne _ _ _ hmin]

theorem rd_allocated_poolFreeChanged (s : State) (p : Nat) (f : Fld) :
    (poolFreeChanged s p).rd (BPM_POOL_ALLOCATED p) f = s.rd (BPM_POOL_ALLOCATED p) f := by
  rw [State.rd, State.rd, reg_poolFreeChanged_ne s (by unfold BPM_POOL_ALLOCATED BPM_POOL_MIN_FREE; omega)
    (by unfold BPM_POOL_ALLOCATED BPM_POOL_IRQ_STATUS; omega)]

/-! ## Checks with no access injected (R414, R541) -/

section
variable {s : State} (hidle : bitsOf 7 0 (s.raw BPM_FAULT_INJECT) = 0)
include hidle

theorem entryCheck_of_idle (p e : Nat) : entryCheck s p e = (false, s) := by
  rw [entryCheck, sramCheck_of_idle (fs := BPM_FAULT_STATUS) 1 _ hidle]

theorem cacheCheck_of_idle (p e : Nat) : cacheCheck s p e = (false, s) := by
  rw [cacheCheck, sramCheck_of_idle (fs := BPM_FAULT_STATUS) 1 _ hidle]

end

/-! ## ALLOC from a cache that is not empty (R387, R391, R394) -/

theorem ensureCache_of_cached {s : State} {p : Nat} (h : poolCache s p ≠ []) : ensureCache s p = s := by
  rw [ensureCache, refillMore, List.isEmpty_eq_false_iff.mpr h]
  rfl

/-- The generation a table entry takes at its next allocation. -/
def nextGeneration (w : Word) : Nat := if bGen w = 255 then 1 else bGen w + 1

/-- The pool after it has handed out buffer `i` to `req`, `rest` being what is left of its cache. -/
def handOut (req p i : Nat) (rest : List Nat) (share : Bool) (s : State) : State :=
  let e := poolFirst s p + i
  let t := bstPut (setCache s p rest) e (mkEntry true share req 1 (nextGeneration (bstGet s e)) p)
  poolFreeChanged (t.inc (BPM_POOL_ALLOCATED p) BPM_POOL_ALLOCATED.ALLOCATED) p

section
variable {s : State} {req p i : Nat} {rest : List Nat} {share : Bool}

theorem takeHandle_of_cached (hidle : bitsOf 7 0 (s.raw BPM_FAULT_INJECT) = 0) (hready : poolReady s p = true)
    (hcache : poolCache s p = i :: rest) : takeHandle s p req share =
      (some (stOk, mkHandle p (nextGeneration (bstGet s (poolFirst s p + i))) i), handOut req p i rest share s) := by
  have hfree : poolFree s p ≠ 0 := by rw [poolFree, hcache, List.length_cons]; omega
  have hcached : ensureCache s p = s := ensureCache_of_cached (by rw [hcache]; exact List.cons_ne_nil _ _)
  have hidle1 : bitsOf 7 0 ((setCache s p rest).raw BPM_FAULT_INJECT) = 0 := hidle
  have hguard : (!poolReady s p || decide (poolFree s p = 0)) = false := by rw [hready, decide_eq_false hfree]; rfl
  simp only [takeHandle, hguard, hcached, hcache, cacheCheck_of_idle hidle1, entryCheck_of_idle hidle1,
    Bool.false_eq_true, if_false]
  rfl

theorem handOut_bpm : (handOut req p i rest share s).bpm =
    (bstPut (setCache s p rest) (poolFirst s p + i)
      (mkEntry true share req 1 (nextGeneration (bstGet s (poolFirst s p + i))) p)).bpm := poolFreeChanged_bpm _ _

theorem handOut_frame : { handOut req p i rest share s with regs := s.regs, bpm := s.bpm } = s := by
  have h := congrArg (fun u : State => { u with regs := s.regs, bpm := s.bpm })
    (poolFreeChanged_frame ((bstPut (setCache s p rest) (poolFirst s p + i)
      (mkEntry true share req 1 (nextGeneration (bstGet s (poolFirst s p + i))) p)).inc (BPM_POOL_ALLOCATED p)
        BPM_POOL_ALLOCATED.ALLOCATED) p)
  exact h

@[simp] theorem handOut_drc : (handOut req p i rest share s).drc = s.drc := poolFreeChanged_drc _ _

theorem rd_allocated_handOut :
    (handOut req p i rest share s).rd (BPM_POOL_ALLOCATED p) BPM_POOL_ALLOCATED.ALLOCATED =
      (s.rd (BPM_POOL_ALLOCATED p) BPM_POOL_ALLOCATED.ALLOCATED + 1) % 2 ^ 21 :=
  (rd_allocated_poolFreeChanged _ _ _).trans (State.rd_wr_same _ _ _ _ (by decide))

theorem reg_handOut_ne {a : Nat} (halloc : a ≠ BPM_POOL_ALLOCATED p) (hmin : a ≠ BPM_POOL_MIN_FREE p)
    (hirq : a ≠ BPM_POOL_IRQ_STATUS p) : (handOut req p i rest share s).reg a = s.reg a :=
  (reg_poolFreeChanged_ne _ hmin hirq).trans (State.reg_wr_ne _ _ _ halloc)

end

/-! ## How a grant ends -/

@[simp] theorem answer_irqSync_answer (r : Nat × Word) (s : State) : (answer r s).irqSync.bpm.answer = r :=
  congrArg BpmSt.answer (State.irqSync_bpm _)

@[simp] theorem bstGet_irqSync_answer (r : Nat × Word) (s : State) (e : Nat) :
    bstGet (answer r s).irqSync e = bstGet s e := bstGet_of_bpm (State.irqSync_bpm _) e

@[simp] theorem poolCache_irqSync_answer (r : Nat × Word) (s : State) (p : Nat) :
    poolCache (answer r s).irqSync p = poolCache s p := poolCache_of_bpm (State.irqSync_bpm _) p

@[simp] theorem poolRingLen_irqSync_answer (r : Nat × Word) (s : State) (p : Nat) :
    poolRingLen (answer r s).irqSync p = poolRingLen s p := poolRingLen_of_bpm (State.irqSync_bpm _) p

@[simp] theorem reg_irqSync_answer (r : Nat × Word) (s : State) (a : Nat) : (answer r s).irqSync.reg a = s.reg a :=
  State.reg_irqSync _ a

@[simp] theorem rd_irqSync_answer (r : Nat × Word) (s : State) (a : Nat) (f : Fld) :
    (answer r s).irqSync.rd a f = s.rd a f := State.rd_irqSync _ a f

/-- What a grant leaves beside the registers, the pools and the interrupt controller. -/
theorem irqSync_answer_frame {s t : State} (h : { t with regs := s.regs, bpm := s.bpm } = s) (r : Nat × Word) :
    { (answer r t).irqSync with regs := s.regs, bpm := s.bpm, icu := s.icu } = s := by
  have hicu := congrArg (fun u : State => { u with icu := s.icu }) h
  rw [State.irqSync_eq_icu]
  exact hicu

/-- The grant of ALLOC by pool from a ready pool with a cached handle. -/
theorem exec_alloc_of_cached {s : State} {req p i : Nat} {rest : List Nat} (spill share : Bool) (htrip : s.drc.trip = none)
    (hused : usedRequester req = true) (hp : p < 8) (hon : s.domOn 1 = true) (hwait : holdWaiting s p = false)
    (hready : poolReady s p = true) (hcache : poolCache s p = i :: rest)
    (hidle : bitsOf 7 0 (s.raw BPM_FAULT_INJECT) = 0) :
    exec (.alloc req true p spill share) s = .next (answer
      (stOk, mkHandle p (nextGeneration (bstGet s (poolFirst s p + i))) i)
      (handOut req p i rest (share || req != 0) (noteGrant s p req))).irqSync := by
  have hmod : p % 8 = p := Nat.mod_eq_of_lt hp
  have hfree : poolFreeToGrant (allocPool true p s) s = true := by
    rw [allocPool, if_pos rfl, hmod, poolFreeToGrant, hwait]
    rfl
  have htake := takeHandle_of_cached (s := noteGrant s p req) (req := req) (share := share || req != 0) hidle hready hcache
  rw [exec_alloc, execAlloc]
  refine done_when (by rw [hused, hon, hfree]; rfl) ?_ ((congrArg DrcSt.trip handOut_drc).trans htrip)
  rw [allocFor, if_pos rfl, hmod, allocAt, if_pos rfl, htake]
  rfl

end Sys2Proof.Machine
end

section
open Sys2Proof Sys2Proof.Machine

/-- Settles O17: what the grant leaves is `handOut`, field by field. -/
theorem allocTakesOldestHandle : Obligations.AllocTakesOldestHandle := by
  unfold Obligations.AllocTakesOldestHandle
  intro s req p i rest spill share htrip hused hp hon hwait hready hcache hidle e g
  refine ⟨_, exec_alloc_of_cached spill share htrip hused hp hon hwait hready hcache hidle, ?_⟩
  refine ⟨answer_irqSync_answer _ _, ?entry, ?others, ?cache, ?caches, ?ring, ?count, ?regs, ?frame⟩
  case entry => exact (bstGet_irqSync_answer _ _ e).trans ((bstGet_of_bpm handOut_bpm e).trans (bstGet_bstPut_same _ _ _))
  case others =>
    exact fun x hx => (bstGet_irqSync_answer _ _ x).trans ((bstGet_of_bpm handOut_bpm x).trans (bstGet_bstPut_ne _ _ hx))
  case cache =>
    exact (poolCache_irqSync_answer _ _ p).trans ((poolCache_of_bpm handOut_bpm p).trans (poolCache_setCache_same _ _ _))
  case caches =>
    exact fun q hq =>
      (poolCache_irqSync_answer _ _ q).trans ((poolCache_of_bpm handOut_bpm q).trans (poolCache_setCache_ne _ _ hq))
  case ring => exact (poolRingLen_irqSync_answer _ _ p).trans (poolRingLen_of_bpm handOut_bpm p)
  case count => exact (rd_irqSync_answer _ _ _ _).trans rd_allocated_handOut
  case regs => exact fun a h0 h1 h2 => (reg_irqSync_answer _ _ a).trans (reg_handOut_ne h0 h1 h2)
  case frame =>
    have hframe := congrArg (fun u : State => { u with bpm := s.bpm }) (handOut_frame (s := noteGrant s p req) (req := req)
      (p := p) (i := i) (rest := rest) (share := share || req != 0))
    exact irqSync_answer_frame hframe _

end

section
/-!
PROOFS. RETAIN, RELEASE and FREE with no access injected: what each does with a current handle, how a buffer goes back to
its pool, and what a misuse answers (R393 to R398).
-/
namespace Sys2Proof.Machine

/-! ## How a grant of each operation ends -/

section
variable {s t : State} {req st : Nat} {h : Word} (hused : usedRequester req = true) (hon : s.domOn 1 = true)
  (hwait : holdWaiting s (hPool h) = false) (htrip : t.drc.trip = none)
include hused hon hwait

theorem granted_of_not_waiting :
    (usedRequester req && s.domOn 1 && poolFreeToGrant (some (hPool h)) s) = true := by
  rw [hused, hon, poolFreeToGrant, hwait]
  rfl

include htrip

theorem exec_retain_of (hop : bpmRetain (noteGrant s (hPool h) req) req h = (st, t)) :
    exec (.retain req h) s = .next (answer (st, h) t).irqSync := by
  rw [exec_retain, execRetain]
  exact done_when (granted_of_not_waiting hused hon hwait) (by rw [hop]) htrip

theorem exec_release_of (hop : bpmRelease (noteGrant s (hPool h) req) req h = (st, t)) :
    exec (.release req h) s = .next (answer (st, h) t).irqSync := by
  rw [exec_release, execRelease]
  exact done_when (granted_of_not_waiting hused hon hwait) (by rw [hop]) htrip

theorem exec_free_of (hop : bpmFree (noteGrant s (hPool h) req) req h = (st, t)) :
    exec (.free req h) s = .next (answer (st, h) t).irqSync := by
  rw [exec_free, execFree]
  exact done_when (granted_of_not_waiting hused hon hwait) (by rw [hop]) htrip

end

/-! ## The operations on a current handle (R394, R396) -/

theorem mayHold_of_entry {s : State} {h : Word} {e : Nat} (he : handleEntry s h = some e) (req : Nat) :
    mayHold s req h = (bShare (bstGet s e) || bOwner (bstGet s e) == req) := by
  rw [mayHold, he]

/-- A table entry with another count of references. -/
def withRefs (w : Word) (p refs : Nat) : Word := mkEntry true (bShare w) (bOwner w) refs (bGen w) p

/-- A table entry once its buffer is free: it keeps its generation. -/
def freedEntry (w : Word) (p : Nat) : Word := mkEntry false (bShare w) (bOwner w) 0 (bGen w) p

/-- The pool after the buffer of a current handle was freed. -/
def freeBuffer (s : State) (h : Word) (e : Nat) : State :=
  giveBack (bstPut s e (freedEntry (bstGet s e) (hPool h))) (hPool h) (hIndex h)

section
variable {s : State} {req e : Nat} {h : Word} (hidle : bitsOf 7 0 (s.raw BPM_FAULT_INJECT) = 0)
  (hc : classify s h = .current) (he : handleEntry s h = some e)
include hidle hc he

theorem bpmRetain_of_full (hrefs : bRefs (bstGet s e) = 1023) : bpmRetain s req h = (stInternal, s) := by
  simp only [bpmRetain, he, entryCheck_of_idle hidle, hc, hrefs, Bool.false_eq_true, if_false, if_true]

theorem bpmRetain_of_held (hmay : mayHold s req h = true) (hrefs : bRefs (bstGet s e) < 1023) :
    bpmRetain s req h = (stOk, bstPut s e (withRefs (bstGet s e) (hPool h) (bRefs (bstGet s e) + 1))) := by
  rw [mayHold_of_entry he] at hmay
  simp only [bpmRetain, he, entryCheck_of_idle hidle, hc, hmay, if_neg (Nat.ne_of_lt hrefs), Bool.false_eq_true, if_false,
    Bool.not_true, withRefs]

theorem bpmRelease_of_many (hmay : mayHold s req h = true) (hrefs : 1 < bRefs (bstGet s e)) :
    bpmRelease s req h = (stOk, bstPut s e (withRefs (bstGet s e) (hPool h) (bRefs (bstGet s e) - 1))) := by
  rw [mayHold_of_entry he] at hmay
  simp only [bpmRelease, he, entryCheck_of_idle hidle, hc, hmay, if_pos hrefs, Bool.false_eq_true, if_false, Bool.not_true,
    withRefs]

theorem bpmRelease_of_last (hmay : mayHold s req h = true) (hrefs : bRefs (bstGet s e) ≤ 1) :
    bpmRelease s req h = (stOk, freeBuffer s h e) := by
  rw [mayHold_of_entry he] at hmay
  simp only [bpmRelease, he, entryCheck_of_idle hidle, hc, hmay, if_neg (Nat.not_lt.mpr hrefs), Bool.false_eq_true,
    if_false, Bool.not_true]
  rfl

theorem bpmFree_of_owner (howner : bOwner (bstGet s e) = req) : bpmFree s req h = (stOk, freeBuffer s h e) := by
  simp only [bpmFree, he, entryCheck_of_idle hidle, hc, howner, bne_self_eq_false, Bool.false_eq_true, if_false]
  rw [← howner]
  rfl

theorem bpmFree_of_not_owner (howner : bOwner (bstGet s e) ≠ req) :
    bpmFree s req h = (stNotOwner, misuse s req 3 stNotOwner h) := by
  simp only [bpmFree, he, entryCheck_of_idle hidle, hc, bne_iff_ne.mpr howner, Bool.false_eq_true, if_false, if_true]

end

/-! ## Misuse (R393, R398) -/

theorem handleEntry_of_freed {s : State} {h : Word} (hc : classify s h = .freed) : ∃ e, handleEntry s h = some e := by
  cases he : handleEntry s h with
  | none => rw [classify, he] at hc; cases hc
  | some e => exact ⟨e, rfl⟩

section
variable {s : State} {req : Nat} {h : Word} (hidle : bitsOf 7 0 (s.raw BPM_FAULT_INJECT) = 0)
include hidle

theorem bpmRetain_of_not_current (hc : classify s h ≠ .current) :
    bpmRetain s req h = (stStaleHandle, misuse s req 1 stStaleHandle h) := by
  cases he : handleEntry s h with
  | none => rw [bpmRetain, he]
  | some e =>
    cases hcls : classify s h with
    | current => exact absurd hcls hc
    | freed => simp only [bpmRetain, he, entryCheck_of_idle hidle, hcls, Bool.false_eq_true, if_false]
    | stale => simp only [bpmRetain, he, entryCheck_of_idle hidle, hcls, Bool.false_eq_true, if_false]

theorem bpmRelease_of_freed (hc : classify s h = .freed) :
    bpmRelease s req h = (stDoubleFree, misuse s req 2 stDoubleFree h) := by
  obtain ⟨e, he⟩ := handleEntry_of_freed hc
  simp only [bpmRelease, he, entryCheck_of_idle hidle, hc, Bool.false_eq_true, if_false]

theorem bpmFree_of_freed (hc : classify s h = .freed) :
    bpmFree s req h = (stDoubleFree, misuse s req 3 stDoubleFree h) := by
  obtain ⟨e, he⟩ := handleEntry_of_freed hc
  simp only [bpmFree, he, entryCheck_of_idle hidle, hc, Bool.false_eq_true, if_false]

end

/-! ## A buffer goes back to its pool (R387) -/

/-- The rings hold no cache entry. -/
@[simp] theorem poolCache_ringAppend (p q : Nat) (xs : List Nat) : ∀ s : State,
    poolCache (ringAppend p xs s) q = poolCache s q := by
  obtain ⟨write, hwrite⟩ : ∃ f, f = dramWrWords := ⟨_, rfl⟩
  have hkeep : ∀ port s a ws, (write port s a ws).bpm = s.bpm := hwrite ▸ dramWrWords_bpm
  delta ringAppend ringAppend._f
  rw [← hwrite]
  induction xs with
  | nil => exact fun s => rfl
  | cons x xs ih => exact fun s => (ih _).trans (poolCache_of_bpm (hkeep _ _ _ _) q)

theorem poolCache_writeBack (s : State) (p : Nat) :
    poolCache (writeBack s p) p = (poolCache s p).take ((poolCache s p).length - 16) := by
  rw [writeBack, poolCache_ringAppend, poolCache_setCache_same]

theorem poolCache_poolFreeChanged (s : State) (p q : Nat) : poolCache (poolFreeChanged s p) q = poolCache s q :=
  poolCache_of_bpm (poolFreeChanged_bpm s p) q

/-- A buffer's index is the newest of the cache, which was written back first if it was full. -/
theorem poolCache_giveBack (s : State) (p i : Nat) : poolCache (giveBack s p i) p =
    (if 32 ≤ (poolCache s p).length then (poolCache s p).take ((poolCache s p).length - 16) else poolCache s p) ++ [i] := by
  refine (poolCache_poolFreeChanged _ p p).trans ((poolCache_setCache_same _ p _).trans ?_)
  rw [apply_ite (poolCache · p), poolCache_writeBack]

section
variable {s : State} {p : Nat} (i : Nat) (hroom : (poolCache s p).length < 32)
include hroom

theorem giveBack_of_room : giveBack s p i = poolFreeChanged
    ((setCache s p (poolCache s p ++ [i])).wr (BPM_POOL_ALLOCATED p) BPM_POOL_ALLOCATED.ALLOCATED
      (s.rd (BPM_POOL_ALLOCATED p) BPM_POOL_ALLOCATED.ALLOCATED - 1)) p := by
  simp only [giveBack, if_neg (Nat.not_le.mpr hroom)]
  rfl

theorem giveBack_drc_of_room : (giveBack s p i).drc = s.drc := by
  rw [giveBack_of_room i hroom, poolFreeChanged_drc]
  rfl

theorem bstGet_giveBack_of_room (x : Nat) : bstGet (giveBack s p i) x = bstGet s x := by
  rw [giveBack_of_room i hroom, bstGet_of_bpm (poolFreeChanged_bpm _ p)]
  rfl

theorem rd_allocated_giveBack_of_room : (giveBack s p i).rd (BPM_POOL_ALLOCATED p) BPM_POOL_ALLOCATED.ALLOCATED =
    s.rd (BPM_POOL_ALLOCATED p) BPM_POOL_ALLOCATED.ALLOCATED - 1 := by
  have hlt : s.rd (BPM_POOL_ALLOCATED p) BPM_POOL_ALLOCATED.ALLOCATED < 2 ^ 21 := fget_lt _ _
  rw [giveBack_of_room i hroom, rd_allocated_poolFreeChanged, State.rd_wr_same _ _ _ _ (by decide)]
  exact Nat.mod_eq_of_lt (by show _ < 2 ^ 21; omega)

theorem giveBack_frame_of_room : { giveBack s p i with regs := s.regs, bpm := s.bpm } = s := by
  rw [giveBack_of_room i hroom]
  have h := congrArg (fun u : State => { u with regs := s.regs, bpm := s.bpm }) (poolFreeChanged_frame
    ((setCache s p (poolCache s p ++ [i])).wr (BPM_POOL_ALLOCATED p) BPM_POOL_ALLOCATED.ALLOCATED
      (s.rd (BPM_POOL_ALLOCATED p) BPM_POOL_ALLOCATED.ALLOCATED - 1)) p)
  exact h

end

@[simp] theorem misuse_drc (s : State) (req op code : Nat) (h : Word) : (misuse s req op code h).drc = s.drc := by
  simp only [misuse, State.setBit_drc, apply_ite State.drc, State.wr_drc, State.setReg_drc, State.inc_drc, ite_self]

end Sys2Proof.Machine
end

section
open Sys2Proof Sys2Proof.Machine

/-- Settles O18: each operation's lemma says what it makes of the pool, and the grant answers it. -/
theorem referencesAreCounted : Obligations.ReferencesAreCounted := by
  unfold Obligations.ReferencesAreCounted
  refine ⟨?current, ?misused⟩
  case current =>
    intro s req e h htrip hused hon hwait hidle hc he w kept freed
    have hroomTrip (hroom : (poolCache s (hPool h)).length < 32) :
        (freeBuffer (noteGrant s (hPool h) req) h e).drc.trip = none :=
      (congrArg DrcSt.trip (giveBack_drc_of_room (s := bstPut (noteGrant s (hPool h) req) e (freedEntry w (hPool h)))
        (hIndex h) hroom)).trans htrip
    have hkept (refs : Nat) : kept
        (answer (stOk, h) (bstPut (noteGrant s (hPool h) req) e (withRefs w (hPool h) refs))).irqSync refs := by
      refine ⟨answer_irqSync_answer _ _, (bstGet_irqSync_answer _ _ e).trans (bstGet_bstPut_same _ _ _),
        fun x hx => (bstGet_irqSync_answer _ _ x).trans (bstGet_bstPut_ne _ _ hx), poolCache_irqSync_answer _ _ _, ?_⟩
      rw [State.irqSync_eq_icu]
      rfl
    have hfreed (hroom : (poolCache s (hPool h)).length < 32) :
        freed (answer (stOk, h) (freeBuffer (noteGrant s (hPool h) req) h e)).irqSync := by
      let t := bstPut (noteGrant s (hPool h) req) e (freedEntry w (hPool h))
      have hroomt : (poolCache t (hPool h)).length < 32 := hroom
      have hget (x : Nat) := (bstGet_irqSync_answer (stOk, h) (freeBuffer (noteGrant s (hPool h) req) h e) x).trans
        (bstGet_giveBack_of_room (hIndex h) hroomt x)
      refine ⟨answer_irqSync_answer _ _, (hget e).trans (bstGet_bstPut_same _ _ _),
        fun x hx => (hget x).trans (bstGet_bstPut_ne _ _ hx), ?_,
        (rd_irqSync_answer _ _ _ _).trans (rd_allocated_giveBack_of_room (hIndex h) hroomt), ?_⟩
      · refine (poolCache_irqSync_answer _ _ _).trans ((poolCache_giveBack t _ _).trans ?_)
        rw [if_neg (Nat.not_le.mpr hroomt)]
        rfl
      · refine irqSync_answer_frame ?_ (stOk, h)
        exact congrArg (fun u : State => { u with bpm := s.bpm }) (giveBack_frame_of_room (hIndex h) hroomt)
    refine ⟨?retain, ?releaseMany, ?full, ?room, ?spill⟩
    case retain =>
      exact fun hmay hrefs => ⟨_, exec_retain_of hused hon hwait (by exact htrip)
        (bpmRetain_of_held (s := noteGrant s (hPool h) req) hidle hc he hmay hrefs), hkept _⟩
    case releaseMany =>
      exact fun hmay hrefs => ⟨_, exec_release_of hused hon hwait (by exact htrip)
        (bpmRelease_of_many (s := noteGrant s (hPool h) req) hidle hc he hmay hrefs), hkept _⟩
    case full =>
      exact fun hrefs => exec_retain_of hused hon hwait (by exact htrip)
        (bpmRetain_of_full (s := noteGrant s (hPool h) req) hidle hc he hrefs)
    case room =>
      intro hroom
      exact ⟨fun hmay hrefs => ⟨_, exec_release_of hused hon hwait (hroomTrip hroom)
          (bpmRelease_of_last (s := noteGrant s (hPool h) req) hidle hc he hmay hrefs), hfreed hroom⟩,
        fun howner => ⟨_, exec_free_of hused hon hwait (hroomTrip hroom)
          (bpmFree_of_owner (s := noteGrant s (hPool h) req) hidle hc he howner), hfreed hroom⟩⟩
    case spill =>
      rintro t hlen rfl ht
      refine ⟨(poolCache_giveBack _ _ _).trans ?_, fun hmay hrefs => ?_, fun howner => ?_⟩
      · exact congrArg (· ++ [hIndex h]) (if_pos hlen)
      · exact exec_release_of hused hon hwait ht
          (bpmRelease_of_last (s := noteGrant s (hPool h) req) hidle hc he hmay hrefs)
      · exact exec_free_of hused hon hwait ht (bpmFree_of_owner (s := noteGrant s (hPool h) req) hidle hc he howner)
  case misused =>
    intro s req h htrip hused hon hwait hidle s0
    have hdrc (op code : Nat) : (misuse s0 req op code h).drc.trip = none :=
      (congrArg DrcSt.trip (misuse_drc s0 req op code h)).trans htrip
    refine ⟨fun hc => ?_, fun hc => ?_, fun hc => ?_, fun e hc he howner => ?_⟩
    · exact exec_retain_of hused hon hwait (hdrc _ _) (bpmRetain_of_not_current (s := s0) hidle hc)
    · exact exec_release_of hused hon hwait (hdrc _ _) (bpmRelease_of_freed (s := s0) hidle hc)
    · exact exec_free_of hused hon hwait (hdrc _ _) (bpmFree_of_freed (s := s0) hidle hc)
    · exact exec_free_of hused hon hwait (hdrc _ _) (bpmFree_of_not_owner (s := s0) hidle hc he howner)

end

section
/-!
PROOFS. BUFFER_OP, and the pools' registers and caches (R385 to R389, R401 to R403, R414).
-/
namespace Sys2Proof.Machine

theorem exec_bufferOpAlloc (slot : Nat) (s : State) : exec (.bufferOpAlloc slot) s = execBufferOpAlloc slot s := rfl
theorem exec_bufferOpRetain (slot : Nat) (s : State) : exec (.bufferOpRetain slot) s = execBufferOpRetain slot s := rfl
theorem exec_bufferOpRelease (slot : Nat) (s : State) : exec (.bufferOpRelease slot) s = execBufferOpRelease slot s := rfl
theorem exec_bufferOpFree (slot : Nat) (s : State) : exec (.bufferOpFree slot) s = execBufferOpFree slot s := rfl
theorem exec_poolEn (p : Nat) (data : Word) (s : State) : exec (.poolEn p data) s = execPoolEn p data s := rfl
theorem exec_poolReady (p : Nat) (s : State) : exec (.poolReady p) s = execPoolReady p s := rfl
theorem exec_cacheRefill (p : Nat) (s : State) : exec (.cacheRefill p) s = execCacheRefill p s := rfl
theorem exec_cacheWriteBack (p : Nat) (s : State) : exec (.cacheWriteBack p) s = execCacheWriteBack p s := rfl
theorem exec_minFreeClr (p : Nat) (data : Word) (s : State) : exec (.minFreeClr p data) s = execMinFreeClr p data s := rfl
theorem exec_misuseClr (data : Word) (s : State) : exec (.misuseClr data) s = execMisuseClr data s := rfl

/-! ## BUFFER_OP (R401, R402) -/

section
variable {s : State} {slot op : Nat} (hon : s.domOn 1 = true) (hopcode : (s.job slot).opcode = opBufferOp)
  (hstart : mayStart s (s.job slot) = true) (hidle : bitsOf 7 0 (s.raw HQ_FAULT_INJECT) = 0)
  (hhead : headerBad s (s.job slot) = false) (hword : bitsOf 31 6 ((s.job slot).w 3) = 0)
include hon hopcode hstart hidle hhead hword

/-- A BUFFER_OP that may leave QUEUED, its words legal, completes with what its operation answers. -/
theorem bufferOp_of_legal (hop : (s.job slot).context = op) (body : Job → State → Nat × Word × State) :
    bufferOp slot op body s = completeNow slot (body (s.job slot) s).1 [(body (s.job slot) s).2.1]
      (body (s.job slot) s).2.2 := by
  have hc : ((s.job slot).opcode == opBufferOp && (s.job slot).context == op && mayStart s (s.job slot) && s.domOn 1)
      = true := by
    rw [hopcode, hop, hstart, hon, beq_self_eq_true, beq_self_eq_true]
    rfl
  have hlegal : (headerBad s (s.job slot) || decide (bitsOf 31 6 ((s.job slot).w 3) ≠ 0)) = false := by
    rw [hhead, hword]
    rfl
  simp only [bufferOp, State.when, hc, if_true, tagCheck_of_idle slot hidle, hlegal, Bool.false_eq_true, if_false]

end

/-! ## The rings' words (R387) -/

/-- The check of a ring's word reaches no pool. -/
@[simp] theorem ringCheck_bpm (s : State) (p : Nat) (single bad : Bool) : (ringCheck s p single bad).2.bpm = s.bpm := by
  refine State.bpm_of_beyondMemory ?_
  unfold ringCheck
  dsimp only
  split_ifs <;> simp

/- The read, the check and the write of a ring's words stand for any function that keeps the pools: written out, the DRAM
access would be unrolled burst by burst. -/

/-- A read of the ring gives at most as many handles as it reads words, and changes no cache. -/
theorem ringRead_handles (p q n : Nat) : ∀ s : State,
    (ringRead p n s).1.length ≤ n ∧ poolCache (ringRead p n s).2 q = poolCache s q := by
  obtain ⟨read, hread⟩ : ∃ f, f = dramRdWords := ⟨_, rfl⟩
  obtain ⟨check, hcheck⟩ : ∃ f, f = ringCheck := ⟨_, rfl⟩
  have hr : ∀ port s a n, (read port s a n).2.2.bpm = s.bpm := hread ▸ dramRdWords_bpm
  have hc : ∀ s p a b, (check s p a b).2.bpm = s.bpm := hcheck ▸ ringCheck_bpm
  delta ringRead ringRead._f
  rw [← hread, ← hcheck]
  induction n with
  | zero => exact fun s => ⟨Nat.le_refl 0, rfl⟩
  | succ n ih =>
    intro s
    change (ite (poolRingLen s p = 0) _ _ : List Nat × State).1.length ≤ n + 1 ∧
      poolCache (ite (poolRingLen s p = 0) _ _ : List Nat × State).2 q = poolCache s q
    split
    · exact ⟨Nat.zero_le _, rfl⟩
    · refine ⟨?_, (ih _).2.trans ?_⟩
      · dsimp only
        split
        · exact Nat.le_succ_of_le (ih _).1
        · exact Nat.succ_le_succ (ih _).1
      · split <;> exact (poolCache_of_bpm (hc _ _ _ _) q).trans (poolCache_of_bpm (hr _ _ _ _) q)

/-- Every handle appended lengthens the ring by one. -/
theorem poolRingLen_ringAppend (p : Nat) (xs : List Nat) : ∀ s : State,
    poolRingLen (ringAppend p xs s) p = poolRingLen s p + xs.length := by
  obtain ⟨write, hwrite⟩ : ∃ f, f = dramWrWords := ⟨_, rfl⟩
  delta ringAppend ringAppend._f
  rw [← hwrite]
  induction xs with
  | nil => exact fun s => rfl
  | cons x xs ih =>
    intro s
    refine (ih _).trans ?_
    rw [poolRingLen_setRing_same, List.length_cons]
    omega

theorem poolRingLen_writeBack (s : State) (p : Nat) (h : 24 < (poolCache s p).length) :
    poolRingLen (writeBack s p) p = poolRingLen s p + 16 := by
  rw [writeBack, poolRingLen_ringAppend, poolRingLen_setCache, List.length_drop]
  omega

theorem poolCache_refill (s : State) (p : Nat) :
    ∃ xs, xs.length ≤ 16 ∧ poolCache (refill s p) p = poolCache s p ++ xs := by
  obtain ⟨hlen, hcache⟩ := ringRead_handles p p 16 s
  refine ⟨(ringRead p 16 s).1, hlen, ?_⟩
  unfold refill
  generalize ringRead p 16 s = r at hcache ⊢
  dsimp only
  rw [apply_ite (poolCache · p), poolCache_poolFreeChanged, ite_self, poolCache_setCache_same, hcache]

/-! ## The pools' registers and commands (R386, R414) -/

section
variable {s : State} {p : Nat} {data : Word} (htrip : s.drc.trip = none) (hon : s.domOn 1 = true)
include htrip hon

theorem exec_poolEn_of_refused (hp : p < 8) (hen : poolEn s p = true) (hoff : bitAt 31 data = false)
    (hcount : (s.raw (BPM_POOL_ALLOCATED p)).toNat ≠ 0) :
    exec (.poolEn p data) s = .next (poolRefuse p s).irqSync := by
  rw [exec_poolEn, execPoolEn]
  refine done_when (by rw [hon, decide_eq_true hp]; rfl) ?_ htrip
  simp only [hen, hoff, if_pos hcount]

theorem exec_poolEn_of_legal (hp : p < 8) (hen : poolEn s p = false) (hon31 : bitAt 31 data = true)
    (hcount : bitsOf 20 0 data ≠ 0) (hfit : poolFirst s p + bitsOf 20 0 data ≤ 1048576)
    (hapart : poolOverlap s p (poolFirst s p) (bitsOf 20 0 data) = false)
    (hring : bitAt 0 (s.raw (BPM_POOL_RING_LO p)) = true) (hbase : bitAt 0 (s.raw (BPM_POOL_BASE_LO p)) = true) :
    let t := setRing (setCache (s.setReg (BPM_POOL_CFG p) (BitVec.ofNat 32 (bitsOf 20 0 data + 2 ^ 31))) p []) p 0 0
    exec (.poolEn p data) s = .next (poolFreeChanged { t with bpm := { t.bpm with
      withdrawn := t.bpm.withdrawn.filter (fun e => decide (e < poolFirst s p) ||
        decide (poolFirst s p + bitsOf 20 0 data ≤ e))
      initing := p :: t.bpm.initing } } p).irqSync := by
  intro t
  have hlegal : ¬ (bitsOf 20 0 data = 0 ∨ 1048576 < poolFirst s p + bitsOf 20 0 data ∨
      poolOverlap s p (poolFirst s p) (bitsOf 20 0 data) = true ∨ bitAt 0 (s.raw (BPM_POOL_RING_LO p)) = false ∨
      bitAt 0 (s.raw (BPM_POOL_BASE_LO p)) = false) := by
    rw [hapart, hring, hbase]
    simp only [hcount, Nat.not_lt.mpr hfit, Bool.false_eq_true, Bool.true_eq_false, or_self, not_false_eq_true]
  rw [exec_poolEn, execPoolEn]
  refine done_when (by rw [hon, decide_eq_true hp]; rfl) ?_ ((congrArg DrcSt.trip (poolFreeChanged_drc _ p)).trans htrip)
  simp only [hen, hon31, if_neg hlegal]
  rfl

end

end Sys2Proof.Machine
end

section
open Sys2Proof Sys2Proof.Machine

/-- Settles O19: `bufferOp_of_legal` with each operation's body. -/
theorem bufferOpCompletes : Obligations.BufferOpCompletes := by
  unfold Obligations.BufferOpCompletes
  intro s slot hon hopcode hstart hidle hhead hword j h p
  have hwaits (hwait : holdWaiting s p = false) : poolFreeToGrant (some p) s = true := by
    rw [poolFreeToGrant, hwait]
    rfl
  refine ⟨?alloc, ?retain, ?release, ?free⟩
  case alloc =>
    rintro t arg hop hsize rfl hgrant rfl htrip
    rw [exec_bufferOpAlloc, execBufferOpAlloc]
    refine done_when hgrant ?_ htrip
    rw [bufferOp_of_legal hon hopcode hstart hidle hhead hword hop]
    have hzero : (bitAt 3 (j.w 3) && j.w 2 != 0) = false := by
      cases hby : bitAt 3 (j.w 3) with
      | false => rfl
      | true => rw [show j.w 2 = 0 from hsize hby]; rfl
    simp only [show (bitAt 3 ((s.job slot).w 3) && (s.job slot).w 2 != 0) = false from hzero, Bool.false_eq_true, if_false]
    rfl
  case retain =>
    rintro t hop hwait rfl htrip
    rw [exec_bufferOpRetain, execBufferOpRetain]
    exact done_when (hwaits hwait) (bufferOp_of_legal hon hopcode hstart hidle hhead hword hop _) htrip
  case release =>
    rintro t hop hwait rfl htrip
    rw [exec_bufferOpRelease, execBufferOpRelease]
    exact done_when (hwaits hwait) (bufferOp_of_legal hon hopcode hstart hidle hhead hword hop _) htrip
  case free =>
    rintro t hop hwait rfl htrip
    rw [exec_bufferOpFree, execBufferOpFree]
    exact done_when (hwaits hwait) (bufferOp_of_legal hon hopcode hstart hidle hhead hword hop _) htrip

/-- Settles O20: the pools' commands branch by branch, with what a refill and a write-back make of cache and ring. -/
theorem poolsAndCaches : Obligations.PoolsAndCaches := by
  unfold Obligations.PoolsAndCaches
  intro s
  refine ⟨?enable, ?refused, ?ready, ?refill, ?writeBack, ?minFree, ?misuse⟩
  case enable =>
    exact fun htrip hon p data hp hen hon31 hcount hfit hapart hring hbase =>
      exec_poolEn_of_legal htrip hon hp hen hon31 hcount hfit hapart hring hbase
  case refused =>
    exact fun htrip hon p data hp hen hoff hcount => exec_poolEn_of_refused htrip hon hp hen hoff hcount
  case ready =>
    rintro p t hp rfl htrip
    rw [exec_poolReady, execPoolReady]
    exact done_when (List.contains_iff_mem.mpr hp) rfl htrip
  case refill =>
    intro p hready hlow hring htrip
    refine ⟨?_, poolCache_refill s p⟩
    rw [exec_cacheRefill, execCacheRefill]
    exact done_when (by rw [hready, decide_eq_true hlow, decide_eq_true hring]; rfl) rfl htrip
  case writeBack =>
    intro p hready hhigh htrip
    refine ⟨?_, poolCache_writeBack s p, poolRingLen_writeBack s p hhigh⟩
    rw [exec_cacheWriteBack, execCacheWriteBack]
    exact done_when (by rw [hready, decide_eq_true hhigh]; rfl) rfl htrip
  case minFree =>
    intro htrip hon p data hp hclr
    rw [exec_minFreeClr, execMinFreeClr]
    exact done_when (by rw [hclr, hon, decide_eq_true hp]; rfl) rfl htrip
  case misuse =>
    intro htrip hon data hclr
    rw [exec_misuseClr, execMisuseClr]
    exact done_when (by rw [hclr, hon]; rfl) rfl htrip

end

section
/-!
PROOFS. The DMA channels: starting a list, its entries, its segments, its end and its stop (R404 to R413).
-/
namespace Sys2Proof.Machine

theorem exec_dmaList (slot : Nat) (s : State) : exec (.dmaList slot) s = execDmaList slot s := rfl
theorem exec_dmaGo (c : Nat) (data : Word) (s : State) : exec (.dmaGo c data) s = execDmaGo c data s := rfl
theorem exec_dmaEntry (c : Nat) (dst : Bool) (given : Option (List Word)) (s : State) :
    exec (.dmaEntry c dst given) s = execDmaEntry c dst given s := rfl
theorem exec_dmaSegment (c : Nat) (facts : DmaFacts) (s : State) :
    exec (.dmaSegment c facts) s = execDmaSegment c facts s := rfl
theorem exec_dmaListEnd (c : Nat) (s : State) : exec (.dmaListEnd c) s = execDmaListEnd c s := rfl
theorem exec_dmaEnClear (c : Nat) (data : Word) (s : State) : exec (.dmaEnClear c data) s = execDmaEnClear c data s := rfl

/-- A command's meaning ends in the state it computes, where none of its accesses is held up. -/
theorem done_of_eq {s t u : State} (ht : u = t) (htrip : t.drc.trip = none) : done s u = .next t.irqSync := by
  rw [ht]
  exact done_next s t htrip

/-! ## Runs of a channel -/

@[simp] theorem dmaRun_setDmaRun_same (c : Nat) (r : Option DmaRun) (s : State) : dmaRun (setDmaRun c r s) c = r :=
  tabGet_tabSet_same _ _ _ _

theorem dmaRun_of_dma {s t : State} (h : t.dma = s.dma) (c : Nat) : dmaRun t c = dmaRun s c := by
  rw [dmaRun, h, ← dmaRun]

@[simp] theorem hostWrite_dma (s : State) (a : Nat) (data : Word) : (s.hostWrite a data).dma = s.dma := by
  unfold State.hostWrite
  split
  · rfl
  · split <;> rfl

@[simp] theorem presentRef_dma (r : JobRef) (status : Nat) (results : List Word) (s : State) :
    (presentRef r status results s).dma = s.dma := by
  unfold presentRef
  split_ifs <;> rfl

@[simp] theorem dmaDrop_dma (c : Nat) (s : State) : (dmaDrop c s).dma = s.dma := by
  unfold dmaDrop
  split
  · rfl
  · exact presentRef_dma _ _ _ s

@[simp] theorem dmaRecall_dma (c : Nat) (s : State) : (dmaRecall c s).dma = s.dma := by
  refine foldS_keeps State.dma (fun e t => ?_) _ s
  dsimp only
  split <;> rfl

@[simp] theorem dmaFinish_drc (c : Nat) (job : Option JobRef) (status crc bytes ix : Nat) (s : State) :
    (dmaFinish c job status crc bytes ix s).drc = s.drc := by
  unfold dmaFinish
  dsimp only
  cases job with
  | none => dsimp only; split_ifs <;> rfl
  | some r => rw [presentRef_drc]; split_ifs <;> rfl

/-! ## Starting a list (R408, R409) -/

/-- The run of a list as it starts. -/
def newRun (job : Option JobRef) (addr count : Nat) (host : Bool) : DmaRun :=
  ⟨job, addr, host, count, 0, 0, none, none, 0, 0, 0xFFFFFFFF, 0, 0, none⟩

theorem dmaStart_of_legal {job : Option JobRef} {count : Nat} (c addr : Nat) (host : Bool) (s : State) (hpos : count ≠ 0)
    (hmax : count ≤ 1048576) : dmaStart c job addr count host false s = setDmaRun c (some (newRun job addr count host))
      ((s.wr (DMA_CH_STATUS c) DMA_CH_STATUS.BY_GO (if job.isNone then 1 else 0)).wr (DMA_CH_STATUS c)
        DMA_CH_STATUS.BUSY 1) := by
  simp only [dmaStart, decide_eq_false hpos, decide_eq_false (Nat.not_lt.mpr hmax), Bool.or_self, Bool.false_eq_true,
    if_false]
  rfl

theorem exec_dmaList_of_legal {s : State} {slot : Nat} (htrip : s.drc.trip = none)
    (hstart : s.startable slot opDmaList = true) (hfree : dmaRun s (s.job slot).context = none)
    (hen : bitAt 0 (s.reg (DMA_CH_CTL (s.job slot).context)) = true) (h4 : bitsOf 31 21 ((s.job slot).w 4) = 0)
    (h5 : ((s.job slot).w 5).toNat ≤ 1) (h2 : bitsOf 3 0 ((s.job slot).w 2) = 0)
    (hpos : bitsOf 20 0 ((s.job slot).w 4) ≠ 0) (hmax : bitsOf 20 0 ((s.job slot).w 4) ≤ 1048576) :
    exec (.dmaList slot) s = .next (setDmaRun (s.job slot).context
      (some (newRun (some (s.jobRef slot)) (((s.job slot).w 2).toNat + ((s.job slot).w 3).toNat * 2 ^ 32)
        (bitsOf 20 0 ((s.job slot).w 4)) (bitAt 0 ((s.job slot).w 5))))
      (((beginJob slot s).wr (DMA_CH_STATUS (s.job slot).context) DMA_CH_STATUS.BY_GO 0).wr
        (DMA_CH_STATUS (s.job slot).context) DMA_CH_STATUS.BUSY 1)).irqSync := by
  rw [exec_dmaList, execDmaList]
  refine done_when (by rw [hstart, hfree, hen]; rfl) ?_ htrip
  simp only [h4, decide_eq_false (Nat.not_lt.mpr h5), h2, ne_eq, not_true_eq_false, decide_false, Bool.or_self,
    Bool.false_eq_true, if_false, dmaStart_of_legal _ _ _ _ hpos hmax]
  rfl

section
variable {s : State} {c : Nat} {data : Word} (htrip : s.drc.trip = none) (hon : s.domOn 1 = true) (hc : c < 16)
  (hgo : bitAt 1 data = true) (hen : bitAt 0 data = true)
include htrip hon hc hgo hen

theorem exec_dmaGo_of_idle
    (hidle : (s.hostWrite (DMA_CH_CTL c) data).flag (DMA_CH_STATUS c) DMA_CH_STATUS.BUSY = false)
    (hpos : 0 < (s.hostWrite (DMA_CH_CTL c) data).rd (DMA_CH_COUNT c) DMA_CH_COUNT.COUNT)
    (hmax : (s.hostWrite (DMA_CH_CTL c) data).rd (DMA_CH_COUNT c) DMA_CH_COUNT.COUNT ≤ 1048576) :
    let t := s.hostWrite (DMA_CH_CTL c) data
    exec (.dmaGo c data) s = .next (setDmaRun c (some (newRun none (t.reg64 (DMA_CH_LIST_LO c) (DMA_CH_LIST_HI c))
      (t.rd (DMA_CH_COUNT c) DMA_CH_COUNT.COUNT) (bitAt 2 data)))
      ((t.wr (DMA_CH_STATUS c) DMA_CH_STATUS.BY_GO 1).wr (DMA_CH_STATUS c) DMA_CH_STATUS.BUSY 1)).irqSync := by
  intro t
  rw [exec_dmaGo, execDmaGo]
  refine done_when (by rw [hgo, hon, decide_eq_true hc]; rfl) ?_
    ((congrArg DrcSt.trip (State.hostWrite_drc s (DMA_CH_CTL c) data)).trans htrip)
  simp only [hen, hidle, Bool.not_true, Bool.and_false, Bool.or_self, Bool.false_eq_true, if_false,
    dmaStart_of_legal _ _ _ _ (Nat.ne_of_gt hpos) hmax]
  rfl

theorem exec_dmaGo_of_busy
    (hbusy : (s.hostWrite (DMA_CH_CTL c) data).flag (DMA_CH_STATUS c) DMA_CH_STATUS.BUSY = true) :
    exec (.dmaGo c data) s = .next
      ((s.hostWrite (DMA_CH_CTL c) data).inc (DMA_CH_STATUS c) DMA_CH_STATUS.GO_IGNORED).irqSync := by
  rw [exec_dmaGo, execDmaGo]
  refine done_when (by rw [hgo, hon, decide_eq_true hc]; rfl) ?_
    ((congrArg DrcSt.trip (State.hostWrite_drc s (DMA_CH_CTL c) data)).trans htrip)
  simp only [hen, hbusy, Bool.not_true, Bool.and_false, Bool.or_true, Bool.false_eq_true, if_false, if_true]

end

/-! ## Entries (R404, R405, R408) -/

/-- The run with the next entry of one stream read. -/
def readOn (dst : Bool) (r : DmaRun) : DmaRun :=
  if dst then { r with nextDst := r.nextDst + 1 } else { r with nextSrc := r.nextSrc + 1 }

/-- The run with `e` the current entry of its stream. -/
def takeEntry (dst : Bool) (e : DmaEnt) (r : DmaRun) : DmaRun :=
  if dst then { readOn dst r with dst := some e, dstOff := 0, segDst := 0 }
  else { readOn dst r with src := some e, srcOff := 0, segDst := r.dstOff }

section
variable {s t : State} {c : Nat} {dst : Bool} {given : Option (List Word)} {r : DmaRun} {ws : List Word}
  (hrun : dmaRun s c = some r) (hok : r.failed = none) (hnone : (if dst then r.dst else r.src) = none)
  (hmore : (if dst then r.nextDst else r.nextSrc) < r.count) (hgoing : dmaHalted s r = false)
  (harrive : arriveEntry c (readEntry r (if dst then r.nextDst else r.nextSrc) given s) = (some ws, t))
  (htrip : t.drc.trip = none)
include hrun hok hnone hmore hgoing harrive htrip

theorem exec_dmaEntry_of_other (hother : (entryOf (if dst then r.nextDst else r.nextSrc) ws).dst ≠ dst) :
    exec (.dmaEntry c dst given) s = .next (setDmaRun c (some (readOn dst r)) t).irqSync := by
  rw [exec_dmaEntry, execDmaEntry]
  simp only [hrun]
  refine done_when (by rw [hok, hnone, hgoing, decide_eq_true hmore]; rfl) ?_ (by exact htrip)
  simp only [harrive, bne_iff_ne.mpr hother, if_true]
  cases dst <;> rfl

theorem exec_dmaEntry_of_legal {e : DmaEnt} (he : e = entryOf (if dst then r.nextDst else r.nextSrc) ws)
    (hdst : e.dst = dst) (hcheck : entryCheck123 t e = none) (hlen : e.len ≠ 0)
    (hapart : ∀ o, (if dst then r.src else r.dst) = some o → entriesOverlap t e o = false) :
    exec (.dmaEntry c dst given) s = .next (setDmaRun c (some (takeEntry dst e r)) t).irqSync := by
  rw [exec_dmaEntry, execDmaEntry]
  simp only [hrun]
  refine done_when (by rw [hok, hnone, hgoing, decide_eq_true hmore]; rfl) ?_ (by exact htrip)
  have hsame : (e.dst != dst) = false := by rw [hdst, bne_self_eq_false]
  simp only [harrive, ← he, hsame, hcheck, if_neg hlen, Bool.false_eq_true, if_false]
  cases dst with
  | false =>
    cases ho : r.dst with
    | none => simp only [takeEntry, readOn, Bool.false_eq_true, if_false, ho]
    | some o => simp only [takeEntry, readOn, Bool.false_eq_true, if_false, ho, hapart o ho]
  | true =>
    cases ho : r.src with
    | none => simp only [takeEntry, readOn, if_true, ho]
    | some o => simp only [takeEntry, readOn, if_true, ho, hapart o ho, Bool.false_eq_true, if_false]

end

/-! ## A segment (R407, R413) -/

/-- The run with 64 bytes more moved from entry `se` to entry `de`. -/
def movedOn (se de : DmaEnt) (bs : List Byte) (r : DmaRun) : DmaRun :=
  { r with
    src := if se.len ≤ r.srcOff + 64 then none else some se
    dst := if de.len ≤ r.dstOff + 64 then none else some de
    srcOff := if se.len ≤ r.srcOff + 64 then 0 else r.srcOff + 64
    dstOff := if de.len ≤ r.dstOff + 64 then 0 else r.dstOff + 64
    segDst := if de.len ≤ r.dstOff + 64 then 0 else if se.len ≤ r.srcOff + 64 then r.dstOff + 64 else r.segDst
    crc := crc32cRun r.crc bs
    bytes := r.bytes + 64 }

theorem exec_dmaSegment_of_read {s u t : State} {c : Nat} {r : DmaRun} {se de : DmaEnt} {bs : List Byte} {facts : DmaFacts}
    (hrun : dmaRun s c = some r) (hok : r.failed = none) (hsrc : r.src = some se) (hdst : r.dst = some de)
    (hgoing : dmaHalted s r = false)
    (hread : placeRead (entryPlace s se).1 ((entryPlace s se).2 + r.srcOff) facts.host s = (bs, false, u))
    (hcheck : burstCheck c u = (false, u))
    (ht : t = setDmaRun c (some (movedOn se de bs r))
      (if (entryPlace s de).1 = 2
        then lostWords ((entryPlace s de).2 + r.dstOff) facts.lost
          (placeWrite (entryPlace s de).1 ((entryPlace s de).2 + r.dstOff) bs u)
        else placeWrite (entryPlace s de).1 ((entryPlace s de).2 + r.dstOff) bs u))
    (htrip : t.drc.trip = none) : exec (.dmaSegment c facts) s = .next t.irqSync := by
  rw [exec_dmaSegment, execDmaSegment]
  refine done_of_eq ?_ htrip
  simp only [hrun, hok, hsrc, hdst, hgoing, hread, hcheck, Bool.or_self, Bool.false_eq_true, if_false]
  rw [ht]
  congr 2
  cases r
  cases hok
  cases hsrc
  cases hdst
  unfold movedOn
  split_ifs <;> rfl

/-! ## The end of a list (R406) and an ABORT (R412) -/

theorem exec_dmaListEnd_of_used_up {s : State} {c : Nat} {r : DmaRun} (htrip : s.drc.trip = none)
    (hrun : dmaRun s c = some r) (hok : r.failed = none) (hsrc : r.src = none) (hdst : r.dst = none)
    (hns : r.nextSrc = r.count) (hnd : r.nextDst = r.count) (hgoing : dmaHalted s r = false) :
    exec (.dmaListEnd c) s = .next (dmaFinish c r.slot stOk (runCrc r) r.bytes noFail s).irqSync := by
  have hends : listOutcome r = some (stOk, noFail) := by
    simp only [listOutcome, hok, hsrc, hdst, hns, hnd, Option.isNone_none, beq_self_eq_true, Bool.and_self]
  rw [exec_dmaListEnd, execDmaListEnd]
  refine done_of_eq ?_ ((congrArg DrcSt.trip (dmaFinish_drc ..)).trans htrip)
  simp only [hrun, hends, hgoing]

section
variable {s : State} {c : Nat} {r : DmaRun} (htrip : s.drc.trip = none) (hrun : dmaRun s c = some r)
  (hhalted : dmaHalted s r = true)
include htrip hrun hhalted

theorem exec_dmaEntry_of_halted (dst : Bool) (given : Option (List Word)) :
    exec (.dmaEntry c dst given) s = .next s.irqSync := by
  rw [exec_dmaEntry, execDmaEntry]
  refine done_of_eq ?_ htrip
  simp only [hrun, hhalted, Bool.not_true, Bool.and_false]
  rfl

theorem exec_dmaSegment_of_halted (facts : DmaFacts) : exec (.dmaSegment c facts) s = .next s.irqSync := by
  rw [exec_dmaSegment, execDmaSegment]
  refine done_of_eq ?_ htrip
  simp only [hrun]
  split
  · rw [if_pos hhalted]
  · rfl

theorem exec_dmaListEnd_of_halted : exec (.dmaListEnd c) s = .next s.irqSync := by
  rw [exec_dmaListEnd, execDmaListEnd]
  refine done_of_eq ?_ htrip
  simp only [hrun, hhalted]
  split
  · rfl
  · rfl
  · exact absurd ‹_› (by decide)

end

/-! ## Clearing EN (R411, R412) -/

/-- The registers and the channel as a stopped list leaves them, before its job hears of it. -/
def stoppedRegs (c : Nat) (job : Option JobRef) (s : State) : State :=
  setDmaLast c job (setDmaRun c none ((s.wr (DMA_CH_STATUS c) DMA_CH_STATUS.RESULT stAborted).wr (DMA_CH_STATUS c)
    DMA_CH_STATUS.BUSY 0))

/-- A stop of a running list ends in `stoppedRegs` and the word to its job, whatever the free values were. -/
theorem dmaStop_of_run {c : Nat} {s : State} {r : DmaRun} (hrun : dmaRun s c = some r) :
    ∃ u, dmaStop c s = (match r.slot with
      | none => stoppedRegs c r.slot u
      | some j => presentRef j stAborted [] (stoppedRegs c r.slot u)) := by
  have hkept : dmaRun (dmaDrop c (dmaRecall c s)) c = some r :=
    (dmaRun_of_dma ((dmaDrop_dma c _).trans (dmaRecall_dma c s)) c).trans hrun
  unfold dmaStop
  dsimp only
  rw [hkept]
  exact ⟨_, rfl⟩

theorem dmaStop_of_idle {c : Nat} {s : State} (hrun : dmaRun s c = none) :
    dmaStop c s = dmaDrop c (dmaRecall c s) := by
  have hkept : dmaRun (dmaDrop c (dmaRecall c s)) c = none :=
    (dmaRun_of_dma ((dmaDrop_dma c _).trans (dmaRecall_dma c s)) c).trans hrun
  unfold dmaStop
  dsimp only
  rw [hkept]

theorem dmaRun_dmaStop (c : Nat) (s : State) : dmaRun (dmaStop c s) c = none := by
  cases hrun : dmaRun s c with
  | none =>
    rw [dmaStop_of_idle hrun]
    exact (dmaRun_of_dma ((dmaDrop_dma c _).trans (dmaRecall_dma c s)) c).trans hrun
  | some r =>
    obtain ⟨u, hu⟩ := dmaStop_of_run hrun
    have hregs : dmaRun (stoppedRegs c r.slot u) c = none := dmaRun_setDmaRun_same c none _
    rw [hu]
    split
    · exact hregs
    · exact (dmaRun_of_dma (presentRef_dma _ _ _ _) c).trans hregs

theorem reg_presentRef (r : JobRef) (status : Nat) (results : List Word) (s : State) (a : Nat) :
    (presentRef r status results s).reg a = s.reg a := by
  simp only [State.reg, presentRef_regs, presentRef_fuse]

theorem status_dmaStop_of_run {c : Nat} {s : State} (hrun : dmaRun s c ≠ none) :
    (dmaStop c s).flag (DMA_CH_STATUS c) DMA_CH_STATUS.BUSY = false ∧
      (dmaStop c s).rd (DMA_CH_STATUS c) DMA_CH_STATUS.RESULT = stAborted := by
  obtain ⟨r, hr⟩ := Option.ne_none_iff_exists'.mp hrun
  obtain ⟨u, hu⟩ := dmaStop_of_run hr
  have hreg : (dmaStop c s).reg (DMA_CH_STATUS c) = (stoppedRegs c r.slot u).reg (DMA_CH_STATUS c) := by
    rw [hu]
    split
    · rfl
    · exact reg_presentRef _ _ _ _ _
  have hbusy : (stoppedRegs c r.slot u).rd (DMA_CH_STATUS c) DMA_CH_STATUS.BUSY = 0 :=
    State.rd_wr_same (u.wr (DMA_CH_STATUS c) DMA_CH_STATUS.RESULT stAborted) _ _ 0 (by decide)
  have hresult : (stoppedRegs c r.slot u).rd (DMA_CH_STATUS c) DMA_CH_STATUS.RESULT = stAborted :=
    (State.rd_wr_of_apart (u.wr (DMA_CH_STATUS c) DMA_CH_STATUS.RESULT stAborted) _ 0 (by decide)
      (by unfold Fld.apart; decide)).trans (State.rd_wr_same _ _ _ _ (by decide))
  rw [State.flag, State.rd, State.rd, hreg]
  exact ⟨by rw [← State.rd, hbusy]; rfl, hresult⟩

/-! ## Host memory (R404) -/

theorem tabGetRange_placeWrite_host {bs : List Byte} (s : State) (a : Nat) (hlen : bs.length = 64) :
    tabGetRange (fun _ => 0) (placeWrite 1 a bs s).host.mem a 64 = bs := by
  rw [← hlen]
  exact tabGetRange_tabSetRange _ _ _ _

theorem tabGet_placeWrite_host_out {bs : List Byte} (s : State) {a b : Nat} (hlen : bs.length = 64)
    (h : b < a ∨ a + 64 ≤ b) :
    tabGet (fun _ => 0) (placeWrite 1 a bs s).host.mem b = tabGet (fun _ => 0) s.host.mem b :=
  tabGet_tabSetRange_out _ _ _ _ _ (by rw [hlen]; exact h)

end Sys2Proof.Machine
end

section
open Sys2Proof Sys2Proof.Machine

/-- Settles O21: each command of a channel, and the stop from what it leaves of the run and its status. -/
theorem dmaListsRun : Obligations.DmaListsRun := by
  unfold Obligations.DmaListsRun
  refine ⟨fun s => ⟨?list, ?go, ?entry, ?listEnd, ?halted, ?clear⟩, ?segment, ?host⟩
  case list =>
    intro htrip slot hstart hfree hen j h4 h5 h2 hpos hmax
    exact exec_dmaList_of_legal htrip hstart hfree hen h4 h5 h2 hpos hmax
  case go =>
    intro htrip hon c data hc hgo hen
    exact ⟨exec_dmaGo_of_idle htrip hon hc hgo hen, exec_dmaGo_of_busy htrip hon hc hgo hen⟩
  case entry =>
    intro c dst given r ws t hrun hok hnone i hmore hgoing harrive htrip
    refine ⟨fun hother => ?_, fun hdst hcheck hlen hapart => ?_⟩
    · refine (exec_dmaEntry_of_other hrun hok hnone hmore hgoing harrive htrip hother).trans ?_
      cases dst <;> rfl
    · refine (exec_dmaEntry_of_legal hrun hok hnone hmore hgoing harrive htrip rfl hdst hcheck hlen hapart).trans ?_
      cases dst <;> rfl
  case listEnd =>
    intro htrip c r hrun hok hsrc hdst hns hnd hgoing
    exact exec_dmaListEnd_of_used_up htrip hrun hok hsrc hdst hns hnd hgoing
  case halted =>
    intro htrip c r hrun hhalted
    exact ⟨exec_dmaEntry_of_halted htrip hrun hhalted, exec_dmaSegment_of_halted htrip hrun hhalted,
      exec_dmaListEnd_of_halted htrip hrun hhalted⟩
  case clear =>
    rintro c data t hc hen hgo hon hwas rfl htrip
    refine ⟨?_, dmaRun_dmaStop c _, fun hrun => status_dmaStop_of_run ?_⟩
    · rw [exec_dmaEnClear, execDmaEnClear]
      exact done_when (by rw [hen, hgo, hon, hwas, decide_eq_true hc]; rfl) rfl htrip
    · rwa [dmaRun_of_dma (hostWrite_dma s _ data)]
  case segment =>
    intro s u t c r se de bs facts hrun hok hsrc hdst hgoing hread hcheck place put ht htrip
    exact exec_dmaSegment_of_read hrun hok hsrc hdst hgoing hread hcheck ht htrip
  case host =>
    exact fun s a bs hlen => ⟨tabGetRange_placeWrite_host s a hlen, fun b => tabGet_placeWrite_host_out s hlen, rfl⟩

end

section
/-!
PROOFS. One burst of DRAM with no access injected: what a write stores, and that a read gives it back (R420 to R438).
-/
namespace Sys2Proof.Machine

/-! ## Addresses (R420, R422) -/

theorem winBase_le_of_winFor {s : State} {a w : Nat} (h : winFor s a = some w) : winBase s w ≤ a := by
  have hw := List.find?_some h
  simp only [Bool.and_eq_true, decide_eq_true_eq] at hw
  exact hw.1.2

/-- Windows start on bursts, and so do the granules of a protected one. -/
theorem physOf_mod_burst {s : State} {a w : Nat} (h : winBase s w ≤ a) : physOf s w a % 64 = a % 64 := by
  obtain ⟨b, hb⟩ : ∃ b, winBase s w = 64 * b := ⟨s.rd (DRC_WIN_BASE_LO w) ⟨20, 12⟩ * 2 ^ 14 +
    s.rd (DRC_WIN_BASE_HI w) ⟨0, 8⟩ * 2 ^ 26, by unfold winBase; omega⟩
  obtain ⟨q, hq⟩ : ∃ q, winPhys s w = 64 * q := ⟨s.rd (DRC_WIN_PHYS_LO w) ⟨20, 12⟩ * 2 ^ 14 +
    s.rd (DRC_WIN_PHYS_HI w) ⟨0, 5⟩ * 2 ^ 26, by unfold winPhys; omega⟩
  rw [hb] at h
  simp only [physOf, hb, hq]
  split <;> omega

theorem reqPhys_requestAt {s : State} {a w : Nat} (port : Nat) (isRead : Bool) (n : Nat) (bs : List Byte)
    (h : winBase s w ≤ a) : reqPhys (requestAt s port w a isRead n bs) = physOf s w a := by
  have hmod := physOf_mod_burst h
  simp only [reqPhys, requestAt]
  omega

/-! ## The channels' command history (R437) -/

theorem noteAccess_frame (r : DramReq) (s : State) :
    { noteAccess r s with drc := { (noteAccess r s).drc with chans := s.drc.chans } } = s := by
  unfold noteAccess
  dsimp only
  split <;> rfl

/-- A command noted in the history leaves what waits in the queues. -/
theorem queues_noteBurst (cmd port burst : Nat) (s : State) (c : Nat) :
    (dramChan (noteBurst cmd port burst s) c).rq = (dramChan s c).rq ∧
      (dramChan (noteBurst cmd port burst s) c).wq = (dramChan s c).wq := by
  by_cases h : c = chanOf s (burst * 64)
  · subst h
    unfold noteBurst
    rw [dramChan_putDramChan_same]
    exact ⟨rfl, rfl⟩
  · have hkept : dramChan (noteBurst cmd port burst s) c = dramChan s c := tabGet_tabSet_ne _ _ _ h
    rw [hkept]
    exact ⟨rfl, rfl⟩

theorem queues_noteAccess (r : DramReq) (s : State) (c : Nat) :
    (dramChan (noteAccess r s) c).rq = (dramChan s c).rq ∧ (dramChan (noteAccess r s) c).wq = (dramChan s c).wq := by
  obtain ⟨hrq, hwq⟩ := queues_noteBurst (if r.isRead then 2 else 3) r.port r.burst s c
  unfold noteAccess
  dsimp only
  split
  · exact ⟨hrq, hwq⟩
  · next b _ =>
    obtain ⟨hrq', hwq'⟩ := queues_noteBurst (if r.isRead then 2 else 3) r.port b
      (noteBurst (if r.isRead then 2 else 3) r.port r.burst s) c
    exact ⟨hrq'.trans hrq, hwq'.trans hwq⟩

/-! ## Words free of error (R422, R426) -/

theorem foldl_of_fixed {α β : Type} {f : β → α → β} {b : β} : ∀ {l : List α}, (∀ x ∈ l, f b x = b) → l.foldl f b = b
  | [], _ => rfl
  | x :: l, h => by
    rw [List.foldl_cons, h x List.mem_cons_self]
    exact foldl_of_fixed fun y hy => h y (List.mem_cons_of_mem x hy)

theorem checkWords_of_clean {s : State} {p n : Nat} (c : Nat)
    (h : ∀ i, i < (p % 4 + n + 3) / 4 → tabGet (fun _ => 0) s.drc.err (p / 4 + i) = 0) :
    checkWords s c p n = (none, s) := by
  refine foldl_of_fixed fun i hi => ?_
  simp only [h i (List.mem_range.mp hi)]

theorem checkParts_of_clean {s : State} {parts : List Nat} (c : Nat)
    (h : ∀ k ∈ parts, tabGet (fun _ => 0) s.drc.err k = 0) : checkParts c parts s = (none, s) := by
  refine foldl_of_fixed fun k hk => ?_
  have hword : ∀ i, i < (4 * k % 4 + 4 + 3) / 4 → tabGet (fun _ => 0) s.drc.err (4 * k / 4 + i) = 0 := by
    intro i hi
    rw [show 4 * k / 4 + i = k by omega]
    exact h k hk
  simp only [checkWords_of_clean c hword]
  rfl

/-- The words bytes `p` to `p + n - 1` lie in. -/
def burstWords (p n : Nat) : List Nat := (List.range ((p % 4 + n + 3) / 4)).map (fun i => p / 4 + i)

theorem mem_burstWords {p n k : Nat} : k ∈ burstWords p n ↔ p / 4 ≤ k ∧ k < p / 4 + (p % 4 + n + 3) / 4 := by
  simp only [burstWords, List.mem_map, List.mem_range]
  constructor
  · rintro ⟨i, hi, rfl⟩
    omega
  · exact fun ⟨h1, h2⟩ => ⟨k - p / 4, by omega, by omega⟩

/-- The marks of a burst's words after a write with no access injected; a word replaced in part keeps an uncorrectable
error. -/
def clearedMarks (parts : List Nat) (words : List Nat) (err : Tab Nat) : Tab Nat :=
  words.foldl (fun t k =>
    if parts.contains k && tabGet (fun _ => 0) t k == 2 then t else tabSet (fun _ => 0) t k 0) err

theorem tabGet_clearedMarks {parts : List Nat} (x : Nat) : ∀ (words : List Nat) (err : Tab Nat),
    (∀ k ∈ parts, tabGet (fun _ => 0) err k = 0) →
      tabGet (fun _ => 0) (clearedMarks parts words err) x = if x ∈ words then 0 else tabGet (fun _ => 0) err x
  | [], _, _ => rfl
  | k :: words, err, h => by
    have hput : (parts.contains k && tabGet (fun _ => 0) err k == 2) = false := by
      rw [Bool.and_eq_false_iff]
      by_cases hk : k ∈ parts
      · rw [h k hk]
        exact Or.inr rfl
      · exact Or.inl (by rw [List.contains_eq_mem, decide_eq_false hk])
    have hnext : ∀ j ∈ parts, tabGet (fun _ => 0) (tabSet (fun _ => 0) err k 0) j = 0 := by
      intro j hj
      rw [tabGet_tabSet, h j hj, ite_self]
    have hrec := tabGet_clearedMarks x words (tabSet (fun _ => 0) err k 0) hnext
    rw [clearedMarks] at hrec ⊢
    rw [List.foldl_cons, hput, if_neg Bool.false_ne_true, hrec, tabGet_tabSet]
    by_cases hx : x ∈ words
    · rw [if_pos hx, if_pos (List.mem_cons_of_mem k hx)]
    · by_cases hxk : x = k
      · rw [if_neg hx, if_pos hxk, if_pos (by rw [hxk]; exact List.mem_cons_self)]
      · rw [if_neg hx, if_neg hxk, if_neg (by rw [List.mem_cons]; tauto)]

/-! ## A write (R422, R426) -/

/-- The bytes of a write stored, and its words' marks cleared where they are checked. -/
def storeBurst (r : DramReq) (s : State) : State :=
  { s with drc := { s.drc with
      dram := tabSetRange dramDefault s.drc.dram (reqPhys r) r.data
      err := if r.chk.isSome
        then clearedMarks (partWords (reqPhys r) r.data.length) (burstWords (reqPhys r) r.data.length) s.drc.err
        else s.drc.err } }

/-- The words a write replaces in part are read first. -/
def partsRead (r : DramReq) (s : State) : State :=
  if r.chk.isSome && !(partWords (reqPhys r) r.data.length).isEmpty then noteAccess { r with isRead := true } s else s

theorem partsRead_frame (r : DramReq) (s : State) :
    { partsRead r s with drc := { (partsRead r s).drc with chans := s.drc.chans } } = s := by
  unfold partsRead
  split
  · exact noteAccess_frame _ s
  · rfl

theorem partsRead_err (r : DramReq) (s : State) : (partsRead r s).drc.err = s.drc.err := by
  have h := congrArg (fun t : State => t.drc.err) (partsRead_frame r s)
  exact h

theorem partsRead_regs (r : DramReq) (s : State) : (partsRead r s).regs = s.regs := by
  have h := congrArg State.regs (partsRead_frame r s)
  exact h

theorem takeInjection_of_idle {s : State} {fs : Nat} (sites : List Nat) (h : bitsOf 7 0 (s.raw (fs + 12)) = 0) :
    s.takeInjection fs sites = (none, s) := by
  simp only [State.takeInjection, h, decide_true, Bool.true_or, if_true]

theorem serveWrite_of_clean {r : DramReq} {s : State} (released : Bool)
    (hidle : bitsOf 7 0 (s.raw (DRC_CH_FAULT_STATUS (reqChan s r) + 12)) = 0)
    (hclean : r.chk.isSome = true → ∀ k ∈ partWords (reqPhys r) r.data.length, tabGet (fun _ => 0) s.drc.err k = 0) :
    serveWrite released r s = (none, noteAccess r (storeBurst r (partsRead r s))) := by
  cases hchk : r.chk with
  | none => simp only [serveWrite, hchk, storeBurst, partsRead, Option.isSome_none, Bool.false_and, Bool.false_eq_true, if_false]
  | some b =>
    have hread : partsRead r s = if (partWords (reqPhys r) r.data.length).isEmpty then s
        else noteAccess { r with isRead := true, chk := some b } s := by
      rw [partsRead]
      simp only [hchk]
      cases (partWords (reqPhys r) r.data.length).isEmpty <;> rfl
    have herr := partsRead_err r s
    have hraw : bitsOf 7 0 ((partsRead r s).raw (DRC_CH_FAULT_STATUS (reqChan s r) + 12)) = 0 := by
      rw [State.raw, partsRead_regs]
      exact hidle
    have hparts : ∀ k ∈ partWords (reqPhys r) r.data.length, tabGet (fun _ => 0) (partsRead r s).drc.err k = 0 := by
      rw [herr]
      exact hclean (by rw [hchk]; rfl)
    simp only [serveWrite, hchk, ← hread, checkParts_of_clean _ hparts, takeInjection_of_idle _ hraw, Option.isSome_none,
      Bool.false_and, Bool.false_eq_true, if_false]
    simp only [storeBurst, hchk, Option.isSome_some, if_true]
    rfl

/-- What a burst written with no access injected leaves. -/
def burstWritten (r : DramReq) (s : State) : State := noteAccess r (storeBurst r (partsRead r s))

section
variable (r : DramReq) (s : State)

theorem burstWritten_store : (burstWritten r s).drc.dram = tabSetRange dramDefault s.drc.dram (reqPhys r) r.data := by
  have hread := congrArg (fun t : State => tabSetRange dramDefault t.drc.dram (reqPhys r) r.data) (partsRead_frame r s)
  rw [burstWritten, noteAccess_dram]
  exact hread

theorem burstWritten_err : (burstWritten r s).drc.err = if r.chk.isSome
    then clearedMarks (partWords (reqPhys r) r.data.length) (burstWords (reqPhys r) r.data.length) s.drc.err
    else s.drc.err := by
  have hnote := congrArg (fun t : State => t.drc.err) (noteAccess_frame r (storeBurst r (partsRead r s)))
  refine (hnote : (burstWritten r s).drc.err = (storeBurst r (partsRead r s)).drc.err).trans ?_
  rw [← partsRead_err r s]
  rfl

theorem burstWritten_frame : { burstWritten r s with drc := { (burstWritten r s).drc with
    dram := s.drc.dram, err := s.drc.err, chans := s.drc.chans } } = s := by
  have hnote := congrArg (fun t : State => { t with drc := { t.drc with
    dram := s.drc.dram, err := s.drc.err, chans := s.drc.chans } }) (noteAccess_frame r (storeBurst r (partsRead r s)))
  have hread := congrArg (fun t : State => { t with drc := { t.drc with dram := s.drc.dram, err := s.drc.err } })
    (partsRead_frame r s)
  exact hnote.trans hread

theorem queues_burstWritten (c : Nat) : (dramChan (burstWritten r s) c).rq = (dramChan s c).rq ∧
    (dramChan (burstWritten r s) c).wq = (dramChan s c).wq := by
  obtain ⟨hrq, hwq⟩ := queues_noteAccess r (storeBurst r (partsRead r s)) c
  have hread : (dramChan (partsRead r s) c).rq = (dramChan s c).rq ∧
      (dramChan (partsRead r s) c).wq = (dramChan s c).wq := by
    unfold partsRead
    split
    · exact queues_noteAccess _ s c
    · exact ⟨rfl, rfl⟩
  exact ⟨hrq.trans hread.1, hwq.trans hread.2⟩

end

/-! ## A burst that is served at once (R431, R439) -/

theorem takeBack_of_none {r : DramReq} {s : State}
    (h : ∀ b ∈ s.drc.returned, ¬ (b.port = r.port ∧ b.burst = r.burst)) : takeBack r s = (none, s) := by
  have hfind : s.drc.returned.find? (fun b => b.port == r.port && b.burst == r.burst && b.isRead == r.isRead) = none := by
    rw [List.find?_eq_none]
    intro b hb
    simp only [Bool.and_eq_true, beq_iff_eq]
    exact fun hsame => h b hb hsame.1
  rw [takeBack, hfind]

theorem requestCheck_of_idle {s : State} (c n : Nat) (h : bitsOf 7 0 (s.raw (DRC_CH_FAULT_STATUS c + 12)) = 0) :
    requestCheck none c n s = (false, s) := by
  simp only [requestCheck, issueCheck, Option.isSome_none, Bool.false_eq_true, if_false, fabricCheck_of_idle n h,
    sramCheck_of_idle 1 _ h]

section
variable {s : State} {port a w : Nat} (hwin : winFor s a = some w)
include hwin

theorem dramWrBurst_of_served {bs : List Byte} {r : DramReq} (hr : requestAt s port w a false bs.length bs = r)
    (hlive : reqDead s r = false) (hstop : accessStop s w r = none)
    (hback : ∀ b ∈ s.drc.returned, ¬ (b.port = r.port ∧ b.burst = r.burst))
    (hidle : bitsOf 7 0 (s.raw (DRC_CH_FAULT_STATUS (reqChan s r) + 12)) = 0)
    (hclean : r.chk.isSome = true → ∀ k ∈ partWords (reqPhys r) r.data.length, tabGet (fun _ => 0) s.drc.err k = 0) :
    dramWrBurst port s a bs = burstWritten r s := by
  simp only [dramWrBurst, hwin, hr, hlive, hstop, takeBack_of_none hback, requestCheck_of_idle _ _ hidle,
    serveWrite_of_clean _ hidle hclean, Bool.false_eq_true, if_false, reduceCtorEq]
  rfl

theorem dramRdBurst_of_served {n : Nat} {q : DramReq} (hq : requestAt s port w a true n [] = q) (hlen : q.len = n)
    (hlive : reqDead s q = false) (hstop : accessStop s w q = none)
    (hback : ∀ b ∈ s.drc.returned, ¬ (b.port = q.port ∧ b.burst = q.burst))
    (hidle : bitsOf 7 0 (s.raw (DRC_CH_FAULT_STATUS (reqChan s q) + 12)) = 0)
    (hclean : q.chk.isSome = true → ∀ k ∈ burstWords (reqPhys q) n, tabGet (fun _ => 0) s.drc.err k = 0)
    (hqueue : ∀ x ∈ (dramChan s (reqChan s q)).wq, sameBurst q x = false) :
    dramRdBurst port s a n = (tabGetRange dramDefault s.drc.dram (reqPhys q) n, false, noteAccess q s) := by
  have hnone : (dramChan s (reqChan s q)).wq.filter (fun x => sameBurst q x && (q.unit || decide (x.seq < q.seq))) = [] := by
    rw [List.filter_eq_nil_iff]
    intro x hx
    rw [hqueue x hx, Bool.false_and]
    exact Bool.false_ne_true
  have hchk : (if q.chk.isSome then checkWords s (reqChan s q) (reqPhys q) n else (none, s)) = (none, s) := by
    split
    · next hsome =>
      refine checkWords_of_clean _ fun i hi => hclean hsome _ ?_
      exact mem_burstWords.mpr ⟨Nat.le_add_right _ _, Nat.add_lt_add_left hi _⟩
    · rfl
  have hserve : serveRead q s = (tabGetRange dramDefault s.drc.dram (reqPhys q) n, none, noteAccess q s) := by
    simp only [serveRead, hnone, hlen, hchk]
    rfl
  simp only [dramRdBurst, hwin, hq, hlive, hstop, takeBack_of_none hback, requestCheck_of_idle _ _ hidle, hserve,
    Bool.false_eq_true, if_false, Option.isSome_none]

end

/-! ## A read after a write -/

/-- The state a burst's write leaves, as a change of the state it began in. -/
theorem burstWritten_eq (r : DramReq) (s : State) : ∃ d e c,
    burstWritten r s = { s with drc := { s.drc with dram := d, err := e, chans := c } } := by
  have h := congrArg (fun t : State => { t with drc := { t.drc with
    dram := (burstWritten r s).drc.dram, err := (burstWritten r s).drc.err, chans := (burstWritten r s).drc.chans } })
    (burstWritten_frame r s)
  exact ⟨_, _, _, h⟩

/-- A port that has written a burst may read it at once. -/
theorem accessStop_burstWritten {s : State} {w : Nat} {r q : DramReq} (hread : q.isRead = true)
    (hstop : accessStop s w q = none) : accessStop (burstWritten r s) w q = none := by
  obtain ⟨hrq, -⟩ := queues_burstWritten r s (reqChan s q)
  obtain ⟨d, e, c, hu⟩ := burstWritten_eq r s
  have hwaits : queueWaits (dramChan (burstWritten r s) (reqChan s q)) q = queueWaits (dramChan s (reqChan s q)) q := by
    simp only [queueWaits, hread, if_true, hrq]
  rw [hu] at hwaits ⊢
  refine Eq.trans ?_ hstop
  unfold accessStop
  exact congrArg (fun b => if (reqChans s q).any (chanFrozen s) || s.drc.zeroing.contains w || b then some Trip.wait
    else match (reqChans s q).find? (fun c => chanState s c == 2) with
      | some c => some (.exit c)
      | none => if (reqChans s q).any (fun c => chanState s c == 3) then some .wait else none) hwaits

/-- No older write of the port to the burst waits where a write of it need not wait. -/
theorem sameBurst_false_of_accessStop {s : State} {w : Nat} {r x : DramReq} (hwrite : r.isRead = false)
    (hstop : accessStop s w r = none) (hx : x ∈ (dramChan s (reqChan s r)).wq) : sameBurst r x = false := by
  cases hsame : sameBurst r x with
  | false => rfl
  | true =>
    have hwaits : queueWaits (dramChan s (reqChan s r)) r = true := by
      simp only [queueWaits, hwrite, Bool.false_eq_true, if_false, Bool.or_eq_true, List.any_eq_true]
      exact Or.inr ⟨x, List.mem_append_right _ hx, hsame⟩
    simp only [accessStop, hwaits, Bool.or_true, if_true, reduceCtorEq] at hstop

theorem dramRdBurst_burstWritten {s : State} {port a w : Nat} {bs : List Byte} (hwin : winFor s a = some w)
    {q r : DramReq} (hq : q = requestAt s port w a true bs.length []) (hr : r = requestAt s port w a false bs.length bs)
    (hlive : reqDead s q = false) (hstopq : accessStop s w q = none) (hstopr : accessStop s w r = none)
    (hback : ∀ b ∈ s.drc.returned, ¬ (b.port = q.port ∧ b.burst = q.burst))
    (hidle : bitsOf 7 0 (s.raw (DRC_CH_FAULT_STATUS (reqChan s q) + 12)) = 0)
    (hclean : r.chk.isSome = true → ∀ k ∈ partWords (reqPhys r) r.data.length, tabGet (fun _ => 0) s.drc.err k = 0) :
    dramRdBurst port (burstWritten r s) a bs.length = (bs, false, noteAccess q (burstWritten r s)) := by
  have hphys : reqPhys q = reqPhys r := by rw [hq, hr]; rfl
  have hdata : r.data = bs := by rw [hr]; rfl
  have hstop := accessStop_burstWritten (r := r) (by rw [hq]; rfl) hstopq
  have hmarks : q.chk.isSome = true → ∀ k ∈ burstWords (reqPhys q) bs.length,
      tabGet (fun _ => 0) (burstWritten r s).drc.err k = 0 := by
    intro hsome k hk
    have hsome' : r.chk.isSome = true := by rw [hr]; rw [hq] at hsome; exact hsome
    rw [burstWritten_err, if_pos hsome', tabGet_clearedMarks _ _ _ (hclean hsome'), if_pos]
    rwa [hdata, ← hphys]
  have hqueue : ∀ x ∈ (dramChan (burstWritten r s) (reqChan s q)).wq, sameBurst q x = false := by
    intro x hx
    rw [(queues_burstWritten r s _).2] at hx
    have hchan : reqChan s q = reqChan s r := by rw [hq, hr]; rfl
    rw [hchan] at hx
    refine Eq.trans ?_ (sameBurst_false_of_accessStop (by rw [hr]; rfl) hstopr hx)
    rw [hq, hr]
    rfl
  have hbytes : tabGetRange dramDefault (burstWritten r s).drc.dram (reqPhys q) bs.length = bs := by
    rw [burstWritten_store, hdata, hphys]
    exact tabGetRange_tabSetRange _ _ _ _
  have hlen : q.len = bs.length := by rw [hq]; rfl
  obtain ⟨d, e, c, hu⟩ := burstWritten_eq r s
  have hwin' : winFor (burstWritten r s) a = some w := by rw [hu]; exact hwin
  have hq' : requestAt (burstWritten r s) port w a true bs.length [] = q := by rw [hu]; exact hq.symm
  have hlive' : reqDead (burstWritten r s) q = false := by rw [hu]; exact hlive
  have hback' : ∀ b ∈ (burstWritten r s).drc.returned, ¬ (b.port = q.port ∧ b.burst = q.burst) := by rw [hu]; exact hback
  have hchan : reqChan (burstWritten r s) q = reqChan s q := by rw [hu]; rfl
  have hidle' : bitsOf 7 0 ((burstWritten r s).raw (DRC_CH_FAULT_STATUS (reqChan (burstWritten r s) q) + 12)) = 0 := by
    rw [hchan, hu]
    exact hidle
  rw [← hchan] at hqueue
  rw [dramRdBurst_of_served hwin' hq' hlen hlive' hstop hback' hidle' hmarks hqueue, hbytes]

/-! ## A burst outside every window, and one that is held up (R421, R423, R433, R438) -/

theorem reg_lo_unmapped (s : State) (a : Nat) : (unmapped s a).reg DRC_ERR_ADDR_LO = BitVec.ofNat 32 (a % 2 ^ 40) :=
  (State.reg_setReg_ne _ _ (by decide)).trans (State.reg_setReg_same _ _ _)

theorem deadRead_spec (s : State) (a n : Nat) : (deadRead s a n).1.length = n ∧ (deadRead s a n).2.1 = true ∧
    { (deadRead s a n).2.2 with free := s.free } = unmapped s a :=
  ⟨freshBytes_length n _, rfl, freshBytes_state n (unmapped s a)⟩

theorem dramRdBurst_of_stopped {s : State} {port a w n : Nat} {t : Trip} (hwin : winFor s a = some w)
    (hlive : reqDead s (requestAt s port w a true n []) = false)
    (hstop : accessStop s w (requestAt s port w a true n []) = some t) :
    (dramRdBurst port s a n).2.2 = s.trip t := by
  simp only [dramRdBurst, hwin, hlive, hstop, Bool.false_eq_true, if_false]

theorem dramWrBurst_of_stopped {s : State} {port a w : Nat} {bs : List Byte} {t : Trip} (hwin : winFor s a = some w)
    (hlive : reqDead s (requestAt s port w a false bs.length bs) = false)
    (hstop : accessStop s w (requestAt s port w a false bs.length bs) = some t) :
    dramWrBurst port s a bs = s.trip t := by
  simp only [dramWrBurst, hwin, hlive, hstop, Bool.false_eq_true, if_false]

theorem accessStop_of_held {s : State} {w : Nat} {r : DramReq}
    (h : (∃ c ∈ reqChans s r, chanFrozen s c = true) ∨ w ∈ s.drc.zeroing) : accessStop s w r = some .wait := by
  have hheld : ((reqChans s r).any (chanFrozen s) || s.drc.zeroing.contains w) = true := by
    rw [Bool.or_eq_true, List.any_eq_true, List.contains_iff_mem]
    exact h
  rw [accessStop, hheld, Bool.true_or, if_pos rfl]

theorem accessStop_of_self_refresh {s : State} {w : Nat} {r : DramReq} (hfrozen : ∀ c ∈ reqChans s r, chanFrozen s c = false)
    (hzero : w ∉ s.drc.zeroing) (hqueue : queueWaits (dramChan s (reqChan s r)) r = false)
    (hstate : chanState s (reqChan s r) = 2) : accessStop s w r = some (.exit (reqChan s r)) := by
  have hgo : ((reqChans s r).any (chanFrozen s) || s.drc.zeroing.contains w || queueWaits (dramChan s (reqChan s r)) r)
      = false := by
    rw [hqueue, List.contains_eq_mem, decide_eq_false hzero, Bool.or_false, Bool.or_false, List.any_eq_false]
    exact fun c hc => by rw [hfrozen c hc]; exact Bool.false_ne_true
  have hfirst : (reqChans s r).find? (fun c => chanState s c == 2) = some (reqChan s r) :=
    List.find?_cons_of_pos (by rw [hstate]; rfl)
  simp only [accessStop, hgo, hfirst, Bool.false_eq_true, if_false]

end Sys2Proof.Machine
end

section
open Sys2Proof Sys2Proof.Machine

/-- Settles O22: the write leaves `burstWritten`, and the read of it finds its bytes with no error marked and no older write
queued. -/
theorem dramReadsBack : Obligations.DramReadsBack := by
  unfold Obligations.DramReadsBack
  refine ⟨?served, ?unmapped, ?held⟩
  case served =>
    intro s port a w bs hwin hfit q r p u hlive hstopq hstopr hback hidle hclean
    have hphys : reqPhys r = p := reqPhys_requestAt port false bs.length bs (winBase_le_of_winFor hwin)
    have hsome : r.chk.isSome = winProt s w := by
      unfold r requestAt
      dsimp only
      split <;> next h => simp only [h, Option.isSome_some, Option.isSome_none]
    have hparts : r.chk.isSome = true → ∀ k ∈ partWords (reqPhys r) r.data.length, tabGet (fun _ => 0) s.drc.err k = 0 := by
      rw [hsome, hphys]
      exact hclean
    have hu : u = burstWritten r s := dramWrBurst_of_served hwin rfl hlive hstopr hback hidle hparts
    have hread : dramRdBurst port u a bs.length = (bs, false, noteAccess q u) := by
      rw [hu]
      exact dramRdBurst_burstWritten hwin rfl rfl hlive hstopq hstopr hback hidle hparts
    rw [hread]
    refine ⟨rfl, rfl, noteAccess_frame q u, fun x hx => ?_, fun k => ?_, ?_⟩
    · rw [hu, burstWritten_store, hphys]
      exact tabGet_tabSetRange_out _ _ _ _ _ hx
    · rw [hu, burstWritten_err, hsome]
      cases hprot : winProt s w with
      | false => simp only [Bool.false_eq_true, if_false, false_and]
      | true =>
        rw [if_pos rfl, tabGet_clearedMarks k _ _ (hparts (hsome.trans hprot)), hphys]
        exact if_congr (mem_burstWords.trans (and_iff_right rfl).symm) rfl rfl
    · rw [hu]
      exact burstWritten_frame r s
  case unmapped =>
    intro s port a n bs hwin
    have hread : dramRdBurst port s a n = deadRead s a n := by simp only [dramRdBurst, hwin]
    rw [hread]
    exact ⟨by simp only [dramWrBurst, hwin], reg_lo_unmapped s a, deadRead_spec s a n⟩
  case held =>
    intro s port a w n bs hwin q hlive
    refine ⟨fun hheld => ⟨?_, ?_⟩, fun hfrozen hzero hqueue hstate => ?_⟩
    · exact dramRdBurst_of_stopped hwin hlive (accessStop_of_held hheld)
    · exact dramWrBurst_of_stopped hwin hlive (accessStop_of_held hheld)
    · exact dramRdBurst_of_stopped hwin hlive (accessStop_of_self_refresh hfrozen hzero hqueue hstate)

end

section
/-!
PROOFS. The memory system's set-up: initialisation, windows and masks (R419 to R425).
-/
namespace Sys2Proof.Machine

theorem exec_drcInit (data : Word) (s : State) : exec (.drcInit data) s = execDrcInit data s := rfl
theorem exec_drcInitDone (s : State) : exec .drcInitDone s = execDrcInitDone s := rfl
theorem exec_drcWinEn (w : Nat) (data : Word) (s : State) : exec (.drcWinEn w data) s = execDrcWinEn w data s := rfl
theorem exec_windowZeroDone (w : Nat) (s : State) : exec (.windowZeroDone w) s = execWindowZeroDone w s := rfl
theorem exec_drcMapWrite (i : Nat) (data : Word) (s : State) : exec (.drcMapWrite i data) s = execDrcMapWrite i data s := rfl

@[simp] theorem startChannels_drc (s : State) : (startChannels s).drc = s.drc := by
  refine foldS_keeps State.drc (fun c t => ?_) _ s
  split <;> rfl

/-! ## Initialisation (R419) -/

theorem exec_drcInit_of_legal {s : State} {data : Word} (htrip : s.drc.trip = none) (hon : s.domOn 1 = true)
    (hinit : bitAt 8 data = true) (hready : (s.hostWrite DRC_CFG data).flag DRC_CFG DRC_CFG.READY = false)
    (hrate : (s.hostWrite DRC_CFG data).rd DRC_CFG DRC_CFG.RATE ≠ 3)
    (hdensity : (s.hostWrite DRC_CFG data).rd DRC_CFG DRC_CFG.DENSITY ≠ 3) :
    let t := s.hostWrite DRC_CFG data
    exec (.drcInit data) s = .next ({ t with drc := { t.drc with initing := true } } : State).irqSync := by
  rw [exec_drcInit, execDrcInit]
  refine done_when (by rw [hinit, hon]; rfl) ?_ ((congrArg DrcSt.trip (State.hostWrite_drc s DRC_CFG data)).trans htrip)
  simp only [hready, hrate, hdensity, or_self, Bool.false_eq_true, if_false]

theorem exec_drcInitDone_of_initing {s : State} (htrip : s.drc.trip = none) (hinit : s.drc.initing = true) :
    exec .drcInitDone s = .next (startChannels
      (({ s with drc := { s.drc with initing := false } } : State).wr DRC_CFG DRC_CFG.READY 1)).irqSync := by
  rw [exec_drcInitDone, execDrcInitDone]
  exact done_when hinit rfl ((congrArg DrcSt.trip (startChannels_drc _)).trans htrip)

/-! ## Windows (R421, R506) -/

/-- The window's kind and zero fill as a write of its CFG register sets them. -/
def windowKind (w : Nat) (data : Word) (s : State) : State :=
  (s.wr (DRC_WIN_CFG w) DRC_WIN_CFG.PROTECTED (bitsOf 1 1 data)).wr (DRC_WIN_CFG w) DRC_WIN_CFG.ZERO (bitsOf 2 2 data)

section
variable {s : State} {w : Nat} {data : Word} (htrip : s.drc.trip = none) (hw : w < 64) (hon : s.domOn 1 = true)
include htrip hw hon

theorem exec_drcWinEn_of_under_test (htest : underTest s w = true) :
    exec (.drcWinEn w data) s = .next (badWindow w s).irqSync := by
  rw [exec_drcWinEn, execDrcWinEn]
  exact done_when (by rw [hon, decide_eq_true hw]; rfl) (if_pos htest) htrip

variable (hlock : s.locked = false) (htest : underTest s w = false) (hoff : winEn s w = false) (hen : bitAt 0 data = true)
include hlock htest hoff hen

theorem exec_drcWinEn_of_refused (hrefuse : windowRefused (windowKind w data s) w = true) :
    exec (.drcWinEn w data) s = .next (badWindow w s).irqSync := by
  rw [windowKind] at hrefuse
  rw [exec_drcWinEn, execDrcWinEn]
  refine done_when (by rw [hon, decide_eq_true hw]; rfl) ?_ htrip
  simp only [htest, hlock, hoff, hen, hrefuse, Bool.not_true, Bool.false_eq_true, if_false, if_true]

variable (htaken : windowRefused (windowKind w data s) w = false)
include htaken

theorem exec_drcWinEn_of_no_fill (hfill : (bitAt 1 data && bitAt 2 data) = false) :
    exec (.drcWinEn w data) s =
      .next (((windowKind w data s).setBit (DRC_WIN_CFG w) 0).setBit (DRC_WIN_CFG w) 3).irqSync := by
  rw [windowKind] at htaken
  rw [exec_drcWinEn, execDrcWinEn]
  refine done_when (by rw [hon, decide_eq_true hw]; rfl) ?_ (by exact htrip)
  simp only [htest, hlock, hoff, hen, htaken, hfill, Bool.not_true, Bool.false_eq_true, if_false]
  rfl

theorem exec_drcWinEn_of_fill (hfill : (bitAt 1 data && bitAt 2 data) = true) :
    let u := (windowKind w data s).setBit (DRC_WIN_CFG w) 0
    let z := zeroPhys (winPhys u w) (winPhysSize u w) u
    exec (.drcWinEn w data) s =
      .next ({ z with drc := { z.drc with zeroing := w :: z.drc.zeroing } } : State).irqSync := by
  rw [windowKind] at htaken
  rw [exec_drcWinEn, execDrcWinEn]
  refine done_when (by rw [hon, decide_eq_true hw]; rfl) ?_ (by exact htrip)
  simp only [htest, hlock, hoff, hen, htaken, hfill, Bool.not_true, Bool.false_eq_true, if_false, if_true]
  rfl

end

theorem exec_windowZeroDone_of_zeroing {s : State} {w : Nat} (htrip : s.drc.trip = none) (hw : w ∈ s.drc.zeroing) :
    exec (.windowZeroDone w) s = .next ({ s.setBit (DRC_WIN_CFG w) 3 with
      drc := { s.drc with zeroing := s.drc.zeroing.filter (fun v => v != w) } } : State).irqSync := by
  rw [exec_windowZeroDone, execWindowZeroDone]
  exact done_when (List.contains_iff_mem.mpr hw) rfl (by exact htrip)

/-! ## Masks (R425) -/

section
variable {s : State} {i : Nat} {data : Word} (htrip : s.drc.trip = none) (hi : i < 9) (hon : s.domOn 1 = true)
  (hlock : s.locked = false) (hhome : ¬ (s.fuse.variant = .lzw4430 ∧ i = 4))
include hi hon hlock hhome

theorem drcMapWrite_taken_up :
    (decide (i < 9) && s.domOn 1 && !s.locked && !(s.fuse.variant == .lzw4430 && i == 4)) = true := by
  have hnot : (s.fuse.variant == .lzw4430 && i == 4) = false := by
    rw [Bool.eq_false_iff]
    exact fun h => hhome (by simpa using h)
  rw [hon, hlock, hnot, decide_eq_true hi]
  rfl

include htrip

theorem exec_drcMapWrite_of_ok (hok : maskOk s.fuse.variant i (bitsOf 30 0 data) = true) :
    exec (.drcMapWrite i data) s = .next (s.setReg (DRC_MAP_CH i) (BitVec.ofNat 32 (bitsOf 30 0 data))).irqSync := by
  rw [exec_drcMapWrite, execDrcMapWrite]
  exact done_when (drcMapWrite_taken_up hi hon hlock hhome) (if_pos hok) (by exact htrip)

theorem exec_drcMapWrite_of_bad (hbad : maskOk s.fuse.variant i (bitsOf 30 0 data) = false) :
    exec (.drcMapWrite i data) s = .next (s.setBit DRC_ERR 1).irqSync := by
  rw [exec_drcMapWrite, execDrcMapWrite]
  exact done_when (drcMapWrite_taken_up hi hon hlock hhome) (if_neg (by rw [hbad]; exact Bool.false_ne_true))
    (by exact htrip)

end

end Sys2Proof.Machine
end

section
open Sys2Proof Sys2Proof.Machine

/-- Settles O23: each command's branches. -/
theorem dramSetUp : Obligations.DramSetUp := by
  unfold Obligations.DramSetUp
  intro s htrip
  refine ⟨?init, ?initDone, ?enable, ?underTest, ?zeroDone, ?mask⟩
  case init =>
    exact fun data hon hinit hready hrate hdensity => exec_drcInit_of_legal htrip hon hinit hready hrate hdensity
  case initDone => exact exec_drcInitDone_of_initing htrip
  case enable =>
    intro w data hw hon hlock htest hoff hen t
    exact ⟨exec_drcWinEn_of_refused htrip hw hon hlock htest hoff hen,
      exec_drcWinEn_of_no_fill htrip hw hon hlock htest hoff hen,
      exec_drcWinEn_of_fill htrip hw hon hlock htest hoff hen⟩
  case underTest => exact fun w data hw hon htest => exec_drcWinEn_of_under_test htrip hw hon htest
  case zeroDone => exact fun w hw => exec_windowZeroDone_of_zeroing htrip hw
  case mask =>
    intro i data hi hon hlock hhome
    exact ⟨exec_drcMapWrite_of_ok htrip hi hon hlock hhome, exec_drcMapWrite_of_bad htrip hi hon hlock hhome⟩

end

section
/-!
PROOFS. Freezing a channel and releasing it (R436 to R439, R452).
-/
namespace Sys2Proof.Machine

theorem exec_freeze (c : Nat) (cmdPath : Bool) (a : Nat) (facts : FreezeFacts) (s : State) :
    exec (.freeze c cmdPath a facts) s = execFreeze c cmdPath a facts s := rfl
theorem exec_freezeRelease (c : Nat) (data : Word) (s : State) :
    exec (.freezeRelease c data) s = execFreezeRelease c data s := rfl
theorem exec_eccWrite (c : Nat) (data : Word) (s : State) : exec (.eccWrite c data) s = execEccWrite c data s := rfl

/-! ## A bit of a register -/

/-- A cleared bit reads clear. -/
theorem bitAt_clrBit_same (s : State) (a : Nat) {b : Nat} (hb : b < 32) : bitAt b ((s.clrBit a b).reg a) = false := by
  rw [State.clrBit, State.wr, State.reg_setReg_same, bitAt, testBit_fput _ _ _ _ (show b + 1 ≤ 32 by omega),
    if_pos ⟨Nat.le_refl b, Nat.lt_succ_self b⟩, Nat.zero_testBit]

/-! ## The compositor's HOLD (R233) -/

/-- Entering HOLD writes CMP_STATUS, CMP_IRQ_STATUS and one word of the picture table, the third of its eight. -/
theorem reg_enterHold_ne (s : State) {a : Nat} (hst : a ≠ CMP_STATUS) (hirq : a ≠ CMP_IRQ_STATUS) (htab : a % 0x20 ≠ 8) :
    (enterHold s).reg a = s.reg a := by
  have habandon (t : State) : (stopFrame (wbAbandon t)).reg a = t.reg a := by
    unfold wbAbandon
    split
    · rfl
    · exact State.reg_wr_ne t _ _ (by unfold DS_PPT; omega)
  unfold enterHold
  split
  · rfl
  · exact (habandon _).trans ((State.reg_wr_ne _ _ _ hirq).trans (State.reg_wr_ne _ _ _ hst))

/-! ## Freezing (R436, R437) -/

/-- The channel's own registers and the fault of a freeze. -/
def freezeMarked (c cause : Nat) (s : State) : State :=
  let s1 := ((s.wr (DRC_CH_FREEZE c) DRC_CH_FREEZE.FROZEN 1).wr (DRC_CH_FREEZE c) DRC_CH_FREEZE.CAUSE cause).incSat
    (DRC_CH_FREEZE c) DRC_CH_FREEZE.COUNT
  let s2 := s1.setReg DRC_FROZEN (BitVec.ofNat 32 (Nat.lor (s1.raw DRC_FROZEN).toNat (2 ^ c)))
  let s3 := (s2.wr (DRC_CH_STATUS c) DRC_CH_STATUS.STATE 4).setBit (DRC_CH_IRQ_STATUS c) 3
  s3.setFault (DRC_CH_FAULT_STATUS c) (if cause = 1 then 1 else 3)

/-- The cliff record of a freeze: the commands, the addresses, the syndrome, the queues and the frame. -/
def cliffRecorded (c phys eng syn : Nat) (ch : DramChan) (s : State) : State :=
  let s5 := (List.range 16).foldl (fun t j => t.setReg (DRC_CLIFF_CMD c j) (ch.hist.getD j 0)) s
  let s6 := (s5.setReg64 (DRC_CLIFF_PHYS_LO c) (DRC_CLIFF_PHYS_HI c) phys).setReg64
    (DRC_CLIFF_ENG_LO c) (DRC_CLIFF_ENG_HI c) eng
  let s7 := s6.setReg (DRC_CLIFF_SYN c) (BitVec.ofNat 32 (syn % 128 + phys / 4 % 16 * 256))
  let s8 := s7.setReg (DRC_CLIFF_QUEUES c) (BitVec.ofNat 32 (ch.rq.length + ch.wq.length * 2 ^ 16))
  s8.setReg (DRC_CLIFF_FRAME c) (BitVec.ofNat 32 (s8.rd CMP_STATUS ⟨0, 24⟩))

theorem freezeChannel_eq (s : State) (c cause phys eng syn : Nat) : freezeChannel s c cause phys eng syn =
    enterHold (cliffRecorded c phys eng syn (dramChan s c) (freezeMarked c cause s)) := rfl

theorem reg_cliffRecorded_of_below {c a : Nat} (phys eng syn : Nat) (ch : DramChan) (s : State)
    (h : a < 0x1C00040 + c * 0x4000) : (cliffRecorded c phys eng syn ch s).reg a = s.reg a := by
  have hcmds : ((List.range 16).foldl (fun t j => t.setReg (DRC_CLIFF_CMD c j) (ch.hist.getD j 0)) s).reg a = s.reg a :=
    foldl_keeps (fun t : State => t.reg a)
      (fun t j => State.reg_setReg_ne t _ (by unfold DRC_CLIFF_CMD; omega)) (List.range 16) s
  unfold cliffRecorded
  dsimp only [State.setReg64]
  rw [State.reg_setReg_ne _ _ (by unfold DRC_CLIFF_FRAME; omega), State.reg_setReg_ne _ _ (by unfold DRC_CLIFF_QUEUES; omega),
    State.reg_setReg_ne _ _ (by unfold DRC_CLIFF_SYN; omega), State.reg_setReg_ne _ _ (by unfold DRC_CLIFF_ENG_HI; omega),
    State.reg_setReg_ne _ _ (by unfold DRC_CLIFF_ENG_LO; omega), State.reg_setReg_ne _ _ (by unfold DRC_CLIFF_PHYS_HI; omega),
    State.reg_setReg_ne _ _ (by unfold DRC_CLIFF_PHYS_LO; omega), hcmds]

section
variable {c : Nat} (cause : Nat) (s : State)

theorem rd_frozen_freezeMarked (hc : c < 32) :
    (freezeMarked c cause s).rd (DRC_CH_FREEZE c) DRC_CH_FREEZE.FROZEN = 1 := by
  unfold freezeMarked
  dsimp only
  rw [State.rd_setFault_ne _ _ _ (by unfold DRC_CH_FREEZE DRC_CH_FAULT_STATUS; omega), State.setBit,
    State.rd_wr_ne _ _ _ _ (by unfold DRC_CH_FREEZE DRC_CH_IRQ_STATUS; omega),
    State.rd_wr_ne _ _ _ _ (by unfold DRC_CH_FREEZE DRC_CH_STATUS; omega), State.rd,
    State.reg_setReg_ne _ _ (by unfold DRC_CH_FREEZE DRC_FROZEN; omega), ← State.rd,
    State.rd_incSat_of_apart _ _ (by decide) (Or.inr (by decide)),
    State.rd_wr_of_apart _ _ _ (by decide) (Or.inr (by decide)), State.rd_wr_same _ _ _ _ (by decide)]
  rfl

theorem rd_state_freezeMarked :
    (freezeMarked c cause s).rd (DRC_CH_STATUS c) DRC_CH_STATUS.STATE = 4 := by
  unfold freezeMarked
  dsimp only
  rw [State.rd_setFault_ne _ _ _ (by unfold DRC_CH_STATUS DRC_CH_FAULT_STATUS; omega), State.setBit,
    State.rd_wr_ne _ _ _ _ (by unfold DRC_CH_STATUS DRC_CH_IRQ_STATUS; omega), State.rd_wr_same _ _ _ _ (by decide)]
  rfl

/-- Neither the cliff record nor the compositor's HOLD reaches a channel's STATUS and FREEZE registers. -/
theorem reg_freezeChannel_low (phys eng syn : Nat) {a : Nat} (hlo : 0x1C00000 + c * 0x4000 ≤ a)
    (hhi : a < 0x1C00008 + c * 0x4000) :
    (freezeChannel s c cause phys eng syn).reg a = (freezeMarked c cause s).reg a := by
  rw [freezeChannel_eq, reg_enterHold_ne _ (by unfold CMP_STATUS; omega) (by unfold CMP_IRQ_STATUS; omega) (by omega),
    reg_cliffRecorded_of_below _ _ _ _ _ (by omega)]

theorem flag_frozen_freezeChannel (phys eng syn : Nat) (hc : c < 32) :
    (freezeChannel s c cause phys eng syn).flag (DRC_CH_FREEZE c) DRC_CH_FREEZE.FROZEN = true := by
  have hrd := rd_frozen_freezeMarked cause s hc
  rw [State.rd] at hrd
  rw [State.flag, State.rd, reg_freezeChannel_low cause s phys eng syn (a := DRC_CH_FREEZE c)
    (by unfold DRC_CH_FREEZE; omega) (by unfold DRC_CH_FREEZE; omega), hrd]
  rfl

theorem rd_state_freezeChannel (phys eng syn : Nat) :
    (freezeChannel s c cause phys eng syn).rd (DRC_CH_STATUS c) DRC_CH_STATUS.STATE = 4 := by
  have hrd := rd_state_freezeMarked (c := c) cause s
  rw [State.rd] at hrd
  rw [State.rd, reg_freezeChannel_low cause s phys eng syn (a := DRC_CH_STATUS c)
    (by unfold DRC_CH_STATUS; omega) (by unfold DRC_CH_STATUS; omega), hrd]

end

theorem dramChan_with_held (s : State) (h : Tab Nat) (c : Nat) :
    dramChan { s with drc := { s.drc with held := h } } c = dramChan s c := rfl

/-- A request held stands at the head of its queue, with the channel's next number. -/
theorem dramChan_holdRequest (c : Nat) (r : DramReq) (s : State) : dramChan (holdRequest c r s) c =
    if r.isRead
    then { dramChan s c with rq := { r with seq := (dramChan s c).seq } :: (dramChan s c).rq, seq := (dramChan s c).seq + 1 }
    else { dramChan s c with wq := { r with seq := (dramChan s c).seq } :: (dramChan s c).wq, seq := (dramChan s c).seq + 1 } := by
  unfold holdRequest
  exact (dramChan_with_held _ _ _).trans (dramChan_setDramChan_same _ _ _)

theorem dramChan_freezeOn (c cause p syn : Nat) (r : DramReq) (s : State) (d : Nat) :
    dramChan (freezeOn c cause p syn r s) d = dramChan (holdRequest c r s) d := by
  rw [dramChan, freezeOn, freezeChannel_drc, ← dramChan]

theorem head_freezeOn (c cause p syn : Nat) (r : DramReq) (s : State) :
    (if r.isRead then (dramChan (freezeOn c cause p syn r s) c).rq else (dramChan (freezeOn c cause p syn r s) c).wq).head? =
      some { r with seq := (dramChan s c).seq } := by
  rw [dramChan_freezeOn, dramChan_holdRequest]
  cases r.isRead <;> rfl

theorem held_freezeOn (c cause p syn : Nat) (r : DramReq) (s : State) :
    tabGet (fun _ => 0) (freezeOn c cause p syn r s).drc.held c = (dramChan s c).seq + 1 := by
  rw [freezeOn, freezeChannel_drc]
  exact tabGet_tabSet_same _ _ _ _

section
variable {s : State} {c w a : Nat} {facts : FreezeFacts} (htrip : s.drc.trip = none) (hc : c < numChannels s.fuse.variant)
  (hon : chanOn s c = true) (hrun : chanFrozen s c = false) (hstate : s.rd (DRC_CH_STATUS c) DRC_CH_STATUS.STATE ≠ 0)
  (hwin : winFor s a = some w) (hchan : reqChan s (requestAt s facts.port w a facts.isRead 4 []) = c)
include htrip hc hon hrun hstate hwin hchan

/-- The request a check error at engine address `a` names. -/
def failedAt (s : State) (c w a : Nat) (facts : FreezeFacts) : DramReq :=
  failingReq (dramChan s c) (requestAt s facts.port w a facts.isRead 4 [])

/-- The channel without the queued request a check error names. -/
def failedTaken (s : State) (c w a : Nat) (facts : FreezeFacts) : State :=
  setDramChan c (if (failedAt s c w a facts).unit then dramChan s c else dropReq (failedAt s c w a facts).seq (dramChan s c)) s

theorem exec_freeze_of_command_path : exec (.freeze c true a facts) s = .next (freezeOn c 2 (physOf s w a / 4 * 4)
    facts.syndrome (failedAt s c w a facts) (failedTaken s c w a facts)).irqSync := by
  rw [exec_freeze, execFreeze]
  refine done_when ?_ ?_ ((freezeOn_trip ..).trans htrip)
  · rw [decide_eq_true hc, hon, hrun, chanState, bne_iff_ne.mpr hstate]
    rfl
  · simp only [hwin, hchan, ne_eq, not_true_eq_false, if_false, if_true]
    rfl

theorem exec_freeze_of_word (hprot : winProt s w = true) (hread : facts.isRead = true) :
    exec (.freeze c false a facts) s = .next (freezeOn c 1 (physOf s w a / 4 * 4) facts.syndrome (failedAt s c w a facts)
      { failedTaken s c w a facts with drc := { (failedTaken s c w a facts).drc with
          err := tabSet (fun _ => 0) (failedTaken s c w a facts).drc.err (physOf s w a / 4 * 4 / 4) 2 } }).irqSync := by
  rw [exec_freeze, execFreeze]
  refine done_when ?_ ?_ ((freezeOn_trip ..).trans htrip)
  · rw [decide_eq_true hc, hon, hrun, chanState, bne_iff_ne.mpr hstate]
    rfl
  · simp only [hwin, hchan, hprot, ne_eq, not_true_eq_false, Bool.not_true, Bool.false_or, Bool.false_eq_true, if_false]
    rw [if_neg (by rw [hread]; decide)]
    rfl

end

/-! ## Replacing a channel's queues (R452) -/

section
variable (c : Nat) (ch : DramChan) (s : State)

theorem reg_setDramChan_ne {a : Nat} (h : a ≠ DRC_CH_STATUS c) : (setDramChan c ch s).reg a = s.reg a :=
  (State.reg_wr_ne _ _ _ h).trans ((State.reg_wr_ne _ _ _ h).trans (State.reg_wr_ne (putDramChan c ch s) _ _ h))

theorem rd_state_setDramChan : (setDramChan c ch s).rd (DRC_CH_STATUS c) DRC_CH_STATUS.STATE =
    s.rd (DRC_CH_STATUS c) DRC_CH_STATUS.STATE := by
  unfold setDramChan
  rw [State.rd_wr_of_apart _ _ _ (by decide) (Or.inr (by decide)), State.rd_wr_of_apart _ _ _ (by decide) (Or.inr (by decide)),
    State.rd_wr_of_apart _ _ _ (by decide) (Or.inr (by decide))]
  rfl

end

/-! ## Releasing a frozen channel (R439) -/

/-- The channel as a release resumes it, before the request it held is handled. -/
def resumed (c cause : Nat) (s : State) : State :=
  let t1 := (s.wr (DRC_CH_FREEZE c) DRC_CH_FREEZE.FROZEN 0).wr (DRC_CH_STATUS c) DRC_CH_STATUS.STATE 1
  let t2 := t1.clrBit DRC_FROZEN c
  let t3 := if cause = 2 then t2.inc (DRC_CH_FREEZE c) DRC_CH_FREEZE.DISCARDED else t2
  setDramChan c { dramChan t3 c with answers := [] } t3

/-- The register of a resumed channel, before its queues' occupancies are shown. -/
theorem resumed_eq (c cause : Nat) (s : State) : ∃ t : State, resumed c cause s = setDramChan c { dramChan s c with answers := [] } t ∧
    t.drc = s.drc := by
  unfold resumed
  dsimp only
  split
  · exact ⟨_, rfl, rfl⟩
  · exact ⟨_, rfl, rfl⟩

section
variable {c : Nat} (cause : Nat) (s : State)

theorem rd_frozen_resumed (hc : c < 32) : (resumed c cause s).rd (DRC_CH_FREEZE c) DRC_CH_FREEZE.FROZEN = 0 := by
  have hmid : (((s.wr (DRC_CH_FREEZE c) DRC_CH_FREEZE.FROZEN 0).wr (DRC_CH_STATUS c) DRC_CH_STATUS.STATE 1).clrBit
      DRC_FROZEN c).rd (DRC_CH_FREEZE c) DRC_CH_FREEZE.FROZEN = 0 := by
    rw [State.clrBit, State.rd_wr_ne _ _ _ _ (by unfold DRC_CH_FREEZE DRC_FROZEN; omega),
      State.rd_wr_ne _ _ _ _ (by unfold DRC_CH_FREEZE DRC_CH_STATUS; omega), State.rd_wr_same _ _ _ _ (by decide)]
    rfl
  unfold resumed
  dsimp only
  rw [State.rd, reg_setDramChan_ne _ _ _ (by unfold DRC_CH_FREEZE DRC_CH_STATUS; omega), ← State.rd]
  split
  · rw [State.inc, State.rd_wr_of_apart _ _ _ (by decide) (Or.inr (by decide)), hmid]
  · exact hmid

theorem rd_discarded_resumed (hc : c < 32) (hcause : cause = 2) :
    (resumed c cause s).rd (DRC_CH_FREEZE c) DRC_CH_FREEZE.DISCARDED =
      (s.rd (DRC_CH_FREEZE c) DRC_CH_FREEZE.DISCARDED + 1) % 2 ^ DRC_CH_FREEZE.DISCARDED.w := by
  unfold resumed
  dsimp only
  rw [State.rd, reg_setDramChan_ne _ _ _ (by unfold DRC_CH_FREEZE DRC_CH_STATUS; omega), ← State.rd, if_pos hcause, State.inc,
    State.rd_wr_same _ _ _ _ (by decide), State.clrBit,
    State.rd_wr_ne _ _ _ _ (by unfold DRC_CH_FREEZE DRC_FROZEN; omega),
    State.rd_wr_ne _ _ _ _ (by unfold DRC_CH_FREEZE DRC_CH_STATUS; omega),
    State.rd_wr_of_apart _ _ _ (by decide) (Or.inl (by decide))]

theorem rd_state_resumed (hc : c < 32) : (resumed c cause s).rd (DRC_CH_STATUS c) DRC_CH_STATUS.STATE = 1 := by
  have hmid : (((s.wr (DRC_CH_FREEZE c) DRC_CH_FREEZE.FROZEN 0).wr (DRC_CH_STATUS c) DRC_CH_STATUS.STATE 1).clrBit
      DRC_FROZEN c).rd (DRC_CH_STATUS c) DRC_CH_STATUS.STATE = 1 := by
    rw [State.clrBit, State.rd_wr_ne _ _ _ _ (by unfold DRC_CH_STATUS DRC_FROZEN; omega),
      State.rd_wr_same _ _ _ _ (by decide)]
    rfl
  unfold resumed
  dsimp only
  rw [rd_state_setDramChan]
  split
  · rw [State.inc, State.rd_wr_ne _ _ _ _ (by unfold DRC_CH_FREEZE DRC_CH_STATUS; omega), hmid]
  · exact hmid

theorem bitAt_frozen_resumed (hc : c < 32) : bitAt c ((resumed c cause s).reg DRC_FROZEN) = false := by
  unfold resumed
  dsimp only
  rw [reg_setDramChan_ne _ _ _ (by unfold DRC_FROZEN DRC_CH_STATUS; omega)]
  split
  · rw [State.inc, State.reg_wr_ne _ _ _ (by unfold DRC_FROZEN DRC_CH_FREEZE; omega)]
    exact bitAt_clrBit_same _ _ hc
  · exact bitAt_clrBit_same _ _ hc

theorem resumed_frame : { resumed c cause s with
    regs := s.regs, drc := { (resumed c cause s).drc with chans := s.drc.chans } } = s := by
  unfold resumed
  dsimp only
  split <;> rfl

theorem dramChan_resumed : dramChan (resumed c cause s) c = { dramChan s c with answers := [] } := by
  obtain ⟨t, ht, -⟩ := resumed_eq c cause s
  rw [ht, dramChan_setDramChan_same]

end

/-- The answer a queued read that met an uncorrectable word gets. -/
def badAnswer (s : State) (r : DramReq) : DramAnswer :=
  ⟨r.port, r.burst, true, tabGetRange dramDefault s.drc.dram (reqPhys r) r.len⟩

/-- The access of a unit is handed back for its command to meet. -/
def handBack (cause : Nat) (r : DramReq) (s : State) : State :=
  { s with drc := { s.drc with returned := s.drc.returned ++ [⟨r.port, r.burst, r.isRead, cause⟩] } }

section
variable (cause : Nat) (r : DramReq) (s : State)

/- With `s` a variable: a channel's register addresses are never computed. -/

theorem reg_handBack (a : Nat) : (handBack cause r s).reg a = s.reg a := rfl
theorem rd_handBack (a : Nat) (f : Fld) : (handBack cause r s).rd a f = s.rd a f := rfl
theorem dramChan_handBack (c : Nat) : dramChan (handBack cause r s) c = dramChan s c := rfl
end

/-- The request a channel held, numbered `h`, is handled. -/
def heldHandled (c cause h : Nat) (r : DramReq) (s : State) : State :=
  let t := setDramChan c (dropReq h (dramChan s c)) s
  if r.unit then handBack cause r t
  else if cause = 1 then setDramChan c { dropReq h (dramChan s c) with answers := (dramChan s c).answers ++ [badAnswer s r] } t
  else t

theorem releaseHeld_of_found {s : State} {c cause h : Nat} {r : DramReq}
    (hfind : ((dramChan s c).rq ++ (dramChan s c).wq).find? (fun q => q.seq == h) = some r)
    (hread : cause = 1 → r.unit = true ∨ r.isRead = true) : releaseHeld c cause h s = heldHandled c cause h r s := by
  simp only [releaseHeld, hfind, heldHandled]
  cases hunit : r.unit with
  | true => rfl
  | false =>
    simp only [Bool.false_eq_true, if_false]
    split
    · next hcause =>
      have hr : r.isRead = true := (hread hcause).resolve_left (by rw [hunit]; exact Bool.false_ne_true)
      rw [if_pos hr, dramChan_setDramChan_same]
      rfl
    · rfl

section
variable (c cause h : Nat) (r : DramReq) (s : State)

theorem reg_heldHandled_ne {a : Nat} (ha : a ≠ DRC_CH_STATUS c) : (heldHandled c cause h r s).reg a = s.reg a := by
  have hdrop := reg_setDramChan_ne c (dropReq h (dramChan s c)) s ha
  unfold heldHandled
  dsimp only
  split
  · exact (reg_handBack _ _ _ a).trans hdrop
  · split
    · exact (reg_setDramChan_ne c _ _ ha).trans hdrop
    · exact hdrop

theorem rd_state_heldHandled : (heldHandled c cause h r s).rd (DRC_CH_STATUS c) DRC_CH_STATUS.STATE =
    s.rd (DRC_CH_STATUS c) DRC_CH_STATUS.STATE := by
  have hdrop := rd_state_setDramChan c (dropReq h (dramChan s c)) s
  unfold heldHandled
  dsimp only
  split
  · exact (rd_handBack _ _ _ _ _).trans hdrop
  · split
    · exact (rd_state_setDramChan c _ _).trans hdrop
    · exact hdrop

theorem dramChan_heldHandled : dramChan (heldHandled c cause h r s) c =
    { dropReq h (dramChan s c) with answers :=
        if r.unit = false ∧ cause = 1 then (dramChan s c).answers ++ [badAnswer s r] else (dramChan s c).answers } := by
  have hdrop := dramChan_setDramChan_same c (dropReq h (dramChan s c)) s
  unfold heldHandled
  cases r.unit with
  | true => exact (dramChan_handBack _ _ _ c).trans hdrop
  | false =>
    by_cases hcause : cause = 1
    · simp only [hcause, Bool.false_eq_true, if_false, if_true, and_self]
      exact dramChan_setDramChan_same _ _ _
    · simp only [hcause, Bool.false_eq_true, if_false, and_false]
      exact hdrop

theorem returned_heldHandled : (heldHandled c cause h r s).drc.returned =
    if r.unit then s.drc.returned ++ [⟨r.port, r.burst, r.isRead, cause⟩] else s.drc.returned := by
  unfold heldHandled
  cases r.unit with
  | true => rfl
  | false => by_cases hcause : cause = 1 <;> simp only [hcause, Bool.false_eq_true, if_false, if_true] <;> rfl

theorem dram_heldHandled : (heldHandled c cause h r s).drc.dram = s.drc.dram := by
  unfold heldHandled
  dsimp only
  split_ifs <;> rfl

theorem heldHandled_trip : (heldHandled c cause h r s).drc.trip = s.drc.trip := by
  unfold heldHandled
  dsimp only
  split_ifs <;> rfl

theorem heldHandled_frame : { heldHandled c cause h r s with regs := s.regs, drc := s.drc } = s := by
  unfold heldHandled
  dsimp only
  split_ifs <;> rfl

end

/-- A channel no longer holds a request. -/
def unheld (c : Nat) (s : State) : State := { s with drc := { s.drc with held := tabSet (fun _ => 0) s.drc.held c 0 } }

theorem reg_unheld (c : Nat) (s : State) (a : Nat) : (unheld c s).reg a = s.reg a := rfl
theorem rd_unheld (c : Nat) (s : State) (a : Nat) (f : Fld) : (unheld c s).rd a f = s.rd a f := rfl
theorem dramChan_unheld (c : Nat) (s : State) (d : Nat) : dramChan (unheld c s) d = dramChan s d := rfl

/-- What a release leaves of the channel that held request `r`, numbered `h`. -/
def released (c h : Nat) (r : DramReq) (s : State) : State :=
  let cause := s.rd (DRC_CH_FREEZE c) DRC_CH_FREEZE.CAUSE
  unheld c (heldHandled c cause h r (resumed c cause s))

section
variable (c h : Nat) (r : DramReq) (s : State)

/-- A release changes no register of a channel but STATUS beside what resuming it writes. -/
theorem reg_released_ne {a : Nat} (ha : a ≠ DRC_CH_STATUS c) :
    (released c h r s).reg a = (resumed c (s.rd (DRC_CH_FREEZE c) DRC_CH_FREEZE.CAUSE) s).reg a :=
  (reg_unheld c _ a).trans (reg_heldHandled_ne c _ h r _ ha)

theorem rd_freeze_released (f : Fld) : (released c h r s).rd (DRC_CH_FREEZE c) f =
    (resumed c (s.rd (DRC_CH_FREEZE c) DRC_CH_FREEZE.CAUSE) s).rd (DRC_CH_FREEZE c) f :=
  congrArg (fget f) (reg_released_ne c h r s (by unfold DRC_CH_FREEZE DRC_CH_STATUS; omega))

theorem rd_state_released (hc : c < 32) : (released c h r s).rd (DRC_CH_STATUS c) DRC_CH_STATUS.STATE = 1 :=
  (rd_unheld c _ _ _).trans ((rd_state_heldHandled c _ h r _).trans (rd_state_resumed _ s hc))

/-- Resuming a channel changes no byte of DRAM and hands nothing back. -/
theorem badAnswer_resumed (cause : Nat) : badAnswer (resumed c cause s) r = badAnswer s r := by
  have hdram := congrArg (fun t : State => badAnswer t r) (resumed_frame (c := c) cause s)
  exact hdram

theorem dramChan_released : dramChan (released c h r s) c = { dropReq h (dramChan s c) with
    answers := if r.unit = false ∧ s.rd (DRC_CH_FREEZE c) DRC_CH_FREEZE.CAUSE = 1 then [badAnswer s r] else [] } := by
  rw [released, dramChan_unheld, dramChan_heldHandled, dramChan_resumed, badAnswer_resumed]
  rfl

theorem returned_released : (released c h r s).drc.returned = if r.unit
    then s.drc.returned ++ [⟨r.port, r.burst, r.isRead, s.rd (DRC_CH_FREEZE c) DRC_CH_FREEZE.CAUSE⟩]
    else s.drc.returned := by
  have hresumed := congrArg (fun t : State => t.drc.returned) (resumed_frame (c := c)
    (s.rd (DRC_CH_FREEZE c) DRC_CH_FREEZE.CAUSE) s)
  refine (returned_heldHandled c _ h r _).trans ?_
  rw [hresumed]

theorem dram_released : (released c h r s).drc.dram = s.drc.dram := by
  have hresumed := congrArg (fun t : State => t.drc.dram) (resumed_frame (c := c)
    (s.rd (DRC_CH_FREEZE c) DRC_CH_FREEZE.CAUSE) s)
  exact (dram_heldHandled c _ h r _).trans hresumed

theorem released_frame : { released c h r s with regs := s.regs, drc := s.drc } = s := by
  have hheld := congrArg (fun t : State => { t with regs := s.regs, drc := s.drc })
    (heldHandled_frame c (s.rd (DRC_CH_FREEZE c) DRC_CH_FREEZE.CAUSE) h r
      (resumed c (s.rd (DRC_CH_FREEZE c) DRC_CH_FREEZE.CAUSE) s))
  have hresumed := congrArg (fun t : State => { t with regs := s.regs, drc := s.drc }) (resumed_frame (c := c)
    (s.rd (DRC_CH_FREEZE c) DRC_CH_FREEZE.CAUSE) s)
  exact hheld.trans hresumed

end

theorem exec_freezeRelease_of_held {s : State} {c h : Nat} {r : DramReq} {data : Word} (htrip : s.drc.trip = none)
    (hc : c < 32) (hon : chanOn s c = true) (hrelease : bitAt 16 data = true) (hfrozen : chanFrozen s c = true)
    (hheld : tabGet (fun _ => 0) s.drc.held c = h + 1)
    (hfind : ((dramChan s c).rq ++ (dramChan s c).wq).find? (fun q => q.seq == h) = some r)
    (hread : s.rd (DRC_CH_FREEZE c) DRC_CH_FREEZE.CAUSE = 1 → r.unit = true ∨ r.isRead = true) :
    exec (.freezeRelease c data) s = .next (released c h r s).irqSync := by
  have hfind' : ((dramChan (resumed c (s.rd (DRC_CH_FREEZE c) DRC_CH_FREEZE.CAUSE) s) c).rq ++
      (dramChan (resumed c (s.rd (DRC_CH_FREEZE c) DRC_CH_FREEZE.CAUSE) s) c).wq).find? (fun q => q.seq == h) = some r := by
    rw [dramChan_resumed]
    exact hfind
  have htrip' : (released c h r s).drc.trip = none := by
    refine (heldHandled_trip _ _ _ _ _).trans ?_
    have hresumed := congrArg (fun t : State => t.drc.trip) (resumed_frame (c := c)
      (s.rd (DRC_CH_FREEZE c) DRC_CH_FREEZE.CAUSE) s)
    exact hresumed.trans htrip
  rw [exec_freezeRelease, execFreezeRelease]
  refine done_when (by rw [hrelease, hon, hfrozen, decide_eq_true hc]; rfl) ?_ htrip'
  rw [released, ← releaseHeld_of_found hfind' hread]
  simp only [hheld, Nat.add_sub_cancel, if_neg (Nat.succ_ne_zero h)]
  rfl

end Sys2Proof.Machine
end

section
open Sys2Proof Sys2Proof.Machine

/-- Settles O25: a freeze's registers and held request, and `released` part by part. -/
theorem freezeAndRelease : Obligations.FreezeAndRelease := by
  unfold Obligations.FreezeAndRelease
  intro s c htrip hc hon
  refine ⟨?freeze, ?frozen, ?release, ?ecc⟩
  case freeze =>
    intro w a facts hchan hrun hstate hwin q p r u hreq
    exact ⟨exec_freeze_of_command_path htrip hchan hon hrun hstate hwin hreq,
      exec_freeze_of_word htrip hchan hon hrun hstate hwin hreq⟩
  case frozen =>
    intro cause p syn r t
    exact ⟨flag_frozen_freezeChannel _ _ _ _ _ hc, rd_state_freezeChannel _ _ _ _ _, head_freezeOn ..,
      held_freezeOn ..⟩
  case release =>
    intro data h r hrelease hfrozen hheld hfind cause hread
    refine ⟨_, exec_freezeRelease_of_held htrip hc hon hrelease hfrozen hheld hfind hread, ?_⟩
    have hchan : dramChan (released c h r s).irqSync c = dramChan (released c h r s) c := by
      rw [dramChan, State.irqSync_drc, ← dramChan]
    rw [hchan, dramChan_released, State.irqSync_drc]
    refine ⟨?_, ?_, ?_, fun hcause => ?_, rfl, rfl, rfl, returned_released c h r s, dram_released c h r s, ?_⟩
    · rw [State.rd_irqSync, rd_freeze_released, rd_frozen_resumed _ s hc]
    · rw [State.rd_irqSync, rd_state_released c h r s hc]
    · rw [State.reg_irqSync, reg_released_ne c h r s (by unfold DRC_FROZEN DRC_CH_STATUS; omega), bitAt_frozen_resumed _ s hc]
    · rw [State.rd_irqSync, rd_freeze_released, rd_discarded_resumed _ s hc hcause]
    · have hframe := congrArg (fun t : State => { t with icu := s.icu }) (released_frame c h r s)
      rw [State.irqSync_eq_icu]
      exact hframe
  case ecc =>
    intro data hlive
    rw [exec_eccWrite, execEccWrite]
    exact done_when (by rw [hlive, decide_eq_true hc]; rfl) rfl
      ((congrArg DrcSt.trip (State.hostWrite_drc s (DRC_CH_ECC c) data)).trans htrip)

end

section
/-!
PROOFS. The secure store and the life cycle (R446 to R451).
-/
namespace Sys2Proof.Machine

theorem exec_secLcArm (data : Word) (s : State) : exec (.secLcArm data) s = execSecLcArm data s := rfl
theorem exec_secLcGo (data : Word) (s : State) : exec (.secLcGo data) s = execSecLcGo data s := rfl
theorem exec_lcDone (s : State) : exec .lcDone s = execLcDone s := rfl
theorem exec_tamper (s : State) : exec .tamper s = execTamper s := rfl
theorem exec_tamperNRise (s : State) : exec .tamperNRise s = execTamperNRise s := rfl

/-- A host write changes no more than the registers. -/
theorem hostWrite_frame (s : State) (a : Nat) (data : Word) : { s.hostWrite a data with regs := s.regs } = s := by
  unfold State.hostWrite
  split
  · rfl
  · split <;> rfl

@[simp] theorem hostWrite_sec (s : State) (a : Nat) (data : Word) : (s.hostWrite a data).sec = s.sec := by
  have h := congrArg State.sec (hostWrite_frame s a data)
  exact h

@[simp] theorem hostWrite_fuse (s : State) (a : Nat) (data : Word) : (s.hostWrite a data).fuse = s.fuse := by
  have h := congrArg State.fuse (hostWrite_frame s a data)
  exact h

/-! ## The store and the tamper pin (R448, R449) -/

theorem rd_wipeSecure_ne (s : State) {a : Nat} (f : Fld) (hw : a ≠ SEC_WIPES) (hirq : a ≠ SEC_IRQ_STATUS) :
    (wipeSecure s).rd a f = s.rd a f :=
  (State.rd_wr_ne _ _ _ _ hirq).trans (State.rd_wr_ne { s with sec := { s.sec with mem := [], err := [] } } _ _ _ hw)

/-- TAMPER_N's falling edge recorded. -/
def tamperSeen (s : State) : State :=
  (({ s with pins := { s.pins with tamperN := false } } : State).inc SEC_TAMPER SEC_TAMPER.EVENTS).setBit SEC_TAMPER 1

/-- What a tamper event leaves. -/
def tampered (s : State) : State :=
  if s.domOn 12 then (wipeSecure (tamperSeen s)).setBit SEC_IRQ_STATUS 0 else tamperSeen s

section
variable (s : State)

theorem rd_events_tamperSeen : (tamperSeen s).rd SEC_TAMPER SEC_TAMPER.EVENTS =
    (s.rd SEC_TAMPER SEC_TAMPER.EVENTS + 1) % 2 ^ SEC_TAMPER.EVENTS.w :=
  (State.rd_wr_of_apart _ _ _ (by decide) (Or.inl (by decide))).trans (State.rd_wr_same _ _ _ _ (by decide))

theorem rd_events_tampered : (tampered s).rd SEC_TAMPER SEC_TAMPER.EVENTS =
    (s.rd SEC_TAMPER SEC_TAMPER.EVENTS + 1) % 2 ^ SEC_TAMPER.EVENTS.w := by
  unfold tampered
  split
  · rw [State.setBit, State.rd_wr_ne _ _ _ _ (by decide), rd_wipeSecure_ne _ _ (by decide) (by decide), rd_events_tamperSeen]
  · exact rd_events_tamperSeen s

theorem mem_tampered : (tampered s).sec.mem = if s.domOn 12 then [] else s.sec.mem := by
  unfold tampered
  split <;> rfl

theorem tamperN_tampered : (tampered s).pins.tamperN = false := by
  unfold tampered
  split <;> rfl

theorem tampered_frame : { tampered s with regs := s.regs, pins := s.pins, sec := s.sec } = s := by
  unfold tampered
  split <;> rfl

theorem tampered_drc : (tampered s).drc = s.drc := by
  have h := congrArg State.drc (tampered_frame s)
  exact h

variable {s}

theorem exec_tamper_of_high (htrip : s.drc.trip = none) (hpin : s.pins.tamperN = true) (hon : s.domOn 0 = true) :
    exec .tamper s = .next (tampered s).irqSync := by
  rw [exec_tamper, execTamper]
  exact done_when (by rw [hpin, hon]; rfl) rfl ((congrArg DrcSt.trip (tampered_drc s)).trans htrip)

end

/-! ## The life cycle (R450, R451) -/

/-- An authorised transition to `g` under way: the store is wiped. -/
def lcStarted (g : Nat) (s : State) : State :=
  { (wipeSecure s).wr SEC_LC_CTL SEC_LC_CTL.BUSY 1 with sec := { (wipeSecure s).sec with target := some g } }

/-- A transition that is not authorised. -/
def lcRefused (s : State) : State :=
  let t := (s.wr SEC_LC_CTL SEC_LC_CTL.RESULT 2).setBit SEC_IRQ_STATUS 2
  { t with sec := { t.sec with arm := none } }

/-- The end of a transition to `g`. -/
def lcEnded (g : Nat) (s : State) : State :=
  let t : State := { s with fuse := { s.fuse with lifeCycle := g, burnt := g }, sec := { s.sec with target := none } }
  ((t.wr SEC_LC_CTL SEC_LC_CTL.BUSY 0).wr SEC_LC_CTL SEC_LC_CTL.RESULT 1).setBit SEC_IRQ_STATUS 2

section
variable (g : Nat) (s : State)

theorem rd_busy_lcStarted : (lcStarted g s).rd SEC_LC_CTL SEC_LC_CTL.BUSY = 1 :=
  State.rd_wr_same (wipeSecure s) _ _ 1 (by decide)

theorem rd_result_lcRefused : (lcRefused s).rd SEC_LC_CTL SEC_LC_CTL.RESULT = 2 :=
  (State.rd_wr_ne _ _ _ _ (by decide)).trans (State.rd_wr_same s _ _ 2 (by decide))

theorem rd_busy_lcEnded : (lcEnded g s).rd SEC_LC_CTL SEC_LC_CTL.BUSY = 0 :=
  (State.rd_wr_ne _ _ _ _ (by decide)).trans
    ((State.rd_wr_of_apart _ _ _ (by decide) (Or.inr (by decide))).trans (State.rd_wr_same _ _ _ 0 (by decide)))

theorem rd_result_lcEnded : (lcEnded g s).rd SEC_LC_CTL SEC_LC_CTL.RESULT = 1 :=
  (State.rd_wr_ne _ _ _ _ (by decide)).trans (State.rd_wr_same _ _ _ 1 (by decide))

theorem mem_lcRefused : (lcRefused s).sec.mem = s.sec.mem := rfl

theorem lcStarted_frame : { lcStarted g s with regs := s.regs, sec := s.sec } = s := rfl
theorem lcRefused_frame : { lcRefused s with regs := s.regs, sec := s.sec } = s := rfl
variable {s}

theorem exec_lcDone_of_target (htrip : s.drc.trip = none) (htarget : s.sec.target = some g) :
    exec .lcDone s = .next (lcEnded g s).irqSync := by
  rw [exec_lcDone, execLcDone]
  exact done_of_eq (by rw [htarget]; rfl) (by exact htrip)

end

section
variable {s : State} {data : Word} (htrip : s.drc.trip = none) (hon : s.domOn 12 = true) (hgo : bitAt 2 data = true)
  (hnone : s.sec.target = none)
include htrip hon hgo hnone

theorem exec_secLcGo_of_authorised
    (hauth : lcAuthorised (s.hostWrite SEC_LC_CTL data) (bitsOf 1 0 data) = true) :
    exec (.secLcGo data) s = .next (lcStarted (bitsOf 1 0 data) (s.hostWrite SEC_LC_CTL data)).irqSync := by
  rw [exec_secLcGo, execSecLcGo]
  exact done_when (by rw [hgo, hon, hnone]; rfl) (if_pos hauth)
    ((congrArg DrcSt.trip (State.hostWrite_drc s SEC_LC_CTL data)).trans htrip)

theorem exec_secLcGo_of_refused
    (hauth : lcAuthorised (s.hostWrite SEC_LC_CTL data) (bitsOf 1 0 data) = false) :
    exec (.secLcGo data) s = .next (lcRefused (s.hostWrite SEC_LC_CTL data)).irqSync := by
  rw [exec_secLcGo, execSecLcGo]
  exact done_when (by rw [hgo, hon, hnone]; rfl) (if_neg (by rw [hauth]; exact Bool.false_ne_true))
    ((congrArg DrcSt.trip (State.hostWrite_drc s SEC_LC_CTL data)).trans htrip)

end

/-- A frame of a meaning that starts with a host write. -/
theorem frame_of_hostWrite {s t : State} {a : Nat} {data : Word}
    (h : { t with regs := (s.hostWrite a data).regs, sec := (s.hostWrite a data).sec } = s.hostWrite a data) :
    { t.irqSync with regs := s.regs, sec := s.sec, icu := s.icu } = s := by
  have hwrite := hostWrite_frame s a data
  have hsec := congrArg (fun u : State => { u with regs := s.regs, sec := s.sec, icu := s.icu }) h
  have hhost := congrArg (fun u : State => { u with regs := s.regs, sec := s.sec, icu := s.icu }) hwrite
  rw [State.irqSync_eq_icu]
  exact hsec.trans hhost

end Sys2Proof.Machine
end

section
open Sys2Proof Sys2Proof.Machine

/-- Settles O26: the state each command leaves, part by part. -/
theorem secureStoreAndLifeCycle : Obligations.SecureStoreAndLifeCycle := by
  unfold Obligations.SecureStoreAndLifeCycle
  intro s htrip
  refine ⟨?arm, ?go, ?lcDone, ?tamper, ?rise⟩
  case arm =>
    intro data hon
    rw [exec_secLcArm, execSecLcArm]
    exact done_when hon rfl (by exact htrip)
  case go =>
    intro data hon hgo hnone t
    refine ⟨fun hauth => ?_, fun hauth => ?_⟩
    · refine ⟨_, exec_secLcGo_of_authorised htrip hon hgo hnone hauth, ?_, ?_, ?_, ?_,
        frame_of_hostWrite (lcStarted_frame _ _)⟩
      · rw [State.irqSync_sec]; rfl
      · rw [State.irqSync_sec]; rfl
      · rw [State.rd_irqSync, rd_busy_lcStarted]
      · rw [State.irqSync_fuse]; exact hostWrite_fuse s _ _
    · refine ⟨_, exec_secLcGo_of_refused htrip hon hgo hnone hauth, ?_, ?_, ?_, frame_of_hostWrite (lcRefused_frame _)⟩
      · rw [State.irqSync_sec, mem_lcRefused, hostWrite_sec]
      · rw [State.irqSync_sec]; rfl
      · rw [State.rd_irqSync, rd_result_lcRefused]
  case lcDone =>
    intro g hg
    refine ⟨_, exec_lcDone_of_target g htrip hg, ?_, ?_, ?_, ?_, ?_, ?_, ?_⟩
    · rw [State.irqSync_fuse]; rfl
    · rw [State.irqSync_fuse]; rfl
    · rw [State.irqSync_sec]; rfl
    · rw [State.rd_irqSync, rd_busy_lcEnded]
    · rw [State.rd_irqSync, rd_result_lcEnded]
    · rw [State.irqSync_sec]; rfl
    · rw [State.irqSync_eq_icu]; rfl
  case tamper =>
    intro hpin hon
    refine ⟨_, exec_tamper_of_high htrip hpin hon, ?_, ?_, ?_, ?_⟩
    · rw [State.irqSync_pins, tamperN_tampered]
    · rw [State.rd_irqSync, rd_events_tampered]
    · rw [State.irqSync_sec, mem_tampered]
    · have hframe := congrArg (fun u : State => { u with icu := s.icu }) (tampered_frame s)
      rw [State.irqSync_eq_icu]
      exact hframe
  case rise =>
    rw [exec_tamperNRise, execTamperNRise]
    exact done_of_eq rfl (by exact htrip)

end

section
/-!
PROOFS. The interrupt controller: the checks of a decision with no access injected, the source a claim takes, and what a
claim leaves (R457 to R466, R478).
-/
namespace Sys2Proof.Machine

theorem exec_claim (k : Nat) (s : State) : exec (.claim k) s = execClaim k s := rfl

/-! ## Source words reset to zero -/

/-- The offsets a row of the table covers start at its base and end, at most, where its units do. -/
theorem regIndex_bounds {r : RegDesc} {a : Nat} {p : Nat × Nat} (hn2 : r.n2 ≤ 1) (hstride : 0 < r.stride ∨ r.n ≤ 1)
    (h : regIndex r a = some p) : r.base ≤ a ∧ a ≤ r.base + r.n * r.stride := by
  unfold regIndex at h
  by_cases hbase : a < r.base
  · rw [if_pos hbase] at h
    cases h
  · by_cases hn : r.n ≤ 1
    · simp only [if_neg hbase, if_pos hn2, if_pos hn] at h
      split at h
      · next hin =>
        simp only [Bool.and_eq_true, decide_eq_true_eq] at hin
        omega
      · cases h
    · have hpos : 0 < r.stride := hstride.resolve_right hn
      simp only [if_neg hbase, if_pos hn2, if_neg hn] at h
      split at h
      · next hin =>
        simp only [Bool.and_eq_true, decide_eq_true_eq] at hin
        obtain ⟨⟨-, hi⟩, -⟩ := hin
        rw [Nat.max_eq_left (by omega), Nat.div_lt_iff_lt_mul hpos] at hi
        omega
      · cases h

/-- A row that is found covers the offset. -/
theorem regFindIn_index {a : Nat} {r : RegDesc} {i j : Nat} : ∀ {rs : List RegDesc}, regFindIn rs a = some (r, i, j) →
    regIndex r a = some (i, j)
  | [], h => by cases h
  | x :: rs, h => by
    rw [regFindIn] at h
    split at h
    · next hx => cases h; exact hx
    · exact regFindIn_index h

theorem packFields_of_zero (v : Variant) (i : Nat) : ∀ fs : List FldDesc, fs.all (fun f => f.rst == .val 0) = true →
    packFields v i fs = 0
  | [], _ => rfl
  | f :: fs, h => by
    rw [List.all_cons, Bool.and_eq_true, beq_iff_eq] at h
    rw [packFields, h.1, packFields_of_zero v i fs h.2]
    simp only [resetOf, Nat.zero_mod, Nat.zero_mul]

/-- In the window of the interrupt controller every row resets to zero, ends below the source words or starts above
them. -/
theorem regRowsIcu_zero_or_apart : regRowsIcu.all (fun r => decide (r.n2 ≤ 1) && (decide (0 < r.stride) || decide (r.n ≤ 1)) &&
    (r.flds.all (fun f => f.rst == .val 0) || decide (r.base + r.n * r.stride < 0x201000) || decide (0x202000 ≤ r.base)))
      = true := by decide

theorem regReset_of_source {a : Nat} (v : Variant) (hlo : 0x201000 ≤ a) (hhi : a < 0x202000) : regReset v a = 0 := by
  have hrows : regRowsOf a = regRowsIcu := by
    unfold regRowsOf
    rw [if_neg (by omega), if_neg (by omega), if_pos (by omega)]
  cases hfind : regFind a with
  | none => rw [regReset, hfind]
  | some x =>
    obtain ⟨r, i, j⟩ := x
    have hfound := hfind
    rw [regFind, hrows] at hfound
    have hrow := List.all_eq_true.mp regRowsIcu_zero_or_apart r (regFindIn_mem _ hfound)
    simp only [Bool.and_eq_true, Bool.or_eq_true, decide_eq_true_eq] at hrow
    obtain ⟨⟨hn2, hstride⟩, (hzero | hbelow) | habove⟩ := hrow
    · simp only [regReset, hfind, packFields_of_zero v i r.flds hzero]
      rfl
    · obtain ⟨-, hle⟩ := regIndex_bounds hn2 hstride (regFindIn_index hfound)
      omega
    · obtain ⟨hge, -⟩ := regIndex_bounds hn2 hstride (regFindIn_index hfound)
      omega

/-- A source word's two readings agree. -/
theorem raw_source (s : State) {x : Nat} (hx : x < 1024) : s.raw (ICU_SRC_CFG x) = s.reg (ICU_SRC_CFG x) :=
  State.raw_eq_reg s _ (regReset_of_source _ (by unfold ICU_SRC_CFG; omega) (by unfold ICU_SRC_CFG; omega))

/-! ## Decisions with no access injected (R478, R541) -/

section
variable {s : State} (hidle : bitsOf 7 0 (s.raw ICU_FAULT_INJECT) = 0)
include hidle

theorem sramFault_of_idle : s.sramFault ICU_FAULT_STATUS 1 = (false, s) := by
  rw [State.sramFault, sramCheck_of_idle (fs := ICU_FAULT_STATUS) 1 _ hidle]

theorem sourceCheck_of_idle (x : Nat) : sourceCheck x s = (false, s) := by
  rw [sourceCheck, sramFault_of_idle hidle]

theorem contextCheck_of_idle (k : Nat) : contextCheck k s = s := by
  rw [contextCheck, sramFault_of_idle hidle]

theorem grantCheck_of_idle (k : Nat) : grantCheck k s = s := by
  unfold grantCheck
  rw [contextCheck_of_idle hidle]
  extract_lets t
  generalize bestSource t k = best
  cases best with
  | none => rfl
  | some x => exact congrArg Prod.snd (sourceCheck_of_idle hidle x)

end

/-! ## The source of highest priority (R462) -/

/-- PRIORITY of a source. -/
def srcPriority (s : State) (x : Nat) : Nat := bitsOf 3 0 (s.raw (ICU_SRC_CFG x))

/-- The better of two sources, the first standing on a tie. -/
def betterSource (s : State) (acc : Option Nat) (x : Nat) : Option Nat :=
  match acc with
  | none => some x
  | some b => if srcPriority s b < srcPriority s x then some x else some b

theorem bestSource_eq (s : State) (k : Nat) : bestSource s k = (eligibleSources s k).foldl (betterSource s) none := rfl

/-- Of ascending sources the best exceeds each in priority, or equals it and precedes it. -/
theorem foldl_betterSource (s : State) : ∀ (l : List Nat) (b : Nat), (b :: l).Pairwise (· < ·) →
    ∃ x ∈ b :: l, l.foldl (betterSource s) (some b) = some x ∧
      ∀ y ∈ b :: l, srcPriority s y < srcPriority s x ∨ srcPriority s y = srcPriority s x ∧ x ≤ y
  | [], b, _ => ⟨b, List.mem_cons_self, rfl, fun y hy => by
      rw [List.mem_singleton] at hy
      exact Or.inr ⟨by rw [hy], Nat.le_of_eq hy.symm⟩⟩
  | c :: l, b, hasc => by
    obtain ⟨hb, hcl⟩ := List.pairwise_cons.mp hasc
    have hbc : b < c := hb c List.mem_cons_self
    rw [List.foldl_cons]
    by_cases hlt : srcPriority s b < srcPriority s c
    · obtain ⟨x, hx, hfold, hbest⟩ := foldl_betterSource s l c hcl
      refine ⟨x, List.mem_cons_of_mem b hx, ?_, fun y hy => ?_⟩
      · rw [betterSource, if_pos hlt]
        exact hfold
      · rcases List.mem_cons.mp hy with rfl | hy
        · rcases hbest c List.mem_cons_self with h | ⟨h, -⟩ <;> left <;> omega
        · exact hbest y hy
    · have hskip : (b :: l).Pairwise (· < ·) :=
        List.pairwise_cons.mpr ⟨fun y hy => hb y (List.mem_cons_of_mem c hy), (List.pairwise_cons.mp hcl).2⟩
      obtain ⟨x, hx, hfold, hbest⟩ := foldl_betterSource s l b hskip
      refine ⟨x, ?_, ?_, fun y hy => ?_⟩
      · rcases List.mem_cons.mp hx with rfl | hx
        · exact List.mem_cons_self
        · exact List.mem_cons_of_mem b (List.mem_cons_of_mem c hx)
      · rw [betterSource, if_neg hlt]
        exact hfold
      · rcases List.mem_cons.mp hy with rfl | hy
        · exact hbest y List.mem_cons_self
        · rcases List.mem_cons.mp hy with rfl | hy
          · rcases hbest b List.mem_cons_self with h | ⟨h, hle⟩ <;> omega
          · exact hbest y (List.mem_cons_of_mem b hy)

theorem eligibleSources_ascending (s : State) (k : Nat) : (eligibleSources s k).Pairwise (· < ·) :=
  List.Pairwise.filter _ List.pairwise_lt_range

theorem bestSource_of_eligible {s : State} {k : Nat} (h : eligibleSources s k ≠ []) :
    ∃ x ∈ eligibleSources s k, bestSource s k = some x ∧ ∀ y ∈ eligibleSources s k,
      srcPriority s y < srcPriority s x ∨ srcPriority s y = srcPriority s x ∧ x ≤ y := by
  have hasc := eligibleSources_ascending s k
  obtain ⟨b, l, hl⟩ := List.exists_cons_of_ne_nil h
  rw [hl] at hasc
  obtain ⟨x, hx, hfold, hbest⟩ := foldl_betterSource s l b hasc
  rw [bestSource_eq, hl, List.foldl_cons]
  exact ⟨x, hx, hfold, hbest⟩

theorem bestSource_of_none {s : State} {k : Nat} (h : eligibleSources s k = []) : bestSource s k = none := by
  rw [bestSource_eq, h]
  rfl

/-- An eligible source has a word of its own, and is pending. -/
theorem of_mem_eligibleSources {s : State} {k x : Nat} (h : x ∈ eligibleSources s k) :
    x < 992 ∧ srcPending s x = true := by
  simp only [eligibleSources, eligible, List.mem_filter, List.mem_range, Bool.and_eq_true] at h
  exact ⟨h.1, h.2.2.1.1.1.1⟩

/-! ## A claim (R462) -/

/-- N of a context clears as a claim reads it. -/
def claimSeen (k : Nat) (s : State) : State := s.wr (ICU_CTX_CFG k) ICU_CTX_CFG.NOTIFIED 0

/-- Source `x` is taken in context `k`. -/
def claimTaken (k x : Nat) (s : State) : State :=
  let t := ((setPending x false s).wr (ICU_SRC_CFG x) ICU_SRC_CFG.ACTIVE 1).wr (ICU_SRC_CFG x) ICU_SRC_CFG.ACT_CTX k
  setLastRead (BitVec.ofNat 32 x) (t.inc (ICU_CTX_COUNT k) ICU_CTX_COUNT.CLAIMS)

/-- The answer of a claim with no source to take. -/
def claimEmpty (k : Nat) (notified : Bool) (s : State) : State :=
  if notified then setLastRead 1023 (s.inc (ICU_CTX_COUNT k) ICU_CTX_COUNT.SPURIOUS) else setLastRead 0 s

section
variable {s : State} {k : Nat} (hk : k < 64)
include hk

theorem reg_claimSeen_source (x : Nat) : (claimSeen k s).reg (ICU_SRC_CFG x) = s.reg (ICU_SRC_CFG x) :=
  State.reg_wr_ne s _ _ (by unfold ICU_SRC_CFG ICU_CTX_CFG; omega)

theorem raw_claimSeen_source {x : Nat} (hx : x < 992) : (claimSeen k s).raw (ICU_SRC_CFG x) = s.raw (ICU_SRC_CFG x) := by
  rw [raw_source _ (by omega), raw_source _ (by omega), reg_claimSeen_source hk]

omit hk in
theorem rd_threshold_claimSeen : (claimSeen k s).rd (ICU_CTX_CFG k) ICU_CTX_CFG.THRESHOLD =
    s.rd (ICU_CTX_CFG k) ICU_CTX_CFG.THRESHOLD :=
  State.rd_wr_of_apart s _ _ (by decide) (Or.inr (by decide))

/-- Clearing N makes no source eligible or not. -/
theorem eligibleSources_claimSeen : eligibleSources (claimSeen k s) k = eligibleSources s k := by
  refine List.filter_congr fun x hx => ?_
  rw [eligible, eligible, raw_claimSeen_source hk (List.mem_range.mp hx), rd_threshold_claimSeen]

theorem srcPriority_claimSeen {x : Nat} (hx : x < 992) : srcPriority (claimSeen k s) x = srcPriority s x := by
  rw [srcPriority, raw_claimSeen_source hk hx, ← srcPriority]

end

/-! ## Pending and active bits -/

theorem bitAt_eq_fget (i : Nat) (w : Word) : bitAt i w = decide (fget ⟨i, 1⟩ w = 1) := by
  rw [bitAt, Nat.testBit_eq_decide_div_mod_eq]
  rfl

theorem srcPending_eq (s : State) {x : Nat} (hx : x < 1024) :
    srcPending s x = decide (s.rd (ICU_SRC_CFG x) ICU_SRC_CFG.PENDING = 1) := by
  rw [srcPending, raw_source s hx, bitAt_eq_fget]
  rfl

theorem srcActive_eq (s : State) {x : Nat} (hx : x < 1024) :
    srcActive s x = decide (s.rd (ICU_SRC_CFG x) ICU_SRC_CFG.ACTIVE = 1) := by
  rw [srcActive, raw_source s hx, bitAt_eq_fget]
  rfl

theorem mirrorChange_frame (x : Nat) (v : Bool) (s : State) : { mirrorChange x v s with icu := s.icu } = s := by
  unfold mirrorChange
  split <;> rfl

@[simp] theorem reg_mirrorChange (x : Nat) (v : Bool) (s : State) (a : Nat) : (mirrorChange x v s).reg a = s.reg a := by
  have h := congrArg (fun t : State => t.reg a) (mirrorChange_frame x v s)
  exact h

theorem setPending_frame (x : Nat) (v : Bool) (s : State) :
    { setPending x v s with regs := s.regs, icu := s.icu } = s := by
  unfold setPending
  split
  · rfl
  · have h := congrArg (fun t : State => { t with regs := s.regs, icu := s.icu })
      (mirrorChange_frame x v (s.wr (ICU_SRC_CFG x) ICU_SRC_CFG.PENDING v.toNat))
    exact h

@[simp] theorem setPending_drc (x : Nat) (v : Bool) (s : State) : (setPending x v s).drc = s.drc := by
  have h := congrArg State.drc (setPending_frame x v s)
  exact h

theorem reg_setPending_ne {x a : Nat} (v : Bool) (s : State) (h : a ≠ ICU_SRC_CFG x) :
    (setPending x v s).reg a = s.reg a := by
  unfold setPending
  split
  · rfl
  · exact (reg_mirrorChange _ _ _ a).trans (State.reg_wr_ne s _ _ h)

theorem rd_pending_setPending {x : Nat} (s : State) (h : srcPending s x = true) :
    (setPending x false s).rd (ICU_SRC_CFG x) ICU_SRC_CFG.PENDING = 0 := by
  rw [setPending, if_neg (by rw [h]; decide), State.rd, reg_mirrorChange, ← State.rd, State.rd_wr_same _ _ _ _ (by decide)]
  rfl

/-! ## What a claim leaves -/

@[simp] theorem reg_setLastRead (w : Word) (s : State) (a : Nat) : (setLastRead w s).reg a = s.reg a := rfl
@[simp] theorem rd_setLastRead (w : Word) (s : State) (a : Nat) (f : Fld) : (setLastRead w s).rd a f = s.rd a f := rfl

section
variable {s : State} {k x : Nat}

theorem rd_claimTaken_of_source (f : Fld) (hk : k < 64) : (claimTaken k x s).rd (ICU_SRC_CFG x) f =
    (((setPending x false s).wr (ICU_SRC_CFG x) ICU_SRC_CFG.ACTIVE 1).wr (ICU_SRC_CFG x) ICU_SRC_CFG.ACT_CTX k).rd
      (ICU_SRC_CFG x) f := by
  rw [claimTaken, rd_setLastRead, State.inc, State.rd_wr_ne _ _ _ _ (by unfold ICU_SRC_CFG ICU_CTX_COUNT; omega)]

theorem srcPending_claimTaken (hk : k < 64) (hx : x < 992) (hpend : srcPending s x = true) :
    srcPending (claimTaken k x s) x = false := by
  rw [srcPending_eq _ (by omega), rd_claimTaken_of_source _ hk, State.rd_wr_of_apart _ _ _ (by decide) (Or.inr (by decide)),
    State.rd_wr_of_apart _ _ _ (by decide) (Or.inr (by decide)), rd_pending_setPending s hpend]
  rfl

theorem srcActive_claimTaken (hk : k < 64) (hx : x < 992) : srcActive (claimTaken k x s) x = true := by
  rw [srcActive_eq _ (by omega), rd_claimTaken_of_source _ hk, State.rd_wr_of_apart _ _ _ (by decide) (Or.inr (by decide)),
    State.rd_wr_same _ _ _ _ (by decide)]
  rfl

theorem rd_actCtx_claimTaken (hk : k < 64) : (claimTaken k x s).rd (ICU_SRC_CFG x) ICU_SRC_CFG.ACT_CTX = k := by
  rw [rd_claimTaken_of_source _ hk, State.rd_wr_same _ _ _ _ (by decide)]
  exact Nat.mod_eq_of_lt hk

theorem reg_claimTaken_ne {a : Nat} (hsrc : a ≠ ICU_SRC_CFG x) (hcount : a ≠ ICU_CTX_COUNT k) :
    (claimTaken k x s).reg a = s.reg a := by
  rw [claimTaken, reg_setLastRead, State.inc, State.reg_wr_ne _ _ _ hcount, State.reg_wr_ne _ _ _ hsrc,
    State.reg_wr_ne _ _ _ hsrc, reg_setPending_ne false s hsrc]

theorem rd_claims_claimTaken (hk : k < 64) : (claimTaken k x s).rd (ICU_CTX_COUNT k) ICU_CTX_COUNT.CLAIMS =
    (s.rd (ICU_CTX_COUNT k) ICU_CTX_COUNT.CLAIMS + 1) % 2 ^ 16 := by
  have hne : ICU_CTX_COUNT k ≠ ICU_SRC_CFG x := by unfold ICU_CTX_COUNT ICU_SRC_CFG; omega
  rw [claimTaken, rd_setLastRead, State.inc, State.rd_wr_same _ _ _ _ (by decide), State.rd_wr_ne _ _ _ _ hne,
    State.rd_wr_ne _ _ _ _ hne, State.rd, reg_setPending_ne false s hne, ← State.rd]

theorem claimTaken_frame :
    { claimTaken k x s with regs := s.regs, host := s.host, icu := s.icu } = s := by
  have h := congrArg (fun t : State => { t with host := s.host }) (setPending_frame x false s)
  exact h

theorem claimTaken_drc : (claimTaken k x s).drc = s.drc := setPending_drc x false s

theorem claimEmpty_frame (n : Bool) : { claimEmpty k n s with regs := s.regs, host := s.host } = s := by
  cases n <;> rfl

theorem claimEmpty_drc (n : Bool) : (claimEmpty k n s).drc = s.drc := by
  cases n <;> rfl

theorem lastRead_claimEmpty (n : Bool) : (claimEmpty k n s).host.lastRead = if n then 1023 else 0 := by
  cases n <;> rfl

theorem reg_claimEmpty_ne (n : Bool) {a : Nat} (hcount : a ≠ ICU_CTX_COUNT k) : (claimEmpty k n s).reg a = s.reg a := by
  cases n with
  | false => rfl
  | true => rw [claimEmpty, if_pos rfl, reg_setLastRead, State.inc, State.reg_wr_ne s _ _ hcount]

theorem rd_claimEmpty_of_notified (f : Fld) : (claimEmpty k true s).rd (ICU_CTX_COUNT k) f =
    (s.inc (ICU_CTX_COUNT k) ICU_CTX_COUNT.SPURIOUS).rd (ICU_CTX_COUNT k) f := by
  rw [claimEmpty, if_pos rfl, rd_setLastRead]

theorem reg_claimEmpty_of_clear (a : Nat) : (claimEmpty k false s).reg a = s.reg a := rfl

end

section
variable {s : State} {k : Nat} (htrip : s.drc.trip = none) (hk : k < 64) (hon : s.domOn 1 = true)
  (hidle : bitsOf 7 0 (s.raw ICU_FAULT_INJECT) = 0)
include htrip hk hon hidle

theorem exec_claim_of_best {x : Nat} (hbest : bestSource (claimSeen k s) k = some x) :
    exec (.claim k) s = .next (claimTaken k x (claimSeen k s)).irqSync := by
  rw [exec_claim, execClaim]
  refine done_when (by rw [hon, decide_eq_true hk]; rfl) ?_ ((congrArg DrcSt.trip claimTaken_drc).trans htrip)
  rw [grantCheck_of_idle hidle]
  extract_lets t1 n t2
  rw [show bestSource t2 k = some x from hbest]
  rfl

theorem exec_claim_of_none (hbest : bestSource (claimSeen k s) k = none) : exec (.claim k) s = .next
    (claimEmpty k (s.flag (ICU_CTX_CFG k) ICU_CTX_CFG.NOTIFIED) (claimSeen k s)).irqSync := by
  rw [exec_claim, execClaim]
  refine done_when (by rw [hon, decide_eq_true hk]; rfl) ?_ ((congrArg DrcSt.trip (claimEmpty_drc _)).trans htrip)
  rw [grantCheck_of_idle hidle]
  extract_lets t1 n t2
  rw [show bestSource t2 k = none from hbest]
  rfl

end

end Sys2Proof.Machine
end

section
open Sys2Proof Sys2Proof.Machine

/-- Settles O28: clearing N changes no choice, `bestSource_of_eligible` says what is chosen, and `claimTaken` and
`claimEmpty` what is left. -/
theorem claimTakesHighestPriority : Obligations.ClaimTakesHighestPriority := by
  unfold Obligations.ClaimTakesHighestPriority
  intro s k htrip hk hon hidle prio
  have hsame : eligibleSources (claimSeen k s) k = eligibleSources s k := eligibleSources_claimSeen hk
  have hnotified : ICU_CTX_CFG k ≠ ICU_CTX_COUNT k := by unfold ICU_CTX_CFG ICU_CTX_COUNT; omega
  refine ⟨fun hsome => ?_, fun hnone => ?_⟩
  · rw [← hsame] at hsome
    obtain ⟨x, hx, hbest, hmax⟩ := bestSource_of_eligible hsome
    obtain ⟨hx992, hpend⟩ := of_mem_eligibleSources hx
    rw [hsame] at hx hmax
    have hcfg : ICU_CTX_CFG k ≠ ICU_SRC_CFG x := by unfold ICU_CTX_CFG ICU_SRC_CFG; omega
    refine ⟨x, _, exec_claim_of_best htrip hk hon hidle hbest, hx, fun y hy => ?_, ?_, ?_, ?_, ?_, ?_, ?_,
      fun a hsrc hctx hcount => ?_, ?_⟩
    · have hy992 := (of_mem_eligibleSources hy).1
      have h := hmax y hy
      rwa [srcPriority_claimSeen hk hx992, srcPriority_claimSeen hk hy992] at h
    · rw [State.irqSync_host]
      rfl
    · rw [srcPending, State.raw_irqSync, ← srcPending, srcPending_claimTaken hk hx992 hpend]
    · rw [srcActive, State.raw_irqSync, ← srcActive, srcActive_claimTaken hk hx992]
    · rw [State.rd_irqSync, rd_actCtx_claimTaken hk]
    · rw [State.rd_irqSync, State.rd, reg_claimTaken_ne hcfg hnotified, ← State.rd, claimSeen,
        State.rd_wr_same _ _ _ _ (by decide)]
      rfl
    · rw [State.rd_irqSync, rd_claims_claimTaken hk, claimSeen, State.rd_wr_ne _ _ _ _ hnotified.symm]
    · rw [State.reg_irqSync, reg_claimTaken_ne hsrc hcount, claimSeen, State.reg_wr_ne _ _ _ hctx]
    · have h := congrArg (fun t : State => { t with regs := s.regs }) (claimTaken_frame (s := claimSeen k s) (k := k) (x := x))
      rw [State.irqSync_eq_icu]
      exact h
  · have hbest := bestSource_of_none (hsame.trans hnone)
    refine ⟨_, exec_claim_of_none htrip hk hon hidle hbest, ?_, ?_, fun hn => ⟨?_, ?_⟩, fun hn => ?_,
      fun a hctx hcount => ?_, ?_⟩
    · rw [State.irqSync_host, lastRead_claimEmpty]
    · rw [State.rd_irqSync, State.rd, reg_claimEmpty_ne _ hnotified, ← State.rd, claimSeen,
        State.rd_wr_same _ _ _ _ (by decide)]
      rfl
    · rw [State.rd_irqSync, hn, rd_claimEmpty_of_notified, State.inc, State.rd_wr_same _ _ _ _ (by decide), claimSeen,
        State.rd_wr_ne _ _ _ _ hnotified.symm]
    · rw [State.rd_irqSync, hn, rd_claimEmpty_of_notified, State.inc,
        State.rd_wr_of_apart _ _ _ (by decide) (Or.inr (by decide)), claimSeen, State.rd_wr_ne _ _ _ _ hnotified.symm]
    · rw [State.reg_irqSync, hn, reg_claimEmpty_of_clear, claimSeen, State.reg_wr_ne s _ _ hnotified.symm]
    · rw [State.reg_irqSync, reg_claimEmpty_ne _ hcount, claimSeen, State.reg_wr_ne _ _ _ hctx]
    · have h := congrArg (fun t : State => { t with regs := s.regs, icu := s.icu }) (claimEmpty_frame (s := claimSeen k s) (k := k)
        (s.flag (ICU_CTX_CFG k) ICU_CTX_CFG.NOTIFIED))
      rw [State.irqSync_eq_icu]
      exact h

end

section
/-!
PROOFS. The rest of the interrupt controller: messages, notifications, completions, configuration, the mirror, the wake set
and the FAULT_N pin (R458 to R475).
-/
namespace Sys2Proof.Machine

theorem exec_message (src : Nat) (s : State) : exec (.message src) s = execMessage src s := rfl
theorem exec_icuDoorbell (data : Word) (s : State) : exec (.icuDoorbell data) s = execIcuDoorbell data s := rfl
theorem exec_notification (k : Nat) (s : State) : exec (.notification k) s = execNotification k s := rfl
theorem exec_complete (k : Nat) (data : Word) (s : State) : exec (.complete k data) s = execComplete k data s := rfl
theorem exec_icuConfigWrite (a : Nat) (data : Word) (s : State) :
    exec (.icuConfigWrite a data) s = execIcuConfigWrite a data s := rfl
theorem exec_deliverEn (data : Word) (s : State) : exec (.deliverEn data) s = execDeliverEn data s := rfl
theorem exec_faultInject (a : Nat) (data : Word) (s : State) : exec (.faultInject a data) s = execFaultInject a data s := rfl
theorem exec_msixUnmask (v : Nat) (s : State) : exec (.msixUnmask v) s = execMsixUnmask v s := rfl
theorem exec_mirrorWrite (collided : Bool) (s : State) : exec (.mirrorWrite collided) s = execMirrorWrite collided s := rfl
theorem exec_wakeLatch (src : Nat) (s : State) : exec (.wakeLatch src) s = execWakeLatch src s := rfl
theorem exec_assert (data : Word) (s : State) : exec (.assert data) s = execAssert data s := rfl
theorem exec_faultPinRelease (data : Word) (s : State) : exec (.faultPinRelease data) s = execFaultPinRelease data s := rfl
theorem exec_pinEvent (s : State) : exec .pinEvent s = execPinEvent s := rfl
theorem exec_pulseEnd (s : State) : exec .pulseEnd s = execPulseEnd s := rfl

@[simp] theorem msixSend_drc (v : Nat) (s : State) : (msixSend v s).drc = s.drc := by
  unfold msixSend
  split <;> rfl

/-! ## Messages and doorbells (R458, R466) -/

theorem applyMessage_of_source {s : State} {src : Nat} (r : Bool) (hidle : bitsOf 7 0 (s.raw ICU_FAULT_INJECT) = 0)
    (hdead : deadSource src = false) (habsent : absentSource s.fuse.variant src = false)
    (hunused : unusedSource src = false) : applyMessage src r s = setPending src (!r) s := by
  simp only [applyMessage, hdead, habsent, hunused, sourceCheck_of_idle hidle, Bool.or_self, Bool.false_eq_true, if_false]

/-- Outside sleep a message goes to the interrupt controller. -/
theorem deliverMessage_of_awake {s : State} {src : Nat} (r : Bool) (hmode : s.pwr.mode ≠ .asleep)
    (hreq : s.pwr.sleepReq = false) (hon : s.domOn 1 = true) : deliverMessage src r s = applyMessage src r s := by
  simp only [deliverMessage, hmode, hreq, hon, Bool.false_eq_true, false_and, or_self, if_false, if_true]

section
variable {s : State} (htrip : s.drc.trip = none) (hon : s.domOn 1 = true)
  (hidle : bitsOf 7 0 (s.raw ICU_FAULT_INJECT) = 0)
include htrip hon hidle

theorem exec_message_of_next {src : Nat} {r : Bool} {rest : List (Nat × Bool)} (hmode : s.pwr.mode ≠ .asleep)
    (hreq : s.pwr.sleepReq = false) (hnext : nextMessage src s.icu.msgs = some (r, rest))
    (hdead : deadSource src = false) (habsent : absentSource s.fuse.variant src = false)
    (hunused : unusedSource src = false) : exec (.message src) s =
      .next (setPending src (!r) { s with icu := { s.icu with msgs := rest } }).irqSync := by
  have hon' : State.domOn { s with icu := { s.icu with msgs := rest } } 1 = true := hon
  rw [exec_message, execMessage]
  refine done_of_eq ?_ ((congrArg DrcSt.trip (setPending_drc _ _ _)).trans htrip)
  simp only [hnext, hon', if_true]
  rw [fabricCheck_of_idle (fs := ICU_FAULT_STATUS) 1 (by exact hidle)]
  exact (deliverMessage_of_awake (s := { s with icu := { s.icu with msgs := rest } }) r hmode hreq hon').trans
    (applyMessage_of_source (s := { s with icu := { s.icu with msgs := rest } }) r hidle hdead habsent hunused)

theorem exec_icuDoorbell_of_legal {data : Word} (hmode : s.pwr.mode ≠ .asleep) (hreq : s.pwr.sleepReq = false)
    (hlegal : bitsOf 30 10 data = 0) (hdead : deadSource (bitsOf 9 0 data) = false)
    (habsent : absentSource s.fuse.variant (bitsOf 9 0 data) = false) (hunused : unusedSource (bitsOf 9 0 data) = false) :
    exec (.icuDoorbell data) s = .next (setPending (bitsOf 9 0 data) (!bitAt 31 data) s).irqSync := by
  rw [exec_icuDoorbell, execIcuDoorbell]
  refine done_when hon ?_ ((congrArg DrcSt.trip (setPending_drc _ _ _)).trans htrip)
  rw [if_pos hlegal, deliverMessage_of_awake _ hmode hreq hon, applyMessage_of_source _ hidle hdead habsent hunused]

/-! ## Notifications and completions (R461, R463) -/

theorem exec_notification_of_notifiable {k : Nat} (hk : k < 64) (hlink : s.linkUp = true) (hnote : notifiable s k = true) :
    exec (.notification k) s = .next ((msixSend (s.rd (ICU_CTX_CFG k) ICU_CTX_CFG.VECTOR) s).wr (ICU_CTX_CFG k)
      ICU_CTX_CFG.NOTIFIED 1).irqSync := by
  rw [exec_notification, execNotification]
  refine done_when (by rw [decide_eq_true hk, hon, hlink]; rfl) ?_
    ((congrArg DrcSt.trip (msixSend_drc _ s)).trans htrip)
  rw [grantCheck_of_idle hidle, State.when, if_pos hnote]

omit htrip hon in
/-- The source word a completion reads is used as it is. -/
theorem completeCheck_of_idle (x : Nat) : (if deadSource x then s else (sourceCheck x s).2) = s := by
  rw [sourceCheck_of_idle hidle, ite_self]

theorem exec_complete_of_active {k : Nat} {data : Word} (hk : k < 64)
    (hactive : bitAt 25 (s.raw (ICU_SRC_CFG (bitsOf 9 0 data))) = true)
    (hctx : bitsOf 31 26 (s.raw (ICU_SRC_CFG (bitsOf 9 0 data))) = k) :
    exec (.complete k data) s = .next
      ((s.wr (ICU_SRC_CFG (bitsOf 9 0 data)) ICU_SRC_CFG.ACTIVE 0).resampleOne (bitsOf 9 0 data)).irqSync := by
  rw [exec_complete, execComplete]
  refine done_when (by rw [decide_eq_true hk, hon]; rfl) ?_ (by exact htrip)
  simp only [completeCheck_of_idle hidle, hactive, hctx, beq_self_eq_true, Bool.and_self, if_true]

theorem exec_complete_of_stray {k : Nat} {data : Word} (hk : k < 64)
    (hstray : bitAt 25 (s.raw (ICU_SRC_CFG (bitsOf 9 0 data))) = false ∨
      bitsOf 31 26 (s.raw (ICU_SRC_CFG (bitsOf 9 0 data))) ≠ k) :
    exec (.complete k data) s = .next (((s.inc ICU_STRAY_COMPLETE ICU_STRAY_COMPLETE.COUNT).setReg ICU_STRAY_LAST
      (BitVec.ofNat 32 (bitsOf 9 0 data + k * 2 ^ 16))).setBit ICU_IRQ_STATUS 1).irqSync := by
  have hno : (bitAt 25 (s.raw (ICU_SRC_CFG (bitsOf 9 0 data))) &&
      bitsOf 31 26 (s.raw (ICU_SRC_CFG (bitsOf 9 0 data))) == k) = false := by
    rw [Bool.and_eq_false_iff, beq_eq_false_iff_ne]
    exact hstray
  rw [exec_complete, execComplete]
  refine done_when (by rw [decide_eq_true hk, hon]; rfl) ?_ (by exact htrip)
  simp only [completeCheck_of_idle hidle, hno, Bool.false_eq_true, if_false]

end

/-! ## The mirror (R467) -/

theorem exec_mirrorWrite_of_oldest {s : State} {src : Nat} {v : Bool} {rest : List (Nat × Bool)} (htrip : s.drc.trip = none)
    (hon : s.domOn 1 = true) (hmirror : s.icu.mirror = (src, v) :: rest)
    (hen : s.flag ICU_GLOBAL ICU_GLOBAL.MIRROR_EN = true) :
    let t := spdPerform s (s.rd ICU_MIRROR ICU_MIRROR.ADDR * 32 + src / 32) (if v then .set else .clear)
      (BitVec.ofNat 32 (2 ^ (src % 32))) 15
    exec (.mirrorWrite false) s = .next ({ t with icu := { t.icu with mirror := rest, collide := 0 } } : State).irqSync := by
  intro t
  rw [exec_mirrorWrite, execMirrorWrite]
  refine done_when hon ?_ ((congrArg DrcSt.trip (spdPerform_drc s _ _ _ _)).trans htrip)
  simp only [hmirror, hen, Bool.not_true, Bool.false_eq_true, if_false]
  rfl

/-! ## The wake set (R469, R470) -/

/-- The entries of the wake set that name a source. -/
def wakeHits (src : Nat) (s : State) : List Nat :=
  (List.range 64).filter (fun j => bitAt 31 (s.raw (BW_WAKE_SRC j)) && bitsOf 9 0 (s.raw (BW_WAKE_SRC j)) == src)

theorem wakeEntries_of_idle {s : State} (src : Nat) (hidle : bitsOf 7 0 (s.raw BW_FAULT_INJECT) = 0) :
    wakeEntries src s = (wakeHits src s, s) := by
  simp only [wakeEntries, takeInjections_of_idle (fs := BW_FAULT_STATUS) _ 64 hidle]
  rfl

theorem wakeHits_ne_nil {src : Nat} {s : State} (h : s.wakeNamed src = true) : (wakeHits src s).isEmpty = false := by
  obtain ⟨j, hj, hhit⟩ := List.any_eq_true.mp h
  exact List.isEmpty_eq_false_iff.mpr (List.ne_nil_of_mem (List.mem_filter.mpr ⟨hj, hhit⟩))

/-- The latch register of a wake-set entry. -/
def latchReg (j : Nat) : Nat := if j < 32 then BW_WAKE_LATCH_LO else BW_WAKE_LATCH_HI

theorem bitAt_setBit (s : State) {a x b c : Nat} (hc : c < 32) :
    bitAt b ((s.setBit a c).reg x) = true ↔ (x = a ∧ b = c) ∨ bitAt b (s.reg x) = true := by
  by_cases hx : x = a
  · subst hx
    rw [State.setBit, State.wr, State.reg_setReg_same, bitAt, testBit_fput _ _ _ _ (show c + 1 ≤ 32 by omega)]
    by_cases hb : b = c
    · subst hb
      simp
    · rw [if_neg (show ¬ (c ≤ b ∧ b < c + 1) by omega)]
      simp only [hb, and_false, false_or, bitAt]
  · rw [State.setBit, State.reg_wr_ne _ _ _ hx]
    simp only [hx, false_and, false_or]

/-- Latching entries sets the bit of each. -/
theorem bitAt_latched (j : Nat) : ∀ (js : List Nat) (s : State),
    j ∈ js ∨ bitAt (j % 32) (s.reg (latchReg j)) = true →
      bitAt (j % 32) ((foldS (fun j u => u.setBit (latchReg j) (j % 32)) js s).reg (latchReg j)) = true
  | [], s, h => h.resolve_left List.not_mem_nil
  | i :: js, s, h => by
    rw [foldS_cons]
    refine bitAt_latched j js _ ?_
    rw [bitAt_setBit s (Nat.mod_lt i (by decide))]
    rcases h with h | h
    · rcases List.mem_cons.mp h with rfl | h
      · exact Or.inr (Or.inl ⟨rfl, rfl⟩)
      · exact Or.inl h
    · exact Or.inr (Or.inr h)

theorem latchReg_ne_cause (j : Nat) : latchReg j ≠ BW_WAKE_CAUSE := by
  unfold latchReg
  split <;> decide

section
variable (src : Nat) (js : List Nat) (s : State)

/-- The latches of a wake set, set in a state. -/
def latched : State := foldS (fun j u => u.setBit (latchReg j) (j % 32)) js { s with pwr := { s.pwr with wakeReq := true } }

theorem latched_pwr : (latched js s).pwr = { s.pwr with wakeReq := true } :=
  foldS_keeps State.pwr (fun j u => (rfl : (u.setBit (latchReg j) (j % 32)).pwr = u.pwr)) js _

theorem latched_drc : (latched js s).drc = s.drc :=
  foldS_keeps State.drc (fun j u => (rfl : (u.setBit (latchReg j) (j % 32)).drc = u.drc)) js _

theorem latchWake_eq : latchWake src js s = if (latched js s).pwr.causeSet then latched js s
    else { (latched js s).setReg BW_WAKE_CAUSE (BitVec.ofNat 32 (src + 2 ^ 16)) with
      pwr := { (latched js s).pwr with causeSet := true } } := rfl

theorem wakeReq_latchWake : (latchWake src js s).pwr.wakeReq = true := by
  rw [latchWake_eq]
  split <;> exact congrArg (fun p : PwrSt => p.wakeReq) (latched_pwr js s)

@[simp] theorem latchWake_drc : (latchWake src js s).drc = s.drc := by
  rw [latchWake_eq]
  split <;> exact latched_drc js s

theorem bitAt_latchWake {j : Nat} (hj : j ∈ js) : bitAt (j % 32) ((latchWake src js s).reg (latchReg j)) = true := by
  have hlatched : bitAt (j % 32) ((latched js s).reg (latchReg j)) = true := bitAt_latched j js _ (Or.inl hj)
  rw [latchWake_eq]
  split
  · exact hlatched
  · exact (congrArg (bitAt (j % 32)) (State.reg_setReg_ne (latched js s) _ (latchReg_ne_cause j))).trans hlatched

end

section
variable {s : State} {src : Nat} {rest : List (Nat × Bool)} (htrip : s.drc.trip = none) (hnamed : s.wakeNamed src = true)
  (hnext : nextMessage src s.icu.msgs = some (false, rest)) (hidle : bitsOf 7 0 (s.raw BW_FAULT_INJECT) = 0)
include htrip hnamed hnext hidle

theorem exec_wakeLatch_of_asleep (hmode : s.pwr.mode = .asleep) : exec (.wakeLatch src) s =
    .next (latchWake src (wakeHits src s) { s with icu := { s.icu with msgs := rest } }).irqSync := by
  rw [exec_wakeLatch, execWakeLatch]
  simp only [hnext]
  refine done_when (by rw [hmode]; rfl) ?_ ((congrArg DrcSt.trip (latchWake_drc _ _ _)).trans htrip)
  simp only [wakeEntries_of_idle src hidle, wakeHits_ne_nil hnamed, hmode, Bool.false_eq_true, if_false, if_true]

theorem exec_wakeLatch_of_entering (hmode : s.pwr.mode ≠ .asleep) (hreq : s.pwr.sleepReq = true) :
    exec (.wakeLatch src) s = .next (abandonSleep s).irqSync := by
  rw [exec_wakeLatch, execWakeLatch]
  simp only [hnext]
  refine done_when (by rw [hreq, Bool.or_true]) ?_ (by exact htrip)
  simp only [wakeEntries_of_idle src hidle, wakeHits_ne_nil hnamed, if_neg hmode, Bool.false_eq_true, if_false]

end

/-! ## FAULT_N (R474, R475) -/

/-- A pin event reaches TOP_FAULT_PIN: the pulse, the count and EVENT. -/
def pinPulsed (s : State) : State :=
  ((({ s with pinEvts := s.pinEvts - 1 } : State).wr TOP_FAULT_PIN TOP_FAULT_PIN.PULSING 1).inc TOP_FAULT_PIN
    TOP_FAULT_PIN.EVENTS).wr TOP_FAULT_PIN TOP_FAULT_PIN.EVENT 1

/-- What a pin event leaves: ASSERT sets under LATCH_EN. -/
def pinEventSeen (s : State) : State :=
  if (pinPulsed s).flag TOP_FAULT_PIN TOP_FAULT_PIN.LATCH_EN then (pinPulsed s).wr TOP_FAULT_PIN TOP_FAULT_PIN.ASSERT 1
  else pinPulsed s

section
variable (s : State)

theorem rd_pinEventSeen_of_apart {f : Fld} (hf : TOP_FAULT_PIN.ASSERT.apart f) :
    (pinEventSeen s).rd TOP_FAULT_PIN f = (pinPulsed s).rd TOP_FAULT_PIN f := by
  unfold pinEventSeen
  split
  · exact State.rd_wr_of_apart _ _ _ (by decide) hf
  · rfl

theorem rd_pulsing_pinPulsed : (pinPulsed s).rd TOP_FAULT_PIN TOP_FAULT_PIN.PULSING = 1 := by
  rw [pinPulsed, State.rd_wr_of_apart _ _ _ (by decide) (Or.inr (by decide)), State.inc,
    State.rd_wr_of_apart _ _ _ (by decide) (Or.inr (by decide)), State.rd_wr_same _ _ _ _ (by decide)]
  rfl

theorem rd_event_pinPulsed : (pinPulsed s).rd TOP_FAULT_PIN TOP_FAULT_PIN.EVENT = 1 := by
  rw [pinPulsed, State.rd_wr_same _ _ _ _ (by decide)]
  rfl

theorem rd_events_pinPulsed : (pinPulsed s).rd TOP_FAULT_PIN TOP_FAULT_PIN.EVENTS =
    (s.rd TOP_FAULT_PIN TOP_FAULT_PIN.EVENTS + 1) % 2 ^ TOP_FAULT_PIN.EVENTS.w := by
  rw [pinPulsed, State.rd_wr_of_apart _ _ _ (by decide) (Or.inl (by decide)), State.inc,
    State.rd_wr_same _ _ _ _ (by decide), State.rd_wr_of_apart _ _ _ (by decide) (Or.inl (by decide))]
  rfl

theorem rd_latchEn_pinPulsed : (pinPulsed s).rd TOP_FAULT_PIN TOP_FAULT_PIN.LATCH_EN =
    s.rd TOP_FAULT_PIN TOP_FAULT_PIN.LATCH_EN := by
  rw [pinPulsed, State.rd_wr_of_apart _ _ _ (by decide) (Or.inr (by decide)), State.inc,
    State.rd_wr_of_apart _ _ _ (by decide) (Or.inr (by decide)),
    State.rd_wr_of_apart _ _ _ (by decide) (Or.inr (by decide))]
  rfl

theorem assert_pinEventSeen (h : s.flag TOP_FAULT_PIN TOP_FAULT_PIN.LATCH_EN = true) :
    (pinEventSeen s).rd TOP_FAULT_PIN TOP_FAULT_PIN.ASSERT = 1 := by
  have hlatch : (pinPulsed s).flag TOP_FAULT_PIN TOP_FAULT_PIN.LATCH_EN = true := by
    rw [State.flag, rd_latchEn_pinPulsed]
    exact h
  rw [pinEventSeen, if_pos hlatch, State.rd_wr_same _ _ _ _ (by decide)]
  rfl

theorem pinEvts_pinEventSeen : (pinEventSeen s).pinEvts = s.pinEvts - 1 := by
  unfold pinEventSeen
  split <;> rfl

theorem pinEventSeen_drc : (pinEventSeen s).drc = s.drc := by
  unfold pinEventSeen
  split <;> rfl

variable {s}

theorem exec_pinEvent_of_waiting (htrip : s.drc.trip = none) (h : 0 < s.pinEvts) :
    exec .pinEvent s = .next (pinEventSeen s).irqSync := by
  rw [exec_pinEvent, execPinEvent]
  exact done_when (decide_eq_true h) rfl ((congrArg DrcSt.trip (pinEventSeen_drc s)).trans htrip)

theorem faultPinWrite_of_assert {data : Word} (hno : bitAt 1 data = false) :
    faultPinWrite data s = s.hostWrite TOP_FAULT_PIN data := by
  cases h : bitAt 0 data <;> simp only [faultPinWrite, h, hno]

theorem faultPinWrite_of_release {data : Word} (hrelease : bitAt 1 data = true) (hno : bitAt 0 data = false) :
    faultPinWrite data s = (s.hostWrite TOP_FAULT_PIN data).wr TOP_FAULT_PIN TOP_FAULT_PIN.ASSERT 0 := by
  simp only [faultPinWrite, hrelease, hno]

end

end Sys2Proof.Machine
end

section
open Sys2Proof Sys2Proof.Machine

/-- Settles O29: each command's branch, with the checks idle. -/
theorem interruptsAndFaultPin : Obligations.InterruptsAndFaultPin := by
  unfold Obligations.InterruptsAndFaultPin
  refine ⟨fun s htrip hon hidle => ⟨?message, ?doorbell, ?notification, ?complete⟩, fun s htrip => ?_⟩
  case message =>
    exact fun src r rest hmode hreq hnext hdead habsent hunused =>
      exec_message_of_next htrip hon hidle hmode hreq hnext hdead habsent hunused
  case doorbell =>
    exact fun data hmode hreq hlegal hdead habsent hunused =>
      exec_icuDoorbell_of_legal htrip hon hidle hmode hreq hlegal hdead habsent hunused
  case notification => exact fun k hk hlink hnote => exec_notification_of_notifiable htrip hon hidle hk hlink hnote
  case complete =>
    exact fun k data hk => ⟨exec_complete_of_active htrip hon hidle hk, exec_complete_of_stray htrip hon hidle hk⟩
  have hhost (a : Nat) (data : Word) : (s.hostWrite a data).drc.trip = none :=
    (congrArg DrcSt.trip (State.hostWrite_drc s a data)).trans htrip
  refine ⟨?config, ?deliver, ?inject, ?unmask, ?mirror, ?wake, ?assert, ?release, ?pinEvent, ?pulseEnd⟩
  case config =>
    intro a data ha
    rw [exec_icuConfigWrite, execIcuConfigWrite]
    exact done_when ha rfl (hhost a data)
  case deliver =>
    intro data
    rw [exec_deliverEn, execDeliverEn]
    exact done_of_eq rfl (hhost _ data)
  case inject =>
    intro a data ha
    rw [exec_faultInject, execFaultInject]
    exact done_when ha rfl (hhost a data)
  case unmask =>
    intro v hv hon t
    rw [exec_msixUnmask, execMsixUnmask]
    refine done_when (by rw [hon, decide_eq_true hv]; rfl) rfl ?_
    rw [apply_ite State.drc, msixSend_drc]
    split <;> exact htrip
  case mirror => exact fun src v rest hon hmirror hen => exec_mirrorWrite_of_oldest htrip hon hmirror hen
  case wake =>
    intro src rest hnamed hnext hidle
    refine ⟨fun hmode => ⟨_, exec_wakeLatch_of_asleep htrip hnamed hnext hidle hmode, ?_, fun j hj hen hsrc => ?_⟩,
      exec_wakeLatch_of_entering htrip hnamed hnext hidle⟩
    · rw [State.irqSync_pwr, wakeReq_latchWake]
    · rw [State.reg_irqSync]
      refine bitAt_latchWake src _ _ (List.mem_filter.mpr ⟨List.mem_range.mpr hj, ?_⟩)
      rw [hen, hsrc, beq_self_eq_true]
      rfl
  case assert =>
    intro data hset hno
    rw [exec_assert, execAssert]
    exact done_when hset (faultPinWrite_of_assert hno) (hhost _ data)
  case release =>
    intro data hset hno
    rw [exec_faultPinRelease, execFaultPinRelease]
    exact done_when hset (faultPinWrite_of_release hset hno) (hhost _ data)
  case pinEvent =>
    intro hwait
    refine ⟨_, exec_pinEvent_of_waiting htrip hwait, ?_, ?_, ?_, ?_, fun hlatch => ?_⟩
    · rw [State.irqSync_pinEvts, pinEvts_pinEventSeen]
    · rw [State.flag_irqSync, State.flag, rd_pinEventSeen_of_apart s (Or.inl (by decide)), rd_pulsing_pinPulsed]
      rfl
    · rw [State.flag_irqSync, State.flag, rd_pinEventSeen_of_apart s (Or.inl (by decide)), rd_event_pinPulsed]
      rfl
    · rw [State.rd_irqSync, rd_pinEventSeen_of_apart s (Or.inl (by decide)), rd_events_pinPulsed]
    · rw [State.flag_irqSync, State.flag, assert_pinEventSeen s hlatch]
      rfl
  case pulseEnd =>
    intro hpulse
    rw [exec_pulseEnd, execPulseEnd]
    exact done_when hpulse rfl (by exact htrip)

end

section
/-!
PROOFS. Power and the service functions: PWR_CMD, supplies and clocks, the service key, the sensors and the window test
(R480 to R512): what each leaves once its condition holds.
-/
namespace Sys2Proof.Machine

theorem exec_pwrCmdOn (data : Word) (s : State) : exec (.pwrCmdOn data) s = execPwrCmdOn data s := rfl
theorem exec_pwrCmdOff (data : Word) (s : State) : exec (.pwrCmdOff data) s = execPwrCmdOff data s := rfl
theorem exec_domainSwitchDone (s : State) : exec .domainSwitchDone s = execDomainSwitchDone s := rfl
theorem exec_powerFail (s : State) : exec .powerFail s = execPowerFail s := rfl
theorem exec_pwrfailNRise (s : State) : exec .pwrfailNRise s = execPwrfailNRise s := rfl
theorem exec_powerFailCommitDone (us : Nat) (s : State) :
    exec (.powerFailCommitDone us) s = execPowerFailCommitDone us s := rfl
theorem exec_shedRestart (s : State) : exec .shedRestart s = execShedRestart s := rfl
theorem exec_supplySwitchOver (s : State) : exec .supplySwitchOver s = execSupplySwitchOver s := rfl
theorem exec_supplySwitchBack (s : State) : exec .supplySwitchBack s = execSupplySwitchBack s := rfl
theorem exec_vaonMainLow (s : State) : exec .vaonMainLow s = execVaonMainLow s := rfl
theorem exec_pllLockLoss (s : State) : exec .pllLockLoss s = execPllLockLoss s := rfl
theorem exec_refclkStop (s : State) : exec .refclkStop s = execRefclkStop s := rfl
theorem exec_refclkReturn (s : State) : exec .refclkReturn s = execRefclkReturn s := rfl
theorem exec_svcKey (s : State) : exec .svcKey s = execSvcKey s := rfl
theorem exec_svcKeyRelease (s : State) : exec .svcKeyRelease s = execSvcKeyRelease s := rfl
theorem exec_identifyTimeout (s : State) : exec .identifyTimeout s = execIdentifyTimeout s := rfl
theorem exec_temperatureRead (ts : List Int) (s : State) : exec (.temperatureRead ts) s = execTemperatureRead ts s := rfl
theorem exec_pwrTempPeakClr (i : Nat) (data : Word) (s : State) :
    exec (.pwrTempPeakClr i data) s = execPwrTempPeakClr i data s := rfl
theorem exec_memtestGo (data : Word) (s : State) : exec (.memtestGo data) s = execMemtestGo data s := rfl
theorem exec_memtestDone (failAt : Option Nat) (s : State) : exec (.memtestDone failAt) s = execMemtestDone failAt s := rfl

/-! ## PWR_CMD (R488 to R491) -/

/-- A switch of domain `n` is decided: BUSY is 1. -/
def switchBegun (n : Nat) (up : Bool) (t : State) : State :=
  { t.wr PWR_CMD PWR_CMD.BUSY 1 with pwr := { t.pwr with cmd := some (n, up) } }

section
variable {s : State} {data : Word}

theorem pwrCmd_of_decided (htest : pwrTest s (bitsOf 5 0 data) (bitAt 8 data) (bitAt 8 data && bitAt 9 data) = none)
    (hidle : bitsOf 7 0 ((s.hostWrite PWR_CMD data).raw (PWR_FAULT_STATUS + 12)) = 0) :
    pwrCmd data s = if bitAt 8 data
      then switchBegun (bitsOf 5 0 data) (bitAt 8 data) (s.hostWrite PWR_CMD data)
      else domainDown (bitsOf 5 0 data) (switchBegun (bitsOf 5 0 data) (bitAt 8 data) (s.hostWrite PWR_CMD data)) := by
  have hword : pwrWord (s.hostWrite PWR_CMD data) = (true, s.hostWrite PWR_CMD data) := by
    rw [pwrWord, State.sramFault, sramCheck_of_idle 1 _ hidle]
    rfl
  simp only [pwrCmd, htest, hword]
  rfl

theorem pwrCmd_of_present (htest : pwrTest s (bitsOf 5 0 data) (bitAt 8 data) (bitAt 8 data && bitAt 9 data) = some 0) :
    pwrCmd data s = s.hostWrite PWR_CMD data := by
  simp only [pwrCmd, htest]

theorem pwrCmd_of_refused {c : Nat} (hc : c ≠ 0)
    (htest : pwrTest s (bitsOf 5 0 data) (bitAt 8 data) (bitAt 8 data && bitAt 9 data) = some c) :
    pwrCmd data s = pwrRefuse (bitsOf 5 0 data) c (s.hostWrite PWR_CMD data) := by
  cases c with
  | zero => exact absurd rfl hc
  | succ c => simp only [pwrCmd, htest]

variable {v : State} (hon : s.domOn 1 = true) (hv : pwrCmd data s = v) (htrip : v.drc.trip = none)
include hon hv htrip

theorem exec_pwrCmdOn_of (hup : bitAt 8 data = true) : exec (.pwrCmdOn data) s = .next v.irqSync := by
  rw [exec_pwrCmdOn, execPwrCmdOn]
  exact done_when (by rw [hup, hon]; rfl) hv htrip

theorem exec_pwrCmdOff_of (hoff : bitAt 9 data = true) : exec (.pwrCmdOff data) s = .next v.irqSync := by
  rw [exec_pwrCmdOff, execPwrCmdOff]
  exact done_when (by rw [hoff, hon]; rfl) hv htrip

end

theorem exec_domainSwitchDone_of_switch {s t : State} {n : Nat} {up : Bool} (hcmd : s.pwr.cmd = some (n, up))
    (ht : t = (if up
      then domainUp n { (s.wr PWR_CMD PWR_CMD.BUSY 0).setBit PWR_IRQ_STATUS 0 with pwr := { s.pwr with cmd := none } }
      else { (s.wr PWR_CMD PWR_CMD.BUSY 0).setBit PWR_IRQ_STATUS 0 with pwr := { s.pwr with cmd := none } }))
    (htrip : t.drc.trip = none) : exec .domainSwitchDone s = .next t.irqSync := by
  rw [exec_domainSwitchDone, execDomainSwitchDone]
  refine done_of_eq ?_ htrip
  simp only [hcmd]
  exact ht.symm

/-! ## Supplies and power fail (R480 to R485) -/

section
variable {s : State}

theorem canFail_of_runs (h : s.pwr.mode = .run ∨ s.pwr.mode = .asleep) : canFail s = true := by
  rw [canFail, Bool.or_eq_true, decide_eq_true_eq, decide_eq_true_eq]
  exact h

theorem exec_powerFail_of_runs {v : State} (hpin : s.pins.pwrfailN = true) (hruns : s.pwr.mode = .run ∨ s.pwr.mode = .asleep)
    (hv : v = powerFailRun .powerFail (({ s with pins := { s.pins with pwrfailN := false } } : State).setBit BW_IRQ_STATUS 5))
    (htrip : v.drc.trip = none) : exec .powerFail s = .next v.irqSync := by
  have hmode : s.pwr.mode ≠ .porst := by rcases hruns with h | h <;> rw [h] <;> decide
  rw [exec_powerFail, execPowerFail]
  exact done_when hpin ((if_neg hmode).trans ((if_pos (canFail_of_runs hruns)).trans hv.symm)) htrip

theorem exec_pwrfailNRise_of_low (hpin : s.pins.pwrfailN = false) (hmode : s.pwr.mode ≠ .porst)
    (htrip : s.drc.trip = none) : exec .pwrfailNRise s =
      .next (({ s with pins := { s.pins with pwrfailN := true } } : State).setBit BW_IRQ_STATUS 5).irqSync := by
  rw [exec_pwrfailNRise, execPwrfailNRise]
  exact done_when (by rw [hpin]; rfl) (if_neg hmode) (by exact htrip)

theorem exec_vaonMainLow_of_runs {v : State} (hlow : s.pwr.vaonLow = true) (hpin : s.pins.pwrfailN = true)
    (hruns : s.pwr.mode = .run ∨ s.pwr.mode = .asleep) (hv : v = powerFailRun .powerFail (s.setBit BW_IRQ_STATUS 5))
    (htrip : v.drc.trip = none) : exec .vaonMainLow s = .next v.irqSync := by
  rw [exec_vaonMainLow, execVaonMainLow]
  exact done_when (by rw [hlow, hpin, canFail_of_runs hruns]; rfl) hv.symm htrip

theorem exec_shedRestart_of_supplied {v : State} (hmode : s.pwr.mode = .shed) (hpin : s.pins.pwrfailN = true)
    (hbkp : s.flag PWR_SUPPLY PWR_SUPPLY.ON_BKP = false) (href : s.pwr.refStopped = false)
    (htemp : ∀ i, i < 16 → tempOf s i ≤ (s.rd PWR_TEMP_CFG PWR_TEMP_CFG.RESTART_C : Nat))
    (hgo : s.flag PWR_PF_CFG PWR_PF_CFG.AUTO_RESTART = true ∨ s.flag PWR_SVC PWR_SVC.PRESSED = true)
    (hv : v = (let t := restartCause (mainUp (s.wr CLK_STATUS CLK_STATUS.MAIN_LOCK 1))
      ctlUp { t with pwr := { t.pwr with mode := .run, tripHold := false } }))
    (htrip : v.drc.trip = none) : exec .shedRestart s = .next v.irqSync := by
  have hcool : (List.range 16).all (fun i => decide (tempOf s i ≤ (s.rd PWR_TEMP_CFG PWR_TEMP_CFG.RESTART_C : Nat))) = true :=
    List.all_eq_true.mpr fun i hi => decide_eq_true (htemp i (List.mem_range.mp hi))
  rw [exec_shedRestart, execShedRestart]
  exact done_when (by rw [hmode, hpin, hbkp, href, hcool, Bool.or_eq_true_iff.mpr hgo]; rfl) hv.symm htrip

theorem exec_supplySwitchOver_of_main {v : State} (hbkp : s.flag PWR_SUPPLY PWR_SUPPLY.ON_BKP = false)
    (hmode : s.pwr.mode ≠ .porst)
    (hv : v = (let t := (s.wr PWR_SUPPLY PWR_SUPPLY.ON_BKP 1).inc PWR_SUPPLY PWR_SUPPLY.SWITCHES
      let u := if t.domOn 1 then t.setBit PWR_IRQ_STATUS 5 else t
      { u with pwr := { u.pwr with vaonLow := true } }))
    (htrip : v.drc.trip = none) : exec .supplySwitchOver s = .next v.irqSync := by
  rw [exec_supplySwitchOver, execSupplySwitchOver]
  exact done_when (by rw [hbkp, decide_eq_true hmode]; rfl) hv.symm htrip

theorem exec_supplySwitchBack_of_backup (hbkp : s.flag PWR_SUPPLY PWR_SUPPLY.ON_BKP = true) (htrip : s.drc.trip = none) :
    exec .supplySwitchBack s = .next
      ({ s.wr PWR_SUPPLY PWR_SUPPLY.ON_BKP 0 with pwr := { s.pwr with vaonLow := false } } : State).irqSync := by
  rw [exec_supplySwitchBack, execSupplySwitchBack]
  exact done_when hbkp rfl (by exact htrip)

end

/-! ## The end of the commit (R286, R483) -/

theorem State.reg_with_pwr_ldg (s : State) (p : PwrSt) (l : LdgSt) (a : Nat) :
    ({ s with pwr := p, ldg := l } : State).reg a = s.reg a := rfl

theorem State.irqSync_reg (s : State) (a : Nat) : s.irqSync.reg a = s.reg a := by
  rw [State.irqSync_eq_icu]
  rfl

theorem State.irqSync_rd (s : State) (a : Nat) (f : Fld) : s.irqSync.rd a f = s.rd a f := by
  rw [State.irqSync_eq_icu]
  rfl

theorem State.irqSync_flag (s : State) (a : Nat) (f : Fld) : s.irqSync.flag a f = s.flag a f := by
  rw [State.irqSync_eq_icu]
  rfl

/-- LDG_PF as the end of a power-fail commit leaves it. -/
def pfShown (us : Nat) (s : State) : State :=
  ((s.wr LDG_PF LDG_PF.PF_TIME_US (min us 8191)).wr LDG_PF LDG_PF.PF_TIME_MS (min ((us + 999) / 1000) 65535)).wr LDG_PF
    LDG_PF.DONE 1

/-- The engine in SHED after its commit. -/
def pfShed (us : Nat) (s : State) : State :=
  { setLock false (pfShown us s) with pwr := { s.pwr with mode := .shed }, ldg := { s.ldg with pfail := false } }

section
variable (us : Nat) (s : State)

theorem reg_pfShed (a : Nat) : (pfShed us s).reg a = (setLock false (pfShown us s)).reg a := by
  rw [pfShed, State.reg_with_pwr_ldg]

theorem rd_pfShed (a : Nat) (f : Fld) : (pfShed us s).rd a f = (setLock false (pfShown us s)).rd a f := by
  rw [State.rd, reg_pfShed, ← State.rd]

theorem rd_pf_pfShed (f : Fld) : (pfShed us s).rd LDG_PF f = (pfShown us s).rd LDG_PF f := by
  rw [rd_pfShed, setLock, State.rd_wr_ne (pfShown us s) _ _ _ (by decide)]

theorem rd_done_pfShed : (pfShed us s).rd LDG_PF LDG_PF.DONE = 1 := by
  rw [rd_pf_pfShed, pfShown, State.rd_wr_same _ _ _ _ (by decide)]
  rfl

theorem rd_ms_pfShed : (pfShed us s).rd LDG_PF LDG_PF.PF_TIME_MS = min ((us + 999) / 1000) 65535 := by
  rw [rd_pf_pfShed, pfShown, State.rd_wr_of_apart _ _ _ (by decide) (Or.inl (by decide)),
    State.rd_wr_same _ _ _ _ (by decide)]
  exact Nat.mod_eq_of_lt (Nat.lt_succ_of_le (Nat.min_le_right _ _))

theorem rd_us_pfShed : (pfShed us s).rd LDG_PF LDG_PF.PF_TIME_US = min us 8191 := by
  rw [rd_pf_pfShed, pfShown, State.rd_wr_of_apart _ _ _ (by decide) (Or.inr (by decide)),
    State.rd_wr_of_apart _ _ _ (by decide) (Or.inr (by decide)), State.rd_wr_same _ _ _ _ (by decide)]
  exact Nat.mod_eq_of_lt (Nat.lt_succ_of_le (Nat.min_le_right _ _))

theorem rd_lock_pfShed : (pfShed us s).rd CLK_STATUS CLK_STATUS.MAIN_LOCK = 0 := by
  rw [rd_pfShed, setLock, State.rd_wr_same (pfShown us s) _ _ _ (by decide)]
  rfl

theorem reg_pfShed_ne {a : Nat} (hpf : a ≠ LDG_PF) (hclk : a ≠ CLK_STATUS) : (pfShed us s).reg a = s.reg a := by
  rw [reg_pfShed, setLock, State.reg_wr_ne _ _ _ hclk, pfShown, State.reg_wr_ne _ _ _ hpf, State.reg_wr_ne _ _ _ hpf,
    State.reg_wr_ne _ _ _ hpf]

variable {us s}

theorem exec_powerFailCommitDone_of_durable (htrip : s.drc.trip = none) (hmode : s.pwr.mode = .powerFail)
    (hbusy : emBusy s (fun c => c == 0) = false) (hdue : s.ldg.pfDue = false) (hpf : s.ldg.pfail = true) :
    exec (.powerFailCommitDone us) s = .next (pfShed us s).irqSync := by
  rw [exec_powerFailCommitDone, execPowerFailCommitDone]
  refine done_when (by rw [hmode, hbusy, hdue]; rfl) ?_ (by exact htrip)
  simp only [hpf, if_true]
  rfl

end

/-! ## Clocks (R494, R495) -/

@[simp] theorem loseMainLock_pwr (s : State) : (loseMainLock s).pwr = s.pwr := by
  unfold loseMainLock
  split <;> rfl

@[simp] theorem loseMainLock_ldg (s : State) : (loseMainLock s).ldg = s.ldg := by
  unfold loseMainLock
  split <;> rfl

/-- The store's commands are the ledger's. -/
theorem emBusy_of_ldg {s t : State} (h : t.ldg = s.ldg) (p : Nat → Bool) : emBusy t p = emBusy s p := by
  rw [emBusy, h, ← emBusy]

section
variable {s : State}

theorem exec_pllLockLoss_of_runs {t v : State} (hruns : s.pwr.mode = .run ∨ s.pwr.mode = .asleep) (hon : s.domOn 1 = true)
    (ht : t = dropWrites (fun _ => true)
      (shed (fun _ => false) (loseMainLock (if s.pwr.sleepReq then abandonSleep s else s))))
    (hv : v = { t with pwr := { t.pwr with mode := .shed, shed := .pll, wakeReq := false } })
    (htrip : v.drc.trip = none) : exec .pllLockLoss s = .next v.irqSync := by
  rw [ht] at hv
  rw [exec_pllLockLoss, execPllLockLoss]
  exact done_when (by rw [canFail_of_runs hruns, hon]; rfl) hv.symm htrip

theorem exec_refclkStop_of_idle {v : State} (href : s.pwr.refStopped = false) (hmode : s.pwr.mode = .run)
    (hbusy : emBusy s (fun c => decide (c ≤ 1)) = false)
    (hv : v = (let t := loseMainLock (s.wr CLK_STATUS CLK_STATUS.AON_OSC 1)
      { t with pwr := { t.pwr with refStopped := true } }))
    (htrip : v.drc.trip = none) : exec .refclkStop s = .next v.irqSync := by
  have hcut : emBusy (loseMainLock (s.wr CLK_STATUS CLK_STATUS.AON_OSC 1)) (fun c => decide (c ≤ 1)) = false :=
    (emBusy_of_ldg (loseMainLock_ldg (s.wr CLK_STATUS CLK_STATUS.AON_OSC 1)) _).trans hbusy
  have hrun : (loseMainLock (s.wr CLK_STATUS CLK_STATUS.AON_OSC 1)).pwr.mode ≠ .powerFail := by
    rw [loseMainLock_pwr, State.wr_pwr, hmode]
    decide
  rw [exec_refclkStop, execRefclkStop]
  refine done_when (by rw [href, hmode]; rfl) ?_ htrip
  simp only [hcut, if_neg hrun, Bool.false_eq_true, if_false]
  exact hv.symm

theorem exec_refclkReturn_of_stopped (href : s.pwr.refStopped = true) (htrip : s.drc.trip = none) :
    exec .refclkReturn s = .next
      ({ s.wr CLK_STATUS CLK_STATUS.AON_OSC 0 with pwr := { s.pwr with refStopped := false } } : State).irqSync := by
  rw [exec_refclkReturn, execRefclkReturn]
  exact done_when href rfl (by exact htrip)

end

/-! ## The service key (R504) -/

/-- A press of the key as Breakwater records it. -/
def keyPressed (s : State) : State :=
  ownWake 23 (((({ s with pins := { s.pins with svcKeyN := false } } : State).wr PWR_SVC PWR_SVC.PRESSED 1).inc PWR_SVC
    PWR_SVC.PRESSES).setBit BW_IRQ_STATUS 3)

section
variable {s : State}

theorem exec_svcKey_of_press {v : State} (hup : s.flag PWR_SVC PWR_SVC.PRESSED = false) (hmode : s.pwr.mode ≠ .porst)
    (hv : v = if (keyPressed s).domOn 1 then toggleIdentify (keyPressed s)
      else { keyPressed s with pwr := { (keyPressed s).pwr with identHeld := !(keyPressed s).pwr.identHeld } })
    (htrip : v.drc.trip = none) : exec .svcKey s = .next v.irqSync := by
  rw [exec_svcKey, execSvcKey]
  exact done_when (by rw [hup, Bool.not_false, Bool.or_true]) ((if_neg hmode).trans hv.symm) htrip

theorem exec_svcKeyRelease_of_low (hlow : s.pins.svcKeyN = false) (htrip : s.drc.trip = none) : exec .svcKeyRelease s =
    .next ({ s.wr PWR_SVC PWR_SVC.PRESSED 0 with pins := { s.pins with svcKeyN := true } } : State).irqSync := by
  rw [exec_svcKeyRelease, execSvcKeyRelease]
  exact done_when (by rw [hlow]; rfl) rfl (by exact htrip)

theorem exec_identifyTimeout_of_count (hcount : s.pwr.identCount = true) (hon : s.domOn 1 = true)
    (htrip : s.drc.trip = none) : exec .identifyTimeout s = .next ({ s.wr PLK_FRAME_CFG PLK_FRAME_CFG.IDENTIFY 0 with
      pwr := { s.pwr with identCount := false } } : State).irqSync := by
  rw [exec_identifyTimeout, execIdentifyTimeout]
  refine done_when hcount ?_ (by exact htrip)
  rw [if_pos hon]
  rfl

end

/-! ## The sensors (R508 to R510) -/

@[simp] theorem takeReading_pwr (i : Nat) (c : Int) (s : State) : (takeReading i c s).pwr = s.pwr := by
  unfold takeReading
  dsimp only
  split <;> rfl

@[simp] theorem setFault_pwr (s : State) (fs b : Nat) : (s.setFault fs b).pwr = s.pwr := by
  have h := congrArg State.pwr (setFault_frame s fs b)
  exact h

@[simp] theorem tempLevels_pwr (s : State) : (tempLevels s).pwr = s.pwr := by
  unfold tempLevels
  dsimp only
  split_ifs
  · rfl
  · exact setFault_pwr _ _ _
  · rfl
  · exact setFault_pwr _ _ _
  · rfl

/-- The readings of the sixteen sensors taken. -/
def readingsTaken (ts : List Int) (s : State) : State :=
  foldS (fun p x => takeReading p.1 p.2 x) ((List.range 16).zip ts) s

theorem readingsTaken_pwr (ts : List Int) (s : State) : (readingsTaken ts s).pwr = s.pwr :=
  foldS_keeps State.pwr (fun _ _ => takeReading_pwr _ _ _) _ s

/-- The sensors at or above 115 °C. -/
def hotSensors (s : State) : Nat :=
  (((List.range 16).filter (fun i => decide (115 ≤ tempOf s i))).map (fun i => 2 ^ i)).sum

/-- The readings' levels shown and their hot sensors kept for the next reading. -/
def levelsShown (s : State) : State := tempLevels { s with pwr := { s.pwr with hot := hotSensors s } }

theorem mode_levelsShown (ts : List Int) (s : State) : (levelsShown (readingsTaken ts s)).pwr.mode = s.pwr.mode := by
  rw [levelsShown, tempLevels_pwr, readingsTaken_pwr]

section
variable {s v : State} {ts : List Int} (hlen : ts.length = 16) (hmode : s.pwr.mode ≠ .porst)
include hlen hmode

theorem temperatureRead_taken : (ts.length == 16 && decide (s.pwr.mode ≠ .porst)) = true := by
  rw [hlen, decide_eq_true hmode]
  rfl

theorem exec_temperatureRead_of_cool (hcool : Nat.land (hotSensors (readingsTaken ts s)) s.pwr.hot = 0)
    (htrip : (levelsShown (readingsTaken ts s)).drc.trip = none) :
    exec (.temperatureRead ts) s = .next (levelsShown (readingsTaken ts s)).irqSync := by
  have hno : (Nat.land (hotSensors (readingsTaken ts s)) (readingsTaken ts s).pwr.hot != 0) = false := by
    rw [readingsTaken_pwr, hcool]
    rfl
  rw [exec_temperatureRead, execTemperatureRead]
  exact done_when (temperatureRead_taken hlen hmode) (if_neg (Bool.eq_false_iff.mp hno)) htrip

theorem exec_temperatureRead_of_trip (hhot : Nat.land (hotSensors (readingsTaken ts s)) s.pwr.hot ≠ 0) {x : State}
    (hx : x = if canFail s then powerFailRun .thermal ((levelsShown (readingsTaken ts s)).setBit TOP_RESET_CAUSE 3)
      else (levelsShown (readingsTaken ts s)).setBit TOP_RESET_CAUSE 3)
    (hv : v = { x with pwr := { x.pwr with tripHold := true } }) (htrip : v.drc.trip = none) :
    exec (.temperatureRead ts) s = .next v.irqSync := by
  have hyes : (Nat.land (hotSensors (readingsTaken ts s)) (readingsTaken ts s).pwr.hot != 0) = true := by
    rw [readingsTaken_pwr, bne_iff_ne]
    exact hhot
  have hfail : canFail ((levelsShown (readingsTaken ts s)).setBit TOP_RESET_CAUSE 3) = canFail s := by
    rw [canFail, State.setBit_pwr, mode_levelsShown, ← canFail]
  rw [← hfail] at hx
  rw [hx] at hv
  rw [exec_temperatureRead, execTemperatureRead]
  exact done_when (temperatureRead_taken hlen hmode) ((if_pos hyes).trans hv.symm) htrip

end

theorem exec_pwrTempPeakClr_of_set {s : State} {i : Nat} {data : Word} (hi : i < 16) (hset : bitAt 31 data = true)
    (hon : s.domOn 1 = true) (htrip : s.drc.trip = none) : exec (.pwrTempPeakClr i data) s =
      .next (s.wr (PWR_TEMP i) PWR_TEMP.PEAK (s.rd (PWR_TEMP i) PWR_TEMP.TEMP)).irqSync := by
  rw [exec_pwrTempPeakClr, execPwrTempPeakClr]
  exact done_when (by rw [hset, hon, decide_eq_true hi]; rfl) rfl (by exact htrip)

/-! ## The window test (R506) -/

/-- A window test's end with a result: the window holds zero. -/
def testEnded (r : Nat) (s : State) : State :=
  let w := s.rd TOP_MEMTEST_CTL TOP_MEMTEST_CTL.WINDOW
  ((zeroPhys (winPhys s w) (winPhysSize s w) (s.wr TOP_MEMTEST_CTL TOP_MEMTEST_CTL.BUSY 0)).setBit PWR_IRQ_STATUS 6).wr
    TOP_MEMTEST_CTL TOP_MEMTEST_CTL.RESULT r

section
variable {s : State}

theorem exec_memtestGo_of_idle {v : State} {data : Word} (hgo : bitAt 8 data = true) (hon : s.domOn 1 = true)
    (hidle : s.flag TOP_MEMTEST_CTL TOP_MEMTEST_CTL.BUSY = false)
    (hv : v = if memtestOk (s.hostWrite TOP_MEMTEST_CTL data) (bitsOf 5 0 data)
      then (s.hostWrite TOP_MEMTEST_CTL data).wr TOP_MEMTEST_CTL TOP_MEMTEST_CTL.BUSY 1
      else (s.hostWrite TOP_MEMTEST_CTL data).wr TOP_MEMTEST_CTL TOP_MEMTEST_CTL.RESULT 3)
    (htrip : v.drc.trip = none) : exec (.memtestGo data) s = .next v.irqSync := by
  rw [exec_memtestGo, execMemtestGo]
  exact done_when (by rw [hgo, hon, hidle]; rfl) hv.symm htrip

variable (hbusy : s.flag TOP_MEMTEST_CTL TOP_MEMTEST_CTL.BUSY = true) (htrip : s.drc.trip = none)
include hbusy htrip

theorem exec_memtestDone_of_pass : exec (.memtestDone none) s = .next (testEnded 1 s).irqSync := by
  rw [exec_memtestDone, execMemtestDone]
  exact done_when hbusy rfl (by exact htrip)

theorem exec_memtestDone_of_fail {p : Nat} (hlo : winPhys s (s.rd TOP_MEMTEST_CTL TOP_MEMTEST_CTL.WINDOW) ≤ p)
    (hhi : p < winPhys s (s.rd TOP_MEMTEST_CTL TOP_MEMTEST_CTL.WINDOW) +
      winPhysSize s (s.rd TOP_MEMTEST_CTL TOP_MEMTEST_CTL.WINDOW)) :
    exec (.memtestDone (some p)) s =
      .next ((testEnded 2 s).setReg64 TOP_MEMTEST_FAIL_LO TOP_MEMTEST_FAIL_HI (p / 4 * 4)).irqSync := by
  rw [exec_memtestDone, execMemtestDone]
  refine done_when hbusy ?_ (by exact htrip)
  simp only [decide_eq_true hlo, decide_eq_true hhi, Bool.and_self, State.when_true]
  rfl

end

end Sys2Proof.Machine
end

section
open Sys2Proof Sys2Proof.Machine

/-- Settles O56: a PWR_CMD does what the test of its condition answers, and the switch's end brings the domain on or off. -/
theorem domainsAreSwitched : Obligations.DomainsAreSwitched := by
  unfold Obligations.DomainsAreSwitched
  refine fun s => ⟨?cmd, ?ended⟩
  case cmd =>
    rintro data t hon rfl
    refine ⟨fun hup => ?on, fun hup hoff => ?off⟩
    case on =>
      refine ⟨fun htest hidle htrip => exec_pwrCmdOn_of hon ?_ htrip hup, fun htest htrip => exec_pwrCmdOn_of hon ?_ htrip hup,
        fun c hc htest htrip => exec_pwrCmdOn_of hon ?_ htrip hup⟩
      · rw [pwrCmd_of_decided (by rw [hup]; exact htest) hidle, hup]
        rfl
      · exact pwrCmd_of_present (by rw [hup]; exact htest)
      · exact pwrCmd_of_refused hc (by rw [hup]; exact htest)
    case off =>
      refine ⟨fun htest hidle htrip => exec_pwrCmdOff_of hon ?_ htrip hoff,
        fun htest htrip => exec_pwrCmdOff_of hon ?_ htrip hoff, fun c hc htest htrip => exec_pwrCmdOff_of hon ?_ htrip hoff⟩
      · rw [pwrCmd_of_decided (by rw [hup]; exact htest) hidle, hup]
        rfl
      · exact pwrCmd_of_present (by rw [hup]; exact htest)
      · exact pwrCmd_of_refused hc (by rw [hup]; exact htest)
  case ended =>
    rintro n up t hcmd rfl htrip
    exact exec_domainSwitchDone_of_switch hcmd rfl htrip

/-- Settles O57: each supply, pin and clock event under its condition. -/
theorem suppliesAndClocks : Obligations.SuppliesAndClocks := by
  unfold Obligations.SuppliesAndClocks
  refine fun s => ⟨?powerFail, ?rise, ?vaonLow, ?committed, ?restart, ?switchOver, ?switchBack, ?pll, ?refStop, ?refReturn⟩
  case powerFail => exact fun hpin hruns htrip => exec_powerFail_of_runs hpin hruns rfl htrip
  case rise => exact fun hpin hmode htrip => exec_pwrfailNRise_of_low hpin hmode htrip
  case vaonLow => exact fun hlow hpin hruns htrip => exec_vaonMainLow_of_runs hlow hpin hruns rfl htrip
  case committed =>
    intro us htrip hmode hbusy hdue hpf
    refine ⟨_, exec_powerFailCommitDone_of_durable htrip hmode hbusy hdue hpf, ?_, ?_, ?_, ?_, ?_, ?_, fun a hpfa hclk => ?_, ?_⟩
    · rw [State.irqSync_pwr]
      rfl
    · rw [State.irqSync_ldg]
      rfl
    · rw [State.irqSync_flag, State.flag, rd_done_pfShed]
      rfl
    · rw [State.irqSync_rd, rd_us_pfShed]
    · rw [State.irqSync_rd, rd_ms_pfShed]
    · rw [State.irqSync_flag, State.flag, rd_lock_pfShed]
      rfl
    · rw [State.irqSync_reg, reg_pfShed_ne us s hpfa hclk]
    · rw [State.irqSync_eq_icu]
      rfl
  case restart =>
    exact fun hmode hpin hbkp href htemp hgo htrip => exec_shedRestart_of_supplied hmode hpin hbkp href htemp hgo rfl htrip
  case switchOver => exact fun hbkp hmode htrip => exec_supplySwitchOver_of_main hbkp hmode rfl htrip
  case switchBack => exact fun hbkp htrip => exec_supplySwitchBack_of_backup hbkp htrip
  case pll => exact fun hruns hon htrip => exec_pllLockLoss_of_runs hruns hon rfl rfl htrip
  case refStop => exact fun href hmode hbusy htrip => exec_refclkStop_of_idle href hmode hbusy rfl htrip
  case refReturn => exact fun href htrip => exec_refclkReturn_of_stopped href htrip

/-- Settles O59: the key, the sensors and the window test under their conditions. -/
theorem serviceSensorsAndMemoryTest : Obligations.ServiceSensorsAndMemoryTest := by
  unfold Obligations.ServiceSensorsAndMemoryTest
  refine fun s => ⟨?press, ?release, ?timeout, ?reading, ?peak, ?go, ?tested⟩
  case press =>
    rintro hup hmode t rfl
    exact ⟨fun hon htrip => exec_svcKey_of_press hup hmode (if_pos hon).symm htrip,
      fun hoff htrip => exec_svcKey_of_press hup hmode (if_neg (Bool.eq_false_iff.mp hoff)).symm htrip⟩
  case release => exact fun hlow htrip => exec_svcKeyRelease_of_low hlow htrip
  case timeout => exact fun hcount hon htrip => exec_identifyTimeout_of_count hcount hon htrip
  case reading =>
    rintro ts t u hlen hmode rfl now rfl
    refine ⟨fun hcool htrip => exec_temperatureRead_of_cool hlen hmode hcool htrip, fun hhot hruns => ?runs,
      fun hhot hdown => ?down⟩
    case runs =>
      intro v htrip
      exact exec_temperatureRead_of_trip hlen hmode hhot (if_pos (canFail_of_runs hruns)).symm rfl htrip
    case down =>
      intro v htrip
      have hfail : ¬ canFail s = true := by
        rcases hdown with h | h <;> rw [canFail, h] <;> decide
      exact exec_temperatureRead_of_trip hlen hmode hhot (if_neg hfail).symm rfl htrip
  case peak => exact fun i data hi hset hon htrip => exec_pwrTempPeakClr_of_set hi hset hon htrip
  case go =>
    rintro data t hgo hon hidle rfl htrip
    exact exec_memtestGo_of_idle hgo hon hidle rfl htrip
  case tested =>
    exact fun hbusy => ⟨fun htrip => exec_memtestDone_of_pass hbusy htrip,
      fun p hlo hhi htrip => exec_memtestDone_of_fail hbusy htrip hlo hhi⟩

end

section
/-!
PROOFS. A domain that goes down (R490, R491): what its units hold is lost, no other domain is switched, and its registers
return to reset.
-/
namespace Sys2Proof.Machine

theorem tabGet_tabDrop {α : Type} (d : Nat → α) {p : Nat → Bool} {a : Nat} (hp : p a = true) (t : Tab α) :
    tabGet d (tabDrop p t) a = d a := by
  rw [tabDrop]
  induction t with
  | nil => rfl
  | cons e t ih =>
    obtain ⟨k, v⟩ := e
    by_cases hk : p k = true
    · rw [List.filter_cons_of_neg (by simpa using hk)]
      exact ih
    · rw [List.filter_cons_of_pos (by simpa using hk), tabGet, if_neg (fun h : a = k => hk (h ▸ hp))]
      exact ih

theorem testBit_without (doms n m : Nat) : (without doms n).testBit m = (doms.testBit m && !decide (n = m)) := by
  have h := testBit_sub_and m doms (2 ^ n)
  rw [Nat.testBit_two_pow] at h
  exact h

/-! ## No unit switches a domain or the variant -/

/-- What decides which domains and units there are. -/
def State.switches (s : State) : PwrSt × Variant := (s.pwr, s.fuse.variant)

theorem State.pwr_of_switches {s t : State} (h : t.switches = s.switches) : t.pwr = s.pwr := (Prod.mk.inj h).1
theorem State.variant_of_switches {s t : State} (h : t.switches = s.switches) : t.fuse.variant = s.fuse.variant :=
  (Prod.mk.inj h).2

theorem State.switches_of_outside {s t : State} (h : t.outside = s.outside) : t.switches = s.switches := by
  rw [State.switches, State.pwr_of_outside h, State.fuse_of_outside h, ← State.switches]

theorem pptPut_switches (e : Nat) (ws : List Word) (s : State) : (pptPut e ws s).switches = s.switches := by
  rw [pptPut]
  exact foldS_keeps State.switches (fun j t => by rfl) _ s

theorem returnRun_switches (base n : Nat) (s : State) : (returnRun base n s).switches = s.switches := by
  rw [returnRun, foldS_keeps State.switches (fun i t => pptPut_switches (base + i) [] t)]
  rfl

theorem clearGroup_switches (g : Nat) (s : State) : (clearGroup g s).switches = s.switches := rfl
theorem clearLayers_switches (n : Nat) (s : State) : (clearLayers n s).switches = s.switches := rfl
theorem clearLanes_switches (g : Nat) (s : State) : (clearLanes g s).switches = s.switches := rfl
theorem clearPort_switches (p : Nat) (s : State) : (clearPort p s).switches = s.switches := rfl

theorem clearSec_switches (s : State) : (clearSec s).switches = s.switches := by
  have hpwr : (clearSec s).pwr = s.pwr := by
    rw [clearSec]
    split <;> rfl
  rw [State.switches, hpwr, clearSec_variant, ← State.switches]

theorem clearSlice_switches (n : Nat) (s : State) : (clearSlice n s).switches = s.switches := by
  rw [clearSlice]
  split_ifs
  · rfl
  · exact State.switches_of_outside (setRole_outside n roOffline _)

theorem clearEncoder_switches (n : Nat) (s : State) : (clearEncoder n s).switches = s.switches := by
  rw [clearEncoder]
  exact foldS_keeps State.switches (fun k u => by rfl) _ (setEncJob n none s)

theorem clearClock_switches (s : State) (c : CmpSt) : (clearClock { s with cmp := c }).switches = s.switches := rfl

theorem clearBlend_switches (s : State) : (clearBlend s).switches = s.switches := by
  have htap : (if s.cmp.wb.run then returnRun (wbBase s) 4 s else s).switches = s.switches := by
    split_ifs
    · exact returnRun_switches (wbBase s) 4 s
    · rfl
  exact (clearClock_switches _ _).trans htap

theorem clearSdi_switches (s : State) : (clearSdi s).switches = s.switches := by
  refine foldS_keeps State.switches (fun n u => ?_) (List.range 8) s
  split_ifs
  · exact returnRun_switches (sdiBase u n) 4 u
  · rfl

theorem clearUnits_switches {n : Nat} (hlo : 4 ≤ n) (hlmp : n ≠ 32) (s : State) :
    (clearUnits n s).switches = s.switches := by
  rw [clearUnits, if_neg (by omega), if_neg (by omega), if_neg (by omega)]
  split_ifs
  · exact clearGroup_switches _ s
  · exact clearSec_switches s
  · rfl
  · exact clearSlice_switches _ s
  · exact clearEncoder_switches _ s
  · exact clearBlend_switches s
  · exact clearLayers_switches n s
  · exact clearLanes_switches _ s
  · exact clearPort_switches _ s
  · exact clearSdi_switches s

/-! ## The domain down -/

theorem reg_resetDomainRegs_of_found {a i j n : Nat} {r : RegDesc} (hfind : regFind a = some (r, i, j))
    (hdom : regDomain r.dom i = n) (s : State) : (s.resetDomainRegs n).reg a = regReset s.fuse.variant a := by
  rw [State.reg, State.resetDomainRegs_fuse, State.resetDomainRegs]
  dsimp only
  rw [tabGet_tabDrop]
  rw [hfind]
  exact beq_iff_eq.mpr hdom

section
variable {n : Nat} (hlo : 4 ≤ n) (hlmp : n ≠ 32) (s : State)
include hlo hlmp

theorem domOn_domainDown (m : Nat) : (domainDown n s).domOn m = (s.domOn m && !decide (n = m)) := by
  have hpwr : (clearUnits n s).pwr = s.pwr := State.pwr_of_switches (clearUnits_switches hlo hlmp s)
  rw [State.domOn, domainDown, clearRegs, if_neg hlmp, State.resetDomainRegs_pwr, testBit_without, hpwr, ← State.domOn]

theorem reg_domainDown_of_found {a i j : Nat} {r : RegDesc} (hfind : regFind a = some (r, i, j))
    (hdom : regDomain r.dom i = n) : (domainDown n s).reg a = regReset s.fuse.variant a := by
  have hvar : (clearUnits n s).fuse.variant = s.fuse.variant :=
    State.variant_of_switches (clearUnits_switches hlo hlmp s)
  rw [domainDown, clearRegs, if_neg hlmp, ← hvar]
  exact reg_resetDomainRegs_of_found hfind hdom (clearUnits n s)

end

theorem regLive_of_found {s : State} {a i j : Nat} {r : RegDesc} (hfind : regFind a = some (r, i, j)) :
    s.regLive a = (s.domOn (regDomain r.dom i) && !unitAbsent s.fuse.variant a i) := by
  rw [State.regLive, hfind]

end Sys2Proof.Machine
end

section
open Sys2Proof Sys2Proof.Machine

/-- Settles O60: the units of the domain touch no switch, its bit alone is taken, and the registers it holds are dropped. -/
theorem domainDownResetsItsRegisters : Obligations.DomainDownResetsItsRegisters := by
  unfold Obligations.DomainDownResetsItsRegisters
  intro s n hlo _ hlmp
  have hoff : (domainDown n s).domOn n = false := by
    rw [domOn_domainDown hlo hlmp, decide_eq_true rfl, Bool.not_true, Bool.and_false]
  refine ⟨hoff, fun m hm => ?_, fun a i j r hfind hdom => ⟨reg_domainDown_of_found hlo hlmp s hfind hdom, ?_⟩⟩
  · rw [domOn_domainDown hlo hlmp, decide_eq_false hm.symm, Bool.not_false, Bool.and_true]
  · rw [regLive_of_found hfind, hdom, hoff, Bool.false_and]

end
